-- ==== Sys2Proof/Word.lean ====
section
/-! DEFINITION. The words of the module and the identifiers of its numbered units (R6). -/
namespace Sys2Proof

abbrev Byte := BitVec 8

/-- Sparse data by number: the listed entries; an unlisted number has the value its owner names. -/
abbrev Map (α : Type) := List (Nat × α)

/-- Tile ID = y × 96 + x (R6). -/
abbrev TileId := Fin 6912
/-- Hardware context of a tile (R6, R112). -/
abbrev CtxId := Fin 8
/-- Region = field, fy × 8 + fx (R6). -/
abbrev RegionId := Fin 48
/-- Stack, stack controller and update engine (R6). -/
abbrev EngineId := Fin 32
/-- Link port P0–P5 (R6). -/
abbrev PortId := Fin 6
/-- Sub-port of a port (R6). -/
abbrev SubId := Fin 8
/-- Partition (R6). -/
abbrev PartId := Fin 16
/-- Logit relay (R213). -/
abbrev RelayId := Fin 16
/-- Parameter group, 0–11 declared (R191). -/
abbrev GroupId := Fin 12

end Sys2Proof
end

