-- ==== Sys2Proof/Syntax.lean ====
section
/-! DEFINITION. The commands of the block: one constructor per row of spec/opcode_table.json, with the operands
that the row's rule gives it, and the types of those operands. -/
namespace Sys2Proof

/-- The fields that R115 fixes in every instruction word beside class and opcode. -/
structure Hdr where
  unit   : BitVec 3 := 0     -- [53:51]
  sig    : Bool := false     -- [50]
  sigCtr : Fin 64 := 0       -- [49:44]
  rsvd   : BitVec 4 := 0     -- [43:40]
  deriving DecidableEq, Repr

/-- Orientation of a load or stream (R92). -/
inductive Orient where
  | a | b
  deriving DecidableEq, Repr

/-- Array role, in the order of its codes (R89). -/
inductive Role where
  | idle | forward | dataGrad | weightGrad
  deriving DecidableEq, Repr

/-- Conditions of VECTOR CMP (R432). -/
inductive CmpCond where
  | eq | ne | lt | le | gt | ge
  deriving DecidableEq, Repr

/-- Conditions of BR and SCMP (R441). -/
inductive BrCond where
  | eq | ne | lt | ge | ltu | geu
  deriving DecidableEq, Repr

/-- Source of BR (R441). -/
inductive BrSrc where
  | scalar (s : Fin 16)
  | waitResult
  deriving DecidableEq, Repr

/-- Second operand of BR, SCMP and SADD (R441): a scalar register or a sign-extended immediate. -/
inductive Opnd where
  | scalar (s : Fin 16)
  | imm (v : BitVec 16)
  deriving DecidableEq, Repr

/-- One destination of a NET PUT or MCAST (R443): landing buffer and slot of a tile, and the destination
counter where one is named (R127). -/
structure Dest where
  tile : TileId
  buf  : Fin 16
  slot : Fin 64
  ctr  : Option (Fin 64) := none
  deriving DecidableEq, Repr

/-- Tailrace header (R201). -/
structure TailHdr where
  stamp  : BitVec 32
  block  : BitVec 28
  group  : BitVec 4
  k      : BitVec 5
  poison : Bool
  fp16   : Bool              -- carry format: 0 A32, 1 FP16
  part   : BitVec 2 := 0
  contrib : BitVec 15
  deriving DecidableEq, Repr

/-- A whole tailrace block: header and the bit patterns of its elements in its carry format (R201). -/
structure TailBlock where
  hdr  : TailHdr
  grad : List (BitVec 32)
  deriving DecidableEq, Repr

/-- What the header slot of a tree packet or a stop frame tells of its way: source module and modules passed (R297). -/
structure Way where
  src  : BitVec 14 := 0
  hops : BitVec 8 := 0
  deriving DecidableEq, Repr

/-- The sub-port over which a packet of a tree comes, and its way. -/
structure LinkIn where
  port : PortId
  sub  : SubId
  way  : Way := {}
  deriving DecidableEq, Repr

/-- The module that a stop frame names as its origin (R318), and the way of the frame. -/
structure StopOrigin where
  module : BitVec 14
  way    : Way := {}
  deriving DecidableEq, Repr

/-- The link over which a part of a block comes to a port, and the plan entry that its packet names (R201, R297). -/
structure PartFrom where
  link : PortId × SubId
  plan : BitVec 16
  way  : Way := {}
  deriving DecidableEq, Repr

/-- Where a MOVE writes: its destination descriptor, and the unicast route to the tile or stack of a remote end (R117, R143). -/
structure MoveDst where
  desc  : BitVec 32
  route : Fin 512
  deriving DecidableEq, Repr

/-- A memory of the module (R165): tile SRAM, vault or stack. -/
inductive MemUnit where
  | sram (t : TileId)
  | vault (t : TileId)
  | stack (e : EngineId)
  deriving DecidableEq, Repr

/-- A byte symbol of a stored code word that the environment has changed before a read (R175):
the word's number, the symbol's position in the word and the bits flipped. -/
structure Upset where
  unit : MemUnit
  word : Nat
  pos  : Nat
  flip : Byte
  deriving DecidableEq, Repr

/-- The path of a transaction (R327): the EtherCAT mailbox, or a service packet from a module (R333). -/
inductive Path where
  | coe
  | inband (src : BitVec 14) (tag : BitVec 16) (port : PortId) (sub : SubId) (fromHost : Bool) (hops : BitVec 8 := 0)
  deriving DecidableEq, Repr

/-! The compiled binary, as the Skexo binary format gives it to the module (R112, R442; log entry 7). -/

/-- A landing buffer declared for a tile (R127). -/
structure Landing where
  buf   : Fin 16
  base  : Nat                -- SRAM byte address of slot 0
  slots : Nat                -- 1–64
  size  : Nat                -- bytes of one slot
  owner : CtxId
  deriving DecidableEq, Repr

/-- What the binary gives one tile of its placement (R16, R89, R112, R122, R127, R130). -/
structure TilePlan where
  tile     : TileId
  compute  : Bool            -- false: used only for routing
  vault    : Bool            -- compute uses its vault
  roles    : List Role := []                    -- arrays 0–2
  entries  : List (CtxId × Nat) := []           -- entry address of each context in use
  limits   : List (Fin 32 × Nat) := []          -- outstanding limits; 8 where none is given
  classU   : List (Fin 32) := []                -- queues of class U
  landing  : List Landing := []
  overBase : Nat := 0
  overSize : Nat := 0
  partner  : Option TileId := none              -- spill partner
  code     : List (BitVec 64) := []             -- instruction words
  deriving DecidableEq, Repr

/-- A stack window of a partition (R167). -/
structure Window where
  stack : EngineId
  base  : Nat
  size  : Nat
  write : Bool
  deriving DecidableEq, Repr

/-- A working-copy area (R193). -/
structure WcArea where
  stack      : EngineId
  owned      : Bool
  elemBase   : Nat
  scaleBase  : Nat
  elemBytes  : Nat           -- per block
  scaleBytes : Nat           -- per block
  fmt        : BitVec 32     -- working format word
  group      : GroupId
  first      : Nat
  count      : Nat
  stampBase  : Nat
  deriving DecidableEq, Repr

/-- Where a block's state record lies (R218). -/
inductive StateAddr where
  | stack (addr : Nat)
  | far (addr : BitVec 64)
  deriving DecidableEq, Repr

/-- What the route plan names for one parameter block (R442, R218, R204). -/
structure BlockPlan where
  group    : GroupId
  block    : Nat
  owner    : BitVec 14       -- owner module
  engine   : EngineId
  state    : StateAddr
  params   : Nat := 4096     -- fewer in the last block of a group (R218)
  contrib  : Nat             -- contributor count (R207)
  subs     : List (BitVec 14) := []                    -- subscriber modules (R198)
  copyOut  : List (PortId × SubId) := []               -- allgather tree toward subscribers
  inputs   : List (Option (PortId × SubId)) := []      -- reduction inputs in plan order; none: local gate
  output   : Option (PortId × SubId) := none           -- reduction output; none: local engine
  redPort  : PortId := 0                               -- port whose unit reduces it
  copyIn   : Option (PortId × SubId) := none           -- where the working copies of a remote block arrive (R198)
  copyOff  : Bool := false                             -- VC offset of its copies (R298)
  outOff   : Bool := false                             -- VC offset of its tailrace block on that output
  deriving DecidableEq, Repr

/-- A parameter group of a job and its initial values (R191, R226). -/
structure GroupPlan where
  group : GroupId
  rule  : Nat                -- codes of R224, 1–4
  blocks : Nat               -- B, job-wide
  eta   : BitVec 32
  beta1 : BitVec 32
  beta2 : BitVec 32
  eps   : BitVec 32
  lam   : BitVec 32
  hold  : Bool
  deriving DecidableEq, Repr

/-- The sluice and journal of one engine (R235, R244). -/
structure EnginePlan where
  engine  : EngineId
  sluice  : Nat
  size    : Nat
  journal : Nat
  deriving DecidableEq, Repr

/-- The training job of a binary: its route plan (R191, R442). -/
structure JobPlan where
  scaled   : Bool                                      -- loss-scaled (R254)
  modules  : Nat                                       -- the job's module count (R210)
  groups   : List GroupPlan
  blocks   : List BlockPlan
  areas    : List WcArea
  engines  : List EnginePlan
  contributes : Nat                                    -- tailrace blocks per step of this module (R208)
  subports : List (PortId × SubId)
  vUp      : Option (PortId × SubId) := none           -- verdict tree: toward the root; none: this is the root
  vDown    : List (PortId × SubId) := []               -- verdict tree: children, in plan order
  vOwn     : Nat := 0                                  -- place of the own contribution among the inputs
  vOff     : Bool := false                             -- VC offset of its verdict records (R298)
  gates    : List (EngineId × TileId) := []            -- gates used for a stack in place of its home gates (R18)
  deriving DecidableEq, Repr

/-- A request or response ring of a serving binary (R277, R279). -/
structure RingPlan where
  stack   : EngineId
  header  : Nat              -- byte address of the 64-byte header
  entries : Nat              -- byte address of entry 0
  payload : Nat              -- byte address of the payload area
  paySize : Nat
  tile    : TileId := 0      -- dispatch tile (request rings)
  ctr     : Fin 64 := 0      -- dispatch counter (request rings)
  port    : PortId := 0      -- serving port (response rings)
  deriving DecidableEq, Repr

/-- A relay export or import of a binary (R213). -/
structure RelayPlan where
  relay : RelayId
  other : PartId             -- student of an export, teacher of an import
  buf   : Fin 16 := 0        -- import: landing buffer of the student
  classU : Bool := false     -- import: class of that buffer
  route : Fin 512 := 0       -- import: route ID of the student
  deriving DecidableEq, Repr

/-- A compiled binary (R16, R442). -/
structure Binary where
  training : Bool := false                             -- layout (R90)
  tiles    : List TilePlan := []
  routes   : List (TileId × Fin 512 × BitVec 32) := [] -- route entries (R143)
  windows  : List Window := []
  job      : Option JobPlan := none
  exports  : List RelayPlan := []
  imports  : List RelayPlan := []
  reqRings : List RingPlan := []
  rspRings : List RingPlan := []
  ports    : List (PortId × SubId) := []               -- link sub-ports routed through
  ingress  : List (PortId × TileId × Fin 512) := []    -- route ID from a port's side to a tile
  roots    : List (Fin 512 × TileId) := []             -- perimeter tile at whose gate a route of an edge unit begins (R18)
  deriving DecidableEq, Repr

/-- The result of the two signature checks of R399. -/
structure Sigs where
  rsa : Bool
  slh : Bool
  deriving DecidableEq, Repr

/-- A firmware image as received (R395): its manifest version, its signature checks, and the SHA-384
measurements of its seven images in the order of R409. -/
structure Image where
  version  : BitVec 32
  sigs     : Sigs                                      -- of stage-1
  more     : List Sigs := []                           -- of SC0–SC3, the tile microcode and SX, where given
  slot     : Option (Fin 2) := none                    -- the slot named, in the recovery profile (R414)
  parts    : List (BitVec 32) := []                    -- versions of 0x1020:01–04
  measures : List Byte := []                           -- 7 × 48 bytes
  deriving DecidableEq, Repr

/-- A provisioning record (R402): what it sets and the result of its checks. -/
structure ProvRecord where
  rsaKey   : List Byte                                 -- the owner's public keys that travel in it (R400)
  slhKey   : List Byte
  sigs     : Sigs                                      -- the checks of R399 under them
  serial   : BitVec 32
  version  : BitVec 32
  hostSub  : BitVec 8                                  -- 0x3010:01
  traceSub : BitVec 8                                  -- 0x3010:02
  writePerm : BitVec 16                                -- 0x3020:01
  obsPerm  : BitVec 16                                 -- 0x3030:01
  unlock   : Bool                                      -- 0x3030:02
  floor    : BitVec 32                                 -- anti-rollback floor
  bytes    : List Byte := []                           -- the record as written
  deriving DecidableEq, Repr

/-- An enrolment record (R405), or the vendor retire record of its class. -/
structure EnrolRecord where
  retire  : Bool := false
  sigs    : Sigs
  serial  : BitVec 32
  digests : List Byte := []                            -- both owner key digests, 96 bytes
  deriving DecidableEq, Repr

/-- An owner token (R406), beside its kind, which the command names. -/
structure Token where
  rsaKey  : List Byte                                  -- 384 bytes, big-endian
  slhKey  : List Byte                                  -- 48 bytes
  sigs    : Sigs                                       -- the checks of R399 under these keys
  serial  : BitVec 32
  counter : BitVec 32
  deriving DecidableEq, Repr

/-- A far request that arrives over a link (R186, R187, R297). -/
structure FarReq where
  port : PortId
  sub  : SubId
  src  : BitVec 14
  fromHost : Bool
  addr : BitVec 64
  len  : Nat
  hops : BitVec 8 := 0
  job  : BitVec 32 := 0
  layer : Bool := false
  deriving DecidableEq, Repr

/-- A ring request frame (R277). -/
structure RingReq where
  port   : PortId
  sub    : SubId
  part   : PartId
  ring   : Nat
  reply  : Nat
  id     : BitVec 64
  sender : BitVec 14
  fromHost : Bool
  payload : List Byte
  hops : BitVec 8 := 0
  deriving DecidableEq, Repr

/-- A working-copy allgather frame (R198). -/
structure CopyFrame where
  group  : GroupId
  block  : Nat
  stamp  : BitVec 32
  elems  : List Byte
  scales : List Byte
  layer  : Bool := false                               -- layer on which it arrived (R298)
  way    : Way := {}
  deriving DecidableEq, Repr

/-- Verdict record (R209). -/
structure Verdict where
  stamp   : BitVec 32
  flags   : BitVec 16
  modules : BitVec 16
  skipped : BitVec 32
  held    : BitVec 32
  sums    : List (BitVec 32)                           -- 12 A32 values
  deriving DecidableEq, Repr

/-- A verdict record with the way of its packet. -/
structure VerdictPkt where
  v   : Verdict
  way : Way := {}
  deriving DecidableEq, Repr

/-- Header slot of a link packet (R297), without its transfer fields. -/
structure PktHdr where
  vc    : Fin 6
  layer : Bool
  ty    : BitVec 4
  slots : Nat
  dst   : BitVec 14
  src   : BitVec 14
  job   : BitVec 32
  plan  : BitVec 16 := 0xFFFF
  poison : Bool := false
  fromHost : Bool := false
  toHost : Bool := false
  hops  : BitVec 8 := 0
  deriving DecidableEq, Repr

/-- What the KP4 decoders report of the code words that brought a frame: symbols corrected, and code words that they could
not correct (R291, R322). -/
structure Kp4 where
  fixed : Nat := 0
  bad   : Nat := 0
  deriving DecidableEq, Repr

/-- The CRC with which a frame of slots comes (R293), and what the KP4 decoders report of it. -/
structure FrameCheck where
  crc : BitVec 32
  kp4 : Kp4 := {}
  deriving DecidableEq, Repr

/-- Control frame content (R295). -/
structure CtlFrame where
  ty     : Nat                                         -- 0 scheduled, 1 idle, 2 replay request, 3 training
  ack    : Nat                                         -- next sequence number expected by the peer, cumulative
  credits : List Nat := []                             -- cumulative credits of the 11 link channels
  peer   : BitVec 14
  port   : PortId := 0                                 -- the sender's port and sub-port
  sub    : SubId := 0
  digest : Option (List Byte) := none
  deriving DecidableEq, Repr

/-- A control frame as it comes in. -/
structure CtlIn where
  frame : CtlFrame
  kp4   : Kp4 := {}
  deriving DecidableEq, Repr

/-- What training learned from the peer (R304). -/
structure Identity where
  module : BitVec 14
  cls    : Nat
  split  : Nat
  host   : Bool
  hostBytes : Nat := 0                                 -- host window size of a host peer (R313)
  port   : PortId := 0
  sub    : SubId := 0
  deriving DecidableEq, Repr

/-- The answer to a far fetch (R241). -/
inductive FarAnswer where
  | data (bytes : List Byte)
  | poisoned
  | failed
  deriving DecidableEq, Repr

/-- A target of a retraining pass (R183, R184). -/
inductive RetrainUnit where
  | vaults (r : RegionId)
  | channel (e : EngineId) (ch : Fin 16)
  deriving DecidableEq, Repr

/-- The part of the boot sequence that a POWER_ON command completes (R366). -/
inductive BootStep where
  /-- steps 1–4: the inlet reaches 38 V; stage-1 of slots A and B, their images (SC0–SC3, microcode, SX)
  and the record verify or not -/
  | start (mV : Nat) (stage1A stage1B : Sigs) (imagesA imagesB : List Sigs) (keysOk : Bool) (recSigs : Sigs) (storeCrcOk : Bool)
  /-- step 8: units found bad, per tile [0] router, [1] compute, [2] vault; failed engines, ports, relays -/
  | selfTest (bad : List (TileId × BitVec 3)) (engines : List EngineId) (ports : List PortId) (relays : List RelayId)
  /-- step 9 -/
  | publish
  /-- step 10: stacks trained (true) or failed -/
  | trainStack (e : EngineId) (ok : Bool)
  /-- step 10: vaults of a region trained; the tiles whose vault failed -/
  | trainVaults (r : RegionId) (failed : List TileId)
  /-- step 11: tiles whose microcode digest did not match, or that did not report -/
  | microcode (bad : List TileId)
  deriving DecidableEq, Repr

/-- One image of a turnover or load (R377): the binary read from the program store, the tiles to which its load was
repeated, with the number of repeats, and the tiles whose digest still failed after three. -/
structure LoadedImage where
  part : PartId
  bin  : Binary
  tries : List (TileId × Nat) := []
  bad  : List TileId := []
  deriving DecidableEq, Repr

/-- What ends a turnover stage (R283). -/
inductive StageResult where
  | loaded (images : List LoadedImage)
  | routed (failed : List PartId)
  | started
  deriving DecidableEq, Repr

/-- A block of counters that latches as one (R337). -/
inductive CounterBlock where
  | tile (t : TileId)
  | engine (e : EngineId)
  | port (p : PortId)
  | relays
  | region (r : RegionId)
  deriving DecidableEq, Repr

/-- EtherCAT SubDevice states supported (R331). -/
inductive EcatState where
  | init | preOp | safeOp | op
  deriving DecidableEq, Repr

/-- What a MainDevice asks of the EtherCAT side (R331): a state, or one of the parts that the module does not support. -/
inductive EcatRequest where
  | state (st : EcatState)
  | bootstrap
  | clocks                                             -- Distributed Clocks
  | rxPdo
  | mailbox (ty : Fin 16)                              -- a mailbox protocol other than CoE and FoE, by its type
  deriving DecidableEq, Repr

/-- A tile ID, context and header come first in every tile instruction. -/
inductive Instr where
  -- TENSOR
  | tensorLoad (t : TileId) (c : CtxId) (h : Hdr) (o : Orient) (role : Role) (desc : BitVec 32)
  | tensorStream (t : TileId) (c : CtxId) (h : Hdr) (o : Orient) (role : Role) (cont : Bool) (desc : BitVec 32) (ups : List Upset)
  | tensorDrain (t : TileId) (c : CtxId) (h : Hdr) (role : Role) (trails : Bool) (desc : BitVec 32)
  -- VECTOR
  | vectorLd (t : TileId) (c : CtxId) (h : Hdr) (v : Fin 32) (desc : BitVec 32)
  | vectorSt (t : TileId) (c : CtxId) (h : Hdr) (v : Fin 32) (desc : BitVec 32)
  | vectorAdd (t : TileId) (c : CtxId) (h : Hdr) (d a b : Fin 32)
  | vectorSub (t : TileId) (c : CtxId) (h : Hdr) (d a b : Fin 32)
  | vectorMul (t : TileId) (c : CtxId) (h : Hdr) (d a b : Fin 32)
  | vectorFma (t : TileId) (c : CtxId) (h : Hdr) (d a b e : Fin 32)
  | vectorMax (t : TileId) (c : CtxId) (h : Hdr) (d a b : Fin 32)
  | vectorMin (t : TileId) (c : CtxId) (h : Hdr) (d a b : Fin 32)
  | vectorCmp (t : TileId) (c : CtxId) (h : Hdr) (cond : CmpCond) (d a b : Fin 32)
  | vectorExp2 (t : TileId) (c : CtxId) (h : Hdr) (d a : Fin 32)
  | vectorLog2 (t : TileId) (c : CtxId) (h : Hdr) (d a : Fin 32)
  | vectorRsqrt (t : TileId) (c : CtxId) (h : Hdr) (d a : Fin 32)
  | vectorRcp (t : TileId) (c : CtxId) (h : Hdr) (d a : Fin 32)
  | vectorRsum (t : TileId) (c : CtxId) (h : Hdr) (d first : Fin 32) (n : BitVec 16)
  | vectorRmax (t : TileId) (c : CtxId) (h : Hdr) (d first : Fin 32) (n : BitVec 16)
  | vectorRmin (t : TileId) (c : CtxId) (h : Hdr) (d first : Fin 32) (n : BitVec 16)
  | vectorNstat (t : TileId) (c : CtxId) (h : Hdr) (rms : Bool) (desc : BitVec 32)
  | vectorNapply (t : TileId) (c : CtxId) (h : Hdr) (desc : BitVec 32)
  | vectorSmax (t : TileId) (c : CtxId) (h : Hdr) (desc : BitVec 32)
  -- MOVE, NET
  -- route: the route ID of its packets, where an endpoint lies beyond the tile (R134, R135)
  | moveCopy (t : TileId) (c : CtxId) (h : Hdr) (src : BitVec 32) (dst : MoveDst) (ups : List Upset)
  | netPut (t : TileId) (c : CtxId) (h : Hdr) (src : BitVec 32) (route : Fin 512) (dest : Dest)
  | netMcast (t : TileId) (c : CtxId) (h : Hdr) (src : BitVec 32) (route : Fin 512) (dests : List Dest)
  | netReduce (t : TileId) (c : CtxId) (h : Hdr) (src : BitVec 32) (route : Fin 512) (dest : Option Dest) (tail : Option TailHdr)
  | netSignal (t : TileId) (c : CtxId) (h : Hdr) (route : Fin 512) (dest : TileId) (ctr : Fin 64)
  -- SYNC
  | syncWait (t : TileId) (c : CtxId) (h : Hdr) (ctr : Fin 64) (v : BitVec 32)
  | syncSemw (t : TileId) (c : CtxId) (h : Hdr) (m : Fin 16)
  | syncSemp (t : TileId) (c : CtxId) (h : Hdr) (m : Fin 16)
  | syncCset (t : TileId) (c : CtxId) (h : Hdr) (ctr : Fin 64) (v : BitVec 32)
  | syncCadd (t : TileId) (c : CtxId) (h : Hdr) (ctr : Fin 64) (v : BitVec 32)
  | syncTmo (t : TileId) (c : CtxId) (h : Hdr) (v : BitVec 32)
  | syncFence (t : TileId) (c : CtxId) (h : Hdr)
  | syncFree (t : TileId) (c : CtxId) (h : Hdr) (buf : Fin 16) (slot : Fin 64)
  | syncVwait (t : TileId) (c : CtxId) (h : Hdr) (stamp : BitVec 32)
  -- CTRL
  | ctrlJmp (t : TileId) (c : CtxId) (h : Hdr) (target : BitVec 32)
  | ctrlBr (t : TileId) (c : CtxId) (h : Hdr) (src : BrSrc) (cond : BrCond) (op : Opnd) (target : BitVec 32)
  | ctrlSset (t : TileId) (c : CtxId) (h : Hdr) (d : Fin 16) (v : BitVec 32)
  | ctrlSadd (t : TileId) (c : CtxId) (h : Hdr) (d : Fin 16) (op : Opnd)
  | ctrlScmp (t : TileId) (c : CtxId) (h : Hdr) (d a : Fin 16) (cond : BrCond) (op : Opnd)
  | ctrlYield (t : TileId) (c : CtxId) (h : Hdr)
  | ctrlStep (t : TileId) (c : CtxId) (h : Hdr)
  | guardOpen (t : TileId) (c : CtxId) (h : Hdr) (compiled : Bool) (rsvd : BitVec 6) (route : Fin 512) (layer : BitVec 16)
  | guardClose (t : TileId) (c : CtxId) (h : Hdr) (compiled : Bool) (rsvd : BitVec 6) (route : Fin 512) (layer : BitVec 16)
  | guardVoteSend (t : TileId)
  | guardVoteResult (t : TileId) (sum : BitVec 32)
  | ctrlEnd (t : TileId) (c : CtxId) (h : Hdr)
  -- tile events
  | operationComplete (t : TileId) (id : Nat)
  | suspendedContextResume (t : TileId) (c : CtxId)
  | counterIncrementArrival (t : TileId) (ctr : Fin 64) (n : BitVec 32)
  | syncTimeout (t : TileId) (c : CtxId)
  | queueTransferStart (t : TileId) (q : Fin 32)
  | landingDelivery (t : TileId) (buf : Fin 16) (slot : Fin 64)
  | slotCreditArrival (t : TileId) (buf : Fin 16) (slot : Fin 64)
  | spillRequest (t : TileId) (q : Fin 32)
  | spillGrant (t : TileId) (buf : Fin 16) (src : TileId)
  | spilledTransferArrival (t : TileId) (src : TileId) (q : Fin 32)
  | remoteReadRequest (src : TileId) (id : Nat)
  -- network
  | flitReceive (t : TileId) (port : Fin 5) (vc : Fin 6) (crcOk : Bool)
  | hopReplayRequest (t : TileId) (dir : Fin 4) (vc : Fin 6)
  | refusalResponseReceive (t : TileId)
  | routeWatchdogExpiry (t : TileId) (port : Fin 5) (vc : Fin 6)
  | forkStallExpiry (t : TileId) (port : Fin 5)
  | mergeEmit (t : TileId) (p : PartId) (route : Fin 512)
  | partitionFlush (p : PartId)
  | neighbourLinkLoss (r : RegionId)
  | directionTableRewrite
  | routeEntryWrite (rq : Path) (t : TileId) (v : BitVec 32)
  -- memory
  | vaultRefresh (t : TileId) (bank : Fin 16)
  | scrubRead (u : MemUnit) (word : Nat) (ups : List Upset)
  | vaultClear (rq : Path) (r : RegionId) (v : BitVec 8)
  | vaultClearDone (r : RegionId)
  | vaultRetrainRequest (rq : Path) (r : RegionId) (v : BitVec 8)
  | retrainPolicyTrigger (u : RetrainUnit)
  | vaultRetrainStart (r : RegionId)
  | vaultRetrainEnd (r : RegionId) (ok : Bool)
  | channelRetrainRequest (rq : Path) (e : EngineId) (v : BitVec 8)
  | channelRetrainStart (e : EngineId)
  | channelRetrainEnd (e : EngineId) (ok : Bool)
  | poolWindowWrite (rq : Path) (e : EngineId) (sub : Fin 3) (v : BitVec 64)
  | farReadRequest (fr : FarReq)
  | farWriteRequest (fr : FarReq) (data : List Byte)
  -- millrace, tailrace, engines
  | stackMcastRead (t : TileId) (id : Nat)
  | workingCopySettle (e : EngineId) (g : GroupId) (b : BitVec 28)
  | allgatherArrival (port : PortId) (sub : SubId) (p : PartId) (f : CopyFrame)
  -- plan: index of the block in the route plan, as a link packet carries it (R297)
  | tailracePartReceive (port : PortId) (p : PartId) (input : Option PartFrom) (blk : TailBlock)
  | portReductionEmit (port : PortId) (p : PartId) (g : GroupId) (b : BitVec 28)
  | tailraceBlockArrival (e : EngineId) (p : PartId) (blk : TailBlock)
  | deferredBlockCheck (e : EngineId) (p : PartId) (g : GroupId) (b : BitVec 28)
  | farFetchResponse (e : EngineId) (g : GroupId) (b : BitVec 28) (ans : FarAnswer)
  | farWritebackDone (e : EngineId) (g : GroupId) (b : BitVec 28) (ok : Bool)
  | verdictJoin (p : PartId)
  | verdictCombine (p : PartId) (input : PortId × SubId) (v : VerdictPkt)
  | verdictApply (p : PartId) (v : VerdictPkt)
  | verdictTimeout (p : PartId)
  | relayForward (r : RelayId)
  | holdApplyStep (rq : Path)
  | holdDropStep (rq : Path)
  | heldNormMerge (rq : Path)
  | heldNormDrop (rq : Path)
  | holdCommandDone
  | activationStampWrite (rq : Path) (g : GroupId) (v : BitVec 32)
  | repairPass (e : EngineId)
  | digestRollupSend (e : EngineId) (p : PartId)
  | digestRecordReceive (link : LinkIn) (p : PartId) (stamp : BitVec 32) (owner : BitVec 14) (engine : EngineId)
      (rollup : BitVec 64)
  | snapshotShipStart (rq : Path) (v : BitVec 8)
  | snapshotShipEnd (result : Fin 4)
  -- partitions
  | definePartition (p : PartId)
  | removePartition (p : PartId)
  | partitionLoad (p : PartId) (img : LoadedImage)
  | partitionStart (p : PartId)
  | partitionStop (p : PartId)
  | partitionReset (p : PartId)
  | partitionPause (p : PartId)
  | partitionPaused (p : PartId)
  | partitionResume (p : PartId)
  | commandFence (p : PartId)
  | ringRequestArrival (r : RingReq)
  | responseRingServe (p : PartId) (ring : Fin 4)
  | ringResponseForward (link : PortId × SubId) (h : PktHdr) (xf data : List Byte)
  | turnoverExecute (rq : Path) (v : BitVec 8)
  | turnoverDrainComplete
  | turnoverDrainLimit
  | turnoverStageDone (r : StageResult)
  -- links
  | laneLoss (port : PortId) (sub : SubId) (group : Fin 16)
  | dataFrameReceive (port : PortId) (sub : SubId) (slots : List Byte) (crc : FrameCheck)
  | controlFrameReceive (port : PortId) (sub : SubId) (f : CtlIn)
  | badFrameReceive (port : PortId) (sub : SubId) (slots : List Byte) (crc : FrameCheck)
  | scheduledControlSend (port : PortId) (sub : SubId)
  | replayRequestReceive (port : PortId) (sub : SubId) (seq : Nat)
  | replayTimeout (port : PortId) (sub : SubId)
  | linkRetrainEnd (port : PortId) (sub : SubId) (ok : Bool)
  | subportTrainingAttempt (port : PortId) (sub : SubId)
  | subportTrainingDone (port : PortId) (sub : SubId) (peer : Identity)
  | peerLossTimeout (port : PortId) (sub : SubId)
  | stopFrameReceive (port : PortId) (sub : SubId) (job : BitVec 32) (origin : StopOrigin) (cause : BitVec 8)
  | linkPutPacket (port : PortId) (sub : SubId) (h : PktHdr) (p : PartId) (dest : Dest) (data : List Byte)
  | linkCounterSignal (port : PortId) (sub : SubId) (h : PktHdr) (p : PartId) (dest : TileId) (ctr : Fin 64)
  | linkRefusalReceive (port : PortId) (sub : SubId) (h : PktHdr) (code : BitVec 8)
  | reservedTypeDiscard (port : PortId) (sub : SubId) (h : PktHdr)
  | packetTransit (port : PortId) (sub : SubId) (h : PktHdr) (xf data : List Byte)
  | digestSettleExpiry (port : PortId) (sub : SubId)
  | portEnableWrite (rq : Path) (port : PortId) (v : BitVec 8)
  | classSplitWrite (rq : Path) (port : PortId) (split : Bool) (v : BitVec 8)
  | portRetrainWrite (rq : Path) (port : PortId) (v : BitVec 8)
  | portReset (rq : Path) (port : PortId) (v : BitVec 8)
  | portQuiesceWrite (rq : Path) (port : PortId) (v : BitVec 8)
  | portQuiesced (port : PortId)
  | tableEntryWrite (rq : Path) (inst : Fin 7) (v : BitVec 32)
  -- object dictionary
  | inBandRead (rq : Path) (idx : BitVec 16) (sub : BitVec 8) (inst : BitVec 16) (off : BitVec 32)
  | inBandWrite (rq : Path) (idx : BitVec 16) (sub : BitVec 8) (inst : BitVec 16) (off : BitVec 32) (final : Bool) (data : List Byte)
  | sdoUpload (idx : BitVec 16) (sub : BitVec 8) (complete : Bool)
  | sdoDownload (idx : BitVec 16) (sub : BitVec 8) (complete : Bool) (data : List Byte)
  | sdoInformation (idx : Option (BitVec 16))
  | foeWrite (img : Image)
  | ethercatStateRequest (rq : EcatRequest)
  | txpdoSample
  | transactionTimeout (rq : Path) (idx : BitVec 16) (sub : BitVec 8) (inst : BitVec 16) (write : Option (List Byte)) (same : Bool)
  | segmentIdleTimeout (rq : Path) (idx : BitVec 16) (sub : BitVec 8) (inst : BitVec 16)
  | objectWrite (rq : Path) (idx : BitVec 16) (sub : BitVec 8) (inst : BitVec 16) (data : List Byte)
  | queueLimitWrite (rq : Path) (t : TileId) (q : Fin 32) (v : BitVec 8)
  | histogramSlotClear (rq : Path) (t : TileId) (v : BitVec 8)
  | snapshotStrobe (rq : Path) (v : BitVec 8)
  | counterLatch (b : CounterBlock)
  | snapshotComplete
  | storeAll (rq : Path) (sig : BitVec 32)
  | storeLinkAndRoute (rq : Path) (sig : BitVec 32)
  | restoreAll (rq : Path) (sig : BitVec 32)
  | restoreLinkAndRoute (rq : Path) (sig : BitVec 32)
  | storeComplete
  -- power, clocks, heat
  | inletUndervoltStop (mV : Nat)
  | inletRecovery (mV : Nat)
  | inletFaultPowerdown (mV : Nat)
  | servicePowerLoss (mV : Nat)
  | railSequenceTimeout (r : Fin 49) (rail : Fin 3)
  | regionShortCircuit (r : RegionId) (rail : Fin 3)
  | regionRearm (rq : Path) (r : RegionId) (v : BitVec 8)
  | rearmCountClear (r : RegionId)
  | computeClockStopWrite (rq : Path) (r : RegionId) (v : BitVec 8)
  | meshRelock (regions : BitVec 48)
  | meshLockLoss
  | thermalSample (r : RegionId) (temps : List Int)
  | thermalIndexStep (r : RegionId)
  | thresholdWrite (rq : Path) (r : RegionId) (k : Fin 4) (v : BitVec 16)
  | powerCapTick (watts : Nat)
  | overcurrentTrip (deciA : Nat)
  | halfClockDownEntry (east : Bool)
  | halfClockDownExit (east : Bool)
  -- bring-up and reset
  | powerOn (st : BootStep)
  | prechargeComplete (mV : Nat)
  | regionPowerSlot (slot : Fin 48) (ok : Bool)
  | microcodeRetry (t : TileId) (ok : Bool)
  | bootM2Entry
  | requestRun (rq : Path)
  | requestComputeReset (rq : Path)
  | requestComputeIdle (rq : Path)
  | requestServiceOnly (rq : Path)
  | moduleReset (rq : Path) (sig : BitVec 32)
  | edgeReset (rq : Path) (v : BitVec 8)
  | tileResetWrite (rq : Path) (t : TileId) (v : BitVec 8)
  -- service firmware, security, observation
  | commandProducerWrite (rq : Path) (v : BitVec 32)
  | completionConsumerWrite (rq : Path) (v : BitVec 32)
  | leaseRenew (rq : Path) (v : BitVec 32)
  | leaseReclaim (rq : Path) (v : BitVec 32)
  | leaseExpiry
  | coreWatchdogExpiry (core : Fin 4) (exception imageOk : Bool) (ticks : BitVec 32)
  | imageWrite (rq : Path) (img : Image)
  | enrolmentRecordWrite (rq : Path) (rec : EnrolRecord)
  | provisioningRecordWrite (rq : Path) (rec : ProvRecord)
  | tokenUnlockObservation (rq : Path) (tok : Token)
  | tokenRelock (rq : Path) (tok : Token)
  | tokenQuarantine (rq : Path) (tok : Token)
  | tokenReleaseQuarantine (rq : Path) (tok : Token)
  | tokenRetire (rq : Path) (tok : Token)
  | observationLockWrite (rq : Path) (v : BitVec 8)
  | attestationNonceWrite (rq : Path) (nonce : List Byte) (keysOk : Bool)
  | attestationSigned
  | traceEnableWrite (rq : Path) (v : BitVec 8)
  | eventRingRead (rq : Path)
  | eventLogRead (rq : Path)
  | commandTimeout (p : PartId) (fence same : Bool)
  | directShipmentComplete (e : EngineId) (g : GroupId) (b : BitVec 28)
  | runningTransitionComplete
  deriving DecidableEq, Repr

end Sys2Proof
end

