-- ==== Sys2Proof/Config.lean ====
section
/-! DEFINITION. The values the manual leaves open, as constants with no body: nothing can evaluate them. -/
namespace Sys2Proof

/-- The n-th free byte. The signature bytes of an attestation report (R399: the PSS salt is random) are
free bytes: no rule fixes them, and no statement rests on one (log entry 5). -/
opaque Config.freeByte : Nat → Byte

/-- The n-th free number: which of the free sluice or journal entries an engine takes (R235, R244 do not say), modulo
their count (log entry 5). -/
opaque Config.freeNat : Nat → Nat

/-- The measured power of region r at mesh cycle n, in 0.1 W (0x4010:05): no command carries it (log entry 51). -/
opaque Config.regionPower (r n : Nat) : BitVec 16

/-- Raw bytes written as a provisioning record, an enrolment record or a firmware image, decoded and verified: the spec does
not give their layouts (log entry 7). -/
opaque Config.recordOf (bs : List Byte) : Option ProvRecord
opaque Config.enrolOf (bs : List Byte) : Option EnrolRecord
opaque Config.imageOf (bs : List Byte) : Option Image

/-- Whether the identity keys pass SX's n-th check of them, where no command says so (R400; log entry 5). -/
opaque Config.keyCheck : Nat → Bool

end Sys2Proof
end

