-- ==== Sys2Proof/Machine/Num.lean ====
section
/-! DEFINITION. Numbers of the module: the exact value of an encoding, the element formats (R29–R33, R53),
exact arithmetic, and the roundings R68, R69 and of the legacy path (R66, R67). -/
namespace Sys2Proof.Machine

/-- A value: NaN, an infinity, or (−1)^neg × m × 2^q exactly; a zero keeps its sign (R32, R59). -/
inductive Num where
  | nan
  | inf (neg : Bool)
  | fin (neg : Bool) (m : Nat) (q : Int)
  deriving DecidableEq, Repr

def Num.zero : Num := .fin false 0 0
def Num.one : Num := .fin false 1 0
def Num.ofNat (n : Nat) : Num := .fin false n 0

def Num.isNan : Num → Bool
  | .nan => true
  | _ => false

def Num.isInf : Num → Bool
  | .inf _ => true
  | _ => false

def Num.isZero : Num → Bool
  | .fin _ 0 _ => true
  | _ => false

def Num.isFinite : Num → Bool
  | .fin _ _ _ => true
  | _ => false

/-- Finite and not zero. -/
def Num.isNonzero : Num → Bool
  | .fin _ m _ => m != 0
  | _ => false

def Num.neg : Num → Num
  | .nan => .nan
  | .inf n => .inf (!n)
  | .fin n m q => .fin (!n) m q

/-- floor(log2 |x|) of a non-zero finite value (R60). -/
def Num.lead : Num → Int
  | .fin _ m q => (Nat.log2 m : Int) + q
  | _ => 0

/-- Multiply by 2^k, exactly. -/
def Num.scale (k : Int) : Num → Num
  | .fin n m q => .fin n m (q + k)
  | x => x

/-- A finite value as a signed integer at 2^g, where g is not above its own exponent. -/
def Num.intAt (g : Int) : Num → Int
  | .fin n m q => let v := (m * 2 ^ (q - g).toNat : Nat); if n then -(v : Int) else v
  | _ => 0

def Num.expo : Num → Int
  | .fin _ _ q => q
  | _ => 0

/-- An integer multiple of 2^g; an exact zero is +0 (R63, R76). -/
def Num.ofInt (v : Int) (g : Int) : Num := .fin (v < 0) v.natAbs g

/-- The integer quotient floor(m × 2^q / 2^g). -/
def floorAt (m : Nat) (q g : Int) : Nat :=
  if g ≤ q then m * 2 ^ (q - g).toNat else m / 2 ^ (g - q).toNat

/-! Exact arithmetic (R76). -/

/-- Exact product. An infinity times an infinity, which R62 does not name, is an infinity of the product's sign (the model's
choice; log entry 74). -/
def Num.mul : Num → Num → Num
  | .nan, _ => .nan
  | _, .nan => .nan
  | .inf a, .inf b => .inf (a != b)
  | .inf a, .fin b m _ => if m = 0 then .nan else .inf (a != b)
  | .fin a m _, .inf b => if m = 0 then .nan else .inf (a != b)
  | .fin a m q, .fin b n r => .fin (a != b) (m * n) (q + r)

/-- Exact sum; the sign of an exact zero follows IEEE 754 under roundTiesToEven. -/
def Num.add : Num → Num → Num
  | .nan, _ => .nan
  | _, .nan => .nan
  | .inf a, .inf b => if a = b then .inf a else .nan
  | .inf a, .fin .. => .inf a
  | .fin .., .inf b => .inf b
  | .fin a m q, .fin b n r =>
    let g := min q r
    let s := Num.intAt g (.fin a m q) + Num.intAt g (.fin b n r)
    if s = 0 then .fin (a && b && m = 0 && n = 0) 0 g else Num.ofInt s g

def Num.sub (x y : Num) : Num := x.add y.neg
def Num.fma (x y z : Num) : Num := (x.mul y).add z

/-- Comparison of two values that are not NaN; zeros compare equal. -/
def Num.lt : Num → Num → Bool
  | .nan, _ => false
  | _, .nan => false
  | .inf a, .inf b => a && !b
  | .inf a, .fin .. => a
  | .fin .., .inf b => !b
  | .fin a m q, .fin b n r =>
    let g := min q r
    Num.intAt g (.fin a m q) < Num.intAt g (.fin b n r)

def Num.eqv (x y : Num) : Bool := !x.isNan && !y.isNan && !x.lt y && !y.lt x

/-- R79. -/
def Num.max2 (x y : Num) : Num :=
  if x.isNan then y else if y.isNan then x
  else if x.isZero && y.isZero then (match x, y with | .fin true .., .fin true .. => x | _, _ => .zero)
  else if x.lt y then y else x

/-- R79. -/
def Num.min2 (x y : Num) : Num :=
  if x.isNan then y else if y.isNan then x
  else if x.isZero && y.isZero then
    (match x, y with | .fin false .., .fin false .. => x | _, _ => .fin true 0 0)
  else if y.lt x then y else x

/-! Formats (R29–R31). -/

/-- A sign–exponent–fraction format (R30): field widths, bias, the code of the largest finite magnitude,
whether it has infinities and NaN, and the NaN that the module writes. -/
structure Fmt where
  width : Nat
  e : Nat
  m : Nat
  bias : Int
  maxCode : Nat
  hasInf : Bool
  hasNan : Bool
  nan : Nat
  deriving DecidableEq, Repr

def Fmt.fp4 : Fmt := ⟨4, 2, 1, 1, 0x7, false, false, 0⟩
def Fmt.fp6e2m3 : Fmt := ⟨6, 2, 3, 1, 0x1F, false, false, 0⟩
def Fmt.fp6e3m2 : Fmt := ⟨6, 3, 2, 3, 0x1F, false, false, 0⟩
def Fmt.fp8e4m3 : Fmt := ⟨8, 4, 3, 7, 0x7E, false, true, 0x7F⟩
def Fmt.fp8e5m2 : Fmt := ⟨8, 5, 2, 15, 0x7B, true, true, 0x7E⟩
def Fmt.fp16 : Fmt := ⟨16, 5, 10, 15, 0x7BFF, true, true, 0x7E00⟩
def Fmt.bf16 : Fmt := ⟨16, 8, 7, 127, 0x7F7F, true, true, 0x7FC0⟩
def Fmt.a32 : Fmt := ⟨32, 8, 23, 127, 0x7F7FFFFF, true, true, 0x7FC00000⟩
def Fmt.w40 : Fmt := ⟨40, 10, 29, 511, 0x7FDFFFFFFF, true, true, 0x7FF0000000⟩

/-- The format of a code of R29; Clove-19 (code 9) is decoded apart (R53). -/
def Fmt.ofCode : Nat → Option Fmt
  | 0 => some fp4 | 1 => some fp6e2m3 | 2 => some fp6e3m2 | 3 => some fp8e4m3 | 4 => some fp8e5m2
  | 5 => some fp16 | 6 => some bf16 | 7 => some a32 | 8 => some w40 | _ => none

/-- Exponent of the smallest subnormal. -/
def Fmt.subMin (f : Fmt) : Int := 1 - f.bias - f.m

/-- The value of an encoding (R30, R31). -/
def Fmt.decode (f : Fmt) (bits : Nat) : Num :=
  let b := bits % 2 ^ f.width
  let s : Bool := b / 2 ^ (f.width - 1) = 1
  let mag : Nat := b % 2 ^ (f.width - 1)
  let ef : Nat := mag / 2 ^ f.m
  let fr : Nat := mag % 2 ^ f.m
  if f.maxCode < mag then
    if f.hasInf && mag = (2 ^ f.e - 1) * 2 ^ f.m then .inf s else .nan
  else if ef = 0 then .fin s fr f.subMin
  else .fin s (2 ^ f.m + fr) ((ef : Int) - f.bias - f.m)

/-- Round m × 2^q to an integer multiple of 2^lam, to nearest with ties to even. -/
def rneAt (m : Nat) (q lam : Int) : Nat :=
  if lam ≤ q then m * 2 ^ (q - lam).toNat
  else
    let d := 2 ^ (lam - q).toNat
    let k := m / d
    let r := 2 * (m % d)
    if d < r then k + 1 else if r = d then k + k % 2 else k

/-- The same with ties away from zero (R67). -/
def rnaAt (m : Nat) (q lam : Int) : Nat :=
  if lam ≤ q then m * 2 ^ (q - lam).toNat
  else
    let d := 2 ^ (lam - q).toNat
    let k := m / d
    if d ≤ 2 * (m % d) then k + 1 else k

/-- Magnitude code of an integer significand n at 2^lam, where lam is the least significant position for it. -/
def Fmt.magCode (f : Fmt) (n : Nat) (lam : Int) : Nat :=
  if n < 2 ^ f.m then n
  else ((lam + f.m + f.bias).toNat) * 2 ^ f.m + (n - 2 ^ f.m)

/-- The least significant position of a rounded value with leading position l. -/
def Fmt.lsb (f : Fmt) (l : Int) : Int := max (l - f.m) f.subMin

/-- How an encoding rounds. -/
inductive Rounding where
  | nearestEven          -- R68
  | saturating           -- R45, R75: R68, finite overflow to the largest finite
  | legacy               -- R67: ties away, finite overflow to the largest finite
  deriving DecidableEq, Repr

/-- The encoding of a value (R67, R68, R75); NaN is the canonical NaN (R32). -/
def Fmt.encode (f : Fmt) (r : Rounding) : Num → Nat
  | .nan => f.nan
  | .inf s =>
    (if s then 2 ^ (f.width - 1) else 0) * (if f.hasInf then 1 else 0)
      + (if f.hasInf then (2 ^ f.e - 1) * 2 ^ f.m else f.nan)
  | .fin s m q =>
    let sign := if s then 2 ^ (f.width - 1) else 0
    if m = 0 then sign
    else
      let lam := f.lsb ((Nat.log2 m : Int) + q)
      let n := if r = .legacy then rnaAt m q lam else rneAt m q lam
      let code := f.magCode n lam
      if f.maxCode < code then
        (if r = .nearestEven then sign + (2 ^ f.e - 1) * 2 ^ f.m else sign + f.maxCode)
      else sign + code

/-- R68 to a format, as a value. -/
def Num.rne (f : Fmt) (x : Num) : Num := f.decode (f.encode .nearestEven x)

/-- Whether R75's saturating conversion changes x to the largest finite. -/
def Fmt.saturates (f : Fmt) : Num → Bool
  | .fin _ m q => m != 0 && f.maxCode < f.magCode (rneAt m q (f.lsb ((Nat.log2 m : Int) + q))) (f.lsb ((Nat.log2 m : Int) + q))
  | _ => false

/-- Clove-19 (R53). -/
def cloveDecode (bits : Nat) : Num :=
  let s : Bool := bits / 2 ^ 18 % 2 = 1
  let ef : Nat := bits / 2 ^ 11 % 128
  let fr : Nat := bits % 2 ^ 11
  if ef = 0 then .fin s 0 0
  else if ef = 127 then .nan
  else .fin s (2 ^ 11 + fr) ((ef : Int) - 63 - 11)

/-- Stochastic rounding of an exact sum to A32 with a 13-bit draw (R69). -/
def stochastic (x : Num) (d : Nat) : Num :=
  match x with
  | .fin s m q =>
    if m = 0 then .zero
    else
      let lam := max ((Nat.log2 m : Int) + q - 23) (-149)
      let t := floorAt m q (lam - 13) + d
      let n := t / 8192
      if 128 ≤ (Nat.log2 n : Int) + lam then .inf s else .fin s n lam
  | x => x

/-- One step of the legacy accumulation (R66, R62). -/
def legacyAdd (acc p : Num) : Num :=
  match acc, p with
  | .fin a m q, .fin b n r =>
    if m = 0 && n = 0 then .zero
    else
      let h := if m = 0 then (Num.fin b n r).lead
               else if n = 0 then (Num.fin a m q).lead
               else max (Num.fin a m q).lead (Num.fin b n r).lead
      let g := max (h - 28) (-154)
      let ta : Int := floorAt m q g
      let tb : Int := floorAt n r g
      let s := (if a then -ta else ta) + (if b then -tb else tb)
      if s = 0 then .zero
      else
        let g2 := max ((Nat.log2 s.natAbs : Int) + g - 28) (-154)
        .fin (s < 0) (floorAt s.natAbs g g2) g2
  | acc, p => acc.add p

/-! Division, square root, exponential and logarithm. Each gives a value that rounds as the exact result does:
the exact result, or, where it is no dyadic number, enough leading bits with a last bit set ("sticky"). -/

/-- Integer square root by its bits, from bit k − 1 down. -/
def isqrtBits (n : Nat) : Nat → Nat → Nat
  | 0, r => r
  | k + 1, r =>
    let c := r + 2 ^ k
    isqrtBits n k (if c * c ≤ n then c else r)

def isqrt (n : Nat) : Nat := isqrtBits n (Nat.log2 n / 2 + 1) 0

/-- An integer with a sticky bit below it. -/
def sticky (s : Bool) (n : Nat) (exact : Bool) (q : Int) : Num := .fin s (2 * n + (if exact then 0 else 1)) (q - 1)

/-- Exact quotient of finite values, the divisor not zero. -/
def divFin (a : Bool) (m : Nat) (q : Int) (b : Bool) (n : Nat) (r : Int) : Num :=
  if m = 0 then .fin (a != b) 0 0
  else
    let k := Nat.log2 n + 80
    sticky (a != b) (m * 2 ^ k / n) (m * 2 ^ k % n = 0) (q - r - (k : Int))

/-- IEEE division. -/
def Num.div : Num → Num → Num
  | .nan, _ => .nan
  | _, .nan => .nan
  | .inf _, .inf _ => .nan
  | .inf a, .fin b .. => .inf (a != b)
  | .fin a .., .inf b => .fin (a != b) 0 0
  | .fin a m q, .fin b n r =>
    if n = 0 then (if m = 0 then .nan else .inf (a != b)) else divFin a m q b n r

/-- Reciprocal (R77). -/
def Num.rcp (x : Num) : Num := Num.one.div x

/-- Square root; of a negative value other than −0, NaN. -/
def Num.sqrt : Num → Num
  | .nan => .nan
  | .inf s => if s then .nan else .inf false
  | .fin s m q =>
    if m = 0 then .fin s 0 0
    else if s then .nan
    else
      let k := 160 + (q % 2).toNat
      let n := m * 2 ^ k
      let r := isqrt n
      sticky false r (r * r = n) ((q - k) / 2)

/-- Reciprocal square root (R77). -/
def Num.rsqrt : Num → Num
  | .nan => .nan
  | .inf s => if s then .nan else .zero
  | .fin s m q =>
    if m = 0 then .inf s
    else if s then .nan
    else
      let e := q % 2
      let n := m * 2 ^ e.toNat
      let k := 2 * (Nat.log2 n + 80)
      let r := isqrt (2 ^ k / n)
      sticky false r (r * r * n = 2 ^ k) (-((q - e) / 2) - (k / 2 : Nat))

/-- Lower bounds of 2^(2^−i) at 2^−prec for i = 1, 2, …, multiplied into acc where the bit of f is set;
f is a fraction of `bits` bits, most significant first. -/
def expBits (prec : Nat) (f bits : Nat) : Nat → Nat → Nat → Nat
  | 0, _, acc => acc
  | k + 1, root, acc =>
    let root := isqrt (root * 2 ^ prec)
    let i := bits - (k + 1)
    let acc := if f / 2 ^ (bits - 1 - i) % 2 = 1 then acc * root / 2 ^ prec else acc
    expBits prec f bits k root acc

/-- The significand of 2^(f / 2^bits) at 2^−prec, from below; its error is under 4 × bits + 4 units. -/
def exp2Low (prec f bits : Nat) : Nat := expBits prec f bits bits (2 * 2 ^ prec) (2 ^ prec)

/-- 2^(f / 2^bits) × 2^n to the precision of a format, with a larger working precision while the bounds round
differently. -/
def exp2Search (fm : Fmt) (n : Int) (f bits : Nat) : Nat → Nat → Num
  | 0, prec => sticky false (exp2Low prec f bits) false (n - prec)
  | k + 1, prec =>
    let lo := exp2Low prec f bits
    let a := sticky false lo false (n - prec)
    let b := sticky false (lo + 4 * bits + 4) false (n - prec)
    if fm.encode .nearestEven a = fm.encode .nearestEven b then a else exp2Search fm n f bits k (2 * prec)

/-- exp2 to the precision of a format (R77). -/
def Num.exp2 (fm : Fmt) : Num → Num
  | .nan => .nan
  | .inf s => if s then .zero else .inf false
  | .fin s m q =>
    if m = 0 then .one
    else
      let l := (Nat.log2 m : Int) + q
      if 12 ≤ l then (if s then .fin false 1 (-8192) else .fin false 1 8192)
      else if l < -70 then (if s then sticky false (2 ^ 80 - 1) false (-80) else sticky false (2 ^ 80) false (-80))
      else if 0 ≤ q then
        let v := m * 2 ^ q.toNat
        .fin false 1 (if s then -(v : Int) else v)
      else
        let d := 2 ^ (-q).toNat
        let x : Int := if s then -(m : Int) else m
        let n := x / d
        let f := (x % d).toNat
        if f = 0 then .fin false 1 n else exp2Search fm n f (-q).toNat 5 256

/-- Bits of log2 of y × 2^−prec, 1 ≤ y × 2^−prec < 2, by repeated squaring, rounding down. -/
def logBits (prec : Nat) : Nat → Nat → Nat → Nat
  | 0, _, acc => acc
  | k + 1, y, acc =>
    let z := y * y / 2 ^ prec
    if 2 * 2 ^ prec ≤ z then logBits prec k (z / 2) (2 * acc + 1) else logBits prec k z (2 * acc)

/-- The integer e plus log2 of the significand, at 2^−p, with a sticky bit; p doubles while the bounds of the
last unit round differently. -/
def log2Search (fm : Fmt) (e : Int) (m : Nat) : Nat → Nat → Num
  | 0, p => logNum e (logBits (3 * p + 64) p (m * 2 ^ (3 * p + 64 - Nat.log2 m)) 0) p
  | k + 1, p =>
    let d := logBits (3 * p + 64) p (m * 2 ^ (3 * p + 64 - Nat.log2 m)) 0
    let a := logNum e d p
    if fm.encode .nearestEven a = fm.encode .nearestEven (logNum e (d + 1) p) then a
    else log2Search fm e m k (2 * p)
where
  logNum (e : Int) (d p : Nat) : Num :=
    let n : Int := e * (2 ^ p : Nat) + d
    if 0 ≤ n then .fin false (2 * n.toNat + 1) (-(p : Int) - 1) else .fin true (2 * (-n).toNat - 1) (-(p : Int) - 1)

/-- log2 to the precision of a format (R77). -/
def Num.log2 (fm : Fmt) : Num → Num
  | .nan => .nan
  | .inf s => if s then .nan else .inf false
  | .fin s m q =>
    if m = 0 then .inf true
    else if s then .nan
    else
      let e := (Nat.log2 m : Int) + q
      if m = 2 ^ Nat.log2 m then Num.ofInt e 0 else log2Search fm e m 4 160

/-- log2(e) rounded under R68 to a format: the constant L of SMAX (R118), from 96 of its bits after the point. -/
def log2e (fm : Fmt) : Num := Num.rne fm (sticky false 114302077158074026402637675936 false (-96))

end Sys2Proof.Machine
end

