-- ==== Sys2Proof/Machine/State.lean ====
section
/-! DEFINITION. The state of the module: every object value, memory, tile, router, edge unit, port, partition and
service record that the spec gives it, the queue of waiting commands, and the state after reset. -/
namespace Sys2Proof.Machine

/-- Reasons for which a step would stop. No command of this model ends in a fault: every refusal, abort, fault code
and poison of the spec is a next state. -/
inductive Fault where
  /-- raised by no command (the spec stops the module for none) -/
  | none
  deriving DecidableEq, Repr

/-- Reasons for which a command has no meaning. -/
inductive Refusal where
  /-- raised by an arm of exec that has no meaning yet; safe -/
  | notModelled (mnemonic : String)
  deriving DecidableEq, Repr

/-! Memory (R88, R169, R173). -/

/-- Bytes of a memory, addresses strictly rising, no byte 0x00 listed (every memory is zeroed before any access is
served, R181); and the changed bits of stored code words (R175, R178): key = word × 128 + symbol position. -/
structure Mem where
  cells : List Host.Cell := []
  errs  : List Host.Cell := []
  deriving DecidableEq, Repr

/-! Events and responses. -/

/-- One 32-byte record (R416); data holds bytes 16–31. -/
structure Record where
  code : Nat
  src  : Nat                 -- [14:0]
  cont : Bool := false       -- [15], R417
  step : BitVec 32 := 0
  tick : Nat
  data : List Byte
  deriving DecidableEq, Repr

/-- Abort codes of R330. -/
inductive Abort where
  | noObject | noSub | badInstance | writeOnly | readOnly | length | valueRange | stateConflict
  | hardware | timeout | serviceRestart | protectedWrite | observation | storeCondition | badSignature
  deriving DecidableEq, Repr

/-- A response sent (R327, R331, R333): the transaction, the value read or the abort, and the late flag. -/
structure Reply where
  path  : Path
  write : Bool
  idx   : Nat
  sub   : Nat
  inst  : Nat
  abort : Option Abort := none
  late  : Bool := false
  final : Bool := true
  off   : Nat := 0                            -- byte offset of the data, or of the segment written
  total : Nat := 0
  data  : List Byte := []
  deriving DecidableEq, Repr

/-- A transaction whose response is sent when its operation ends (R327, R329, R340). -/
structure Open where
  path  : Path
  idx   : Nat
  sub   : Nat
  inst  : Nat
  since : Nat                -- mesh cycle in which it started
  /-- a read that waits for a stack channel: its byte offset, and whether it asks for a complete access (R184) -/
  read  : Option (Nat × Bool) := none
  deriving DecidableEq, Repr

/-- An open segmented write (R333), or a value captured for a segmented read, and the time of its last segment. -/
structure Segment where
  path : Path
  idx  : Nat
  sub  : Nat
  inst : Nat
  data : List Byte
  last : Nat                 -- mesh cycle
  dead : Bool := false       -- its service core has restarted since: its next segment is told so (R330)
  deriving DecidableEq, Repr

/-! The tile (R88, R113). -/

/-- A descriptor of R119 as read at issue, its format word split (R43). -/
structure Desc where
  space : Nat
  addr  : Nat                -- [27:0]
  sspace : Nat := 0
  saddr : Nat                -- scale address [27:0]
  word  : BitVec 32
  scale : BitVec 32          -- tensor scale, F32
  pitch : Nat                -- in 32-byte units
  n0    : Nat
  n1    : Nat
  axes  : Nat
  bind  : Nat
  count : Nat
  base  : Nat
  first : Nat
  second : Nat
  deriving DecidableEq, Repr

/-- The engine operation for which an instruction waits to issue (R97, R105, R123). -/
inductive Engaged where
  | load (a : Fin 3)
  | stream (a : Fin 3)
  | vector
  deriving DecidableEq, Repr

/-- What a context waits for. -/
inductive Wait where
  | counter (c : Fin 64) (v : BitVec 32)      -- WAIT, R125
  | sem (m : Fin 16)                          -- SEMW, R126
  | fence (q : Nat)                           -- FENCE on tile queue q, R117
  | verdict (stamp : BitVec 32)               -- VWAIT, R200
  | swap (w : Engaged)                        -- R97, R105, R123: the engine is not ready for the operation
  | space (q : Nat)                           -- R121: 64 transfers wait in the queue
  | step                                      -- held at STEP by a pause, R276
  | guard                                     -- at GUARD CLOSE, R264
  deriving DecidableEq, Repr

/-- Run state of a context (R114, R123, R131). -/
inductive Run where
  | idle
  | ready
  | waiting (w : Wait) (since : Nat)          -- since: the tile's core cycle at issue (R128)
  | stopped
  deriving DecidableEq, Repr

/-- Values held for open blocks of one result tensor (R436): (row, element) and the value as handed to R45. -/
structure Assembly where
  addr : Nat
  word : BitVec 32
  vals : List ((Nat × Nat) × Num)
  deriving DecidableEq, Repr

/-- A run of tagged stores of a context (R82). -/
structure StoreRun where
  addr : Nat
  tag  : Nat
  deriving DecidableEq, Repr

/-- Product classes of R51. -/
inductive PClass where
  | c4 | c8 | c16 | legacy
  deriving DecidableEq, Repr

/-- A stationary block (R96): for each of the 32 outputs its elements by reduction position, block scales applied.
An FP4 block keeps both readings, 4 and 8 elements per cell, until its streamed partner is known (log entry 10). -/
structure Block where
  orient : Orient
  fmt    : Nat                                -- format code
  outs   : List (List Num)
  outs8  : List (List Num) := []
  scale  : Option (BitVec 32) := none         -- tensor scale, when present
  beyond8 : Bool := false                     -- an FP4 block whose chunk begins beyond its plane with 8 elements to a cell
  deriving DecidableEq, Repr

/-- A context (R113) and what its issue logic holds. -/
structure Ctx where
  pc    : Nat := 0
  v     : Map Nat := []                       -- v × 64 + lane: 40 bits
  s     : Map (BitVec 32) := []
  res   : BitVec 8 := 0                       -- wait result
  tmo   : BitVec 32 := 0
  run   : Run := .idle
  yielded : Bool := false                     -- R117 YIELD
  asm   : List Assembly := []
  store : Option StoreRun := none
  fault : Nat := 0
  faddr : Nat := 0
  deriving DecidableEq, Repr

/-- An accumulator entry (R95): its value and term count; legacy: last added to under R66. -/
structure Entry where
  acc : Num := .zero
  n   : Nat := 0
  legacy : Bool := false
  st  : Option (BitVec 32) := none            -- tensor scales of the latest pass that added to it (R65)
  sx  : Option (BitVec 32) := none
  deriving DecidableEq, Repr

/-- An array (R88). -/
structure Arr where
  role   : Role := .idle
  active : Option Block := none
  shadow : Option Block := none
  loading : Bool := false                     -- a load into the shadow block is in progress
  loadedEver : Bool := false                  -- R97: a LOAD since program start
  entries : Map Entry := []                   -- lane × 1024 + entry
  pepper : Map (BitVec 64) := []              -- lane
  deriving DecidableEq, Repr

/-- The endpoints of a transfer in a queue (R117, R121). -/
inductive XKind where
  | move (src dst : Desc)
  | put (src : Desc) (route : Nat) (dest : Dest)
  | mcast (src : Desc) (route : Nat) (dests : List Dest) (stamp : BitVec 32)   -- the lead tile's stamp at issue (R196)
  | reduce (src : Desc) (route : Nat) (dest : Option Dest) (tail : Option TailHdr)
  | signal (route : Nat) (dest : TileId) (ctr : Fin 64)
  deriving DecidableEq, Repr

/-- Phase of a transfer of a queue. -/
inductive XPhase where
  | waiting                                   -- R121
  | started                                   -- sending, or request sent
  | answered                                  -- a stack-sourced multicast has been read (STACK_MCAST_READ)
  | spilling                                  -- on VC5 into the receiver's overflow area (R129)
  deriving DecidableEq, Repr

/-- A transfer of a queue (R121). -/
structure Xfer where
  id    : Nat
  ctx   : CtxId
  q     : Nat                                 -- tile queue 0–31
  kind  : XKind
  len   : Nat                                 -- bytes
  sig   : Option (Fin 64)
  phase : XPhase := .waiting
  since : Option Nat := none                  -- core cycle in which its wait for a slot credit began
  asked : Bool := false                       -- spill request sent
  route : Nat := 0                            -- route ID of a MOVE's packets
  data  : List Byte := []                     -- of a MOVE: bytes of the packet that arrives for it, and which are poisoned
  bad   : List Bool := []
  acked : Nat := 0                            -- bytes of a MOVE written at its destination, or refused
  refused : Bool := false                     -- some packet of it has been refused (R146)
  vc    : Fin 6 := 0                          -- of a NET transfer that has started: its VC
  sent  : Nat := 0                            -- bytes of a source in SRAM that have been read
  deriving DecidableEq, Repr

/-- A transfer queue (R121): its transfers in append order; transfers completed since program start, and how many of
these a bound consumer has taken (R123, log entry 11). -/
structure Queue where
  xfers : List Xfer := []
  done  : Nat := 0
  taken : Nat := 0
  deriving DecidableEq, Repr

/-- What the producer writes for one element: its bits, and the histogram bin of R81. -/
structure Made where
  row : Nat
  k   : Nat
  bits : Nat
  bin : Nat
  deriving DecidableEq, Repr

/-- A block that R45 has formed: its scale byte index and code, its elements and its pads, which are +0. -/
structure FormedBlock where
  ix   : Nat
  code : Nat
  made : List Made
  pads : List Made
  deriving DecidableEq, Repr

/-- What one array pass adds with, as fixed at its issue (R51, R61, R95). -/
structure PassCfg where
  cls    : PClass
  window : Nat
  orient : Orient
  clear  : Bool
  sx     : Option (BitVec 32)
  deriving DecidableEq, Repr

/-- Operations in progress, with what each holds until its completion (R116). -/
inductive OpKind where
  /-- a load, and the rows that it has loaded -/
  | load (a : Fin 3) (d : Desc) (blk : Block)
  /-- a pass of n vectors into entries base on, over its stationary block; swap: it makes the shadow block active -/
  | stream (a : Fin 3) (d : Desc) (p : PassCfg) (base n : Nat) (swap : Bool) (blk : Block)
  /-- a drain, the pass that it trails, and values of blocks that are not complete -/
  | drain (a : Fin 3) (d : Desc) (pass : Option Nat) (part : List ((Nat × Nat) × Num))
  | vectorLd (v : Fin 32) (w40 : Bool) (d : Desc)
  /-- a store with what it writes: blocks formed, or elements; a store that ends its tagged run carries it -/
  | vectorSt (d : Desc) (blocks : List FormedBlock) (made : List Made) (run : Option StoreRun)
  | vector
  /-- a MOVE whose bound data has not arrived, and its queue -/
  | move (src dst : Desc) (route q : Nat)
  deriving DecidableEq, Repr

/-- An operation that needs data which has not arrived (R123): halted (class D) or suspended (class U) on a queue. -/
inductive Late where
  | no
  | halted (q : Nat)
  | suspended (q : Nat)
  deriving DecidableEq, Repr

/-- An operation of an engine: a row, vector or entry at each step. -/
structure Op where
  id   : Nat
  ctx  : CtxId
  kind : OpKind
  sig  : Option (Fin 64)
  pos  : Nat := 0                             -- steps done
  from' : Nat := 0                            -- transfers of its bound queue that serve earlier operations
  late : Late := .no
  pepper : Option (Map (BitVec 64)) := none   -- generators of its own lanes (R74, R123)
  deriving DecidableEq, Repr

/-- State of a landing slot (R127, R153). -/
inductive SlotState where
  | avail                                     -- open, credit waiting to be taken
  | taken                                     -- open, credit held for a transfer
  | returning                                 -- open, credit on its way to the holder
  | filled
  deriving DecidableEq, Repr

/-- A landing slot: state, bytes of the transfer received, its length, counter and whether it is wholly in place. -/
structure Slot where
  st   : SlotState := .avail
  got  : Nat := 0
  len  : Nat := 0
  ctr  : Option (Fin 64) := none
  holder : Option Nat := none                 -- tile to which its credit returns (R127, R153)
  beyond : Bool := false                      -- its holder is that tile's router, or the edge unit at its gate (R153, R214)
  vc2  : Bool := false                        -- its credit is held by a multicast
  deriving DecidableEq, Repr

/-- What follows when the bytes of a write to SRAM are in place. -/
inductive After where
  | ack (tile id : Nat)                       -- bytes of a MOVE of a tile (R116)
  | land (buf slot : Nat)                     -- bytes of a transfer for a landing slot (R127)
  | refill (buf slot : Nat)                   -- a spilled transfer is in its slot (R129)
  deriving DecidableEq, Repr

/-- Who accesses SRAM (R107). -/
inductive AccUse where
  | op (id : Nat)                             -- the next step of an engine operation
  | send (id : Nat)                           -- the next 128 bytes of a transfer's source
  /-- bytes to be written, and which are poisoned; network: an arrival -/
  | write (network : Bool) (segs : List (Nat × Nat)) (bs : List Byte) (bad : List Bool) (done : After)
  | reply (src id off pos : Nat) (segs : List (Nat × Nat))   -- the next 128 bytes of a remote read
  deriving DecidableEq, Repr

/-- An access to SRAM that waits for its banks (R107): those that have not granted it yet, and for how many core cycles it
has been refused. -/
structure Access where
  use   : AccUse
  banks : List Nat
  refused : Nat := 0
  deriving DecidableEq, Repr

/-- What the bytes of a vault request are (R110, R129). -/
inductive VaultUse where
  | move (tile id : Nat)                      -- of a MOVE of a tile
  | refill (tile buf slot : Nat)              -- of a spilled transfer, back into a landing slot of a tile
  | spill                                     -- of a spilled transfer, into the overflow area
  deriving DecidableEq, Repr

/-- A request at a vault interface (R109, R110). -/
structure VaultReq where
  own   : Bool                                -- from the tile itself, not over the network
  read  : Bool
  use   : VaultUse
  off   : Nat                                 -- offset of its bytes in the transfer
  len   : Nat                                 -- bytes of the request
  segs  : List (Nat × Nat)                    -- byte ranges still to be served: address and length
  taken : Nat := 0                            -- 64-byte words accepted and not served
  data  : List Byte := []                     -- bytes read so far, or still to be written, and which are poisoned
  bad   : List Bool := []
  deriving DecidableEq, Repr

/-- A spilled transfer recorded in the overflow area (R129). -/
structure Spilled where
  buf  : Nat
  slot : Nat
  src  : Nat                                  -- sending tile
  segs : List (Nat × Nat)                     -- where it lies in the area: offset and length
  len  : Nat
  ctr  : Option (Fin 64)
  moving : Bool := false                      -- on its way into a slot
  deriving DecidableEq, Repr

/-- A histogram slot (R82): 70 counts, the current write's crushed and element counts. -/
structure Hist where
  counts  : Map Nat := []
  crushed : Nat := 0
  elems   : Nat := 0
  deriving DecidableEq, Repr

/-- The guard of a tile (R261–R264). -/
structure Guard where
  ctx   : CtxId
  level : Nat
  on    : Bool := false                       -- a guard is in effect for the layer
  counters : Map (BitVec 32)
  sems     : Map Nat
  resume   : Nat                              -- address of the open marker
  route    : Nat
  layer    : Nat
  mark     : Nat                              -- first transfer number that is not appended before the open
  closing  : Bool := false                    -- the close waits, R264
  voted    : Bool := false                    -- the vote has been sent
  deriving DecidableEq, Repr

/-- A message to a tile on VC0 or VC5 that a command of its own delivers (R129, R146, R153). -/
inductive Msg where
  /-- the packet was of transfer xid, with n bytes -/
  | refusal (code : Nat) (route : Nat) (by' : Nat) (part : Nat) (xid n : Nat)
  | credit (tile : TileId) (buf slot : Nat)   -- slot credit that has come back to its holder
  /-- remote read of a MOVE: transfer, offset, and byte ranges in SRAM (3) or the vault (2) -/
  | readRequest (src : TileId) (id off space : Nat) (segs : List (Nat × Nat))
  | vote (sum : BitVec 32)                    -- the sum of a guard tree (R264)
  | counter (c : Fin 64)
  | spillRequest (src : TileId) (q : Nat) (buf : Nat)
  | spillGrant (from' : TileId) (buf : Nat)
  deriving DecidableEq, Repr

/-- A transfer that arrives on VC5 for the overflow area (R129): the bytes received so far. -/
structure SpillIn where
  src  : TileId
  id   : Nat
  q    : Nat
  dest : Dest
  len  : Nat
  data : List Byte
  bad  : List Bool
  deriving DecidableEq, Repr

structure Tile where
  ctxs   : Map Ctx := []
  last   : Nat := 7                           -- context that issued last (R114)
  issued : Option Nat := none                 -- core cycle in which it issued
  incs   : List (Fin 64 × BitVec 32 × Nat) := []  -- increments, applied at the end of a core cycle (R116, R125)
  accs   : List Access := []                  -- SRAM accesses that wait, oldest first (R107, R108)
  vreqs  : List VaultReq := []                -- requests at its vault interface, oldest first (R109)
  vturn  : Bool := false                      -- the vault interface served a remote request last (R110)
  spillIn : List SpillIn := []
  counters : Map (BitVec 32) := []
  sems   : Map Nat := []
  arrays : Map Arr := []
  queues : Map Queue := []
  ops    : List Op := []
  /-- engine (9: the vector unit) ↦ core cycle from which it works again after a context switch (R123) -/
  switching : Map Nat := []
  nextId : Nat := 1                           -- number of the next operation or transfer
  slots  : Map Slot := []                     -- buf × 64 + slot
  landing : List Landing := []
  spilled : List Spilled := []                -- oldest first
  episodes : List (Nat × Bool) := []          -- landing buffers with a spill episode; whether the area has held of them
  stamp  : BitVec 32 := 0
  poison : Bool := false                      -- R205
  guard  : Option Guard := none
  overflow : Bool := false                    -- guard overflow latch (R262)
  hist   : Map Hist := []
  reported : List Nat := []                   -- tags whose E5020 was raised this step
  code   : List (BitVec 64) := []
  part   : Option PartId := none              -- partition whose program the tile holds
  semq   : List (Nat × Nat) := []             -- waiting contexts of semaphores, longest first: (semaphore, context)
  holdT3 : Bool := false                      -- held in tile reset after T3 or a re-arm (R356, R348, R382)
  correctedS : Nat := 0                       -- corrections since the last E4010 (R176)
  correctedV : Nat := 0
  lastE4S : Option Nat := none
  lastE4V : Option Nat := none
  vaultBad : Bool := false                    -- its vault failed training (R375)
  refresh : Option (Fin 16 × Nat) := none     -- the bank last refreshed, and the net cycle in which that began (R170)
  inbox  : List Msg := []
  deriving DecidableEq, Repr

/-! The router (R133–R164). -/

/-- Packet types of R135. -/
inductive PktType where
  | data | signal | reduce | readReq | response | spill | control | credit
  deriving DecidableEq, Repr

/-- A flit with the header of its packet (R133, R135). -/
structure Flit where
  vc    : Fin 6
  ty    : PktType
  part  : PartId
  route : Nat
  dst   : Nat
  src   : Nat
  age   : Nat := 0
  came  : Nat := 0                            -- net cycle in which it entered its present router (R139)
  poison : Bool := false
  head  : Bool
  tail  : Bool
  dests : List Dest := []                     -- landing buffer, slot and counter of each destination
  off   : Nat := 0                            -- offset of the data in the transfer
  len   : Nat := 0                            -- bytes of the transfer
  pktLen : Nat := 0                           -- flits of the packet
  addr  : Option (Nat × List (Nat × Nat)) := none  -- of a MOVE: space (4 + n: stack n) and byte ranges of its data
  leaf  : Bool := false                       -- a copy for a leaf branch (R153)
  hdr   : Option TailHdr := none              -- tailrace header
  xid   : Nat := 0                            -- transfer number at its source
  q     : Nat := 0                            -- queue of a spilled transfer at its source
  edge  : Nat := 0                            -- origin: 0 a tile, 1 + r relay r, 32 + 8 × port + sub-port, 80 + n stack n
  data  : List Byte := []
  deriving DecidableEq, Repr

/-- A fork hold: input and output of the branch, and its held flits, oldest first (R154). -/
structure Hold where
  input : Nat
  out   : Nat
  part  : Nat := 0                            -- of the packet in progress
  age   : Nat := 0                            -- its age
  credit : Bool := false                      -- the leaf's slot credit has been spent for the present transfer
  flits : List Flit := []
  deriving DecidableEq, Repr

/-- What the head of a packet chose at a router (R142): its partition, outputs and leaf branches; no outputs while a
merge takes its flits. -/
structure Decision where
  part : Nat
  outs : List Nat
  leaf : List Nat := []
  age  : Nat := 0                             -- age with which the head left
  deriving DecidableEq, Repr

/-- A merge of one packet in progress (R156, R158): the decision read with its heads, and, for packets of unequal
lengths, which operands have ended. -/
structure MergeSt where
  ports : List Nat
  fp16  : Bool
  out   : Nat
  uneven : Bool := false
  ended : List Nat := []                      -- operands that have ended
  age   : Nat := 0                            -- age of its first operand
  deriving DecidableEq, Repr

structure Router where
  sets   : Map (BitVec 32) := []              -- partition × 512 + index
  /-- input port × 8 + VC, oldest first. Of the input from the tile, the oldest 8 flits stand in the router's buffer, the
  rest in the tile (R138); of a seam input, the oldest 8, the rest in the seam FIFO (R150) -/
  bufs   : Map (List Flit) := []
  dec    : Map Decision := []                 -- decision of the packet in progress: input × 8 + VC
  drops  : List (Nat × Nat) := []             -- (sender × 8 + VC) × 8 + output (7: all) whose packet of a partition is discarded
  /-- output × 8 + VC ↦ sender and partition of the packet in progress (R134): an input, 8 + the input of a fork hold, or
  16 + partition × 512 + index of a merge -/
  lock   : Map (Nat × Nat) := []
  sent   : Map Nat := []                      -- output, or 8 + input of a fork ↦ net cycle of its last flit (R139, R154)
  got    : Map Nat := []                      -- input ↦ net cycle in which its link last brought a flit (R149)
  since  : Map Nat := []                      -- net cycle since which the oldest flit of an input VC has not advanced
  paused : Map Nat := []                      -- of these net cycles, those that the watch does not count (R141)
  holds  : List Hold := []
  /-- slot credits that have come back to a branch of this router, or to the edge unit at its gate: tile, landing buffer and
  slot (R153, R214) -/
  credits : List (TileId × Nat × Nat) := []
  flushing : List Nat := []                   -- partitions whose flits it discards (R161)
  forkSince : Map Nat := []                   -- input ↦ net cycle since which a fork withholds it
  forkTold : List Nat := []                   -- inputs whose episode has raised E3010
  replays : Map Nat := []                     -- input port × 8 + VC ↦ 2 × failed receptions of its oldest flit, + 1 while
                                              -- its replay is awaited
  dead   : List Nat := []                     -- dead outputs 0–3
  lost   : List Nat := []                     -- of these, outputs toward a region that went off (R162, R348)
  lastReset : Option Nat := none              -- net cycle of the last E3030
  merging : Map MergeSt := []                 -- partition × 512 + index
  gate   : Map (List Flit) := []              -- FIFOs of its edge gates toward the edge: direction × 8 + VC, oldest first
  gatePk : Map (List Flit) := []              -- the same key: flits of the packet that the edge unit is receiving
  /-- flits on their way from its edge gates: direction × 8 + VC, oldest first; the oldest 16 stand in the gate's FIFO, the
  rest wait in the edge unit for credits of it (R138, R152) -/
  gateIn : Map (List Flit) := []
  deriving DecidableEq, Repr

/-! Regions, clocks and heat (R344–R362, R182, R183). -/

/-- Power state of a region; the codes of 0x4010:01 follow from it and from the clock-stop causes. -/
inductive RState where
  | off | powering | running | railOff | offT4 | latched | dead
  deriving DecidableEq, Repr

/-- Causes that hold a region's compute clock stopped. -/
inductive StopCause where
  | thermal | request | inlet | m2 | cap | lock
  deriving DecidableEq, Repr

/-- State of a retraining pass (R183, R184). -/
inductive Pass where
  | idle
  | pending
  | running (since : Nat)                     -- reference tick
  deriving DecidableEq, Repr

structure Region where
  st     : RState := .off
  stops  : List StopCause := []
  sensors : List Int := []                    -- last sample of the 16 sensors, 0.1 °C
  temp   : Int := 0
  level  : Nat := 0                           -- highest threshold in force (R355)
  index  : Nat := 0                           -- thermal index
  indexAt : Nat := 0                          -- tick of the last step of the index or crossing of T1
  bad    : Nat := 0                           -- failed sensors
  mv     : Nat := 750                         -- compute rail voltage
  step   : Nat := 0                           -- CORE step in force (R349, R350)
  core   : Nat := 0                           -- core cycles
  net    : Nat := 0                           -- net cycles
  corePh : Nat := 0                           -- mesh cycles since the last core cycle
  div    : Nat := 4                           -- divider of the core cycle that runs (R350)
  coreAt : Nat := 0                           -- mesh cycle in which the present core cycle began
  netPh  : Nat := 0
  netDiv : Nat := 2
  failed : Nat := 0                           -- failed re-arms (R348)
  rearmed : Option Nat := none                -- tick of the last re-arm
  offAt  : Nat := 0                           -- tick of the last switch-off
  firstReading : Bool := false                -- a re-arm after T4 awaits its first temperature reading (R356)
  hot    : Bool := false                      -- the last re-arm followed T4 (R356)
  retrain : Pass := .idle
  retrainBad : Bool := false
  passTemp : Int := 0                         -- temperature at the last pass
  corrected : Nat := 0                        -- vault corrections in the present second (R183)
  vaultsUp : Bool := false                    -- its vaults have trained (R375)
  clearing : Option Nat := none               -- net cycle in which a vault clear started
  attempts : Nat := 0                         -- power-up attempts of the present boot (R369)
  rising : Option Nat := none                 -- tick in which the rail that came up last was switched on (R346)
  micro  : Nat := 0                           -- microcode since the compute rail returned: 1 sent again, 2 waits for SC1 (R376)
  deriving DecidableEq, Repr

/-! Stacks and engines (R174, R218–R253). -/

/-- A stack-sourced read at a stack controller (R195, R196). -/
structure HeldRead where
  tile : TileId
  id   : Nat
  part : PartId
  stamp : BitVec 32                           -- s, the lead tile's stamp at issue
  src   : Desc
  route : Nat
  dests : List Dest
  deriving DecidableEq, Repr

/-- A request that waits at a stack controller (R174): a flit of a MOVE with the tile of its gate; a far read; a far write and
whether it came in poisoned; a ring request, with the same. -/
inductive StackReq where
  | move (gate : Nat) (f : Flit)
  | farRead (f : FarReq)
  | farWrite (f : FarReq) (data : List Byte) (poison : Bool)
  | ring (r : RingReq) (poison : Bool)
  deriving DecidableEq, Repr

/-- A commit group of another module that has come in part (R241, R243): its first packet, and what has come. -/
structure CommitIn where
  first  : FarReq
  data   : List Byte
  poison : Bool
  deriving DecidableEq, Repr

/-- Group values used by an update (R232). -/
structure Vals where
  eta : BitVec 32
  beta1 : BitVec 32
  beta2 : BitVec 32
  eps : BitVec 32
  lam : BitVec 32
  hold : Bool
  deriving DecidableEq, Repr

/-- An activation of a group (R226): in force from its step. -/
structure Act where
  stamp : BitVec 32
  vals  : Vals
  reached : Bool := false                     -- a block of its step or later has been handled
  deriving DecidableEq, Repr

/-- An update that waits for the direct shipment of its block (R250). -/
structure Waiting where
  part  : PartId
  group : GroupId
  block : Nat
  stamp : BitVec 32
  k     : Nat
  factor : BitVec 32
  vals  : Vals
  grad  : List (BitVec 32)                    -- A32
  entry : Option Nat                          -- sluice entry of a hold apply
  kind  : Nat                                 -- journal kind
  deriving DecidableEq, Repr

/-- A far-tier block in progress (R241): its sluice entry, apply factor and phase. -/
structure FarOp where
  part  : PartId
  group : GroupId
  block : Nat
  stamp : BitVec 32
  entry : Nat
  factor : BitVec 32
  vals  : Vals
  fetching : Bool := false                    -- a fetch slot is in use
  fetched  : Bool := false                    -- applied, write-back in flight
  elems  : List Byte := []                    -- its new working copy
  scales : List Byte := []
  free   : List Nat := []                     -- sluice entries freed when it settles
  repair : Option Nat := none                 -- of the repair pass: the kind of its journal entry (R245)
  deriving DecidableEq, Repr

/-- A block whose update has been written and whose working copy is being written (R242): the sluice entries that
are freed when it settles. -/
structure Settling where
  part  : PartId
  group : GroupId
  block : Nat
  stamp : BitVec 32
  free  : List Nat := []
  deriving DecidableEq, Repr

/-- A tailrace block received whole or in part (R201): by a reduction unit from a link sub-port, or from the local gate
(input none); by an engine at its gates or from a reduction unit. -/
structure RedIn where
  part  : PartId
  input : Option (PortId × SubId)
  blk   : TailBlock
  parts : List Nat                            -- packets received
  layer : Bool := false                       -- a packet of it arrived on layer 1 (R298)
  plan  : BitVec 16 := 0                      -- index of its block in the route plan (R297)
  deriving DecidableEq, Repr

/-- A command of R239 that runs: its parameters as taken, and its result. -/
structure HoldCmd where
  action : Nat
  group  : GroupId
  step   : BitVec 32
  factor : BitVec 32
  target : BitVec 32
  result : Nat
  read   : List EngineId := []                -- engines that have read the headers of their entries
  deriving DecidableEq, Repr

/-- A digest rollup of one step toward, or of, another module (R247). -/
structure Rollup where
  part   : PartId
  stamp  : BitVec 32
  module : BitVec 14                          -- subscriber (own rollups) or owner (copies received)
  engine : EngineId
  value  : BitVec 64
  blocks : Nat                                -- blocks included
  theirs : Option (BitVec 64) := none         -- the owner's record, when received first
  deriving DecidableEq, Repr

structure Engine where
  failed  : Bool := false
  st      : Nat := 0                          -- 0 held in edge reset, 1 repairing, 2 running (0x6810:01)
  trained : Bool := false
  reads   : List HeldRead := []               -- millrace reads at the controller, oldest first (R195)
  heldReads : List HeldRead := []             -- those held at the gate (R196)
  reqs    : List StackReq := []               -- oldest first (R174, R184)
  commits : List CommitIn := []
  ins     : List RedIn := []                  -- blocks accepted, received whole or in part (R206, R244)
  -- blocks are named by partition × 2^32 + group × 2^28 + block
  expected : Map (BitVec 32) := []            -- next stamp expected (R207)
  settled : Map (BitVec 32) := []             -- last settled stamp (R193)
  settling : List Settling := []              -- oldest first
  deferred : List (PartId × TailBlock) := []  -- arrived before the verdict of the step before (R220)
  far     : List FarOp := []
  told    : List (Nat × BitVec 32 × Nat × Nat) := []  -- (partition, step, event, cause) already raised (R229)
  lost    : List (Nat × BitVec 32) := []      -- blocks marked lost by repair (R246)
  full    : Bool := false                     -- an episode of R236
  rollups : List Rollup := []
  shipped : List Nat := []                    -- blocks shipped in the running snapshot
  copies  : List (Nat × List Nat) := []       -- kind-4 sluice entries of the snapshot, by block (R250)
  stale   : List Nat := []                    -- those of a snapshot that has ended, to be freed (R251)
  shipFar : List (Nat × Option (List Byte × Bool)) := []  -- far records asked for, by block: content and poison (R250)
  waiting : List Waiting := []                -- updates that wait for a direct shipment (R250)
  retrain : Map Pass := []                    -- channel
  retrainBad : Bool := false
  retrainCh  : Nat := 0                       -- channel last named
  lastE4  : Map Nat := []                     -- channel ↦ tick of the last E4010
  corrected : Map Nat := []                   -- channel ↦ corrections since
  second : Map Nat := []                      -- channel ↦ corrections in the present second (R184)
  deriving DecidableEq, Repr

/-! Ports (R288–R322) and port reduction units (R204). -/

/-- A link packet: header slot, its transfer fields, and its data (R297). -/
structure Pkt where
  hdr  : PktHdr
  xf   : List Byte := []
  data : List Byte := []
  deriving DecidableEq, Repr

/-- A block that a port reduction unit has combined, and the inputs it took (R202). -/
structure Combined where
  part   : PartId
  key    : Nat
  stamp  : BitVec 32
  inputs : List (Option (PortId × SubId))
  deriving DecidableEq, Repr

structure Port where
  failed : Bool := false
  ins    : List RedIn := []
  gateIn : List (PartId × TailBlock) := []    -- packets of local partials that have passed its gates (R203), oldest first
  done   : List Combined := []
  quiesced : Bool := false
  /-- packets held before the table lookup (R310), each with its table's instance, or 8 + sub-port where a plan names it -/
  holdPkts : List (Nat × Pkt) := []
  lost   : List Nat := []                     -- lane groups dropped since the last retrain (R290)
  deriving DecidableEq, Repr

/-- A data frame sent and not acknowledged (R300). -/
structure SentFrame where
  seq   : Nat
  slots : List Byte
  poison : Bool := false                      -- sent as a poisoned data frame (R294)
  deriving DecidableEq, Repr

structure SubPort where
  st      : Nat := 0                          -- 0 down … 6 disabled (0x6010:01)
  groups  : List Nat := []                    -- active lane groups
  txSeq   : Nat := 0
  rxSeq   : Nat := 0
  unacked : List SentFrame := []              -- oldest first
  ackWait : Nat := 0                          -- tick since which the oldest waits
  replays : Nat := 0                          -- consecutive replays of the oldest
  discarding : Bool := false                  -- after a bad frame (R294)
  lastValid : Nat := 0                        -- tick of the last valid frame
  sinceCtl : Nat := 0                         -- frames since the last scheduled control frame
  mine    : Option Identity := none           -- identity sent at the last training (R304)
  peer    : Option Identity := none
  peerDigest : List Byte := []
  mismatch : Option Nat := none               -- tick since which the digests differ
  mismatchTold : Bool := false
  ctl     : List CtlFrame := []               -- control frames sent
  accepted : Map Nat := []                    -- slots accepted per link channel
  released : Map Nat := []                    -- credits last released per link channel, cumulative
  rxChan  : Nat := 0                          -- link channel of the packet being received, and its slots still to come
  rxLeft  : Nat := 0
  rxBad   : Bool := false                     -- a poisoned frame has brought slots of it (R294)
  rxDone  : List (Nat × Bool) := []           -- packets of VC1–VC5 received whole: link channel, and whether poisoned; oldest first
  wire    : Map (List Byte) := []             -- lane ↦ bytes that the last data frame sent puts on it (R293)
  scheduled : Nat := 0                        -- scheduled control frames sent since training
  digestSent : List Byte := []
  granted : List Nat := []                    -- cumulative credits received
  used    : Map Nat := []                     -- slots sent per link channel
  queue   : List Pkt := []                    -- packets that wait for credits, oldest first
  trained : Nat := 0                          -- tick of the last training attempt
  waits   : Bool := false                     -- a training waits for the restart of SC3 (R393)
  deriving DecidableEq, Repr

/-- A transfer held by a relay (R214). -/
structure RelayXfer where
  teacher : TileId                            -- that sent it
  gate : TileId                               -- at whose gate it came in
  tile : Nat                                  -- of the student
  buf  : Nat
  slot : Nat
  ctr  : Option (Fin 64)
  data : List Byte
  poison : Bool
  deriving DecidableEq, Repr

structure Relay where
  failed  : Bool := false
  teacher : Option (PartId × PartId) := none  -- admitted export: teacher, student it names
  student : Option (PartId × PartId) := none  -- admitted import: student, teacher it names
  plan    : Option RelayPlan := none          -- the import
  held    : List RelayXfer := []              -- oldest first
  discards : Bool := false                    -- the student has been stopped or reset, and not started since (R215)
  inflight : Nat := 0                         -- relay slot credits in use
  deriving DecidableEq, Repr

/-! Partitions (R271–R280) and the step verdict (R208–R212). -/

/-- Why a training partition is asked to pause. -/
inductive PauseCause where
  | command | ring | turnover
  deriving DecidableEq, Repr

/-- What the module collects for the verdict of one step (R208, R209, R229). -/
structure Contribution where
  flags   : BitVec 16 := 0
  skipped : Nat := 0
  held    : Nat := 0
  handled : Nat := 0                          -- owned blocks handled
  passed  : Nat := 0                          -- blocks passed at gates and ports
  sums    : Map Nat := []                     -- group × 2^28 + block ↦ q, W40
  deriving DecidableEq, Repr

/-- A verdict record that a child of the verdict tree has sent (R210), with the layer and poison of its packet (R294, R298). -/
structure VerdictIn where
  input  : PortId × SubId
  v      : Verdict
  layer  : Bool
  poison : Bool
  deriving DecidableEq, Repr

/-- A request outstanding (R280). -/
structure Request where
  id     : BitVec 64
  sender : BitVec 14
  ring   : Nat
  reply  : Nat
  fromHost : Bool
  index  : Nat                                -- index of its ring entry
  port   : PortId
  deriving DecidableEq, Repr

structure Part where
  bin    : Option Binary := none
  barred : Option Nat := none                 -- Loaded while a region on its routes was lost (R162)
  pauses : List PauseCause := []
  s0     : BitVec 32 := 0
  cold   : Option (BitVec 32) := none         -- s0 + N of a start with history lost (R260)
  lastStamp : BitVec 32 := 0                  -- last verdict applied, or s0 − 1 at the start (R200)
  lastFlags : BitVec 16 := 0
  contribs : Map Contribution := []           -- stamp ↦ contribution
  passing : Map Nat := []                     -- stamp × 2^32 + block key ↦ packets passed
  early   : BitVec 16 := 0                    -- flags owed to the next verdict (R228 step 1)
  joined : List (BitVec 32 × Nat) := []       -- stamps joined and not applied, oldest first, with the tick of the join (R212)
  inputs : List VerdictIn := []
  digested : List (BitVec 32) := []           -- digested steps, newest first, at most 16 (R247)
  rollups : List Rollup := []                 -- of working copies received (R247)
  own    : List Verdict := []                 -- own contributions to these
  requests : List Request := []
  deriving DecidableEq, Repr

/-- A command taken from the command ring (R386). -/
structure Taken where
  op   : Nat
  tag  : Nat
  part : Nat
  timeout : Nat
  params : List Byte                          -- bytes 16–63
  tick : Nat                                  -- reference tick in which it was taken
  running : Bool := false
  index : Nat := 0                            -- ring index of the entry
  ended : Option Nat := none                  -- completion code that waits for the restart of SC1 (R393)
  deriving DecidableEq, Repr

/-- A completion or notice that waits for room in the completion ring (R387, R388). -/
structure Completion where
  op   : Nat
  tag  : Nat
  part : Nat
  code : Nat
  tile : Nat
  detail : Nat
  deriving DecidableEq, Repr

/-- One entry of the turnover plan (R284). -/
structure PlanEntry where
  part   : PartId
  action : Nat
  rect   : Nat
  stack  : Nat
  flag   : Nat
  offset : Nat
  length : Nat
  job    : BitVec 32
  stamp  : BitVec 32
  deriving DecidableEq, Repr

structure Turnover where
  stage   : Nat                               -- 1–5
  entries : List PlanEntry
  clear   : Bool
  start   : Nat                               -- reference tick of the execute write
  drain   : Nat                               -- reference tick at which stage 1 began
  failed  : List PartId := []
  result  : Nat := 0
  aborted : Bool := false                     -- R407: ends at the next stage boundary
  deriving DecidableEq, Repr

/-! Service, boot, security (R363–R415). -/

/-- A firmware slot (R395, R396). -/
structure FwSlot where
  valid   : Bool := true
  version : BitVec 32 := 0x01000000
  parts   : List (BitVec 32) := [0x01000000, 0x01000000, 0x01000000, 0x01000000]
  measures : List Byte := []
  deriving DecidableEq, Repr

/-- The flash operation that runs (R327, R338, R340, R395). -/
inductive FlashOp where
  | store (all : Bool)
  | restore (all : Bool)
  | image (slot : Fin 2) (img : Image)
  deriving DecidableEq, Repr

/-- The store area (R338): saved values and tables of each scope, and its validity. -/
structure StoreArea where
  values : Map Nat := []                      -- object key ↦ value
  blobs  : Map (List Byte) := []
  tables : Map (BitVec 32) := []              -- instance × 16,384 + module ID
  all    : Bool := false                      -- scope "all" valid
  link   : Bool := false                      -- scope "link and route" valid
  crcBad : Bool := false                      -- a store lost power (R339)
  deriving DecidableEq, Repr

/-- A service core (R384, R392–R394). -/
structure Core where
  down     : Bool := false
  upAt     : Nat := 0                         -- tick in which a core that is down runs again
  cause    : Nat := 0                         -- of E8010
  took     : Nat := 0                         -- restart time, reference ticks
  restarts : List Nat := []                   -- reference ticks of its restarts
  deriving DecidableEq, Repr

/-- What the security core keeps (R400–R408). -/
structure Security where
  fusedFloor : BitVec 32 := 0
  retired : Bool := false                     -- both identity keys are erased (R407)
  record  : Option ProvRecord := none         -- stored provisioning record (R402)
  stage1  : Bool := true                      -- a stage-1 verified at the last boot (R414)
  signing : Option (List Byte) := none        -- captured body of the report being signed (R408)
  verifyAt : Option Nat := none               -- tick in which SX last took a token or record to verify (R407)
  deriving DecidableEq, Repr

/-- The boot sequence in progress (R366–R378) and the findings of the self-test. -/
structure Boot where
  active  : Bool := false                     -- precharge, or a step from 5 on
  precharged : Bool := false
  charging : Option Nat := none               -- tick since which precharge runs with the inlet in its range (R367)
  tested  : Bool := false                     -- step 8 ended
  published : Bool := false                   -- step 9 ended
  mcTries : Map Nat := []                     -- tile ↦ retries (R376)
  drift   : List Nat := []                    -- tiles with a drifted unit, one entry a unit
  portTick : Option Nat := none               -- tick in which link training began
  deriving DecidableEq, Repr

/-- A transition of R364 in progress. -/
structure Transition where
  target : Nat
  cause  : Nat := 5                           -- for 0x2000:03
  since  : Nat := 0                           -- tick in which it began
  asked  : Bool := false                      -- 0x2001:01 has been written since (R365)
  deriving DecidableEq, Repr

/-- The inlet and the cap (R344, R358, R359). -/
structure Power where
  mV     : Nat := 0
  stopped : Bool := false                     -- inlet clock stop in force
  cap    : Nat := 0
  capPeak : Nat := 0
  capStart : Nat := 0                         -- tick
  capCause : Nat := 0
  above  : Nat := 0                           -- consecutive power measurements above the limit
  under  : Nat := 0                           -- consecutive measurements at least 1 kW below it
  below  : Nat := 0                           -- consecutive measurements below the limit
  at3    : Nat := 0                           -- measurements since the index reached 3, or since the last escalation
  escal  : Nat := 0                           -- 1: both halves clocked down by the cap; 2: compute clocks stopped too
  halfDown : List Nat := []                   -- halves clocked down: 0 west, 1 east
  clear  : Map Nat := []                      -- half ↦ tick since which no cause holds
  locked : Bool := false                      -- the mesh is locked
  deriving DecidableEq, Repr

structure State where
  /-- commands waiting, first in, first out -/
  pending : List Instr := []
  /-- mesh cycles since reset (R352; log entry 2) -/
  now    : Nat := 0
  /-- the MODEL's own field: free values drawn so far (log entry 5) -/
  free   : Nat := 0
  /-- writes of the last mesh cycles to objects that act from a tile's next core cycle on (R71, R82, R122, R335), newest first,
  each with the object, the mesh cycle and the value before -/
  recent : List (Nat × Nat × Nat) := []
  dict   : Map Nat := []                      -- values of objects: index × 2^24 + sub × 2^16 + instance
  blobs  : Map (List Byte) := []              -- values of OCT and DOMAIN objects, same key
  live   : Map Nat := []                      -- counters (R336), same key
  latched : Map Nat := []                     -- holding values and latch counts
  latching : List CounterBlock := []          -- blocks that have latched in the running snapshot
  edges  : Map Nat := []                      -- edge side ↦ EDGE cycles (R352)
  missed : List Nat := []                     -- unpowered at the last snapshot: regions 0–47 by their tiles, 48 the edge
  tables : Map (BitVec 32) := []              -- destination tables: instance × 16,384 + module ID (R305)
  replies : List Reply := []                  -- responses sent, newest first
  opens  : List Open := []                    -- transactions whose operation runs
  segments : List Segment := []               -- writes that are open
  reads  : List Segment := []                 -- segmented reads that are open: the value captured at offset 0
  ecat   : EcatState := .init
  txpdo  : List Byte := []
  alCode : Nat := 0                           -- AL status code of the last EtherCAT request (R331)
  mbxErrors : List Nat := []                  -- mailbox error replies sent, newest first (R331)
  mems   : Map Mem := []                      -- SRAM t, vault 8,192 + t, stack 16,384 + e
  tiles  : Map Tile := []
  routers : Map Router := []
  avoid  : List Nat := []                     -- links the direction tables avoid: tile × 4 + direction (R144)
  tablesOn : Bool := false                    -- direction tables written since the routers powered up
  regions : Map Region := []
  passes : List Nat := []                     -- pending vault passes in order (R183)
  chPasses : List (Nat × Nat) := []           -- pending channel passes in order: engine, channel (R184)
  engines : Map Engine := []
  acts   : Map (List Act) := []               -- group ↦ activations kept, newest first (R226)
  holdCmd : Option HoldCmd := none            -- running command of R239
  shipping : Option (BitVec 32 × Nat) := none -- running snapshot: step, content (R249)
  ports  : Map Port := []
  subs   : Map SubPort := []                  -- port × 8 + sub-port
  stops  : List (BitVec 32 × BitVec 14 × Nat) := []  -- stop frames remembered: job, origin, tick (R318)
  relays : Map Relay := []
  parts  : Map Part := []
  taken  : List Taken := []                   -- oldest first
  waiting : List Completion := []             -- oldest first
  ringFull : Bool := false                    -- an episode of R388
  turn   : Option Turnover := none
  lease  : Nat := 0                           -- reference tick of the last renewal
  cores  : Map Core := []
  hwbuf  : List Record := []                  -- events waiting while SC0 restarts, oldest first (R418)
  ring   : List Record := []                  -- event ring, newest first, at most 4,096
  log    : List Record := []                  -- persistent log, newest first, at most 65,536
  slotA  : FwSlot := {}
  slotB  : FwSlot := {}
  flash  : Option FlashOp := none
  saved  : StoreArea := {}
  sec    : Security := {}
  boot   : Boot := {}
  floor  : Option (Map Nat) := none           -- the floor plan (R20, R24): tile ↦ state where not GOOD; none before publication
  findings : Option (Map Nat) := none         -- self-test: tile ↦ bad units [2:0], untested units [5:3]; none before it
  mc     : Option (Map Nat) := none           -- microcode (R376): none loaded, or tile ↦ 0 pending, 2 failed; others hold it
  move   : Option Transition := none
  onTick : Nat := 0                           -- tick of power-on (R374, R378)
  otherSlot : Bool := false                   -- the next boot tries the other firmware slot first (R394)
  power  : Power := {}
  fuses  : Map Nat := []                      -- fuse map: tile ↦ bad units [0] router [1] compute [2] vault
  w1s    : Bool := false                      -- ordering code W1-S (R3)
  trace  : Nat := 0                           -- trace records taken since the ring was cleared
  /-- trace records that wait, by edge side, oldest first: index and 64 bytes (R412) -/
  traceBufs : Map (List (Nat × List Byte)) := []
  mirrored : Nat := 0                         -- records of the event ring that the mirror holds, or has passed over (R419)
  deriving DecidableEq, Repr

/-- The module right after reset: in M3, every object at the default of its table, every memory zeroed, nothing in
flight. Values the spec does not give are those of log entries 2, 3, 4 and 6. -/
def State.reset : State := {}

end Sys2Proof.Machine
end

