-- ==== Sys2Proof/Machine/Ops.lean ====
section
/-! DEFINITION. Named operations over the state: sparse data, objects, counters, events, clocks, memory and its
error correction, tiles and the records of their units. -/
namespace Sys2Proof

def MemUnit.key : MemUnit → Nat
  | .sram t => t.val
  | .vault t => 8192 + t.val
  | .stack e => 16384 + e.val

/-- Data bytes of a code word (R175). -/
def MemUnit.word : MemUnit → Nat
  | .sram _ => 32
  | _ => 64

/-- Tier code, event source and channel of a memory (R176, R178). -/
def MemUnit.tier : MemUnit → Nat
  | .sram _ => 0 | .vault _ => 1 | .stack _ => 2
def MemUnit.inst : MemUnit → Nat
  | .sram t => t.val | .vault t => t.val | .stack e => e.val
def MemUnit.channel (u : MemUnit) (a : Nat) : Nat :=
  match u with
  | .stack _ => a / 512 % 16
  | _ => 0

end Sys2Proof

namespace Sys2Proof.Machine

/-- The outcome of every command: the next state, the event ring at its newest 4,096 records and the persistent log
at its newest 65,536 (R418, R420). -/
def done (s : State) : Host.Outcome State Fault Refusal :=
  .next { s with ring := s.ring.take 4096, log := s.log.take 65536 }

/-! Sparse data. -/

def minsert {α : Type} (k : Nat) (v : α) : Map α → Map α
  | [] => [(k, v)]
  | (j, w) :: r => if k < j then (k, v) :: (j, w) :: r else (j, w) :: minsert k v r

def mdel {α : Type} (k : Nat) (m : Map α) : Map α := m.filter (fun c => c.1 != k)

def mset {α : Type} (k : Nat) (v : α) (m : Map α) : Map α := minsert k v (mdel k m)

def mfind {α : Type} (k : Nat) : Map α → Option α
  | [] => none
  | (j, w) :: r => if j = k then some w else mfind k r

def mget {α : Type} (d : α) (m : Map α) (k : Nat) : α := (mfind k m).getD d

/-- Numbers below n for which p holds, ascending. -/
def below (n : Nat) (p : Nat → Bool) : List Nat := (List.range n).filter p

/-- All of a finite type, ascending. -/
def allFin (n : Nat) : List (Fin n) := List.finRange n

/-! Bytes (R325, R416: little-endian). -/

def leBytes : Nat → Nat → List Byte
  | 0, _ => []
  | n + 1, v => BitVec.ofNat 8 v :: leBytes n (v / 256)

def leVal : List Byte → Nat
  | [] => 0
  | b :: r => b.toNat + 256 * leVal r

/-- Two's complement of an integer in n bits. -/
def twos (n : Nat) (v : Int) : Nat := (v % (2 ^ n : Nat)).toNat

def bytesAt (bs : List Byte) (off n : Nat) : Nat := leVal ((bs.drop off).take n)

def bitOf (v i : Nat) : Bool := v / 2 ^ i % 2 = 1

/-! Stamps compare as (int32)(a − b) (R192). -/

def stampDiff (a b : BitVec 32) : Int := (a - b).toInt

/-! Places (R6, R18, R22). -/

def tileX (t : Nat) : Nat := t % 96
def tileY (t : Nat) : Nat := t / 96
def regionOf (t : Nat) : Nat := tileY t / 12 * 8 + tileX t / 12
/-- Half of a region: 0 west, 1 east (R17). -/
def halfOf (r : Nat) : Nat := r % 8 / 4
/-- Tiles of a region, by local index (R22). -/
def tileAt (r i : Nat) : Nat := ((r / 8) * 12 + i / 12) * 96 + (r % 8) * 12 + i % 12
def regionTiles (r : Nat) : List Nat := (List.range 144).map (tileAt r)

/-- The neighbour tile in direction 0 N, 1 E, 2 S, 3 W; none at the edge of the grid. -/
def neighbour (t : Nat) : Nat → Option Nat
  | 0 => if tileY t < 71 then some (t + 96) else none
  | 1 => if tileX t < 95 then some (t + 1) else none
  | 2 => if 0 < tileY t then some (t - 96) else none
  | 3 => if 0 < tileX t then some (t - 1) else none
  | _ => none

def opposite : Nat → Nat
  | 0 => 2 | 1 => 3 | 2 => 0 | 3 => 1 | d => d

/-- Side of an engine (R18): 0 N, 1 E, 2 S, 3 W. -/
def engineSide (e : Nat) : Nat := if e < 8 then 3 else if e < 16 then 2 else if e < 24 then 1 else 0
/-- Side of a port (R18). -/
def portSide : Nat → Nat
  | 0 => 0 | 4 => 0 | 3 => 3 | 1 => 2 | 5 => 2 | _ => 1
/-- Side of a relay (R213). -/
def relaySide (r : Nat) : Nat := if r < 4 then 3 else if r < 8 then 2 else if r < 12 then 1 else 0
/-- Perimeter tiles of the home gates of stack n (R18). -/
def homeGates (n : Nat) : List Nat :=
  if n < 8 then (List.range 9).map (fun i => (63 - 9 * n + i) * 96)
  else if n < 16 then (List.range 12).map (fun i => 12 * (n - 8) + i)
  else if n < 24 then (List.range 9).map (fun i => (9 * (n - 16) + i) * 96 + 95)
  else (List.range 12).map (fun i => 71 * 96 + 12 * (31 - n) + i)
def isPerimeterToward (t d : Nat) : Bool := (neighbour t d).isNone && d < 4

/-- Perimeter tiles of a side. -/
def sideTiles (d : Nat) : List Nat :=
  match d with
  | 0 => (List.range 96).map (fun x => 71 * 96 + x)
  | 1 => (List.range 72).map (fun y => y * 96 + 95)
  | 2 => List.range 96
  | _ => (List.range 72).map (fun y => y * 96)

/-! Objects. -/

def okey (idx sub inst : Nat) : Nat := idx * 2 ^ 24 + sub * 2 ^ 16 + inst

/-- Defaults of the object tables that are not 0. -/
def objDefault (idx sub : Nat) : Nat :=
  if idx = 0x4800 && sub = 5 then 144
  else if idx = 0x1030 && sub = 2 then 6912
  else if idx = 0x5200 && sub = 0x20 then 655
  else if idx = 0x8010 && sub = 1 then 4096
  else if idx = 0x5200 && sub = 8 then 1
  else if idx = 0x5010 && sub = 0x11 then 1
  else if idx = 0x5100 && 1 ≤ sub && sub ≤ 0x20 then 8
  else if idx = 0x5100 && sub = 0x41 then 16384
  else if idx = 0x5100 && sub = 0x44 then 0xFFFF
  else if idx = 0x5300 && sub = 5 then 0x10000000
  else if idx = 0x5300 && sub = 6 then 65536
  else if idx = 0x4040 && sub = 3 then 1
  else if idx = 0x6830 && sub = 3 then 1
  else if idx = 0x8610 && sub = 1 then 60000
  else if idx = 0x6800 && sub = 1 then 16
  else if (idx = 0x8701 || idx = 0x8711) && 1 ≤ sub && sub ≤ 12 then 0x3F666666
  else if (idx = 0x8702 || idx = 0x8712) && 1 ≤ sub && sub ≤ 12 then 0x3F733333
  else if (idx = 0x8703 || idx = 0x8713) && 1 ≤ sub && sub ≤ 12 then 0x24E69595
  else if idx = 0x8400 && 1 ≤ sub && sub ≤ 12 then 0x42800000
  else if idx = 0x8400 && sub = 13 then 0x3D800000
  else if idx = 0x8400 && sub = 14 then 100
  else if idx = 0x8300 && sub = 1 then 500
  else if idx = 0x8720 && sub = 4 then 0x3F800000
  else if idx = 0x8100 && (sub = 1 || sub = 3) then 15
  else if idx = 0x8100 && (sub = 2 || sub = 7) then 2000
  else if idx = 0x8100 && sub = 6 then 200
  else if idx = 0x8100 && sub = 8 then 0xFF
  else if idx = 0x8130 && sub = 1 then 16
  else if idx = 0x8200 && sub = 1 then 256
  else if idx = 0x2110 && sub = 2 then 1000
  else if idx = 0x1F81 && sub = 2 then 100
  else if idx = 0x6000 && sub = 1 then 1
  else if idx = 0x6000 && sub = 5 then 0xFF
  else if idx = 0x6000 && sub = 6 then 2350
  else if idx = 0x6000 && sub = 7 then 11750
  else if idx = 0x6010 && 0x10 ≤ sub && sub ≤ 0x17 then 0xFFFF
  else if (idx = 0x1010 || idx = 0x1011) && (sub = 1 || sub = 2) then 1
  else if idx = 0x1018 && sub = 1 then 0x0A7D
  else if idx = 0x1018 && sub = 4 then 1
  else if idx = 0x1C13 && sub = 0 then 1
  else if idx = 0x1C13 && sub = 1 then 0x1A00
  else if idx = 0x2000 && sub = 1 then 3
  else if idx = 0x2001 && sub = 1 then 2
  else if idx = 0x2F10 && sub = 1 then 50
  else if idx = 0x4000 && sub = 2 then 750
  else if idx = 0x4020 && sub = 0x12 then 950
  else if idx = 0x4020 && sub = 0x13 then 1050
  else if idx = 0x4020 && sub = 0x14 then 1100
  else if idx = 0x4020 && sub = 0x15 then 1150
  else if idx = 0x4030 && sub = 1 then 2
  else if idx = 0x4030 && sub = 2 then 4
  else if idx = 0x2020 && sub = 5 then 3000
  else if idx = 0x2200 && sub = 2 then 2000
  else if idx = 0x2300 && sub = 5 then 65536
  else if (idx = 0x3020 || idx = 0x3030) && sub = 1 then 0x03FE
  else if idx = 0x3100 && sub = 2 then 0xFF
  else if idx = 0x9100 && sub = 2 then 3
  else 0

/-- The value held for an object; its table's default where none has been written. -/
def State.obj (s : State) (idx sub inst : Nat) : Nat := mget (objDefault idx sub) s.dict (okey idx sub inst)

def State.setObj (s : State) (idx sub inst v : Nat) : State := { s with dict := mset (okey idx sub inst) v s.dict }

def State.blob (s : State) (idx sub inst : Nat) : List Byte := mget [] s.blobs (okey idx sub inst)

def State.setBlob (s : State) (idx sub inst : Nat) (v : List Byte) : State :=
  { s with blobs := mset (okey idx sub inst) v s.blobs }

/-- Live value of a counter (R336). -/
def State.count (s : State) (idx sub inst : Nat) : Nat := mget 0 s.live (okey idx sub inst)

def State.bump (s : State) (idx sub inst n : Nat) : State :=
  { s with live := mset (okey idx sub inst) (s.count idx sub inst + n) s.live }

/-- Clear every counter of an index at one instance. -/
def State.clearCounters (s : State) (idx inst : Nat) : State :=
  { s with live := s.live.filter (fun c => !(c.1 / 2 ^ 24 = idx && c.1 % 2 ^ 16 = inst)) }

/-! Clocks. -/

/-- Reference ticks (R7, R352). -/
def State.tick (s : State) : Nat := s.now / 32
/-- Mesh cycles of a millisecond, and reference ticks of a millisecond. -/
def msMesh : Nat := 3760000
def msTicks : Nat := 117500

def State.region (s : State) (r : Nat) : Region := mget {} s.regions r
def State.setRegion (s : State) (r : Nat) (v : Region) : State := { s with regions := mset r v s.regions }
def State.modRegion (s : State) (r : Nat) (f : Region → Region) : State := s.setRegion r (f (s.region r))
/-- Core and net cycles of a tile. -/
def State.coreOf (s : State) (t : Nat) : Nat := (s.region (regionOf t)).core
def State.netOf (s : State) (t : Nat) : Nat := (s.region (regionOf t)).net

/-- The value of an object in the present core cycle of a region, for the objects of which a write acts from the next core
cycle on (R71, R82, R122, R335): the value before the first write of this cycle. -/
def State.inForce (s : State) (idx sub inst r : Nat) : Nat :=
  match (s.recent.filter (fun w => w.1 = okey idx sub inst && (s.region r).coreAt ≤ w.2.1)).getLast? with
  | some w => w.2.2
  | none => s.obj idx sub inst

/-- The same of an object of a tile. -/
def State.tileObj (s : State) (idx sub t : Nat) : Nat := s.inForce idx sub t (regionOf t)

/-- A write of such an object; a core cycle has at most 8 mesh cycles (R349). -/
def State.setNext (s : State) (idx sub inst v : Nat) : State :=
  { s with recent := (okey idx sub inst, s.now, s.obj idx sub inst) :: s.recent.filter (fun w => s.now < w.2.1 + 8) }.setObj
    idx sub inst v

/-- Module power state (R363). -/
def State.mstate (s : State) : Nat := s.obj 0x2000 1 0

/-- The compute clock of a region runs. -/
def Region.clocked (r : Region) : Bool := r.st = .running && r.stops.isEmpty
/-- Its network rail is up: alone while it powers up (R346) and at threshold T3. -/
def Region.netUp (r : Region) : Bool := r.st = .running || r.st = .railOff || (r.st = .powering && r.rising.isSome)
/-- Its compute rail is off beside it. -/
def Region.computeOff (r : Region) : Bool := r.st = .railOff || r.st = .powering
/-- The perimeter regions of a side. -/
def sideRegions (d : Nat) : List Nat :=
  (List.range 48).filter (fun r => match d with
    | 0 => r / 8 = 5
    | 1 => r % 8 = 7
    | 2 => r / 8 = 0
    | _ => r % 8 = 0)

/-- An edge side has its clock while a perimeter region of it is powered (R352). -/
def State.sideClocked (s : State) (d : Nat) : Bool := (sideRegions d).any (fun r => (s.region r).netUp)

/-- Off, latched or off until module reset. -/
def Region.isOff (r : Region) : Bool := !(r.netUp || r.st = .powering)

/-! Tiles, routers and the other units. -/

def State.tile (s : State) (t : Nat) : Tile := mget {} s.tiles t
def State.setTile (s : State) (t : Nat) (v : Tile) : State := { s with tiles := mset t v s.tiles }
def State.modTile (s : State) (t : Nat) (f : Tile → Tile) : State := s.setTile t (f (s.tile t))
def Tile.ctx (t : Tile) (c : Nat) : Ctx := mget {} t.ctxs c
def Tile.setCtx (t : Tile) (c : Nat) (v : Ctx) : Tile := { t with ctxs := mset c v t.ctxs }
def Tile.modCtx (t : Tile) (c : Nat) (f : Ctx → Ctx) : Tile := t.setCtx c (f (t.ctx c))
def State.modCtx (s : State) (t c : Nat) (f : Ctx → Ctx) : State := s.modTile t (fun x => x.modCtx c f)
def Tile.counter (t : Tile) (c : Nat) : BitVec 32 := mget 0 t.counters c
def Tile.setCounter (t : Tile) (c : Nat) (v : BitVec 32) : Tile := { t with counters := mset c v t.counters }
def Tile.sem (t : Tile) (m : Nat) : Nat := mget 0 t.sems m
def Tile.setSem (t : Tile) (m v : Nat) : Tile := { t with sems := mset m v t.sems }
def Tile.array (t : Tile) (a : Nat) : Arr := mget {} t.arrays a
def Tile.setArray (t : Tile) (a : Nat) (v : Arr) : Tile := { t with arrays := mset a v t.arrays }
def Tile.queue (t : Tile) (q : Nat) : Queue := mget {} t.queues q
def Tile.setQueue (t : Tile) (q : Nat) (v : Queue) : Tile := { t with queues := mset q v t.queues }
def Tile.slot (t : Tile) (b i : Nat) : Slot := mget {} t.slots (b * 64 + i)
def Tile.setSlot (t : Tile) (b i : Nat) (v : Slot) : Tile := { t with slots := mset (b * 64 + i) v t.slots }
def Tile.landingOf (t : Tile) (b : Nat) : Option Landing := t.landing.find? (fun l => l.buf.val = b)
def Ctx.scalar (c : Ctx) (i : Nat) : BitVec 32 := mget 0 c.s i
def Ctx.setScalar (c : Ctx) (i : Nat) (v : BitVec 32) : Ctx := { c with s := mset i v c.s }
def Ctx.lane (c : Ctx) (v l : Nat) : Nat := mget 0 c.v (v * 64 + l)
def Ctx.setLane (c : Ctx) (v l x : Nat) : Ctx := { c with v := mset (v * 64 + l) x c.v }

def State.router (s : State) (t : Nat) : Router := mget {} s.routers t
def State.setRouter (s : State) (t : Nat) (v : Router) : State := { s with routers := mset t v s.routers }
def State.modRouter (s : State) (t : Nat) (f : Router → Router) : State := s.setRouter t (f (s.router t))
def State.engine (s : State) (e : Nat) : Engine := mget {} s.engines e
def State.setEngine (s : State) (e : Nat) (v : Engine) : State := { s with engines := mset e v s.engines }
def State.modEngine (s : State) (e : Nat) (f : Engine → Engine) : State := s.setEngine e (f (s.engine e))
def State.port (s : State) (p : Nat) : Port := mget {} s.ports p
def State.setPort (s : State) (p : Nat) (v : Port) : State := { s with ports := mset p v s.ports }
def State.modPort (s : State) (p : Nat) (f : Port → Port) : State := s.setPort p (f (s.port p))
def State.sub (s : State) (p b : Nat) : SubPort := mget {} s.subs (p * 8 + b)
def State.setSub (s : State) (p b : Nat) (v : SubPort) : State := { s with subs := mset (p * 8 + b) v s.subs }
def State.modSub (s : State) (p b : Nat) (f : SubPort → SubPort) : State := s.setSub p b (f (s.sub p b))
def State.relay (s : State) (r : Nat) : Relay := mget {} s.relays r
def State.setRelay (s : State) (r : Nat) (v : Relay) : State := { s with relays := mset r v s.relays }
def State.part (s : State) (p : Nat) : Part := mget {} s.parts p
def State.setPart (s : State) (p : Nat) (v : Part) : State := { s with parts := mset p v s.parts }
def State.modPart (s : State) (p : Nat) (f : Part → Part) : State := s.setPart p (f (s.part p))
def State.core (s : State) (c : Nat) : Core := mget {} s.cores c
def State.setCore (s : State) (c : Nat) (v : Core) : State := { s with cores := mset c v s.cores }

/-- State of a partition (R273). -/
def State.pstate (s : State) (p : Nat) : Nat := s.obj 0x2101 (p + 1) 0
def State.setPstate (s : State) (p v : Nat) : State := s.setObj 0x2101 (p + 1) 0 v

/-- Floor plan state of a tile (R20, R24). -/
def State.floorOf (s : State) (t : Nat) : Nat :=
  match s.floor with
  | none => 3
  | some m => mget 0 m t

/-- Whether a field lies in the rectangle of a partition (R271). -/
def inRect (rect r : Nat) : Bool :=
  rect % 8 ≤ r % 8 && r % 8 ≤ rect / 64 % 8 && rect / 8 % 8 ≤ r / 8 && r / 8 ≤ rect / 512 % 8

def State.rect (s : State) (p : Nat) : Nat := s.obj 0x2100 (p + 1) 0

/-- The partition whose rectangle holds a tile. -/
def State.partOf (s : State) (t : Nat) : Option PartId :=
  (allFin 16).find? (fun p => s.pstate p.val != 0 && inRect (s.rect p.val) (regionOf t))

/-! Memory. -/

def State.mem (s : State) (u : MemUnit) : Mem := mget {} s.mems u.key
def State.setMem (s : State) (u : MemUnit) (m : Mem) : State := { s with mems := mset u.key m s.mems }

/-- One listed value of a canonical list of cells; an unlisted one is 0x00. -/
def cget (l : List Host.Cell) (a : Nat) : Byte := mget 0 l a

/-- Write one value: 0x00 is not listed. -/
def cset (a : Nat) (b : Byte) (l : List Host.Cell) : List Host.Cell :=
  if b = 0 then mdel a l else mset a b l

def cwrite (a : Nat) : List Byte → List Host.Cell → List Host.Cell
  | [], l => l
  | b :: r, l => cwrite (a + 1) r (cset a b l)

/-- The canonical form: addresses strictly rising, no 0x00 listed. -/
def cellsOk : List Host.Cell → Bool
  | [] => true
  | c :: r => c.2 != 0 && r.all (fun d => c.1 < d.1) && cellsOk r

def Mem.wf (m : Mem) : Bool := cellsOk m.cells && cellsOk m.errs

/-- Read of one byte. -/
def State.peek (s : State) (u : MemUnit) (a : Nat) : Byte := cget (s.mem u).cells a

def State.bytes (s : State) (u : MemUnit) (a n : Nat) : List Byte := (List.range n).map (fun i => s.peek u (a + i))

def State.poke (s : State) (u : MemUnit) (a : Nat) (bs : List Byte) : State :=
  s.setMem u { (s.mem u) with cells := cwrite a bs (s.mem u).cells }

/-! Error correction (R175–R180). -/

/-- Product in GF(2^8) with the field polynomial 0x11D. -/
def gfMul (a b : Byte) : Byte :=
  (List.range 8).foldl (fun (acc : Byte × Byte) i =>
    (if b.getLsbD i then acc.1 ^^^ acc.2 else acc.1,
     if acc.2.getLsbD 7 then (acc.2 <<< 1) ^^^ 0x1D else acc.2 <<< 1)) (0, a) |>.1

def gfPow (a : Byte) : Nat → Byte
  | 0 => 1
  | n + 1 => gfMul a (gfPow a n)

def gfInv (a : Byte) : Byte := gfPow a 254

/-- Syndrome i of an error pattern (symbol position, bits flipped) in a word of n symbols; byte 0 is the highest
coefficient (R175). -/
def syndrome (n i : Nat) (es : List (Nat × Byte)) : Byte :=
  es.foldl (fun acc e => acc ^^^ gfMul e.2 (gfPow (gfPow 2 i) (n - 1 - e.1))) 0

/-- What a decoder finds. -/
inductive RsResult where
  | clean
  | corrected (es : List (Nat × Byte))
  | bad
  deriving DecidableEq, Repr

/-- The position of a locator X = 2^(n − 1 − p), if it lies in the word. -/
def rsPos (n : Nat) (x : Byte) : Option Nat := (List.range n).find? (fun p => gfPow 2 (n - 1 - p) = x)

/-- Correction of up to 2 symbols from the four syndromes. -/
def rsDecode (n : Nat) (es : List (Nat × Byte)) : RsResult :=
  let s0 := syndrome n 0 es
  let s1 := syndrome n 1 es
  let s2 := syndrome n 2 es
  let s3 := syndrome n 3 es
  if s0 = 0 && s1 = 0 && s2 = 0 && s3 = 0 then .clean
  else
    let det := gfMul s0 s2 ^^^ gfMul s1 s1
    if det = 0 then
      let x := gfMul s1 (gfInv s0)
      match rsPos n x with
      | some p => if s0 != 0 && s1 != 0 && s2 = gfMul s1 x && s3 = gfMul s2 x then .corrected [(p, s0)] else .bad
      | none => .bad
    else
      let l1 := gfMul (gfMul s0 s3 ^^^ gfMul s1 s2) (gfInv det)
      let l2 := gfMul (gfMul s1 s3 ^^^ gfMul s2 s2) (gfInv det)
      let roots := (List.range n).filter (fun p =>
        let x := gfPow 2 (n - 1 - p)
        gfMul x x ^^^ gfMul l1 x ^^^ l2 = 0)
      match roots with
      | [p, q] =>
        let x1 := gfPow 2 (n - 1 - p)
        let x2 := gfPow 2 (n - 1 - q)
        let y1 := gfMul (s1 ^^^ gfMul s0 x2) (gfInv (x1 ^^^ x2))
        if y1 != 0 && (s0 ^^^ y1) != 0 then .corrected [(p, y1), (q, s0 ^^^ y1)] else .bad
      | _ => .bad

/-- The changed symbols of a stored word. -/
def Mem.wordErrs (m : Mem) (w : Nat) : List (Nat × Byte) :=
  (m.errs.filter (fun c => c.1 / 128 = w)).map (fun c => (c.1 % 128, c.2))

def Mem.clearWord (m : Mem) (w : Nat) : Mem := { m with errs := m.errs.filter (fun c => c.1 / 128 != w) }

/-- The poison marker: every check byte inverted (R178). -/
def markerErrs (n : Nat) : List (Nat × Byte) := (List.range 4).map (fun i => (n + i, 0xFF))

def Mem.setErrs (m : Mem) (w : Nat) (es : List (Nat × Byte)) : Mem :=
  es.foldl (fun m e => { m with errs := cset (w * 128 + e.1) (cget m.errs (w * 128 + e.1) ^^^ e.2) m.errs }) m

def Mem.mark (m : Mem) (n w : Nat) : Mem := (m.clearWord w).setErrs w (markerErrs n)

/-- The syndrome of a stored word equals the marker's (R178). -/
def likeMarker (n : Nat) (es : List (Nat × Byte)) : Bool :=
  es = markerErrs n
    || (es != [] && (List.range 4).all (fun i => syndrome (n + 4) i es = syndrome (n + 4) i (markerErrs n)))

def Mem.isMarked (m : Mem) (n w : Nat) : Bool := likeMarker n (m.wordErrs w)

/-- Flip the data bytes of a word by a pattern. -/
def Mem.flipData (m : Mem) (n w : Nat) (es : List (Nat × Byte)) : Mem :=
  es.foldl (fun m e => if e.1 < n then { m with cells := cset (w * n + e.1) (cget m.cells (w * n + e.1) ^^^ e.2) m.cells } else m) m

/-- Counters of corrected, uncorrectable and poisoned reads (R190). -/
def State.countMem (s : State) (u : MemUnit) (k : Nat) : State :=
  match u with
  | .sram t => s.bump 0x7400 (if k = 3 then 5 else k) t.val 1
  | .vault t => s.bump 0x7400 (if k = 3 then 5 else k + 2) t.val 1
  | .stack e => s.bump 0x7410 k e.val 1

/-- An event to be raised: code, source instance and data. -/
abbrev Ev := Nat × Nat × List Byte

/-- Corrections of a source since its last E4010, and when that was raised (R176). -/
def State.noteCorrected (s : State) (u : MemUnit) (a : Nat) : State × List Ev :=
  let due (last : Option Nat) : Bool := match last with
    | none => true
    | some t => t + 117500000 ≤ s.tick
  let ev (s : State) (n : Nat) : State × List Ev :=
    (s, [(0x4010, u.inst, [BitVec.ofNat 8 u.tier, BitVec.ofNat 8 (u.channel a)] ++ leBytes 4 n ++ leBytes 8 a)])
  match u with
  | .sram t =>
    let x := s.tile t.val
    if due x.lastE4S then ev (s.setTile t.val { x with correctedS := 0, lastE4S := some s.tick }) (x.correctedS + 1)
    else (s.setTile t.val { x with correctedS := x.correctedS + 1 }, [])
  | .vault t =>
    let s := s.modRegion (regionOf t.val) (fun r => { r with corrected := r.corrected + 1 })
    let x := s.tile t.val
    if due x.lastE4V then ev (s.setTile t.val { x with correctedV := 0, lastE4V := some s.tick }) (x.correctedV + 1)
    else (s.setTile t.val { x with correctedV := x.correctedV + 1 }, [])
  | .stack e =>
    let x := s.engine e.val
    let ch := u.channel a
    let x := { x with second := mset ch (mget 0 x.second ch + 1) x.second }
    let n := mget 0 x.corrected ch + 1
    if due (mfind ch x.lastE4) then
      ev (s.setEngine e.val { x with corrected := mset ch 0 x.corrected, lastE4 := mset ch s.tick x.lastE4 }) n
    else (s.setEngine e.val { x with corrected := mset ch n x.corrected }, [])

/-- A reader reads a stored word: correction with write-back (R176), the poison marker, or E4020 and the marker
(R178). reader: the codes of E4020. The events are raised by the callers. -/
def State.readWordEv (s : State) (u : MemUnit) (w reader : Nat) : State × List Ev :=
  let m := s.mem u
  let n := u.word
  let es := m.wordErrs w
  if es = [] then (s, [])
  else if likeMarker n es then (s.countMem u 3, [])
  else
    match rsDecode (n + 4) es with
    | .clean => (s.setMem u ((m.flipData n w es).clearWord w), [])
    | .corrected cs =>
      ((s.setMem u (((m.flipData n w es).flipData n w cs).clearWord w)).countMem u 1).noteCorrected u (w * n)
    | .bad =>
      ((s.setMem u ((m.flipData n w es).mark n w)).countMem u 2,
        [(0x4020, u.inst,
          [BitVec.ofNat 8 u.tier, BitVec.ofNat 8 (u.channel (w * n)), BitVec.ofNat 8 reader] ++ leBytes 8 (w * n))])

/-- Words of a unit that hold changed symbols, among those of a byte range. -/
def Mem.badWords (m : Mem) (n a len : Nat) : List Nat :=
  ((m.errs.map (fun c => c.1 / 128)).filter (fun w => a / n ≤ w && w * n < a + len && len != 0)).eraseDups

/-- One touched word of a write: written whole it becomes clean; written in part it is read first and keeps a marker (R178,
R180). -/
def State.storeWordEv (u : MemUnit) (a len : Nat) (x : State × List Ev) (w : Nat) : State × List Ev :=
  if a ≤ w * u.word && w * u.word + u.word ≤ a + len then (x.1.setMem u ((x.1.mem u).clearWord w), x.2)
  else let y := x.1.readWordEv u w 9; (y.1, x.2 ++ y.2)

/-- A write, with the events of its reads. -/
def State.storeEv (s : State) (u : MemUnit) (a : Nat) (bs : List Byte) : State × List Ev :=
  let r := ((s.mem u).badWords u.word a bs.length).foldl (State.storeWordEv u a bs.length) (s, [])
  (r.1.poke u a bs, r.2)

/-! Stack channels (R174, R184). -/

def Pass.isRunning : Pass → Bool
  | .running _ => true
  | _ => false

def Engine.pass (x : Engine) (ch : Nat) : Pass := mget .idle x.retrain ch

/-- A stack channel that a byte range touches is retraining. -/
def State.chanBusy (s : State) (e a n : Nat) : Bool :=
  (s.engine e).retrain.any (fun c => c.2.isRunning
    && (List.range ((a + n + 511) / 512 - a / 512)).any (fun i => (a / 512 + i) % 16 = c.1))

/-! Events (R416–R420, R397). -/

/-- Codes of which the persistent log keeps a copy (R397). -/
def logged (code : Nat) : Bool :=
  code / 0x1000 = 1 || code / 0x1000 = 2 || code / 0x1000 = 8 || code / 0x1000 = 9 || code / 0x1000 = 0xA
    || code = 0x4020 || code = 0x6040 || code = 0x7040

def Record.bytes (r : Record) : List Byte :=
  leBytes 2 r.code ++ leBytes 2 (r.src % 2 ^ 15 + (if r.cont then 2 ^ 15 else 0)) ++ leBytes 4 r.step.toNat
    ++ leBytes 8 r.tick ++ r.data.take 16 ++ List.replicate (16 - r.data.length) 0

def eventRecords (code src : Nat) (step : BitVec 32) (tick : Nat) (data : List Byte) : List Record :=
  if data.length ≤ 16 then [{ code, src, step, tick, data }]
  else [{ code, src, step, tick, data := data.take 16 },
        { code, src, step, tick, cont := true, data := data.drop 16 }]

/-- A record enters the event ring, and the persistent log where it is kept there (R397). -/
def State.listRecord (s : State) (r : Record) : State :=
  let s := { s with ring := r :: s.ring }.setObj 0x9000 1 0 (s.obj 0x9000 1 0 + 1)
  if logged r.code then { s with log := r :: s.log }.setObj 0x9000 6 0 (s.obj 0x9000 6 0 + 1) else s

/-- Slot of record i in the event mirror (R173, R419). -/
def mirrorAt (i : Nat) : Nat := 0x17F8300000 + i % 4096 * 32

/-- The records of an event enter the ring. -/
def State.listEvent (s : State) (e : Ev) : State :=
  (eventRecords e.1 e.2.1 0 s.tick e.2.2).foldl State.listRecord s

/-- SC0 writes to the mirror the records that it does not hold yet, oldest first (R419); in M3 it makes no copies, and while
the channel of the next one retrains it waits (R184). The write of 32 bytes is a short one (R180): what its read of the
word finds is listed in its turn. Each word of the mirror can give such an event twice at most, so that n of 16,384 is
enough. -/
def State.mirror : Nat → State → State
  | 0, s => s
  | n + 1, s =>
    let w := s.obj 0x9000 1 0
    let i := max s.mirrored (w - 4096)
    if w ≤ i then s
    else if 3 ≤ s.mstate then { s with mirrored := w }
    else if s.chanBusy 0 (mirrorAt i) 32 then s
    else match s.ring[w - 1 - i]? with
      | none => State.mirror n { s with mirrored := i + 1 }
      | some r =>
        let x := s.storeEv (.stack 0) (mirrorAt i) r.bytes
        State.mirror n (x.2.foldl State.listEvent { x.1 with mirrored := i + 1 })

/-- SC0 writes the records of one event, which stand together (R417): ring, log and mirror. -/
def State.records (s : State) (rs : List Record) : State := (rs.foldl State.listRecord s).mirror 16384

def State.record (s : State) (r : Record) : State := s.records [r]

/-- Raise an event. While SC0 restarts it waits in the 256-record hardware buffer; one that finds it full is not
recorded and is counted (R418). -/
def State.raise (s : State) (code src : Nat) (step : BitVec 32) (data : List Byte) : State :=
  let rs := eventRecords code src step s.tick data
  if (s.core 0).down then
    if s.hwbuf.length + rs.length ≤ 256 then { s with hwbuf := s.hwbuf ++ rs }
    else s.setObj 0x9000 7 0 (s.obj 0x9000 7 0 + 1)
  else s.records rs

def srcModule : Nat := 0x7FFF

/-! Reads and writes (R175–R180). -/

/-- Raise the events that an access found. -/
def raiseAll (x : State × List Ev) : State := x.2.foldl (fun s e => s.raise e.1 e.2.1 0 e.2.2) x.1

def State.readWord (s : State) (u : MemUnit) (w reader : Nat) : State := raiseAll (s.readWordEv u w reader)

/-- Words with changed symbols that some byte ranges touch, each once. -/
def Mem.badIn (m : Mem) (n : Nat) (segs : List (Nat × Nat)) : List Nat :=
  if m.errs = [] then [] else (segs.flatMap (fun g => m.badWords n g.1 g.2)).eraseDups

/-- A reader reads byte ranges in one access: every word of them is checked once. -/
def State.touchSegs (s : State) (u : MemUnit) (segs : List (Nat × Nat)) (reader : Nat) : State :=
  ((s.mem u).badIn u.word segs).foldl (fun s w => s.readWord u w reader) s

/-- The same of one range. -/
def State.touch (s : State) (u : MemUnit) (a len reader : Nat) : State := s.touchSegs u [(a, len)] reader

/-- A write, and what its reads of partly written words found. -/
def State.store (s : State) (u : MemUnit) (a : Nat) (bs : List Byte) : State := raiseAll (s.storeEv u a bs)

/-- Whether a byte lies in a word with the poison marker. -/
def State.marked (s : State) (u : MemUnit) (a : Nat) : Bool := (s.mem u).isMarked u.word (a / u.word)

/-- Whether a range touches a marked word. -/
def State.anyMarked (s : State) (u : MemUnit) (a len : Nat) : Bool :=
  ((s.mem u).badWords u.word a len).any (fun w => (s.mem u).isMarked u.word w)

/-- Mark every word of a range as poisoned (R179). -/
def State.poison (s : State) (u : MemUnit) (a len : Nat) : State :=
  if len = 0 then s
  else (List.range ((a + len - 1) / u.word - a / u.word + 1)).foldl
    (fun s i => s.setMem u ((s.mem u).mark u.word (a / u.word + i))) s

/-- The environment changes symbols of stored words (log entry 1). -/
def State.upset (s : State) (ups : List Upset) : State :=
  ups.foldl (fun s x => if x.pos < x.unit.word + 4
    then s.setMem x.unit ((s.mem x.unit).setErrs x.word [(x.pos, x.flip)]) else s) s

/-- Zeroing of a memory (R181). -/
def State.zero (s : State) (u : MemUnit) : State := { s with mems := mdel u.key s.mems }

/-! Free values (log entry 5). -/

/-- Draw n free bytes. -/
def State.drawBytes (s : State) (n : Nat) : List Byte × State :=
  ((List.range n).map (fun i => Config.freeByte (s.free + i)), { s with free := s.free + n })

end Sys2Proof.Machine
end

