-- ==== Sys2Proof/Machine/ObjTable.lean ====
section
/-! DEFINITION. The object tables (R323–R326, R336, R342, and the object tables of every chapter): type, access class and
instance kind of each object, and the values that its table accepts. -/
namespace Sys2Proof.Machine

/-- Types of R325. -/
inductive OTy where
  | bool | u (bytes : Nat) | i16 | f32 | str | oct (bytes : Nat) | domain
  deriving DecidableEq, Repr

/-- Access classes of R326. -/
inductive Acc where
  | ro | rw | wo | rws | bw | const
  deriving DecidableEq, Repr

/-- Instance kinds of R323. -/
inductive OKind where
  | none | region | tile | port | portOrLocal | engine
  deriving DecidableEq, Repr

/-- One row: index, first and last sub-index, type and access. -/
structure ObjRow where
  idx : Nat
  lo  : Nat
  hi  : Nat
  ty  : OTy
  acc : Acc
  deriving DecidableEq, Repr

def objRows0 : List ObjRow :=
  [⟨0x1008, 0, 0, .str, .const⟩, ⟨0x1009, 0, 0, .str, .const⟩, ⟨0x100A, 0, 0, .str, .ro⟩, ⟨0x1010, 1, 2, .u 4, .rw⟩,
   ⟨0x1010, 3, 3, .u 1, .ro⟩, ⟨0x1010, 4, 4, .bool, .ro⟩, ⟨0x1011, 1, 2, .u 4, .rw⟩, ⟨0x1012, 1, 1, .u 1, .ro⟩,
   ⟨0x1012, 2, 2, .u 1, .rw⟩, ⟨0x1012, 3, 4, .u 4, .ro⟩, ⟨0x1012, 5, 5, .u 1, .ro⟩, ⟨0x1012, 6, 6, .domain, .wo⟩,
   ⟨0x1018, 1, 2, .u 4, .const⟩, ⟨0x1018, 3, 3, .u 4, .ro⟩, ⟨0x1018, 4, 4, .u 4, .const⟩, ⟨0x1020, 1, 4, .u 4, .ro⟩,
   ⟨0x1030, 1, 2, .u 2, .ro⟩, ⟨0x1030, 3, 3, .u 4, .ro⟩, ⟨0x1030, 4, 4, .oct 48, .ro⟩, ⟨0x1030, 5, 5, .bool, .ro⟩,
   ⟨0x1030, 6, 6, .u 2, .ro⟩, ⟨0x1050, 1, 1, .u 2, .rws⟩, ⟨0x1A00, 1, 14, .u 4, .const⟩, ⟨0x1C12, 0, 0, .u 1, .const⟩,
   ⟨0x1C13, 0, 0, .u 1, .const⟩, ⟨0x1C13, 1, 1, .u 2, .const⟩, ⟨0x1F80, 1, 1, .oct 48, .ro⟩,
   ⟨0x1F80, 2, 2, .u 4, .ro⟩, ⟨0x1F81, 1, 1, .u 1, .rws⟩, ⟨0x1F81, 2, 2, .u 4, .rws⟩, ⟨0x1F82, 1, 1, .oct 48, .rws⟩,
   ⟨0x2000, 1, 3, .u 1, .ro⟩, ⟨0x2000, 4, 4, .u 4, .ro⟩, ⟨0x2000, 5, 5, .oct 5, .ro⟩, ⟨0x2000, 6, 6, .oct 16, .ro⟩,
   ⟨0x2001, 1, 1, .u 1, .rw⟩, ⟨0x2003, 1, 1, .u 4, .wo⟩, ⟨0x2003, 2, 2, .u 1, .wo⟩, ⟨0x2003, 3, 3, .u 1, .ro⟩,
   ⟨0x2010, 1, 3, .u 2, .ro⟩, ⟨0x2010, 4, 4, .u 8, .ro⟩, ⟨0x2020, 1, 2, .u 2, .ro⟩, ⟨0x2020, 3, 3, .i16, .ro⟩,
   ⟨0x2020, 4, 4, .u 1, .ro⟩, ⟨0x2020, 5, 5, .u 2, .rws⟩, ⟨0x2020, 6, 6, .u 1, .rw⟩, ⟨0x2020, 7, 8, .u 1, .ro⟩,
   ⟨0x2020, 9, 9, .u 2, .ro⟩, ⟨0x2100, 1, 16, .u 2, .ro⟩, ⟨0x2101, 1, 16, .u 1, .ro⟩, ⟨0x2102, 1, 16, .u 4, .ro⟩,
   ⟨0x2103, 1, 16, .u 1, .ro⟩, ⟨0x2110, 1, 1, .domain, .rw⟩, ⟨0x2110, 2, 2, .u 4, .rws⟩, ⟨0x2110, 3, 3, .u 1, .wo⟩,
   ⟨0x2110, 4, 5, .u 1, .ro⟩, ⟨0x2110, 6, 8, .u 4, .ro⟩, ⟨0x2130, 1, 16, .u 2, .ro⟩, ⟨0x2200, 1, 1, .u 4, .wo⟩,
   ⟨0x2200, 2, 2, .u 4, .rws⟩, ⟨0x2200, 3, 3, .u 4, .wo⟩, ⟨0x2200, 4, 4, .u 4, .ro⟩, ⟨0x2200, 5, 5, .u 1, .ro⟩,
   ⟨0x2200, 6, 6, .u 4, .ro⟩]

def objRows1 : List ObjRow :=
  [⟨0x2300, 1, 1, .u 4, .rw⟩, ⟨0x2300, 2, 3, .u 4, .ro⟩, ⟨0x2300, 4, 4, .u 4, .rw⟩, ⟨0x2300, 5, 5, .u 4, .ro⟩,
   ⟨0x2300, 6, 6, .u 2, .rw⟩, ⟨0x2F00, 1, 1, .u 2, .rw⟩, ⟨0x2F10, 1, 1, .u 2, .rws⟩, ⟨0x2F10, 2, 2, .u 2, .ro⟩,
   ⟨0x2F10, 3, 3, .u 4, .ro⟩, ⟨0x3000, 1, 1, .bool, .bw⟩, ⟨0x3010, 1, 2, .u 1, .bw⟩, ⟨0x3020, 1, 1, .u 2, .bw⟩,
   ⟨0x3030, 1, 1, .u 2, .bw⟩, ⟨0x3030, 2, 2, .bool, .bw⟩, ⟨0x3040, 1, 1, .u 4, .bw⟩, ⟨0x3050, 1, 1, .oct 48, .bw⟩,
   ⟨0x3100, 1, 2, .u 1, .ro⟩, ⟨0x3100, 3, 3, .bool, .ro⟩, ⟨0x3100, 4, 4, .oct 96, .ro⟩, ⟨0x3100, 5, 5, .u 4, .ro⟩,
   ⟨0x3100, 6, 6, .u 1, .ro⟩, ⟨0x3100, 16, 18, .domain, .wo⟩, ⟨0x3100, 19, 19, .u 1, .wo⟩,
   ⟨0x3200, 1, 1, .oct 32, .wo⟩, ⟨0x3200, 2, 2, .domain, .ro⟩, ⟨0x3200, 3, 3, .u 1, .ro⟩,
   ⟨0x3200, 4, 4, .oct 384, .const⟩, ⟨0x3200, 5, 5, .oct 48, .const⟩, ⟨0x3200, 6, 6, .domain, .const⟩,
   ⟨0x4000, 1, 1, .u 1, .wo⟩, ⟨0x4000, 2, 2, .u 2, .rws⟩, ⟨0x4000, 3, 3, .u 1, .rws⟩, ⟨0x4000, 4, 4, .bool, .rw⟩,
   ⟨0x4010, 1, 3, .u 1, .ro⟩, ⟨0x4010, 4, 5, .u 2, .ro⟩, ⟨0x4010, 6, 6, .u 1, .ro⟩, ⟨0x4020, 1, 17, .i16, .ro⟩,
   ⟨0x4020, 18, 21, .i16, .rws⟩, ⟨0x4030, 1, 2, .u 1, .ro⟩, ⟨0x4040, 1, 1, .u 1, .wo⟩, ⟨0x4040, 2, 2, .u 1, .ro⟩,
   ⟨0x4040, 3, 3, .bool, .rws⟩, ⟨0x4040, 4, 4, .u 1, .wo⟩, ⟨0x4040, 5, 5, .u 1, .ro⟩, ⟨0x4040, 6, 6, .u 8, .ro⟩,
   ⟨0x4800, 1, 1, .oct 36, .ro⟩, ⟨0x4800, 2, 5, .u 1, .ro⟩, ⟨0x4800, 6, 6, .oct 36, .const⟩,
   ⟨0x4800, 7, 7, .oct 36, .ro⟩, ⟨0x4800, 8, 8, .u 1, .ro⟩, ⟨0x5000, 1, 1, .u 1, .rw⟩, ⟨0x5000, 16, 16, .u 1, .ro⟩,
   ⟨0x5010, 1, 1, .u 2, .ro⟩, ⟨0x5010, 2, 2, .oct 8, .ro⟩, ⟨0x5010, 3, 3, .oct 32, .ro⟩, ⟨0x5010, 16, 17, .u 1, .ro⟩,
   ⟨0x5010, 18, 18, .bool, .ro⟩, ⟨0x5010, 19, 20, .u 1, .ro⟩, ⟨0x5100, 1, 64, .u 1, .rw⟩, ⟨0x5100, 65, 65, .u 4, .rw⟩,
   ⟨0x5100, 66, 67, .u 4, .ro⟩, ⟨0x5100, 68, 68, .u 2, .ro⟩, ⟨0x5200, 1, 4, .u 2, .rw⟩, ⟨0x5200, 8, 8, .u 1, .rw⟩]

def objRows2 : List ObjRow :=
  [⟨0x5200, 9, 9, .u 1, .wo⟩, ⟨0x5200, 17, 20, .oct 280, .ro⟩, ⟨0x5200, 32, 32, .u 2, .rws⟩,
   ⟨0x5300, 1, 1, .u 1, .rw⟩, ⟨0x5300, 2, 2, .u 2, .rw⟩, ⟨0x5300, 3, 3, .u 4, .rw⟩, ⟨0x5300, 4, 4, .u 1, .ro⟩,
   ⟨0x5300, 5, 6, .u 4, .rw⟩, ⟨0x5300, 7, 7, .u 1, .ro⟩, ⟨0x5300, 8, 8, .u 8, .ro⟩, ⟨0x6000, 1, 1, .bool, .rws⟩,
   ⟨0x6000, 2, 3, .u 1, .rws⟩, ⟨0x6000, 4, 4, .u 1, .ro⟩, ⟨0x6000, 5, 5, .u 1, .rws⟩, ⟨0x6000, 6, 7, .u 4, .rws⟩,
   ⟨0x6000, 8, 9, .u 1, .wo⟩, ⟨0x6000, 10, 10, .bool, .rw⟩, ⟨0x6010, 1, 1, .u 4, .ro⟩, ⟨0x6010, 2, 2, .oct 16, .ro⟩,
   ⟨0x6010, 3, 3, .bool, .ro⟩, ⟨0x6010, 4, 4, .u 1, .ro⟩, ⟨0x6010, 5, 5, .u 8, .ro⟩, ⟨0x6010, 6, 6, .u 1, .ro⟩,
   ⟨0x6010, 16, 23, .u 2, .ro⟩, ⟨0x6010, 24, 31, .oct 48, .ro⟩, ⟨0x6100, 1, 1, .u 2, .rw⟩, ⟨0x6100, 2, 2, .u 4, .rw⟩,
   ⟨0x6800, 1, 1, .u 1, .rws⟩, ⟨0x6800, 2, 3, .u 8, .ro⟩, ⟨0x6810, 1, 1, .u 1, .ro⟩, ⟨0x6810, 2, 2, .u 4, .ro⟩,
   ⟨0x6810, 3, 3, .u 1, .ro⟩, ⟨0x6830, 1, 1, .u 1, .wo⟩, ⟨0x6830, 2, 2, .u 1, .ro⟩, ⟨0x6830, 3, 3, .bool, .rws⟩,
   ⟨0x6840, 1, 1, .u 8, .ro⟩, ⟨0x6840, 2, 2, .u 4, .ro⟩, ⟨0x6840, 3, 3, .oct 16, .ro⟩, ⟨0x6840, 4, 4, .domain, .ro⟩,
   ⟨0x6860, 1, 2, .u 8, .rws⟩, ⟨0x6860, 3, 3, .bool, .rws⟩, ⟨0x6900, 1, 1, .u 4, .rw⟩, ⟨0x6900, 2, 3, .u 8, .rw⟩,
   ⟨0x6900, 4, 4, .u 1, .rw⟩, ⟨0x6900, 5, 5, .u 1, .wo⟩, ⟨0x6900, 6, 6, .u 1, .ro⟩, ⟨0x6900, 7, 8, .u 8, .ro⟩,
   ⟨0x7000, 1, 1, .u 1, .wo⟩, ⟨0x7000, 2, 2, .u 4, .ro⟩, ⟨0x7000, 3, 3, .u 8, .ro⟩, ⟨0x7000, 4, 4, .u 1, .ro⟩,
   ⟨0x7200, 1, 8, .u 8, .ro⟩, ⟨0x7200, 16, 21, .u 8, .ro⟩, ⟨0x7300, 1, 15, .u 8, .ro⟩, ⟨0x7400, 1, 6, .u 8, .ro⟩,
   ⟨0x7410, 1, 5, .u 8, .ro⟩, ⟨0x7420, 1, 5, .u 8, .ro⟩, ⟨0x7430, 1, 32, .u 8, .ro⟩, ⟨0x7440, 1, 13, .u 8, .ro⟩,
   ⟨0x7500, 1, 17, .u 8, .ro⟩, ⟨0x7600, 1, 8, .u 8, .ro⟩, ⟨0x8000, 1, 1, .u 8, .rws⟩, ⟨0x8010, 1, 1, .u 4, .rws⟩,
   ⟨0x8100, 1, 1, .u 1, .rws⟩]

def objRows3 : List ObjRow :=
  [⟨0x8100, 2, 2, .u 4, .rws⟩, ⟨0x8100, 3, 3, .u 1, .rws⟩, ⟨0x8100, 4, 4, .u 4, .rw⟩, ⟨0x8100, 5, 5, .u 4, .ro⟩,
   ⟨0x8100, 6, 7, .u 4, .rws⟩, ⟨0x8100, 8, 8, .u 1, .ro⟩, ⟨0x8130, 1, 1, .u 1, .rws⟩, ⟨0x8130, 2, 17, .u 4, .ro⟩,
   ⟨0x8140, 1, 1, .bool, .rws⟩, ⟨0x8200, 1, 1, .u 4, .rws⟩, ⟨0x8210, 1, 12, .u 4, .ro⟩, ⟨0x8300, 1, 1, .u 4, .rws⟩,
   ⟨0x8300, 2, 2, .u 1, .rws⟩, ⟨0x8400, 1, 13, .f32, .rws⟩, ⟨0x8400, 14, 14, .u 4, .rws⟩, ⟨0x8410, 1, 12, .f32, .ro⟩,
   ⟨0x8410, 13, 24, .u 4, .ro⟩, ⟨0x8600, 1, 32, .u 4, .ro⟩, ⟨0x8610, 1, 1, .u 4, .rws⟩, ⟨0x8620, 1, 16, .oct 64, .ro⟩,
   ⟨0x8700, 1, 12, .f32, .rws⟩, ⟨0x8701, 1, 12, .f32, .rws⟩, ⟨0x8702, 1, 12, .f32, .rws⟩, ⟨0x8703, 1, 12, .f32, .rws⟩,
   ⟨0x8704, 1, 12, .f32, .rws⟩, ⟨0x8705, 1, 12, .u 1, .rws⟩, ⟨0x8706, 1, 12, .u 4, .rw⟩, ⟨0x8707, 1, 12, .u 4, .ro⟩,
   ⟨0x8708, 1, 12, .u 1, .ro⟩, ⟨0x8709, 1, 12, .u 4, .ro⟩, ⟨0x8710, 1, 12, .f32, .ro⟩, ⟨0x8711, 1, 12, .f32, .ro⟩,
   ⟨0x8712, 1, 12, .f32, .ro⟩, ⟨0x8713, 1, 12, .f32, .ro⟩, ⟨0x8714, 1, 12, .f32, .ro⟩, ⟨0x8715, 1, 12, .u 1, .ro⟩,
   ⟨0x8720, 1, 2, .u 1, .rw⟩, ⟨0x8720, 3, 3, .u 4, .rw⟩, ⟨0x8720, 4, 4, .f32, .rw⟩, ⟨0x8720, 5, 5, .u 4, .rw⟩,
   ⟨0x8720, 6, 6, .u 1, .wo⟩, ⟨0x8720, 7, 7, .u 1, .ro⟩, ⟨0x9000, 1, 1, .u 8, .ro⟩, ⟨0x9000, 2, 2, .u 8, .rw⟩,
   ⟨0x9000, 3, 3, .domain, .ro⟩, ⟨0x9000, 4, 4, .u 8, .rw⟩, ⟨0x9000, 5, 5, .domain, .ro⟩, ⟨0x9000, 6, 6, .u 8, .ro⟩,
   ⟨0x9000, 7, 7, .u 4, .ro⟩, ⟨0x9100, 1, 1, .bool, .rw⟩, ⟨0x9100, 2, 2, .u 2, .rw⟩, ⟨0x9100, 3, 3, .u 1, .rws⟩,
   ⟨0x9100, 4, 4, .u 1, .rw⟩, ⟨0x9100, 5, 5, .u 8, .rw⟩, ⟨0x9100, 6, 7, .u 8, .ro⟩, ⟨0x9100, 16, 16, .domain, .ro⟩]

/-- Every object of the tables, in index order; neighbouring sub-indexes of one type in one row. -/
def objRows : List ObjRow := objRows0 ++ objRows1 ++ objRows2 ++ objRows3

/-- Bytes of a value; none where the length varies. -/
def OTy.len : OTy → Option Nat
  | .bool => some 1
  | .u n => some n
  | .i16 => some 2
  | .f32 => some 4
  | .oct n => some n
  | .str => none
  | .domain => none

/-- Values of up to 8 bytes are held as numbers. -/
def OTy.isNum : OTy → Bool
  | .str => false
  | .oct _ => false
  | .domain => false
  | _ => true

/-- Instance kind of an index (R342). -/
def kindOf (idx : Nat) : OKind :=
  if idx / 0x1000 = 4 || idx = 0x7600 then .region
  else if idx / 0x1000 = 5 || idx = 0x7200 || idx = 0x7300 || idx = 0x7400 then .tile
  else if idx = 0x6000 || idx = 0x6010 || idx = 0x7500 then .port
  else if idx = 0x6100 then .portOrLocal
  else if idx / 0x100 = 0x68 || idx = 0x7410 || idx = 0x7420 || idx = 0x7440 then .engine
  else .none

def OKind.count : OKind → Nat
  | .none => 1
  | .region => 48
  | .tile => 6912
  | .port => 6
  | .portOrLocal => 7
  | .engine => 32

/-- Counter indexes (R336). -/
def isCounter (idx : Nat) : Bool := 0x7100 ≤ idx && idx ≤ 0x7FFF

def knownIndex (idx : Nat) : Bool := objRows.any (fun r => r.idx = idx)

def rowOf (idx sub : Nat) : Option ObjRow := objRows.find? (fun r => r.idx = idx && r.lo ≤ sub && sub ≤ r.hi)

/-- Highest sub-index in use: the value of sub-index 0 where its table gives none (R323, R437). -/
def highestSub (idx : Nat) : Nat :=
  let m := (objRows.filter (fun r => r.idx = idx)).foldl (fun m r => max m r.hi) 0
  if isCounter idx then m + 0x80 else m

/-- Type and access of an object, sub-index 0 and the live values and latch counts of counters included. -/
def objType (idx sub : Nat) : Option (OTy × Acc) :=
  match rowOf idx sub with
  | some r => some (r.ty, r.acc)
  | none =>
    if !knownIndex idx then none
    else if sub = 0 then some (.u 1, .const)
    else if isCounter idx && (sub = 0x7F || (0x80 ≤ sub && (rowOf idx (sub - 0x80)).isSome)) then some (.u 8, .ro)
    else none

/-! Accepted values. -/

/-- A finite F32 that is not negative. -/
def f32NonNeg (v : Nat) : Bool := v < 0x7F800000 || v = 0x80000000

/-- Whether the table of an object accepts a value, whatever the state of the module. -/
def valueOk (idx sub v : Nat) : Bool :=
  if idx = 0x1012 && sub = 2 then v ≤ 1
  else if idx = 0x1050 then v ≤ 16383
  else if idx = 0x1F81 && sub = 1 then v ≤ 1
  else if idx = 0x1F81 then 1 ≤ v && v ≤ 60000
  else if idx = 0x2001 then v ≤ 3
  else if idx = 0x2020 && sub = 5 then 500 ≤ v && v ≤ 3000
  else if idx = 0x2020 && sub = 6 then v ≤ 3
  else if idx = 0x2110 && sub = 2 then 10 ≤ v && v ≤ 60000
  else if idx = 0x2200 && sub = 2 then 100 ≤ v && v ≤ 60000
  else if idx = 0x2200 && (sub = 1 || sub = 3) then v != 0
  else if idx = 0x2F10 && sub = 1 then 1 ≤ v && v ≤ 10000
  else if idx = 0x4000 && sub = 2 then 500 ≤ v && v ≤ 780
  else if idx = 0x4000 && sub = 3 then v ≤ 3
  else if idx = 0x5000 && sub = 1 then v ≤ 1
  else if idx = 0x5100 && 1 ≤ sub && sub ≤ 0x20 then 1 ≤ v && v ≤ 64
  else if idx = 0x5100 && 0x21 ≤ sub && sub ≤ 0x40 then v ≤ 1
  else if idx = 0x5100 && sub = 0x41 then 1024 ≤ v && v ≤ 16777216
  else if idx = 0x5200 && 1 ≤ sub && sub ≤ 4 then v < 512
  else if idx = 0x5200 && sub = 8 then v ≤ 1
  else if idx = 0x5300 && sub = 1 then v ≤ 15
  else if idx = 0x5300 && sub = 2 then v ≤ 511
  else if idx = 0x5300 && sub = 3 then v < 2 ^ 31
  else if idx = 0x6000 && (sub = 2 || sub = 3) then v ≤ 3
  else if idx = 0x6000 && sub = 6 then 235 ≤ v && v ≤ 117500
  else if idx = 0x6000 && sub = 7 then 1175 ≤ v && v ≤ 1175000
  else if idx = 0x6100 && sub = 1 then v ≤ 16383
  else if idx = 0x6100 && sub = 2 then v < 2 ^ 24
  else if idx = 0x6800 && sub = 1 then 1 ≤ v && v ≤ 32
  else if idx = 0x6830 && sub = 1 then v ≤ 15
  else if idx = 0x6860 && sub ≤ 2 then v % 0x200000 = 0
  else if idx = 0x6900 && sub = 4 then v ≤ 2
  else if idx = 0x8100 && (sub = 1 || sub = 3) then v ≤ 24
  else if idx = 0x8100 && (sub = 2 || sub = 6) then 1 ≤ v && v ≤ 1000000
  else if idx = 0x8100 && sub = 7 then v ≤ 1000000
  else if idx = 0x8130 && sub = 1 then 1 ≤ v && v ≤ 64
  else if idx = 0x8300 && sub = 2 then v ≤ 1
  else if idx = 0x8400 && sub ≤ 12 then f32NonNeg v
  else if idx = 0x8400 && sub = 13 then v != 0 && v ≤ 0x3F800000
  else if idx = 0x8610 then 100 ≤ v && v ≤ 3600000
  else if idx = 0x8700 || idx = 0x8704 then f32NonNeg v
  else if idx = 0x8701 || idx = 0x8702 then v < 0x3F800000 || v = 0x80000000
  else if idx = 0x8703 then v != 0 && v < 0x7F800000
  else if idx = 0x8705 then v ≤ 1
  else if idx = 0x8720 && sub = 1 then v ≤ 4
  else if idx = 0x8720 && sub = 2 then v ≤ 11
  else if idx = 0x8720 && sub = 4 then f32NonNeg v
  else if idx = 0x9100 && sub = 2 then v < 128
  else if idx = 0x9100 && sub = 3 then v ≤ 4
  else if idx = 0x9100 && sub = 4 then v ≤ 1
  else true

/-! Scopes. -/

/-- An object that the store saves: every RWS object, or the link and route subset (R338). -/
def isStored (all : Bool) (idx sub : Nat) : Bool :=
  (objType idx sub).any (fun t => t.2 = .rws) && (all || idx = 0x1050 || idx = 0x1F81 || idx = 0x1F82 || idx = 0x6000)

/-- Job-class objects (R341), in order. -/
def jobClass : List (Nat × Nat) :=
  [(0x1F81, 1), (0x1F81, 2), (0x8000, 1), (0x8010, 1), (0x8100, 2), (0x8100, 3), (0x8100, 6), (0x8100, 7), (0x8130, 1),
   (0x8140, 1), (0x8200, 1), (0x8300, 1), (0x8300, 2)]
  ++ (List.range 14).map (fun i => (0x8400, i + 1)) ++ [(0x8610, 1)]
  ++ (List.range 6).flatMap (fun k => (List.range 12).map (fun i => (0x8700 + k, i + 1)))

def isJobClass (idx sub : Nat) : Bool := jobClass.contains (idx, sub)

end Sys2Proof.Machine
end

