-- ==== Sys2Proof/Machine/Sluice.lean ====
section
/-! DEFINITION. What decides whether an engine can take a block: its plan, its sluice and its blocks in progress
(R221, R235, R236). -/
namespace Sys2Proof.Machine

/-- The job of a partition's binary. -/
def State.job (s : State) (p : Nat) : Option JobPlan := (s.part p).bin.bind (·.job)

/-! The sluice (R235, R236). -/

def planEngine (j : JobPlan) (e : Nat) : Option EnginePlan := j.engines.find? (fun x => x.engine.val = e)

def sluiceEntries (ep : EnginePlan) : Nat := ep.size * 255 / 4194304
def entryAddr (ep : EnginePlan) (i : Nat) : Nat := ep.sluice + 16384 * i
def headAddr (ep : EnginePlan) (i : Nat) : Nat := ep.sluice + 16384 * sluiceEntries ep + 64 * i

/-- Entries in use and their kinds, ascending: an entry is free while its kind reads 0. -/
def State.sluiceUsed (s : State) (ep : EnginePlan) : List (Nat × Nat) :=
  let h := headAddr ep 0
  (s.mem (.stack ep.engine)).cells.filterMap (fun c =>
    if h ≤ c.1 && c.1 < h + 64 * sluiceEntries ep && (c.1 - h) % 64 = 8 then some ((c.1 - h) / 64, c.2.toNat) else none)

def State.sluiceFree (s : State) (ep : EnginePlan) : Nat := sluiceEntries ep - (s.sluiceUsed ep).length

/-- Blocks in progress of an engine: accepted, waiting for a verdict or a shipment, at the far tier, or settling (R220,
R221, R241, R250). -/
def Engine.busy (x : Engine) : Nat :=
  x.ins.length + x.settling.length + x.deferred.length + x.far.length + x.waiting.length

/-- A channel of the stack retrains: work that touches all 16 channels waits, such as that on a block's record or on a sluice
entry's gradient (R174, R184, R222, R235). -/
def State.engineWaits (s : State) (e : Nat) : Bool := (s.engine e).retrain.any (fun c => c.2.isRunning)

/-- Admitted jobs. -/
def State.admittedJobs (s : State) : List (Nat × JobPlan) :=
  (List.range 16).filterMap (fun p => if 2 ≤ s.pstate p then (s.job p).map (fun j => (p, j)) else none)

/-- Journal slots in use: an entry is empty while its kind reads 0 (R244). -/
def State.journalUsed (s : State) (ep : EnginePlan) : List Nat :=
  below 64 (fun i => s.peek (.stack ep.engine) (ep.journal + 64 * i + 8) != 0)

/-- Journal slots that cannot take an entry now: in use, or on a channel that retrains (R184). -/
def State.journalTaken (s : State) (ep : EnginePlan) : List Nat :=
  below 64 (fun i => s.peek (.stack ep.engine) (ep.journal + 64 * i + 8) != 0
    || s.chanBusy ep.engine.val (ep.journal + 64 * i) 64)

/-- An engine accepts a block only with fewer than 64 in progress (R221), and while its free entries exceed these
(R236). -/
def State.hasRoom (s : State) (e : Nat) (ep : EnginePlan) : Bool :=
  (s.engine e).busy < 64 && (s.engine e).busy < s.sluiceFree ep

/-- An engine that cannot take a block withholds VC3 credits at its gates (R184, R206, R221, R236, R245). -/
def State.withholds (s : State) (e : Nat) : Bool :=
  (s.engine e).st != 2
    || s.admittedJobs.any (fun x => (planEngine x.2 e).any (fun ep => !s.hasRoom e ep || 64 ≤ (s.journalTaken ep).length))

end Sys2Proof.Machine
end

