-- ==== Sys2Proof/Machine/Flags.lean ====
section
/-! DEFINITION. Conditions and classifications: VECTOR CMP (R432), BR and SCMP (R441), the wait conditions (R125,
R200), the histogram bins (R81) and the fields of status values. -/
namespace Sys2Proof.Machine

/-- R432, IEEE 754: a NaN is unordered. -/
def cmpHolds (c : CmpCond) (x y : Num) : Bool :=
  match c with
  | .eq => x.eqv y
  | .ne => !x.eqv y
  | .lt => x.lt y
  | .le => x.lt y || x.eqv y
  | .gt => y.lt x
  | .ge => y.lt x || x.eqv y

/-- R441. -/
def brHolds (c : BrCond) (x y : BitVec 32) : Bool :=
  match c with
  | .eq => x == y
  | .ne => x != y
  | .lt => x.slt y
  | .ge => !x.slt y
  | .ltu => x.ult y
  | .geu => !x.ult y

/-- WAIT on a counter is satisfied when (int32)(c − v) ≥ 0 (R125). -/
def counterReached (c v : BitVec 32) : Bool := decide (0 ≤ stampDiff c v)

/-- Second operand of BR, SCMP and SADD (R441). -/
def opndVal (c : Ctx) : Opnd → BitVec 32
  | .scalar i => c.scalar i.val
  | .imm v => v.signExtend 32

def brSrcVal (c : Ctx) : BrSrc → BitVec 32
  | .scalar i => c.scalar i.val
  | .waitResult => c.res.zeroExtend 32

/-- Histogram bin of a written element (R81): v its value times its block factor. -/
def binOf (v : Num) (crushed saturated : Bool) : Nat :=
  if crushed then 69
  else if v.isNan then 67
  else if v.isInf then 68
  else if v.isZero then 66
  else if saturated || 16 ≤ v.lead then 65
  else if v.lead < -48 then 64
  else (v.lead + 48).toNat

/-- Bins that set the guard overflow latch (R262). -/
def binOverflows (b : Nat) : Bool := b = 65 || b = 67 || b = 68

/-- Run state codes of 0x5010:01 (R132). -/
def runCode : Run → Nat
  | .idle => 0
  | .ready => 1
  | .waiting _ _ => 2
  | .stopped => 3

/-- Verdict flags of R209. -/
def flagPoisoned : BitVec 16 := 1
def flagLost : BitVec 16 := 2
def flagHeld : BitVec 16 := 4

/-- Poison of a merged or reduced set of elements: any NaN or infinity (R157). -/
def nonFinite (xs : List Num) : Bool := xs.any (fun x => !x.isFinite)

end Sys2Proof.Machine
end

