-- ==== Sys2Proof/Machine/Operands.lean ====
section
/-! DEFINITION. Operand forms: descriptors and format words (R43, R44, R119, R120), packing and scale planes
(R34, R41), the reading of elements and the producer of results (R45, R436, R81, R82). -/
namespace Sys2Proof.Machine

/-! Format word fields (R43). -/

def Desc.w (d : Desc) : Nat := d.word.toNat
def Desc.fmt (d : Desc) : Nat := d.w % 16
def Desc.size (d : Desc) : Nat := d.w / 16 % 8
def Desc.dir (d : Desc) : Nat := d.w / 128 % 4
def Desc.mx (d : Desc) : Bool := bitOf d.w 9
def Desc.bs (d : Desc) : Bool := bitOf d.w 10
def Desc.ts (d : Desc) : Bool := bitOf d.w 11
def Desc.tag (d : Desc) : Nat := d.w / 4096 % 256
/-- Block extent or side (R39). -/
def Desc.ext (d : Desc) : Nat := if d.dir = 2 then 8 else if d.dir = 3 then 16 else 8 * 2 ^ d.size
def Desc.bound (d : Desc) : Bool := bitOf d.bind 7
def Desc.boundQ (d : Desc) : Nat := d.bind % 32
/-- Reduction axis, and orientation bit, of byte 22. -/
def Desc.red (d : Desc) : Nat := d.axes % 2
def Desc.orientB (d : Desc) : Bool := bitOf d.axes 1

/-- The 32 bytes of a descriptor (R119). -/
def descOf (bs : List Byte) : Desc :=
  let ea := bytesAt bs 0 4
  let sa := bytesAt bs 4 4
  { space := ea / 2 ^ 28, addr := ea % 2 ^ 28, sspace := sa / 2 ^ 28, saddr := sa % 2 ^ 28,
    word := BitVec.ofNat 32 (bytesAt bs 8 4), scale := BitVec.ofNat 32 (bytesAt bs 12 4),
    pitch := bytesAt bs 16 2, n0 := bytesAt bs 18 2, n1 := bytesAt bs 20 2,
    axes := bytesAt bs 22 1, bind := bytesAt bs 23 1, count := bytesAt bs 24 2, base := bytesAt bs 26 2,
    first := bytesAt bs 28 2, second := bytesAt bs 30 2 }

/-- Width in bits of an element (R29); Clove-19 packs three to 64 bits. -/
def fmtWidth : Nat → Nat
  | 0 => 4 | 1 => 6 | 2 => 6 | 3 => 8 | 4 => 8 | 5 => 16 | 6 => 16 | 7 => 32 | 8 => 40 | 9 => 19 | _ => 0

/-- Bit offset of element k of a row (R34). -/
def elemBit (fmt k : Nat) : Nat := if fmt = 9 then k / 3 * 64 + k % 3 * 19 else fmtWidth fmt * k

/-- Bytes of a row of n elements (R34). -/
def rowBytes (fmt n : Nat) : Nat :=
  if fmt = 9 then (n + 2) / 3 * 8 else if fmt = 1 || fmt = 2 then (n + 3) / 4 * 3 else (fmtWidth fmt * n + 7) / 8

def roundUp (n e : Nat) : Nat := (n + e - 1) / e * e

/-- Lengths padded to whole block extents (R40). A descriptor gives padded lengths (R119); where one that it gives is not
a whole number of extents, the model pads it here, and the elements beyond it are the pads (log entry 68). -/
def Desc.p0 (d : Desc) : Nat := if d.bs && d.dir != 1 then roundUp d.n0 d.ext else d.n0
def Desc.p1 (d : Desc) : Nat := if d.bs && d.dir != 0 then roundUp d.n1 d.ext else d.n1

/-- Bytes of the element plane and of the scale plane (R35, R41). -/
def Desc.planeBytes (d : Desc) : Nat :=
  if d.p1 = 0 then 0 else (d.p1 - 1) * d.pitch * 32 + rowBytes d.fmt d.p0

/-- Scale byte of element (r, k) (R41). -/
def Desc.scaleIx (d : Desc) (r k : Nat) : Nat :=
  if d.dir = 0 then r * (d.p0 / d.ext) + k / d.ext
  else if d.dir = 1 then r / d.ext * d.p0 + k
  else r / d.ext * (d.p0 / d.ext) + k / d.ext

def Desc.scaleBytes (d : Desc) : Nat :=
  if !d.bs || d.p0 = 0 || d.p1 = 0 then 0 else d.scaleIx (d.p1 - 1) (d.p0 - 1) + 1

/-- The memory of a descriptor's element space, as tile t sees it (R119, R166). -/
def Desc.mem (d : Desc) (t : TileId) : MemUnit :=
  match d.space with
  | 1 => .vault t
  | 2 => .vault (Fin.ofNat 6912 d.first)
  | 3 => .sram (Fin.ofNat 6912 d.first)
  | 4 => .stack (Fin.ofNat 32 d.first)
  | _ => .sram t

/-- Byte addresses of the planes: a stack address counts units of 512 bytes (R166). -/
def Desc.ea (d : Desc) : Nat := if d.space = 4 then d.addr * 512 else d.addr
def Desc.sa (d : Desc) : Nat := if d.space = 4 then d.saddr * 512 else d.saddr

/-- End of a space in bytes (R106, R166). -/
def spaceEnd (space : Nat) : Nat :=
  if space = 0 || space = 3 then 0x600000 else if space = 4 then 0xBE00000 * 512 else 0xC000000

/-- A tensor scale that R44 faults: not a positive normal number. -/
def badScale (v : BitVec 32) : Bool :=
  let e := v.toNat / 2 ^ 23 % 256
  v.msb || e = 0 || e = 255

/-- The conditions of R44 on a format word and its tensor scale (R42, R53). -/
def Desc.wordFault (d : Desc) : Bool :=
  9 < d.fmt || 5 < d.size || d.w / 2 ^ 20 != 0
    || (d.size != 0 && (!d.bs || 2 ≤ d.dir))
    || (d.bs && (d.fmt = 6 || d.fmt = 7 || d.fmt = 8 || d.fmt = 9))
    || (!d.bs && d.fmt ≤ 4)
    || (d.mx && !(d.fmt ≤ 4 && d.dir = 0 && d.size = 2))
    || (d.ts && badScale d.scale)

/-- The narrower conditions on a MOVE's format word (R44). -/
def Desc.moveWordFault (d : Desc) : Bool :=
  9 < d.fmt || 5 < d.size || d.w / 2 ^ 20 != 0 || (d.size != 0 && (!d.bs || 2 ≤ d.dir))

/-- Reserved fields and ranges common to every descriptor (R119, R120). An element or scale address that is not a
multiple of 32 (R41) raises no fault that a rule names: the address is used as given (the model's choice, log entry
69). -/
def Desc.fieldFault (d : Desc) : Bool :=
  4 < d.space || d.axes / 4 != 0 || d.bind / 32 % 4 != 0
    || (d.bs && !(d.sspace = 0 || d.sspace = d.space))
    || ((d.space = 2 || d.space = 3) && 6911 < d.first)
    || (d.space = 4 && 31 < d.first)
    || spaceEnd d.space < d.ea + d.planeBytes
    || (d.bs && spaceEnd d.space < d.sa + d.scaleBytes)

/-- A stack range within one window of the partition, writable where it is written (R167). -/
def inWindow (ws : List Window) (stack base len : Nat) (write : Bool) : Bool :=
  ws.any (fun w => w.stack.val = stack && w.base ≤ base && base + len ≤ w.base + w.size && (w.write || !write))

def State.windows (s : State) (t : Nat) : List Window :=
  match (s.tile t).part with
  | some p => match (s.part p.val).bin with
    | some b => b.windows
    | none => []
  | none => []

def Desc.windowFault (s : State) (t : Nat) (d : Desc) (write : Bool) : Bool :=
  d.space = 4 && (!inWindow (s.windows t) d.first d.ea d.planeBytes write
    || (d.bs && !inWindow (s.windows t) d.first d.sa d.scaleBytes write))

/-! Reading elements (R30–R41, R54, R102). -/

/-- A descriptor is read at issue: with a poisoned or uncorrectable word it faults (R179). Cold-scale mode takes
format word bit [11] as 0 (R260). -/
def State.readDesc (s : State) (t : TileId) (a : Nat) (cold : Bool) : Option Desc :=
  if s.anyMarked (.sram t) a 32 then none
  else
    let d := descOf (s.bytes (.sram t) a 32)
    some (if cold then { d with word := d.word &&& ~~~(0x800 : BitVec 32) } else d)

/-- The bits of one element, and whether a word that holds them is poisoned. -/
def State.elemRaw (s : State) (u : MemUnit) (d : Desc) (r k : Nat) : Nat × Bool :=
  let b := elemBit d.fmt k
  let a := d.ea + r * d.pitch * 32 + b / 8
  let n := (b % 8 + fmtWidth d.fmt + 7) / 8
  (leVal (s.bytes u a n) / 2 ^ (b % 8) % 2 ^ fmtWidth d.fmt,
   (List.range n).any (fun i => s.marked u (a + i)))

/-- Block factor of a scale code (R38): none for a NaN block, and whether the block is a zero block. -/
def scaleOf (mx : Bool) (c : Nat) : Option (Int × Bool) :=
  if c = 0xFF then none else some ((c : Int) - 127, !mx && c = 0)

/-- The value of one element with its block scale, without tensor scale (R36). -/
def State.elem (s : State) (u : MemUnit) (d : Desc) (r k : Nat) : Num :=
  let (bits, bad) := s.elemRaw u d r k
  if bad then .nan
  else if d.fmt = 9 then
    let w := d.ea + r * d.pitch * 32 + k / 3 * 8
    if (s.peek u (w + 7)).toNat / 2 != 0 then .nan else cloveDecode bits
  else
    match Fmt.ofCode d.fmt with
    | none => .nan
    | some f =>
      if d.bs then
        if s.marked u (d.sa + d.scaleIx r k) then .nan
        else
          match scaleOf d.mx (s.peek u (d.sa + d.scaleIx r k)).toNat with
          | none => .nan
          | some (e, z) => if z then .zero else (f.decode bits).scale e
      else f.decode bits

/-- Bytes of a descriptor's planes that n elements of a row cover. -/
def Desc.rowSegs (d : Desc) (r k n : Nat) : List (Nat × Nat) :=
  if n = 0 then []
  else
    let b := elemBit d.fmt k
    let e := elemBit d.fmt (k + n - 1) + fmtWidth d.fmt
    (d.ea + r * d.pitch * 32 + b / 8, (e + 7) / 8 - b / 8)
      :: (if d.bs then [(d.sa + d.scaleIx r k, d.scaleIx r (k + n - 1) - d.scaleIx r k + 1)] else [])

/-- Check every word of a descriptor's planes that a row and an element range cover (R175, R178). -/
def State.touchRow (s : State) (u : MemUnit) (d : Desc) (r k n reader : Nat) : State :=
  s.touchSegs u (d.rowSegs r k n) reader

/-! The producer (R45–R47, R75, R436). -/

/-- emax of R45. -/
def fmtEmax : Nat → Int
  | 0 => 2 | 1 => 2 | 2 => 4 | 3 => 8 | _ => 15

/-- One block formed by R45: the scale code and the elements. -/
def formBlock (f : Fmt) (code : Nat) (mx : Bool) (xs : List ((Nat × Nat) × Num)) : Nat × List Made :=
  let vals := xs.map (·.2)
  if vals.any (fun x => (x.isNan && !f.hasNan) || (x.isInf && !f.hasNan && !f.hasInf)) then
    (0xFF, xs.map (fun x => ⟨x.1.1, x.1.2, 0, 67⟩))
  else
    let minexp : Int := if mx then -127 else -126
    let leads := (vals.filter Num.isNonzero).map Num.lead
    let sc : Int := match leads.foldl (fun (a : Option Int) l => some (match a with | none => l | some b => max b l)) none with
      | none => minexp
      | some l => min 127 (max minexp (l - fmtEmax code))
    let one (x : (Nat × Nat) × Num) : Made × Bool :=
      let crush := x.2.isNonzero && x.2.lead < f.subMin + sc
      let bits := match x.2 with
        | .fin n m q => if crush then f.encode .saturating (.fin n 0 0) else f.encode .saturating (.fin n m (q - sc))
        | y => f.encode .saturating y
      let v := (f.decode bits).scale sc
      (⟨x.1.1, x.1.2, bits, binOf v crush (!crush && f.saturates (x.2.scale (-sc)))⟩, (f.decode bits).isZero)
    let ms := xs.map one
    if !mx && ms.all (·.2) then (0, ms.map (fun m => { m.1 with bits := 0 }))
    else ((sc + 127).toNat, ms.map (·.1))

/-- Elements without block scale: direct conversion (R75). -/
def formDirect (f : Fmt) (xs : List ((Nat × Nat) × Num)) : List Made :=
  xs.map (fun x =>
    let bits := f.encode .nearestEven x.2
    ⟨x.1.1, x.1.2, bits, binOf (f.decode bits) false false⟩)

/-- Bytes to be written, by rising address. -/
abbrev Patch := Map Byte

/-- A byte as it will be once a patch is written. -/
def State.patched (s : State) (u : MemUnit) (m : Patch) (a : Nat) : Byte := (mfind a m).getD (s.peek u a)

/-- Put the bits of one element into a patch. -/
def State.putElem (s : State) (u : MemUnit) (d : Desc) (m : Patch) (e : Made) : Patch :=
  let b := elemBit d.fmt e.k
  let w := fmtWidth d.fmt
  let a := d.ea + e.row * d.pitch * 32 + b / 8
  let n := (b % 8 + w + 7) / 8
  let old := leVal ((List.range n).map (fun i => s.patched u m (a + i)))
  let sh := 2 ^ (b % 8)
  let new := old - old / sh % 2 ^ w * sh + e.bits * sh
  ((leBytes n new).zip (List.range n)).foldl (fun m x => mset (a + x.2) x.1 m) m

/-- The runs of adjacent bytes of a patch. -/
def runsOf (m : Patch) : List (Nat × List Byte) :=
  m.foldr (fun c rs => match rs with
    | (a, bs) :: r => if c.1 + 1 = a then (c.1, c.2 :: bs) :: r else (c.1, [c.2]) :: rs
    | [] => [(c.1, [c.2])]) []

/-- Write a patch: each run is one write, so that a code word that it covers is written whole (R178, R180). -/
def State.storePatch (s : State) (u : MemUnit) (m : Patch) : State :=
  (runsOf m).foldl (fun s r => s.store u r.1 r.2) s

/-- Histogram slots that count a tag (R82). -/
def State.histSlots (s : State) (t tag : Nat) : List Nat :=
  below 4 (fun i => let v := s.tileObj 0x5200 (i + 1) t; tag != 0 && bitOf v 8 && v % 256 = tag)

/-- Count written elements in the slots and the guard latch (R81, R82, R262). Every element within the lengths that the
descriptor gives counts; the pads beyond them do not (R40; the model's way to tell them, log entry 68). -/
def State.classify (s : State) (t tag : Nat) (ms : List Made) : State :=
  let slots := s.histSlots t tag
  let x := s.tile t
  let add (h : Hist) : Hist :=
    ms.foldl (fun h m =>
      { counts := mset m.bin (min 0xFFFFFFFF (mget 0 h.counts m.bin + 1)) h.counts,
        crushed := h.crushed + (if m.bin = 69 then 1 else 0), elems := h.elems + 1 }) h
  let hist := slots.foldl (fun h i => mset i (add (mget {} h i)) h) x.hist
  let sets : Bool := x.guard.any (·.on) && ms.any (fun m => binOverflows m.bin)
  s.setTile t { x with hist := hist, overflow := x.overflow || sets }

/-- Coordinates of the block that holds (r, k) (R39). -/
def Desc.extent (d : Desc) (r k : Nat) : List (Nat × Nat) :=
  let e := d.ext
  let rows := if d.dir = 0 then [r] else (List.range e).map (fun i => r / e * e + i)
  let cols := if d.dir = 1 then [k] else (List.range e).map (fun i => k / e * e + i)
  rows.flatMap (fun i => cols.map (fun j => (i, j)))

/-- Its elements within the plane's lengths (R436), and its pads (R40). -/
def Desc.blockOf (d : Desc) (r k : Nat) : List (Nat × Nat) := (d.extent r k).filter (fun c => c.1 < d.n1 && c.2 < d.n0)
def Desc.padsOf (d : Desc) (r k : Nat) : List (Nat × Nat) := (d.extent r k).filter (fun c => !(c.1 < d.n1 && c.2 < d.n0))

/-- Values of an operation in progress: the blocks that they complete, with the values held, are formed; the rest stays
with the operation (R100, R436). -/
def formReady (f : Fmt) (d : Desc) (asm : List Assembly) (xs : List ((Nat × Nat) × Num)) :
    List FormedBlock × List Assembly × List ((Nat × Nat) × Num) :=
  let held := ((asm.find? (fun a => a.addr = d.ea && a.word = d.word)).elim [] (·.vals)).filter
    (fun v => !(xs.any (fun x => x.1 = v.1)))
  let ids := (xs.map (fun x => d.scaleIx x.1.1 x.1.2)).eraseDups
  let bs := ids.filterMap (fun i => (xs.find? (fun x => d.scaleIx x.1.1 x.1.2 = i)).bind (fun x =>
    let cs := d.blockOf x.1.1 x.1.2
    let vs := cs.filterMap (fun c => (xs ++ held).find? (fun v => v.1 = c))
    if vs.length = cs.length then
      let (code, ms) := formBlock f d.fmt d.mx vs
      some (⟨i, code, ms, (d.padsOf x.1.1 x.1.2).map (fun c => ⟨c.1, c.2, 0, 66⟩)⟩ : FormedBlock)
    else none))
  let formed (v : (Nat × Nat) × Num) : Bool := bs.any (fun b => b.made.any (fun m => (m.row, m.k) = v.1))
  (bs, (asm.map (fun a => if a.addr = d.ea && a.word = d.word then { a with vals := a.vals.filter (fun v => !formed v) } else a)).filter
      (fun a => a.vals != []), xs.filter (fun v => !formed v))

/-- Values that stay open when their operation ends go into the assembly buffer, each in place of one held for its
element (R436). -/
def keepOpen (d : Desc) (asm : List Assembly) (xs : List ((Nat × Nat) × Num)) : List Assembly :=
  if xs = [] then asm
  else
    let held := ((asm.find? (fun a => a.addr = d.ea && a.word = d.word)).elim [] (·.vals)).filter
      (fun v => !(xs.any (fun x => x.1 = v.1)))
    ⟨d.ea, d.word, xs ++ held⟩ :: asm.filter (fun a => !(a.addr = d.ea && a.word = d.word))

/-- Place the values of an operation for a block-scaled result: the blocks formed, and the buffer after it. None: more than
16,384 values would be held (R436). -/
def placeBlocks (f : Fmt) (d : Desc) (asm : List Assembly) (xs : List ((Nat × Nat) × Num)) :
    Option (List FormedBlock × List Assembly) :=
  let r := formReady f d asm xs
  let keep := keepOpen d r.2.1 r.2.2
  if 16384 < (keep.map (fun a => a.vals.length)).sum then none else some (r.1, keep)

/-- The bytes that formed blocks write: elements, pads and scale codes. -/
def State.blockPatch (s : State) (u : MemUnit) (d : Desc) (bs : List FormedBlock) : Patch :=
  bs.foldl (fun m b => mset (d.sa + b.ix) (BitVec.ofNat 8 b.code) ((b.made ++ b.pads).foldl (s.putElem u d) m)) []

/-- Write formed blocks, and elements without block scale, and count them (R45, R75, R81, R436). -/
def State.writeMade (s : State) (t : TileId) (d : Desc) (bs : List FormedBlock) (ms : List Made) : State :=
  let u := MemUnit.sram t
  let s := if d.bs then s.storePatch u (s.blockPatch u d bs) else s.storePatch u (ms.foldl (s.putElem u d) [])
  let s := bs.foldl (fun s b => s.classify t.val d.tag b.made) s
  if ms = [] then s else s.classify t.val d.tag ms

/-! Tagged tensor writes (R82, R48). -/

/-- Whether a write with the tag is open on the tile: a drain from its first entry read on. -/
def Tile.writeOpen (t : Tile) (tag : Nat) : Bool :=
  t.ops.any (fun o => match o.kind with
    | .drain _ d .. => d.tag = tag && o.pos != 0
    | .vectorSt _ _ _ (some r) => r.tag = tag
    | _ => false)
  || (allFin 8).any (fun c => (t.ctx c.val).store.any (fun r => r.tag = tag))

/-- Begin a tagged write: the current-write counts of its slots restart when no other matching write is open. -/
def State.beginWrite (s : State) (t tag : Nat) : State :=
  if tag = 0 || (s.tile t).writeOpen tag then s
  else s.modTile t (fun x => { x with
    hist := (s.histSlots t tag).foldl (fun h i => mset i { mget {} h i with crushed := 0, elems := 0 } h) x.hist })

/-- End a tagged write: the comparison of R48; E5020 once per tag and step. Two slots may hold one tag (R82) with counts that
differ, where R48 speaks of one: E5020 is raised when either is above its limit, with the counts of the first that is (the
model's choice; log entry 21). -/
def State.endWrite (s : State) (t tag : Nat) : State :=
  let thr := s.obj 0x5200 0x20 t
  let hit := (s.histSlots t tag).filterMap (fun i =>
    let h := mget ({} : Hist) (s.tile t).hist i
    if thr != 0 && thr * h.elems < h.crushed * 65536 then some h else none)
  match hit with
  | [] => s
  | h :: _ =>
    let x := s.tile t
    if x.reported.contains tag then s
    else (s.setTile t { x with reported := tag :: x.reported }).raise 0x5020 t x.stamp
      ([BitVec.ofNat 8 tag] ++ leBytes 4 h.crushed ++ leBytes 4 h.elems)

/-- End the open run of stores of a context (R82). -/
def State.endRun (s : State) (t c : Nat) : State :=
  match ((s.tile t).ctx c).store with
  | none => s
  | some r => (s.modCtx t c (fun x => { x with store := none })).endWrite t r.tag

/-! Which bytes an operation touches at each of its steps (R37, R93, R96, R100, R435, R439). -/

/-- Elements per cell: the G of R92. -/
def PClass.group : PClass → Nat
  | .c4 => 8 | .c8 => 4 | .c16 => 1 | .legacy => 1

/-- The group with which a load of a format reads (R92); FP4 is read with 8 as well (log entry 10). -/
def loadGroup (fmt : Nat) : Nat := if fmt ≤ 4 then 4 else 1

def Desc.redLen (d : Desc) : Nat := if d.red = 0 then d.n0 else d.n1
def Desc.lineLen (d : Desc) : Nat := if d.red = 0 then d.n1 else d.n0

/-- Row and position along axis 0 of the element at a position of a line across the reduction axis. -/
def Desc.coords (d : Desc) (line pos : Nat) : Nat × Nat := if d.red = 0 then (line, pos) else (pos, line)

/-- Bytes of positions start to start + n − 1 of a line that lie within the plane. -/
def Desc.lineSegs (d : Desc) (line start n : Nat) : List (Nat × Nat) :=
  if d.lineLen ≤ line then []
  else if d.red = 0 then d.rowSegs line start (min n (d.redLen - start))
  else (List.range (min n (d.redLen - start))).flatMap (fun p => d.rowSegs (start + p) line 1)

/-- Bytes of row i of a load: for FP4, those of either grouping (log entry 10). -/
def Desc.loadSegs (d : Desc) (o : Orient) (i : Nat) : List (Nat × Nat) :=
  let g := if d.fmt = 0 then 8 else loadGroup d.fmt
  match o with
  | .a => (List.range 32).flatMap (fun c => d.lineSegs (32 * d.first + c) (32 * g * d.second + g * i) g)
  | .b => d.lineSegs (32 * d.first + i) (32 * g * d.second) (32 * g)

/-- Lengths of the entry axis and of the lane axis of a result (R439). -/
def Desc.entryLen (d : Desc) : Nat := if d.orientB then d.n0 else d.n1
def Desc.laneLen (d : Desc) : Nat := if d.orientB then d.n1 else d.n0

/-- Element of entry b + i and lane j. -/
def Desc.place (d : Desc) (i j : Nat) : Nat × Nat :=
  if d.orientB then (32 * d.first + j, d.second + i) else (d.second + i, 32 * d.first + j)

/-- Lanes of a drain that are written. -/
def Desc.drainLanes (d : Desc) : List Nat := below 32 (fun j => 32 * d.first + j < d.laneLen)

/-- Bytes of the elements, and their scale bytes, that entry i of a drain writes. -/
def Desc.entrySegs (d : Desc) (i : Nat) : List (Nat × Nat) :=
  d.drainLanes.flatMap (fun j => d.rowSegs (d.place i j).1 (d.place i j).2 1)

/-- Lanes of a group of a vector load or store that lie within the row. -/
def Desc.groupLanes (d : Desc) : List Nat := below 64 (fun j => 64 * d.second + j < d.n0)

/-- Bytes of that group. -/
def Desc.vecSegs (d : Desc) : List (Nat × Nat) := d.rowSegs d.first (64 * d.second) d.groupLanes.length

/-- Byte ranges cut at the ends of SRAM lines (R106). -/
def cutLines (segs : List (Nat × Nat)) : List (Nat × Nat) :=
  segs.flatMap (fun g => (List.range ((g.1 + g.2 + 63) / 64 - g.1 / 64)).map (fun i =>
    let a := max g.1 ((g.1 / 64 + i) * 64)
    (a, min (g.1 + g.2) ((g.1 / 64 + i + 1) * 64) - a)))

/-- Byte ranges by the lines that they touch, some lines to a step (R104). -/
def linesBy (n : Nat) (segs : List (Nat × Nat)) : List (List (Nat × Nat)) :=
  let ps := cutLines segs
  let ls := (ps.map (fun g => g.1 / 64)).eraseDups
  (List.range ((ls.length + n - 1) / n)).map (fun i =>
    ps.filter (fun g => ((ls.drop (n * i)).take n).contains (g.1 / 64)))

/-- Bytes that a vector store writes: those of the blocks that it completes, or of its elements (R435, R436). -/
def Desc.storeSegs (d : Desc) (bs : List FormedBlock) : List (Nat × Nat) :=
  if d.bs then bs.flatMap (fun b => (b.made ++ b.pads).flatMap (fun m => d.rowSegs m.row m.k 1)) else d.vecSegs

/-- Steps of an operation: rows, vectors, entries, or accesses of 4 lines (R96, R98, R100, R104). -/
def OpKind.steps : OpKind → Nat
  | .load .. => 32
  | .stream _ _ _ _ n _ _ => n
  | .drain _ d _ _ => d.count
  | .vectorLd _ _ d => (linesBy 4 d.vecSegs).length
  | .vectorSt d bs .. => max 1 (linesBy 4 (d.storeSegs bs)).length
  | .vector => 0
  | .move .. => 0

/-- Bytes of SRAM that a step touches. -/
def OpKind.segs (k : OpKind) (i : Nat) : List (Nat × Nat) :=
  match k with
  | .load _ d b => d.loadSegs b.orient i
  | .stream _ d p _ _ _ _ => d.lineSegs (d.first + i) (32 * p.cls.group * d.second) (32 * p.cls.group)
  | .drain _ d _ _ => d.entrySegs i
  | .vectorLd _ _ d => (linesBy 4 d.vecSegs).getD i []
  | .vectorSt d bs .. => (linesBy 4 (d.storeSegs bs)).getD i []
  | .vector => []
  | .move .. => []

/-- The steps write to SRAM. -/
def OpKind.writes : OpKind → Bool
  | .drain .. | .vectorSt .. => true
  | _ => false

/-- Every step has run. -/
def Op.ran (o : Op) : Bool := o.kind.steps ≤ o.pos

/-- The engine of an operation: the loads, passes and drains of an array take turns among themselves (R96, R101). -/
def OpKind.engine : OpKind → Option Nat
  | .load a .. => some a.val
  | .stream a .. => some (3 + a.val)
  | .drain a .. => some (6 + a.val)
  | _ => none

end Sys2Proof.Machine
end

