-- ==== Sys2Proof/Machine/Wire.lean ====
section
/-! DEFINITION. What every unit sends: link packets and their frames (R293, R297–R300), trace records (R411–R413)
and responses (R327, R333). -/
namespace Sys2Proof.Machine

/-! Frames. -/

/-- CRC-32 of IEEE 802.3, one bit at a time, reflected. -/
def crcBit (c : BitVec 32) : BitVec 32 := if c.getLsbD 0 then (c >>> 1) ^^^ 0xEDB88320 else c >>> 1

def crcByte (c : BitVec 32) (b : Byte) : BitVec 32 :=
  (List.range 8).foldl (fun c _ => crcBit c) (c ^^^ b.zeroExtend 32)

def crc32 (init : BitVec 32) (bs : List Byte) : BitVec 32 := ~~~(bs.foldl crcByte init)

/-- CRC of a data frame (R293): the 24-bit sequence number, then the slots. -/
def dataCrc (seq : Nat) (slots : List Byte) : BitVec 32 := crc32 0xFFFFFFFF (leBytes 3 seq ++ slots)
/-- CRC of a control frame (R294). -/
def ctlCrc (slots : List Byte) : BitVec 32 := crc32 0 slots

/-- Header slot of a packet (R297). -/
def Pkt.header (p : Pkt) : List Byte :=
  let n := if p.data.length ≤ 64 then 0 else (p.data.length + 127) / 128
  let h := leBytes 1 (p.hdr.vc.val + (if p.hdr.layer then 8 else 0) + p.hdr.ty.toNat * 16) ++ leBytes 1 n
    ++ leBytes 2 p.hdr.dst.toNat ++ leBytes 2 p.hdr.src.toNat ++ leBytes 4 p.hdr.job.toNat
    ++ leBytes 2 p.hdr.plan.toNat
    ++ leBytes 1 ((if p.hdr.poison then 1 else 0) + (if p.hdr.fromHost then 2 else 0) + (if p.hdr.toHost then 4 else 0))
    ++ leBytes 1 p.hdr.hops.toNat ++ leBytes 2 0
  let xf := p.xf.take 48 ++ List.replicate (48 - p.xf.length) 0
  let inl := if n = 0 then p.data ++ List.replicate (64 - p.data.length) 0 else List.replicate 64 0
  h ++ xf ++ inl

/-- Slots of a packet: its header and its data slots. -/
def Pkt.slots (p : Pkt) : List (List Byte) :=
  let n := if p.data.length ≤ 64 then 0 else (p.data.length + 127) / 128
  p.header :: (List.range n).map (fun i =>
    let d := (p.data.drop (128 * i)).take 128
    d ++ List.replicate (128 - d.length) 0)

/-- Link channel of a VC and layer: VC0, then VC1–VC5 in layers 0 and 1 (R298). -/
def linkChannel (vc : Nat) (layer : Bool) : Nat := if vc = 0 then 0 else 2 * vc - 1 + (if layer then 1 else 0)

/-- Link channel of a packet. -/
def Pkt.channel (p : Pkt) : Nat := linkChannel p.hdr.vc.val p.hdr.layer

/-- A sub-port carries frames (0x6010:01 codes 2 and 3). -/
def SubPort.isUp (b : SubPort) : Bool := b.st = 2 || b.st = 3

/-- It takes packets; while it retrains they wait (R302). -/
def SubPort.takes (b : SubPort) : Bool := b.isUp || b.st = 4

/-- A link of the module runs: its sub-port is up, and its edge side has its clock (R352). -/
def State.linkUp (s : State) (p b : Nat) : Bool := (s.sub p b).isUp && s.sideClocked (portSide p)

/-- Lanes of a sub-port in a split (R288). -/
def splitLanes (split : Nat) : Nat := 128 / 2 ^ split

/-- Whether the sender holds credits for a packet's slots: 512 reserved per channel, and the shared rest of the
peer's receive buffer; and whether its share of the port's 16 MiB replay buffer holds the packet's frames (R299). -/
def SubPort.hasCredit (b : SubPort) (lanes : Nat) (p : Pkt) : Bool :=
  let out (i : Nat) : Nat := mget 0 b.used i - b.granted.getD i 0
  let need := p.slots.length
  let share := 16 * 2 ^ 20 * lanes / 128
  let shared := share / 128 - 11 * 512
  let beyond := ((List.range 11).map (fun i => out i + (if i = p.channel then need else 0) - 512)).sum
  beyond ≤ shared && (b.unacked.length + (need + 1) / 2) * 256 ≤ share

/-- Two slots a frame; a last slot alone is followed by an empty one (log entry 12). -/
def frames (bad : Bool) : Nat → List (List Byte) → List SentFrame
  | n, a :: b :: r => ⟨n % 2 ^ 24, a ++ b, bad⟩ :: frames bad (n + 1) r
  | n, [a] => [⟨n % 2 ^ 24, a ++ List.replicate 128 0, bad⟩]
  | _, [] => []

/-- CRC with which a frame is sent: complemented where it carries a poisoned packet (R294; log entry 12). -/
def SentFrame.crc (f : SentFrame) : BitVec 32 :=
  if f.poison then ~~~dataCrc f.seq f.slots else dataCrc f.seq f.slots

/-- Striping: 4 bytes to a lane in turn, over the active lanes in ascending order (R293). -/
def stripe (lanes : List Nat) (bs : List Byte) : Map (List Byte) :=
  if lanes = [] then []
  else
    (List.range lanes.length).map (fun i => (lanes.getD i 0,
      (List.range ((bs.length / 4 + lanes.length - 1 - i) / lanes.length)).flatMap (fun k =>
        (bs.drop (4 * (k * lanes.length + i))).take 4)))

/-- The bytes of a frame on the lanes of its sub-port's active groups. -/
def SentFrame.onLanes (f : SentFrame) (groups : List Nat) : Map (List Byte) :=
  stripe (groups.flatMap (fun g => (List.range 8).map (fun i => 8 * g + i))) (f.slots ++ leBytes 4 f.crc.toNat)

/-- Send a packet's frames: counted, and kept until acknowledged (R299, R300). -/
def State.frameOut (s : State) (p b : Nat) (k : Pkt) : State :=
  let x := s.sub p b
  let fs := frames k.hdr.poison x.txSeq k.slots
  (s.setSub p b { x with
    txSeq := (x.txSeq + fs.length) % 2 ^ 24, unacked := x.unacked ++ fs, sinceCtl := x.sinceCtl + fs.length,
    ackWait := if x.unacked = [] then s.tick else x.ackWait,
    wire := (fs.getLast?.map (·.onLanes x.groups)).getD x.wire,
    used := mset k.channel (mget 0 x.used k.channel + k.slots.length) x.used }).bump 0x7500 4 p fs.length

/-- Send waiting packets while credits last, in order (R297, R299). -/
def State.pump (s : State) (p b : Nat) : Nat → State
  | 0 => s
  | n + 1 =>
    let x := s.sub p b
    match x.queue with
    | [] => s
    | k :: r =>
      if s.linkUp p b && x.hasCredit (splitLanes (s.obj 0x6000 3 p)) k then
        ((s.setSub p b { x with queue := r }).frameOut p b k).pump p b n
      else s

/-- The port quiesces: it takes no new packet of VC1–VC5 (R310). -/
def State.holdsNew (s : State) (p : Nat) (k : PktHdr) : Bool := s.obj 0x6000 0xA p = 1 && k.vc.val != 0

def State.holdPkt (s : State) (p inst : Nat) (k : Pkt) : State :=
  s.modPort p (fun x => { x with holdPkts := x.holdPkts ++ [(inst, k)] })

/-- Queue a packet on an up sub-port; one that a quiescing port does not take waits at it. -/
def State.sendOn (s : State) (p b : Nat) (k : Pkt) : State :=
  if s.holdsNew p k.hdr then s.holdPkt p (8 + b) k
  else
    let s := s.modSub p b (fun x => { x with queue := x.queue ++ [k] })
    s.pump p b (s.sub p b).queue.length

/-- Remove the n oldest packets of a channel. -/
def dropChan (ch : Nat) : Nat → List (Nat × Bool) → List (Nat × Bool)
  | 0, l => l
  | _, [] => []
  | n + 1, k :: r => if k.1 = ch then dropChan ch n r else k :: dropChan ch (n + 1) r

/-- A command takes the n oldest packets of a channel that a sub-port has received: whether a poisoned frame brought any of
them (R294). A packet that no frame command has brought in is good (log entry 12). -/
def State.takeRx (s : State) (p b ch n : Nat) : State × Bool :=
  let x := s.sub p b
  (s.setSub p b { x with rxDone := dropChan ch n x.rxDone }, ((x.rxDone.filter (fun k => k.1 = ch)).take n).any (·.2))

/-- The same of a VC, on either layer: whether the packets are poisoned, and the layer of the oldest (R294, R298). -/
def State.takeVc (s : State) (p b vc n : Nat) : State × Bool × Bool :=
  let layer := ((s.sub p b).rxDone.find? (fun k => k.1 = linkChannel vc false || k.1 = linkChannel vc true)).any
    (fun k => vc != 0 && k.1 = linkChannel vc true)
  let r := s.takeRx p b (linkChannel vc layer) n
  (r.1, r.2, layer)

/-- A packet of VC3 taken from a sub-port, on either layer: whether it is poisoned, and its layer (R294, R298). -/
def State.takeTail (s : State) (p b : Nat) : State × Bool × Bool := s.takeVc p b 3 1

/-- The module's ID (0x1050:01). -/
def State.moduleId (s : State) : BitVec 14 := BitVec.ofNat 14 (s.obj 0x1050 1 0)

/-! Trace (R411–R413). -/

/-- Ring size in bytes. -/
def State.traceBytes (s : State) : Nat := 256 * 2 ^ 20 * 2 ^ (s.obj 0x9100 3 0)

/-- Whether a kind is recorded now (R411). -/
def State.traces (s : State) (kind : Nat) : Bool :=
  s.mstate < 3 && (kind < 2 ||
    (s.obj 0x9100 1 0 = 1 && bitOf (s.obj 0x9100 2 0) kind
      && (s.obj 0x3100 1 0 = 0 || (s.obj 0x3100 1 0 = 2 && kind != 6))))

/-- Sub-port named by an encoding of 0x3010, when enabled (R311, R413). -/
def namedSub (v : Nat) : Option (Nat × Nat) := if bitOf v 7 then some (v / 16 % 8, v % 8) else none

/-- A record that is dropped (R412, R413). -/
def State.traceDrop (s : State) : State := s.setObj 0x9100 7 0 (s.obj 0x9100 7 0 + 1)

/-- Where record i of the ring lies in its stack (R411). -/
def State.traceAt (s : State) (i : Nat) : Nat := 0x17F0000000 + i / 32 * 64 % (s.traceBytes / 32)

/-- Record a trace point: it takes its place in the ring, and waits in the buffer of the side of its stack (R411, R412; which
side's buffer a record waits in is the model's choice, log entry 62). -/
def State.traceOut (s : State) (kind src : Nat) (step : BitVec 32) (data : List Byte) : State :=
  if !s.traces kind then s
  else
    let i := s.trace
    let side := engineSide (i % 32)
    let rec64 := leBytes 8 s.tick ++ leBytes 2 kind ++ leBytes 2 src ++ leBytes 4 step.toNat ++ data.take 48
      ++ List.replicate (48 - data.length) 0
    let buf := mget [] s.traceBufs side
    if (s.obj 0x9100 4 0 = 1 && s.traceBytes ≤ i * 64) || 256 ≤ buf.length then s.traceDrop
    else { s with trace := i + 1, traceBufs := mset side (buf ++ [(i, rec64)]) s.traceBufs }

/-- The streamed copy of a record (R413). -/
def State.traceStream (s : State) (rec64 : List Byte) : State :=
  let dst := s.obj 0x9100 5 0
  if dst = 0 then s
  else
    match namedSub (s.obj 0x3010 2 0) with
    | some (p, b) =>
      if (s.sub p b).takes then
        s.sendOn p b ⟨{ vc := 1, layer := false, ty := 8, slots := 0, dst := BitVec.ofNat 14 (dst / 2 ^ 50),
                        src := s.moduleId, job := 0 }, leBytes 8 dst ++ leBytes 4 64, rec64⟩
      else s.traceDrop
    | none => s.traceDrop

/-- Trace records that wait for a stack (R412). -/
def State.traceFor (s : State) (e : Nat) : List (Nat × List Byte) :=
  (mget [] s.traceBufs (engineSide e)).filter (fun r => r.1 % 32 = e)

/-- The oldest record that waits for a stack leaves its buffer: written into the ring, and streamed. -/
def State.traceWrite (s : State) (e : EngineId) : State :=
  match s.traceFor e.val with
  | [] => s
  | r :: _ =>
    if s.chanBusy e.val (s.traceAt r.1) 64 then s
    else
      let side := engineSide e.val
      let s : State := { s with traceBufs := mset side ((mget [] s.traceBufs side).erase r) s.traceBufs }
      ((s.store (.stack e) (s.traceAt r.1) r.2).setObj 0x9100 6 0 (s.obj 0x9100 6 0 + 1)).traceStream r.2

/-- A record for a stack that has failed is lost (the model's choice: no rule says where it goes; log entry 62). -/
def State.traceLose (s : State) (e : EngineId) : State :=
  match s.traceFor e.val with
  | [] => s
  | r :: _ =>
    let side := engineSide e.val
    { s with traceBufs := mset side ((mget [] s.traceBufs side).erase r) s.traceBufs }.traceDrop

/-! Responses. -/

/-- A response is sent on the path the request came by (R327, R333). -/
def State.reply (s : State) (r : Reply) : State := { s with replies := r :: s.replies }

end Sys2Proof.Machine
end

