-- ==== Sys2Proof/Machine/Tile.lean ====
section
/-! DEFINITION. The sequencer of a tile: which contexts may issue (R114), faults (R131), signals (R116), waits and
their results (R125–R128) and late operations (R123). -/
namespace Sys2Proof.Machine

/-! Who may issue. -/

/-- Partition whose program a tile holds, as a number. -/
def State.tilePart (s : State) (t : Nat) : Option Nat := (s.tile t).part.map (·.val)

/-- Microcode state of a tile, 0x5010:14 (R376): only GOOD and VAULT_OUT tiles receive it. -/
def State.mcState (s : State) (t : Nat) : Nat :=
  match s.mc with
  | none => 0
  | some m => if s.floorOf t ≤ 1 then mget 1 m t else 0

/-- The tile is in partition reset: its partition is Empty, Loaded or Resetting (R273, R275). -/
def State.inPartReset (s : State) (t : Nat) : Bool :=
  (s.partOf t).any (fun p => s.pstate p.val = 1 || s.pstate p.val = 2 || s.pstate p.val = 7)

/-- The tile is in tile, partition or compute reset, held after T3 or a re-arm, or without microcode (R160, R376,
R379). -/
def State.inReset (s : State) (t : Nat) : Bool :=
  s.inPartReset t || s.mstate = 1 || s.move.any (fun m => m.target = 1) || s.obj 0x5000 1 t = 1 || (s.tile t).holdT3
    || s.mc.any (fun m => mget 1 m t != 1)

/-- The tile executes its program: M0, its compute clock running, not in reset, its partition Running, Draining or
Paused (R273, R363). -/
def State.executes (s : State) (t : Nat) : Bool :=
  s.mstate = 0 && (s.region (regionOf t)).clocked && !s.inReset t
    && match s.tilePart t with
      | some p => s.pstate p = 3 || s.pstate p = 4 || s.pstate p = 5
      | none => false

def Ctx.isStopped (c : Ctx) : Bool := c.run = .stopped

/-- Class and opcode of an instruction word (R115, R440). -/
abbrev OpCode := Nat × Nat

/-- Opcodes listed for a class: 0 to this number − 1; none for the reserved classes 6 and 7 (R115, R440). -/
def opcodesOf : Nat → Nat
  | 0 => 3 | 1 => 19 | 2 => 1 | 3 => 4 | 4 => 9 | 5 => 9 | _ => 0

/-- Classes as their unit field is used (R115); FENCE names its queue there (R117). -/
inductive Cls where
  | tensor | vector | queue | other
  deriving DecidableEq, Repr

def clsOf (k : OpCode) : Cls :=
  if k.1 = 0 then .tensor else if k.1 = 1 then .vector else if k.1 = 2 || k.1 = 3 || k = (4, 6) then .queue else .other

def hdrOk (k : OpCode) (h : Hdr) : Bool :=
  h.rsvd = 0 && match clsOf k with
    | .tensor => h.unit.toNat < 3
    | .vector => h.unit.toNat % 4 = 0
    | .queue => h.unit.toNat < 4
    | .other => h.unit = 0

/-- The fields that R115 gives a stored instruction word. -/
def wordOp (w : BitVec 64) : OpCode := (w.toNat / 2 ^ 61, w.toNat / 2 ^ 54 % 128)
def wordHdr (w : BitVec 64) : Hdr :=
  { unit := BitVec.ofNat 3 (w.toNat / 2 ^ 51), sig := bitOf w.toNat 50, sigCtr := Fin.ofNat 64 (w.toNat / 2 ^ 44),
    rsvd := BitVec.ofNat 4 (w.toNat / 2 ^ 40) }

/-- Neither a reserved class, nor an unlisted opcode, nor a reserved bit (R115, R440). -/
def wordOk (w : BitVec 64) : Bool := (wordOp w).2 < opcodesOf (wordOp w).1 && hdrOk (wordOp w) (wordHdr w)

/-- Signal named by an instruction word (R115). -/
def sigOf (h : Hdr) : Option (Fin 64) := if h.sig then some h.sigCtr else none

/-! Faults and the program counter. -/

/-- An operation that is halted or suspended (R123). -/
def Op.isLate (o : Op) : Bool := o.late != .no

/-- The late operations of a context are abandoned (R131); a load no longer keeps its array's shadow block. -/
def Tile.abandon (x : Tile) (c : Nat) : Tile :=
  let gone := x.ops.filter (fun o => o.ctx.val = c && o.isLate)
  gone.foldl (fun x o => match o.kind with
    | .load a .. => x.setArray a.val { x.array a.val with loading := false }
    | _ => x) { x with ops := x.ops.filter (fun o => !(o.ctx.val = c && o.isLate)),
                       accs := x.accs.filter (fun a => !gone.any (fun o => a.use = .op o.id)) }

/-- Every operation of a tile is abandoned, with its accesses; no load keeps a shadow block. -/
def Tile.abandonOps (x : Tile) : Tile :=
  { x with
    ops := [], accs := x.accs.filter (fun a => !x.ops.any (fun o => a.use = .op o.id)),
    arrays := x.arrays.map (fun e => (e.1, { e.2 with loading := false })) }

/-- Stop a context: held and suspended operations are abandoned, open blocks discarded, its run of stores ended
(R131, R436, R82). -/
def State.stopCtx (s : State) (t c : Nat) : State :=
  let s := s.endRun t c
  s.modTile t (fun x =>
    { (x.abandon c).modCtx c (fun y => { y with run := .stopped, asm := [], yielded := false }) with
      semq := x.semq.filter (fun w => w.2 != c) })

/-- A fault: code and instruction address recorded, 0x7200:11 counted, the context stopped (R131). -/
def State.fault (s : State) (t c code : Nat) : State :=
  let s := s.stopCtx t c
  let s := s.modCtx t c (fun y => { y with fault := code, faddr := y.pc })
  s.bump 0x7200 0x11 t 1

/-- The next instruction, or fault code 0x04 past word 8,191 (R112, R131). -/
def State.advance (s : State) (t c : Nat) : State :=
  let x := (s.tile t).ctx c
  if x.pc < 8191 then s.setTile t ((s.tile t).setCtx c { x with pc := x.pc + 1 }) else s.fault t c 4

/-! Waits. -/

/-- Wait result of a success (R128). -/
def waitRes (elapsed tmo : Nat) : BitVec 8 := if tmo != 0 && elapsed = tmo then 0x80 else 0

/-- The timeout of a wait has expired before a core cycle. -/
def expired (since now tmo : Nat) : Bool := tmo != 0 && since + tmo < now

def endWait (y : Ctx) (r : BitVec 8) : Ctx := { y with run := .ready, res := r }

/-- Loss-scale exponent that VWAIT delivers (R200, R254). -/
def State.lossK (s : State) (p : Nat) : Nat := if s.obj 0x8100 8 0 = p then s.obj 0x8100 1 0 else 0

/-- Whether the wait of a context of tile t is satisfied (R125, R117, R200). -/
def State.satisfied (s : State) (t : Nat) (w : Wait) : Bool :=
  let x := s.tile t
  match w with
  | .counter c v => counterReached (x.counter c.val) v
  | .fence q => (x.queue q).xfers = []
  | .verdict v => match s.tilePart t with
    | some p => decide (0 ≤ stampDiff (s.part p).lastStamp v)
    | none => false
  | _ => false

/-- What a satisfied VWAIT writes: k into s15 and the flags into s14 (R200). -/
def State.deliver (s : State) (t c : Nat) (w : Wait) : State :=
  match w with
  | .verdict _ => match s.tilePart t with
    | some p => s.modCtx t c (fun y =>
        (y.setScalar 15 (BitVec.ofNat 32 (s.lossK p))).setScalar 14 ((s.part p).lastFlags.zeroExtend 32))
    | none => s
  | _ => s

/-- Evaluate the wait of one context at the end of a core cycle: one that is satisfied ends, with a timeout where that has
passed before (R128); one that is not is left to SYNC_TIMEOUT. -/
def State.wakeCtx (s : State) (t c : Nat) : State :=
  let y := (s.tile t).ctx c
  match y.run with
  | .waiting w since =>
    let now := s.coreOf t
    let timed := match w with
      | .counter .. => true | .fence _ => true | .verdict _ => true
      | _ => false
    if !timed || !s.satisfied t w then s
    else if expired since now y.tmo.toNat then s.modCtx t c (fun y => endWait y 1)
    else (s.deliver t c w).modCtx t c (fun y => endWait y (waitRes (now - since) y.tmo.toNat))
  | _ => s

def State.wake (s : State) (t : Nat) : State := (List.range 8).foldl (fun s c => s.wakeCtx t c) s

/-- The context that has waited longest on a semaphore; between contexts that began in one core cycle, the lower
number (R126). -/
def Tile.nextSem (x : Tile) (m : Nat) : Option (Nat × Nat) :=
  let since (c : Nat) : Nat := match (x.ctx c).run with
    | .waiting _ n => n
    | _ => 0
  match x.semq.filter (fun w => w.1 = m) with
  | [] => none
  | w :: ws => some (ws.foldl (fun a b =>
      if since b.2 < since a.2 || (since b.2 = since a.2 && b.2 < a.2) then b else a) w)

/-- Serve the contexts waiting on a semaphore, longest first (R126). -/
def State.serveSem (s : State) (t m : Nat) : Nat → State
  | 0 => s
  | n + 1 =>
    let x := s.tile t
    match x.nextSem m with
    | none => s
    | some w =>
      let y := x.ctx w.2
      let x' := { x with semq := x.semq.erase w }
      match y.run with
      | .waiting (.sem _) since =>
        if x.sem m = 0 then s
        else if expired since (s.coreOf t) y.tmo.toNat then
          (s.setTile t (x'.setCtx w.2 (endWait y 1))).serveSem t m n
        else
          (s.setTile t ((x'.setSem m (x.sem m - 1)).setCtx w.2
            (endWait y (waitRes (s.coreOf t - since) y.tmo.toNat)))).serveSem t m n
      | _ => (s.setTile t x').serveSem t m n

/-- Increments of a counter, to be applied in a core cycle (R116, R125). -/
def State.addCounter (s : State) (t : Nat) (c : Fin 64) (n : BitVec 32) : State :=
  s.modTile t (fun x => { x with incs := x.incs ++ [(c, n, s.coreOf t + 1)] })

/-- A completion signal, added in the core cycle after the completion (R116). -/
def State.signal (s : State) (t : Nat) (sig : Option (Fin 64)) : State :=
  match sig with
  | none => s
  | some c => s.addCounter t c 1

/-- Apply the increments of one core cycle, all before any condition is evaluated (R125). -/
def Tile.applyIncs (x : Tile) (core : Nat) : Tile :=
  let due := x.incs.filter (fun i => i.2.2 ≤ core)
  { due.foldl (fun x i => x.setCounter i.1.val (x.counter i.1.val + i.2.1)) x with
    incs := x.incs.filter (fun i => !(i.2.2 ≤ core)) }

/-- The end of a core cycle: increments, semaphores, then the other waits (R125, R126, R128). -/
def State.settleWaits (s : State) (t : Nat) : State :=
  let s := if (s.tile t).incs = [] then s else s.modTile t (fun x => x.applyIncs (s.coreOf t))
  let s := if (s.tile t).semq = [] then s else (List.range 16).foldl (fun s m => s.serveSem t m 8) s
  s.wake t

/-! Engines and who may issue. -/

/-- A halted load or store keeps the vector unit (R123). -/
def Tile.keepsVector (x : Tile) : Bool :=
  x.ops.any (fun o => match o.kind, o.late with
    | .vectorLd .., .halted _ => true
    | .vectorSt .., .halted _ => true
    | _, _ => false)

/-- A load or store of a context has not run: its next vector operation waits, so that they take effect in program order
(R105; that it waits at issue is the model's choice, log entry 73). -/
def Tile.movesVector (x : Tile) (c : Nat) : Bool :=
  x.ops.any (fun o => o.ctx.val = c && match o.kind with
    | .vectorLd .. => !o.ran
    | .vectorSt .. => !o.ran
    | _ => false)

/-- The engine that an operation of context c needs is not ready for it (R97, R105, R123). -/
def Tile.engaged (x : Tile) (c : Nat) : Engaged → Bool
  | .load a => (x.array a).loading || (x.array a).shadow.isSome
  | .stream a => (x.array a).loading
  | .vector => x.keepsVector || x.movesVector c

/-- The late operation of a context: while it is halted or suspended, the context does not issue (R123). -/
def Tile.lateOp (x : Tile) (c : Nat) : Option Op := x.ops.find? (fun o => o.ctx.val = c && o.isLate)

/-- A MOVE of the context waits for its bound data (R123). -/
def Tile.movePends (x : Tile) (c : Nat) : Bool :=
  x.ops.any (fun o => o.ctx.val = c && match o.kind with
    | .move .. => true
    | _ => false)

/-- 0x5010:01 of a context (R132). -/
def Tile.ctxCode (x : Tile) (c : Nat) : Nat :=
  match (x.ctx c).run with
  | .idle => 0
  | .stopped => 3
  | r => if (x.lateOp c).isSome || x.movePends c then 2 else runCode r

/-- Transfers of a queue that have not started (R121). -/
def Queue.notStarted (y : Queue) : Nat := (y.xfers.filter (fun z => z.phase = .waiting)).length

/-- The partition of a tile is asked to pause (R276). -/
def State.pausing (s : State) (t : Nat) : Bool := (s.tilePart t).any (fun p => (s.part p).pauses != [])

/-- The next instruction of a context can issue: it is ready, or what its instruction waited for is there, and no operation
of it is late (R97, R114, R121, R123, R276). -/
def State.ready (s : State) (t c : Nat) : Bool :=
  let x := s.tile t
  let y := x.ctx c
  (x.lateOp c).isNone && !x.movePends c && match y.run with
    | .ready => true
    | .waiting (.swap e) _ => !x.engaged c e
    | .waiting (.space q) _ => (x.queue q).notStarted < 64
    | .waiting .step _ => !s.pausing t
    | _ => false

/-- The contexts in the order of their turns, after the one that issued last (R114). -/
def Tile.turns (x : Tile) : List Nat := (List.range 8).map (fun i => (x.last + 1 + i) % 8)

/-- The ready context whose turn it is (R114); one that has yielded is passed over (R117). -/
def State.turnOf (s : State) (t : Nat) : Option Nat :=
  (s.tile t).turns.find? (fun c => s.ready t c && !((s.tile t).ctx c).yielded)

/-- A context issues in this core cycle: its tile executes, it is its turn, and no other has issued in it (R114). -/
def State.mayIssue (s : State) (t c : Nat) : Bool :=
  s.executes t && s.turnOf t = some c && (s.tile t).issued != some (s.coreOf t)

/-! Issue. -/

/-- The context that issues is ready; the YIELD of one whose turn came before it has had its effect (R114, R117). -/
def State.begin (s : State) (t : TileId) (c : CtxId) : State :=
  s.modTile t.val (fun x =>
    let passed := x.turns.takeWhile (· != c.val)
    { x with
      last := c.val, issued := some (s.coreOf t.val),
      ctxs := x.ctxs.map (fun y =>
        (y.1, if y.1 = c.val then { y.2 with run := .ready }
              else if passed.contains y.1 then { y.2 with yielded := false } else y.2)) })

/-- A core cycle ends in which no context has issued and none can but those that have yielded: their turn has come and gone
(R117). -/
def State.passYields (s : State) (t : Nat) : State :=
  let x := s.tile t
  if x.issued = some (s.coreOf t) || !x.ctxs.any (fun e => e.2.yielded) || (s.turnOf t).isSome then s
  else s.setTile t { x with ctxs := x.ctxs.map (fun e => (e.1, { e.2 with yielded := false })) }

/-- An instruction that could not issue has cost no issue cycle (R114). -/
def State.unissue (s s0 : State) (t c : Nat) : State :=
  match ((s.tile t).ctx c).run with
  | .waiting (.swap _) _ | .waiting (.space _) _ | .waiting .step _ =>
    s.modTile t (fun x => { x with last := (s0.tile t).last, issued := (s0.tile t).issued })
  | _ => s

/-- The bits [39:0] of an instruction word that the spec lays out for an operation (R115, R117, R127, R261): a mask, and
their value under it. The other modifier and operand bits are those of the Skexo format (R440; log entry 7). -/
abbrev Low := Nat × Nat

def noLow : Low := (0, 0)
/-- The operand [31:0] is a descriptor address or an immediate. -/
def lowOp (v : BitVec 32) : Low := (2 ^ 32 - 1, v.toNat)
/-- With a counter or semaphore number in the low bits of the modifier. -/
def lowMod (bits n : Nat) (v : BitVec 32) : Low := (2 ^ 32 - 1 + (2 ^ bits - 1) * 2 ^ 32, v.toNat + n * 2 ^ 32)
/-- FREE: landing buffer in modifier [3:0], slot in operand [5:0] (R127). -/
def lowFree (buf : Fin 16) (slot : Fin 64) : Low := (63 + 15 * 2 ^ 32, slot.val + buf.val * 2 ^ 32)
/-- GUARD: open or close, compiled setting and zeros in the modifier, route ID in operand [8:0], layer in [31:16] (R261). -/
def lowGuard (opens compiled : Bool) (rsvd : BitVec 6) (route : Fin 512) (layer : BitVec 16) : Low :=
  let bit (b : Bool) : Nat := if b then 1 else 0
  (0xFF * 2 ^ 32 + 0xFFFF01FF, (bit opens + 2 * bit compiled + 4 * rsvd.toNat) * 2 ^ 32 + layer.toNat * 2 ^ 16 + route.val)

/-- A stored word names the operation of a command, in every bit that the spec lays out. -/
def wordNames (w : BitVec 64) (k : OpCode) (h : Hdr) (m : Low) : Bool :=
  wordOp w = k && wordHdr w = h && Nat.land w.toNat m.1 = m.2

/-- A context issues one instruction. Where the instruction store holds the word at its address, a reserved class, an
unlisted opcode, a reserved bit or a unit value of that word is an illegal instruction (R115, R440), and a command that
names another operation is not the context's next instruction; where the store holds no word, the command names the
instruction (log entry 7). A command for a context that cannot issue leaves the state as it is (log entry 8). -/
def State.issue (s : State) (t : TileId) (c : CtxId) (k : OpCode) (h : Hdr) (m : Low) (f : State → State) : State :=
  if !s.mayIssue t.val c.val then s
  else match (s.tile t.val).code[((s.tile t.val).ctx c.val).pc]? with
    | some w =>
      if !wordOk w then (s.begin t c).fault t.val c.val 2
      else if !wordNames w k h m then s
      else (f (s.begin t c)).unissue s t.val c.val
    | none =>
      if hdrOk k h then (f (s.begin t c)).unissue s t.val c.val else (s.begin t c).fault t.val c.val 2

/-- The same, followed by the completion signal and the next instruction: SYNC and CTRL complete at issue (R116). -/
def State.issueAt (s : State) (t : TileId) (c : CtxId) (k : OpCode) (h : Hdr) (m : Low) (f : State → State) : State :=
  s.issue t c k h m (fun s => ((f s).signal t.val (sigOf h)).advance t.val c.val)

/-- Hold a context that cannot issue yet. -/
def State.hold (s : State) (t c : Nat) (w : Wait) : State :=
  s.modCtx t c (fun y => { y with run := .waiting w (s.coreOf t) })

/-- Cold-scale mode of a tile: its stamp lies in the partition's range (R260). -/
def State.cold (s : State) (t : Nat) : Bool :=
  match s.tilePart t with
  | some p => match (s.part p).cold with
    | some e => decide (stampDiff (s.tile t).stamp e < 0)
    | none => false
  | none => false

/-! Operations in progress (R116). -/

/-- The bank cycles that byte ranges of SRAM take: one for each line that they touch (R106, R107), and two where a write
covers less than 32 bytes of it (R180). -/
def banksOf (write : Bool) (segs : List (Nat × Nat)) : List Nat :=
  let ps := (cutLines segs).eraseDups
  let bank (l : Nat) : Nat := l / 2 ^ 15 * 16 + l % 16
  ((ps.map (fun g => g.1 / 64)).eraseDups).flatMap (fun l =>
    if write && ((ps.filter (fun g => g.1 / 64 = l)).map (·.2)).sum < 32 then [bank l, bank l] else [bank l])

/-- An operation in progress. -/
def State.addOp (s : State) (t : Nat) (c : CtxId) (k : OpKind) (sig : Option (Fin 64)) : State :=
  s.modTile t (fun x =>
    { x with ops := x.ops ++ [{ id := x.nextId, ctx := c, kind := k, sig := sig }], nextId := x.nextId + 1 })

/-- A descriptor address: a multiple of 32 within SRAM (R115). -/
def descAddrOk (a : Nat) : Bool := a % 32 = 0 && a + 32 ≤ 0x600000

/-- Descriptors are read at issue; their words are checked with the reader "descriptor" (R178, R179). An operand that is
no descriptor address is an illegal instruction (R115, R440; log entry 14). -/
def State.withDesc (s : State) (t : TileId) (c : CtxId) (a : Nat) (f : State → Desc → State) : State :=
  if !descAddrOk a then s.fault t.val c.val 2
  else
    let s := s.touch (.sram t) a 32 1
    match s.readDesc t a (s.cold t.val) with
    | none => s.fault t.val c.val 1
    | some d => f s d

/-! Bound operands (R119, R123; log entry 11). -/

/-- Transfers of a bound queue that have completed and serve no earlier consumer. -/
def Tile.ready (x : Tile) (q : Nat) : Nat := (x.queue q).done - (x.queue q).taken

def Tile.take (x : Tile) (q n : Nat) : Tile :=
  x.setQueue q { x.queue q with taken := (x.queue q).taken + n }

/-- Transfers that an operand of n vectors takes. -/
def Desc.transfers (d : Desc) (n : Nat) : Nat :=
  if !d.bound then 0 else if d.count = 0 then 1 else (n + d.count - 1) / d.count

/-- An operation with a bound operand of n vectors takes its transfers at issue. -/
def State.addBound (s : State) (t : Nat) (c : CtxId) (k : OpKind) (sig : Option (Fin 64)) (d : Desc) (n : Nat) : State :=
  if !d.bound then s.addOp t c k sig
  else s.modTile t (fun x =>
    { x.take d.boundQ (d.transfers n) with
      ops := x.ops ++ [{ id := x.nextId, ctx := c, kind := k, sig := sig, from' := (x.queue d.boundQ).taken }],
      nextId := x.nextId + 1 })

/-- Vectors or rows of an operand, of n, whose data has arrived. -/
def Tile.arrived (x : Tile) (o : Op) (d : Desc) (n : Nat) : Nat :=
  if !d.bound then n
  else
    let k := (x.queue d.boundQ).done - o.from'
    if d.count = 0 then (if k = 0 then 0 else n) else min n (k * d.count)

/-- The queue on which the next step of an operation is late: its data has not arrived (R123). -/
def Tile.lateOn (x : Tile) (o : Op) : Option Nat :=
  match o.kind with
  | .load _ d _ => if x.arrived o d 32 ≤ o.pos then some d.boundQ else none
  | .stream _ d _ _ n _ _ => if x.arrived o d n ≤ o.pos then some d.boundQ else none
  | .vectorLd _ _ d => if o.pos = 0 && x.arrived o d 1 = 0 then some d.boundQ else none
  | .vectorSt d .. => if o.pos = 0 && x.arrived o d 1 = 0 then some d.boundQ else none
  | .move a b .. => ([a, b].find? (fun d => d.bound && x.ready d.boundQ = 0)).map (·.boundQ)
  | .drain .. => none
  | .vector => none

/-- Change an operation by its number. -/
def Tile.modOp (x : Tile) (id : Nat) (f : Op → Op) : Tile := { x with ops := x.ops.map (fun o => if o.id = id then f o else o) }

end Sys2Proof.Machine
end

