-- ==== Sys2Proof/Machine/Net.lean ====
section
/-! DEFINITION. The wafer network: route entries (R142, R143), direction tables (R144), gates (R18), flits and packets
(R133–R135), buffers and credits (R138), refusals (R146, R160), slot credits (R127, R153) and the relays' gates
(R213–R215). -/
namespace Sys2Proof.Machine

/-! Route entries (R143). -/

/-- Outputs of an entry: 0 N, 1 E, 2 S, 3 W, 4 local. -/
def entryOuts (e : BitVec 32) : List Nat := below 5 (fun i => e.getLsbD (5 + i))
def entryLeaf (e : BitVec 32) (out : Nat) : Bool := e.getLsbD (10 + out)
def entryVc (e : BitVec 32) : Nat := e.toNat / 2 % 8
def entryMerge (e : BitVec 32) : Bool := e.getLsbD 4
/-- The five operand codes, first operand first. -/
def entryCodes (e : BitVec 32) : List Nat := (List.range 5).map (fun i => e.toNat / 2 ^ (15 + 3 * i) % 8)
/-- Input port of an operand code: 1 local, 2 N, 3 E, 4 S, 5 W. -/
def codePort (c : Nat) : Nat := if c = 1 then 4 else c - 2
/-- Inputs named in the merge order, in order. -/
def entryOperands (e : BitVec 32) : List Nat := ((entryCodes e).filter (fun c => c != 0)).map codePort

/-- An entry that a head flit on a VC may follow. -/
def entryOk (e : BitVec 32) (vc : Nat) : Bool :=
  e.getLsbD 0 && !e.getLsbD 31 && entryVc e = vc && 1 ≤ vc && vc ≤ 4
    && entryOuts e != [] && ((entryOuts e).length = 1 || vc = 2)
    && !(entryCodes e).any (fun c => 6 ≤ c)
    && (!entryMerge e || (vc = 3 && entryOperands e != []))

def Router.entry (r : Router) (part route : Nat) : BitVec 32 := mget 0 r.sets (part * 512 + route)

/-- The end of a single-output path from a tile: the last tile and its output (4 local, else the edge gate). -/
def State.routeEnd (s : State) (part route vc : Nat) : Nat → Nat → Option (Nat × Nat)
  | 0, _ => none
  | n + 1, t =>
    let e := (s.router t).entry part route
    if !entryOk e vc then none
    else match (entryOuts e).headD 4 with
      | 4 => some (t, 4)
      | d => match neighbour t d with
        | none => some (t, d)
        | some u => s.routeEnd part route vc n u

/-- The same from a branch of a router. -/
def State.branchEnd (s : State) (part route vc t out : Nat) : Option (Nat × Nat) :=
  if out = 4 then some (t, 4)
  else match neighbour t out with
    | none => some (t, out)
    | some u => s.routeEnd part route vc 6912 u

/-- Whether the path from a tile has no fork and no leaf branch held at a router (R153). -/
def State.sourceCredit (s : State) (part route : Nat) : Nat → Nat → Bool
  | 0, _ => false
  | n + 1, t =>
    let e := (s.router t).entry part route
    match entryOuts e with
    | [d] =>
      if entryLeaf e d then false
      else match neighbour t d with
        | none => true
        | some u => if d = 4 then true else s.sourceCredit part route n u
    | _ => false

/-! Direction tables (R144). Firmware writes them so that they avoid what `avoid` lists; which of the ways it takes is not
stated: the model's tables lead along a shortest way, the first in the order N, E, S, W (log entry 22). Tiles are bits. -/

def allTiles : Nat := 2 ^ 6912 - 1

def rowMask : Nat := (List.range 72).foldl (fun m y => m + 2 ^ (96 * y)) 0

/-- Tiles of a region. -/
def regionMask (r : Nat) : Nat := (regionTiles r).foldl (fun m t => m + 2 ^ t) 0

/-- Tiles that may step in a direction. -/
def stepMask (avoid : List Nat) (d : Nat) : Nat :=
  let all := match d with
    | 0 => 2 ^ 6816 - 1
    | 1 => rowMask * (2 ^ 95 - 1)
    | 2 => 2 ^ 6912 - 2 ^ 96
    | _ => rowMask * (2 ^ 96 - 2)
  avoid.foldl (fun m l => if l % 4 = d && Nat.testBit m (l / 4) then m - 2 ^ (l / 4) else m) all

/-- Tiles that reach a set in one step of each direction. -/
def stepInto (masks : List Nat) (l : Nat) : Nat :=
  (Nat.land (l / 2 ^ 96) (masks.getD 0 0)) |||
  (Nat.land (l / 2) (masks.getD 1 0)) |||
  (Nat.land (l * 2 ^ 96) (masks.getD 2 0)) |||
  (Nat.land (l * 2) (masks.getD 3 0))

/-- The tiles of `within` one step nearer to a set than t, if t reaches it inside `within`. -/
def nearer (masks : List Nat) (within t : Nat) : Nat → Nat → Nat → Option Nat
  | 0, _, _ => none
  | n + 1, seen, l =>
    let next := Nat.land (Nat.land (stepInto masks l) within) (allTiles - seen)
    if Nat.testBit next t then some l
    else if next = 0 then none
    else nearer masks within t n (seen + next) next

/-- The first direction from t into a set of tiles: 5 (drop) if there is none. -/
def stepToward (masks : List Nat) (t : Nat) (l : Option Nat) : Nat :=
  match l with
  | none => 5
  | some l => ((below 4 (fun d => Nat.testBit (masks.getD d 0) t
      && (neighbour t d).any (fun u => Nat.testBit l u))).head?).getD 5

def State.stepMasks (s : State) : List Nat := (List.range 4).map (stepMask s.avoid)

/-- Entry of a router's region table: 4 local, 5 drop. -/
def State.regionEntry (s : State) (t r : Nat) : Nat :=
  if !s.tablesOn then 5
  else stepToward s.stepMasks t (nearer s.stepMasks allTiles t 6912 (regionMask r) (regionMask r))

/-- Entry of its local table, for the tile with local index i of its region: ways inside the region. -/
def State.localEntry (s : State) (t i : Nat) : Nat :=
  let u := tileAt (regionOf t) i
  if u = t then 4
  else if !s.tablesOn then 5
  else stepToward s.stepMasks t (nearer s.stepMasks (regionMask (regionOf t)) t 144 (2 ^ u) (2 ^ u))

/-- Direction toward a destination: 4 local, 5 drop. -/
def State.nextDir (s : State) (t dst : Nat) : Nat :=
  if regionOf dst = regionOf t then s.localEntry t ((tileY dst % 12) * 12 + tileX dst % 12)
  else s.regionEntry t (regionOf dst)

/-- The perimeter tile at whose gate the service gate's broadcasts enter: the first of its side (R18) that is no hole
(the model's choice: no rule names it; log entry 22). -/
def State.serviceTile (s : State) : Option Nat := (sideTiles 3).find? (fun t => s.floorOf t != 3)

/-- The broadcast output mask of a router: outputs toward the tiles whose shortest way to the service gate's tile leads
here. -/
def State.broadcastMask (s : State) (t : Nat) : List Nat :=
  match s.serviceTile with
  | none => []
  | some g =>
    if !s.tablesOn then []
    else below 4 (fun d => (neighbour t d).any (fun u => u != g
      && stepToward s.stepMasks u (nearer s.stepMasks allTiles u 6912 (2 ^ g) (2 ^ g)) = opposite d)) ++ [4]

/-- The entry of a router in the tree that carries the microcode: route 0 of route set 0 on VC2, along the broadcast masks, to
every GOOD and VAULT_OUT tile (R376; which links the tree takes, and its route ID, are the model's choice, log entry 22). -/
def State.treeEntry (s : State) (t : Nat) : BitVec 32 :=
  if s.floorOf t = 3 then 0
  else
    let outs := (s.broadcastMask t).filter (fun d => d != 4 || s.floorOf t ≤ 1)
    BitVec.ofNat 32 (1 + 2 * 2 + 32 * (outs.map (2 ^ ·)).sum)

/-- Tiles that reach a set of tiles. -/
def spread (masks : List Nat) : Nat → Nat → Nat → Nat
  | 0, seen, _ => seen
  | n + 1, seen, l =>
    let next := Nat.land (stepInto masks l) (allTiles - seen)
    if next = 0 then seen else spread masks n (seen + next) next

/-- The routers that a broadcast of the service gate reaches. -/
def State.broadcastReach (s : State) : Nat :=
  match s.serviceTile with
  | none => 0
  | some g => if s.tablesOn then spread s.stepMasks 6912 (2 ^ g) (2 ^ g) else 0

/-! Gates (R18, R195, R442). -/

/-- The perimeter tile that a partition's binary names for a route of an edge unit of a side: a unit reaches no gate of
another side (R18). -/
def State.rootOf (s : State) (side p route : Nat) : Option Nat :=
  (s.part p).bin.bind (fun b =>
    (b.roots.find? (fun r => r.1.val = route && isPerimeterToward r.2.val side)).map (·.2.val))

/-- Gates of a stack: those on its side that the partition's route plan names in place of its home gates, or else its
home gates. -/
def State.stackGates (s : State) (p e : Nat) : List Nat :=
  let named := match s.job p with
    | some j => (j.gates.filter (fun g => g.1.val = e && (sideTiles (engineSide e)).contains g.2.val)).map (·.2.val)
    | none => []
  if named = [] then homeGates e else named

/-- The gate of a stack at which a multicast begins: the one that the binary names for the route; where it names none,
the first of the stack's gates, in the order of R18's table, with a valid entry of the route (the model's choice: R18 and
R195 name none among several; log entry 26). -/
def State.treeGate (s : State) (e p route vc : Nat) : Option Nat :=
  match s.rootOf (engineSide e) p route with
  | some g => some g
  | none => (s.stackGates p e).find? (fun t => entryOk ((s.router t).entry p route) vc)

/-- The gate of a side at which a port or relay injects on a route: the one that the binary names; where it names none,
the first tile of the side with a valid entry, or else its first tile (the model's choice; log entry 26). -/
def State.sideGate (s : State) (side p route vc : Nat) : Nat :=
  match s.rootOf side p route with
  | some g => g
  | none =>
    let gs := sideTiles side
    (gs.find? (fun t => entryOk ((s.router t).entry p route) vc)).getD (gs.headD 0)

/-! Buffers (R138). -/

def bufKey (port vc : Nat) : Nat := port * 8 + vc
def Router.buf (r : Router) (port vc : Nat) : List Flit := mget [] r.bufs (bufKey port vc)
def Router.gateBuf (r : Router) (d vc : Nat) : List Flit := mget [] r.gate (bufKey d vc)

/-- Put a list of flits at a key; an empty one is not listed. -/
def putFlits (k : Nat) (fs : List Flit) (m : Map (List Flit)) : Map (List Flit) :=
  if fs = [] then mdel k m else mset k fs m

def Router.setBuf (r : Router) (port vc : Nat) (fs : List Flit) : Router :=
  { r with bufs := putFlits (bufKey port vc) fs r.bufs }

/-- Append flits to an input buffer. -/
def State.pushFlits (s : State) (t port vc : Nat) (fs : List Flit) : State :=
  let r := s.router t
  let r' := r.setBuf port vc (r.buf port vc ++ fs.map (fun f => { f with came := s.netOf t }))
  s.setRouter t (if r.buf port vc = [] then { r' with since := mset (bufKey port vc) (s.netOf t) r'.since } else r')

/-- A flit that moves up into the router's own 8 buffers enters the router now (R138). -/
def enterEighth (now : Nat) (fs : List Flit) : List Flit :=
  fs.take 7 ++ ((fs.drop 7).take 1).map (fun f => { f with came := now }) ++ fs.drop 8

/-- Remove the oldest flit of an input buffer. -/
def State.popFlit (s : State) (t port vc : Nat) : State :=
  let r := s.router t
  let fs := enterEighth (s.netOf t) ((r.buf port vc).drop 1)
  let r' := r.setBuf port vc fs
  s.setRouter t { r' with
    since := if fs = [] then mdel (bufKey port vc) r'.since else mset (bufKey port vc) (s.netOf t) r'.since,
    paused := mdel (bufKey port vc) r'.paused }

/-- An edge unit sends flits through the gate of a perimeter tile: they wait for credits of its FIFO (R138, R152). -/
def State.gatePush (s : State) (t d vc : Nat) (fs : List Flit) : State :=
  s.modRouter t (fun r => { r with gateIn := putFlits (bufKey d vc) (mget [] r.gateIn (bufKey d vc) ++ fs) r.gateIn })

/-- Depth of the buffers at the far end of an output: a seam FIFO stands before the router's own (R150). -/
def linkDepth (t out : Nat) : Nat :=
  if (out = 1 && tileX t = 47) || (out = 3 && tileX t = 48) then 24 else 8

/-! Packets (R134). -/

/-- Flits of a packet: 32 hold 4 KiB. -/
def chunksOf (n : Nat) : List Nat := (List.range ((n + 4095) / 4096)).map (· * 4096)

/-- The bytes of a transfer as the flits of its packets. -/
def flitsOf (f : Flit) (poison : Nat → Bool) (bs : List Byte) : List Flit :=
  let n := (bs.length + 127) / 128
  (List.range n).map (fun i =>
    { f with
      head := i % 32 = 0, tail := i % 32 = 31 || i + 1 = n, off := f.off + i * 128,
      len := if f.len = 0 then bs.length else f.len,
      pktLen := min 32 (n - i / 32 * 32), poison := f.poison || poison i,
      hdr := f.hdr.map (fun h => { h with part := BitVec.ofNat 2 (i / 32) }),
      data := (bs.drop (i * 128)).take 128 })

/-- The ranges of bytes off to off + n − 1 of a transfer over the byte ranges of a plane. -/
def piecesOf : List (Nat × Nat) → Nat → Nat → List (Nat × Nat)
  | [], _, _ => []
  | (a, l) :: r, off, n =>
    if n = 0 then []
    else if l ≤ off then piecesOf r (off - l) n
    else
      let k := min n (l - off)
      (a + off, k) :: piecesOf r 0 (n - k)

/-- Destination of a broadcast of the service gate: no tile (R144). -/
def castDst : Nat := 6912
def Flit.isCast (f : Flit) : Bool := f.vc = 0 && f.dst = castDst

/-! Refusals (R146). -/

/-- Codes of R146. -/
def refuseResetting : Nat := 1
def refuseUnreachable : Nat := 2
def refuseComputeOff : Nat := 3
def refuseNoRoute : Nat := 4
/-- The same code, of a transfer that fails the checks of R443 at its tile. -/
def refuseLanding : Nat := 20

/-- The destination that a flit names at a tile. -/
def Flit.destAt (f : Flit) (t : Nat) : Option Dest := f.dests.find? (fun d => d.tile.val = t)

/-- Bytes of a transfer that a packet carries from a flit of it on: of a read request, those it asks for. -/
def Flit.pktBytes (f : Flit) : Nat :=
  match f.ty, f.addr with
  | .readReq, some (_, segs) => (segs.map (·.2)).sum
  | _, _ => min (f.len - f.off) (4096 - f.off % 4096)

/-- A response on VC5 to the source of a packet: a refusal, or with code 0 a controller's acknowledgement. -/
def answerFlit (t code : Nat) (f : Flit) : Flit :=
  { vc := 5, ty := .response, part := f.part, route := f.route, dst := f.src, src := t,
    head := true, tail := true, len := f.pktBytes, pktLen := 1, xid := f.xid, data := [BitVec.ofNat 8 (code % 16)] }

/-- Send a response on VC5 from a router to the source of a packet. -/
def State.respond (s : State) (t code : Nat) (f : Flit) : State := s.pushFlits t 4 5 [answerFlit t code f]

/-- Send the credit of a slot to a tile that holds it (R127, R153), on VC5. -/
def State.sendCredit (s : State) (t holder buf slot : Nat) : State :=
  let f : Flit :=
    { vc := 5, ty := .credit, part := ((s.tile t).part).getD 0, route := 0, dst := holder, src := t, head := true,
      tail := true, len := 1, pktLen := 1, dests := [⟨Fin.ofNat 6912 t, Fin.ofNat 16 buf, Fin.ofNat 64 slot, none⟩] }
  s.pushFlits t 4 5 [f]

/-- An open slot's credit returns to its holder; where none is named, it waits to be taken at once. -/
def State.returnCredit (s : State) (t buf slot : Nat) : State :=
  match ((s.tile t).slot buf slot).holder with
  | some h =>
    let b := ((s.tile t).slot buf slot).beyond
    (s.modTile t (fun x => x.setSlot buf slot { st := .returning, holder := some h, beyond := b })).sendCredit t h buf slot
  | none => s.modTile t (fun x => x.setSlot buf slot {})

/-- The credit of a transfer from an edge unit that a tile refuses returns with the refusal; the state of a slot that is
not held for it does not change (R443). -/
def State.refundSlot (s : State) (t : Nat) (f : Flit) : State :=
  match f.destAt t with
  | some d =>
    if f.edge != 0 && ((s.tile t).slot d.buf.val d.slot.val).st = .taken then s.returnCredit t d.buf.val d.slot.val
    else s
  | none => s

/-- Tell the source of a discarded packet: one response (R146); a transfer of a relay or port that fails the checks of R443
is refused to that unit. The relay has returned the teacher's credit when it forwarded the transfer (R214), and returns none
a second time. -/
def State.tellRefusal (s : State) (t code : Nat) (f : Flit) : State :=
  if f.edge = 0 || 80 ≤ f.edge || code != refuseLanding then s.respond t code f
  else if f.edge < 32 then s.bump 0x7430 (0x10 + f.edge) 0 1
  else
    (s.bump 0x7500 0xB ((f.edge - 32) / 8) 1).sendOn ((f.edge - 32) / 8) ((f.edge - 32) % 8)
      ⟨{ vc := 5, layer := false, ty := 12, slots := 0,
         dst := BitVec.ofNat 14 (((s.sub ((f.edge - 32) / 8) ((f.edge - 32) % 8)).peer.map (·.module.toNat)).getD 0),
         src := s.moduleId, job := BitVec.ofNat 32 (s.obj 0x2102 (f.part.val + 1) 0) }, [1], []⟩

/-- Discard a packet at a router: the refusal sent is counted, E3030 raised where it applies, and its source told. A
response packet is never itself answered (R144). -/
def State.refuse (s : State) (t code : Nat) (f : Flit) : State :=
  if f.ty = .response then s
  else
    let s := if code = refuseResetting then s.bump 0x7300 7 t 1
      else if code = refuseUnreachable then s.bump 0x7300 8 t 1
      else if code % 16 = refuseNoRoute then s.bump 0x7300 9 t 1 else s
    let r := s.router t
    let s := if code = refuseResetting && (match r.lastReset with
        | none => true
        | some n => decide (n + 2 ^ 20 ≤ s.netOf t))
      then (s.setRouter t { r with lastReset := some (s.netOf t) }).raise 0x3030 t 0
        (leBytes 2 f.src ++ leBytes 1 f.part.val ++ leBytes 2 f.route)
      else s
    (s.refundSlot t f).tellRefusal t code f

/-! What a tile takes from the network. -/

/-- A transfer fits a declared slot (R443). -/
def State.landingFits (s : State) (t buf slot len : Nat) : Bool :=
  ((s.tile t).landingOf buf).any (fun l => slot < l.slots && len ≤ l.size)

/-- The tile's own vault interface is held in reset (R111). -/
def State.vaultHeld (s : State) (t : Nat) : Bool :=
  s.floorOf t = 1 || s.floorOf t = 2 || s.floorOf t = 3 || (s.tile t).vaultBad

/-- A flit that addresses the tile's vault. -/
def Flit.forVault (f : Flit) : Bool := f.addr.any (fun a => a.1 = 2) && f.ty != .response

/-- A slot credit on its way to a branch of a router or to an edge unit, not to the tile (R153, R214). -/
def State.creditBeyond (s : State) (f : Flit) : Bool :=
  f.ty = .credit && f.dests.any (fun d => ((s.tile d.tile.val).slot d.buf.val d.slot.val).beyond)

/-- The partition of a tile: that whose program it holds, or else that in whose rectangle it lies (R168, R271). -/
def State.homePart (s : State) (t : Nat) : Option Nat := (s.tilePart t).or ((s.partOf t).map (·.val))

/-- Why a packet cannot be delivered at a tile (R111, R160, R168, R443). Responses are never answered (R144). -/
def State.localRefusal (s : State) (t : Nat) (f : Flit) : Option Nat :=
  if f.ty = .response || s.creditBeyond f then none
  else if (s.region (regionOf t)).computeOff then some refuseComputeOff
  else if f.forVault && s.vaultHeld t then some refuseUnreachable
  else if s.inReset t then some refuseResetting
  else if s.homePart t != some f.part.val then some refuseNoRoute
  else match f.ty with
    | .data =>
      if f.addr.isSome then none
      else match f.destAt t with
        | none => some refuseLanding
        | some d => if s.landingFits t d.buf.val d.slot.val f.len then none else some refuseLanding
    | .reduce => match f.destAt t with
      | none => none
      | some d => if s.landingFits t d.buf.val d.slot.val f.len then none else some refuseLanding
    | .readReq => if f.addr.any (fun a => a.1 = 2 || a.1 = 3) then none else some refuseNoRoute
    | _ => none

/-- Take the credit of a slot for a sender, if it is there to be taken (R127): the holder is where it returns to: a tile, or
beyond it a branch of its router or the edge unit at its gate. -/
def State.takeSlot (s : State) (d : Dest) (holder : Nat) (beyond vc2 : Bool) : Option State :=
  if ((s.tile d.tile.val).slot d.buf.val d.slot.val).st = .avail then
    some (s.modTile d.tile.val (fun x => x.setSlot d.buf.val d.slot.val
      { st := .taken, ctr := d.ctr, holder := some holder, beyond := beyond, vc2 := vc2 }))
  else none

/-- A partition starts: no router discards its flits any more (R161). -/
def State.endFlush (s : State) (p : Nat) : State :=
  { s with routers := s.routers.map (fun e => (e.1, { e.2 with flushing := e.2.flushing.filter (· != p) })) }

/-! The relays' gates (R213–R215). -/

/-- The admitted export and the admitted import name each other (R213). -/
def Relay.bound (y : Relay) : Bool :=
  match y.teacher, y.student with
  | some t, some u => t.2 = u.1 && u.2 = t.1
  | _, _ => false

/-- The relay that takes a teacher's transfer at a gate of a side (R213, R214): bound, and its import names the
transfer's landing buffer. -/
def State.relayFor (s : State) (side part buf : Nat) : Option Nat :=
  (List.range 16).find? (fun r =>
    let y := s.relay r
    relaySide r = side && !y.failed && y.bound
      && y.teacher.any (fun p => p.1.val = part) && y.plan.any (fun i => i.buf.val = buf))

/-- A relay of a side to which a partition's binary exports (R213). -/
def State.exports (s : State) (side : Nat) (p : PartId) : Bool :=
  (List.range 16).any (fun r => relaySide r = side && (s.relay r).teacher.any (fun x => x.1 = p))

/-- A relay returns the slot credit of a transfer to the teacher's tile, on VC5, by the gate at which it came in (R214). -/
def State.relayCredit (s : State) (r : Nat) (p : PartId) (teacher gate : Nat) : State :=
  s.gatePush gate (relaySide r) 5
    [{ vc := 5, ty := .credit, part := p, route := 0, dst := teacher, src := gate, head := true, tail := true, len := 1,
       pktLen := 1, edge := 1 + r }]

/-- The relay takes a whole packet at the gate of a tile (R214); one for a student that has been stopped or reset is discarded
and its credit returned (R215). -/
def State.relayTake (s : State) (r gate : Nat) (f : Flit) (bs : List Byte) (poison : Bool) : State :=
  let y := s.relay r
  if y.discards then (s.relayCredit r f.part f.src gate).bump 0x7430 (0x11 + r) 0 1
  else match f.dests with
    | d :: _ => s.setRelay r { y with
        held := y.held ++ [⟨Fin.ofNat 6912 f.src, Fin.ofNat 6912 gate, d.tile.val, d.buf.val, d.slot.val, d.ctr, bs, poison⟩] }
    | [] => s

/-- Key of a block of a job: group × 2^28 + block (R193, R201). -/
def blockKey (g b : Nat) : Nat := g * 2 ^ 28 + b

/-- Count a tailrace packet that has passed a gate (R208). -/
def State.countPassed (s : State) (part : Nat) (h : TailHdr) : State :=
  let y := s.part part
  let k := h.stamp.toNat * 2 ^ 32 + blockKey h.group.toNat h.block.toNat
  let n := mget 0 y.passing k + 1
  if (if h.fp16 then 2 else 4) ≤ n then
    let c := mget ({} : Contribution) y.contribs h.stamp.toNat
    s.setPart part { y with
      passing := mdel k y.passing, contribs := mset h.stamp.toNat { c with passed := c.passed + 1 } y.contribs }
  else s.setPart part { y with passing := mset k n y.passing }

end Sys2Proof.Machine
end

