-- ==== Sys2Proof/Machine/Tensor.lean ====
section
/-! DEFINITION. The arrays: pepper generators (R72–R74), chunk sums and accumulation (R58–R66, R70), stationary
loads, streams and drains (R89–R101, R439). -/
namespace Sys2Proof.Machine

/-! Pepper generators (R72). -/

def mix64 (z : BitVec 64) : BitVec 64 :=
  let z := (z ^^^ (z >>> 30)) * 0xBF58476D1CE4E5B9
  let z := (z ^^^ (z >>> 27)) * 0x94D049BB133111EB
  z ^^^ (z >>> 31)

def pepperSeed (jobSeed : BitVec 64) (stream : BitVec 32) (tile array lane : Nat) : BitVec 64 :=
  let w := BitVec.ofNat 64 (stream.toNat * 2 ^ 32 + tile * 256 + array * 32 + lane)
  let s := mix64 (jobSeed ^^^ mix64 w)
  if s = 0 then 0x9E3779B97F4A7C15 else s

/-- The state after one draw. -/
def pepperStep (x : BitVec 64) : BitVec 64 :=
  let x := x ^^^ (x <<< 13)
  let x := x ^^^ (x >>> 7)
  x ^^^ (x <<< 17)

/-- The 13 bits that a draw returns, from the state after it. -/
def pepperOut (x : BitVec 64) : Nat := ((x * 0x2545F4914F6CDD1D) >>> 51).toNat

/-- Seed all 96 generators of a tile with a stream value (R73). -/
def State.reseed (s : State) (t : Nat) (stream : BitVec 32) : State :=
  let seed := BitVec.ofNat 64 (s.obj 0x8000 1 0)
  s.modTile t (fun x => (List.range 3).foldl (fun x a =>
    x.setArray a { x.array a with
      pepper := (List.range 32).map (fun j => (j, pepperSeed seed stream t a j)) }) x)

/-! Products (R51, R58–R62). -/

/-- The class of an operand pair; none: no product (R51). -/
def pairClass (w x : Nat) : Option PClass :=
  if w = 0 && x = 0 then some .c4
  else if w ≤ 4 && x ≤ 4 then some .c8
  else if (w = 5 && x = 5) || (w = 6 && x = 6) then some .c16
  else if w = 9 && x = 6 then some .legacy
  else none

/-- Alignment window of R61, by class and format. -/
def PClass.window (k : PClass) (fmt : Nat) : Nat :=
  match k with
  | .c4 => 18 | .c8 => 22 | .c16 => (if fmt = 5 then 36 else 30) | .legacy => 0

/-- A chunk sum (R60, R62). -/
def chunkSum (w : Nat) (ps : List Num) : Num :=
  if ps.any Num.isNan then .nan
  else if ps.contains (.inf false) then (if ps.contains (.inf true) then .nan else .inf false)
  else if ps.contains (.inf true) then .inf true
  else
    match (ps.filter Num.isNonzero).map Num.lead with
    | [] => .zero
    | l :: ls =>
      let g : Int := ls.foldl max l - w + 1
      let v : Int := (ps.map (fun p => match p with
        | .fin n m q => if n then -(floorAt m q g : Int) else (floorAt m q g : Int)
        | _ => 0)).sum
      if v = 0 then .zero else Num.ofInt v g

/-- An exact sum rounded to nearest even: an exact zero is +0 (R63). -/
def roundAcc (x : Num) : Num := if x.isZero then .zero else Num.rne .a32 x

/-- One non-legacy add into an entry, with the lane's generator before and after it (R63, R64, R70, R74). -/
def addChunk (theta k : Nat) (e : Entry) (x : Num) (pep : BitVec 64) : Entry × BitVec 64 :=
  let n := min 0xFFFFFFFF (e.n + k)
  let sum := e.acc.add x
  if theta != 0 && theta < n then
    let p := pepperStep pep
    ({ e with acc := stochastic sum (pepperOut p), n := n, legacy := false }, p)
  else ({ e with acc := roundAcc sum, n := n, legacy := false }, pep)

/-- The stationary elements of a lane for a stream of a class and orientation (R92, R94). -/
def Block.lane (b : Block) (k : PClass) (o : Orient) (j : Nat) : List Num :=
  let outs := if k = .c4 then b.outs8 else b.outs
  if o = b.orient then outs.getD j [] else outs.map (fun l => l.getD j .zero)

/-- One streamed vector added into one entry on all 32 lanes (R95), under the threshold of this core cycle (R71). An entry to
which passes of the legacy class and of another add is a legacy entry when the latest add was one; a legacy add keeps the
value and the term count that stand (the spec is silent; log entry 70). -/
def Arr.addVector (a : Arr) (theta : Nat) (p : PassCfg) (b : Block) (xs : List Num) (entry : Nat) : Arr :=
  (List.range 32).foldl (fun a j =>
    let i := j * 1024 + entry
    let e : Entry := if p.clear then {} else mget {} a.entries i
    let e := { e with st := b.scale, sx := p.sx }
    let ps := ((b.lane p.cls p.orient j).zip xs).map (fun y => y.1.mul y.2)
    if p.cls = .legacy then
      { a with entries := mset i { e with acc := ps.foldl legacyAdd e.acc, legacy := true } a.entries }
    else
      let r := addChunk theta (32 * p.cls.group) e (chunkSum p.window ps) (mget 0 a.pepper j)
      { a with entries := mset i r.1 a.entries, pepper := mset j r.2 a.pepper }) a

/-- The generators and term counts after vectors v to n − 1 of a pass, whose adds are not made here: how often a lane draws
follows from its term counts (R70, R74). -/
def Arr.skip (a : Arr) (theta : Nat) (p : PassCfg) (base v n : Nat) : Arr :=
  if p.cls = .legacy then a
  else (List.range (n - v)).foldl (fun a t =>
    (List.range 32).foldl (fun a j =>
      let i := j * 1024 + (base + v + t)
      let e : Entry := if p.clear then {} else mget {} a.entries i
      let k := min 0xFFFFFFFF (e.n + 32 * p.cls.group)
      { a with
        entries := mset i { e with n := k } a.entries,
        pepper := if theta != 0 && theta < k then mset j (pepperStep (mget 0 a.pepper j)) a.pepper else a.pepper }) a) a

/-- The threshold in force on a tile in this core cycle (R70, R71). -/
def State.theta (s : State) (t : Nat) : Nat := s.inForce 0x8010 1 0 (regionOf t)

/-- A pass of an array that has vectors to come and draws from the array's generators. -/
def Op.drawsOn (o : Op) (a : Nat) : Bool :=
  o.pepper.isNone && !o.ran && match o.kind with
    | .stream b .. => b.val = a
    | _ => false

/-- Every such pass of an array keeps generators of its own from here on, as its adds stand in program order (R74). -/
def State.forkPasses (s : State) (t a : Nat) : State :=
  let x := s.tile t
  let r := x.ops.foldl (fun (r : List Op × Arr) o =>
    if o.drawsOn a then
      (r.1 ++ [{ o with pepper := some r.2.pepper }], match o.kind with
        | .stream _ _ p base n _ _ => r.2.skip (s.theta t) p base o.pos n
        | _ => r.2)
    else (r.1 ++ [o], r.2)) ([], x.array a)
  s.setTile t { x with ops := r.1 }

/-- A pass that is suspended keeps its generators (R123); the lanes go on as after its last add, so that no result changes
(R74, R85). -/
def State.forkPass (s : State) (t : Nat) (o : Op) : State :=
  match o.kind with
  | .stream a _ p base n _ _ =>
    if o.pepper.isSome then s
    else s.modTile t (fun x =>
      let y := x.array a.val
      (x.setArray a.val { y with pepper := (y.skip (s.theta t) p base o.pos n).pepper }).modOp o.id
        (fun o => { o with pepper := some y.pepper }))
  | _ => s

/-! Planes of TENSOR operands (R37, R439). -/

/-- An operand element; beyond the plane's lengths, a zero element (R60, R439). -/
def State.operand (s : State) (t : TileId) (d : Desc) (line pos : Nat) : Num :=
  if line < d.lineLen && pos < d.redLen then s.elem (.sram t) d (d.coords line pos).1 (d.coords line pos).2 else .zero

/-! Checks common to the three operations. -/

/-- The array named does not have the role expected, or is idle (R91). -/
def Arr.wrongRole (a : Arr) (r : Role) : Bool := a.role = .idle || a.role != r

/-! LOAD (R93, R96, R97). -/

/-- Faults of a LOAD descriptor (R50, R55, R120, R439); bytes 24 to 27 are 0, bound or not (log entry 9). -/
def Desc.loadFault (d : Desc) (o : Orient) (role : Role) : Bool :=
  d.fieldFault || d.wordFault || d.space != 0 || d.orientB != (o == .b)
    || d.fmt = 7 || d.fmt = 8
    || (d.fmt = 9 && (role != .forward || d.ts || d.dir != 0))
    || d.count != 0 || d.base != 0
    || d.lineLen ≤ 32 * d.first || d.redLen ≤ 32 * loadGroup d.fmt * d.second

/-- Load one row of cells for the group g (R92). -/
def State.loadRow (s : State) (t : TileId) (d : Desc) (o : Orient) (g i : Nat) (outs : List (List Num)) :
    List (List Num) :=
  match o with
  | .a => (outs.zip (List.range 32)).map (fun x =>
      x.1 ++ (List.range g).map (fun e => s.operand t d (32 * d.first + x.2) (32 * g * d.second + g * i + e)))
  | .b => outs ++ [(List.range (32 * g)).map (fun e => s.operand t d (32 * d.first + i) (32 * g * d.second + e))]

def emptyBlock (d : Desc) (o : Orient) : Block :=
  let z : List (List Num) := match o with
    | .a => List.replicate 32 []
    | .b => []
  { orient := o, fmt := d.fmt, outs := z, outs8 := if d.fmt = 0 then z else [],
    scale := if d.ts then some d.scale else none, beyond8 := d.fmt = 0 && d.redLen ≤ 256 * d.second }

/-- The next row of a load; with the last one the block is in the shadow block (R96, R97, R116). -/
def State.loadStep (s : State) (t : TileId) (o : Op) (a : Fin 3) (d : Desc) (b : Block) : State :=
  let s := s.touchSegs (.sram t) (d.loadSegs b.orient o.pos) 0
  let b := { b with
    outs := s.loadRow t d b.orient (loadGroup d.fmt) o.pos b.outs,
    outs8 := if d.fmt = 0 then s.loadRow t d b.orient 8 o.pos b.outs8 else [] }
  s.modTile t.val (fun x =>
    let x := x.modOp o.id (fun o => { o with pos := o.pos + 1, kind := .load a d b })
    if o.pos = 31 then x.setArray a.val { x.array a.val with shadow := some b, loading := false } else x)

/-- R93, R96, R97, R439. -/
def execTensorLoad (t : TileId) (c : CtxId) (h : Hdr) (o : Orient) (role : Role) (desc : BitVec 32) (s : State) :
    Host.Outcome State Fault Refusal :=
  done (s.issue t c (0, 0) h (lowOp desc) (fun s => s.withDesc t c desc.toNat (fun s d =>
    let a := Fin.ofNat 3 h.unit.toNat
    let x := (s.tile t.val).array a.val
    if x.wrongRole role || d.loadFault o role then s.fault t.val c.val 1
    else if (s.tile t.val).engaged c.val (.load a) then s.hold t.val c.val (.swap (.load a))
    else
      ((s.modTile t.val (fun y => y.setArray a.val { x with loading := true, loadedEver := true })).addBound t.val c
        (.load a d (emptyBlock d o)) (sigOf h) d 32).advance t.val c.val)))

/-! STREAM (R95, R97, R98). -/

/-- Faults of the streamed operand (R50, R51, R55, R120, R439), apart from the pair. -/
def Desc.streamFault (d : Desc) (o : Orient) (n : Nat) : Bool :=
  d.fieldFault || d.wordFault || d.space != 0 || d.orientB != (o == .b) || 6 < d.fmt
    || (!d.bound && d.count != 0) || d.base != 0 || d.lineLen < d.first + n

/-- The accumulator-control descriptor: vector count and entry base, every other byte 0 (R439, R95). -/
def ctlOf (bs : List Byte) : Option (Nat × Nat) :=
  let n := bytesAt bs 24 2
  let b := bytesAt bs 26 2
  if (bs.take 24 ++ bs.drop 28).any (· != 0) || n = 0 || 1024 < n || 1024 < b + n then none else some (n, b)

/-- Whether a block may be streamed with an operand of a format in an orientation (R51, R55, R94); an FP4 block whose
chunk begins beyond its plane with 8 elements to a cell is found here, where its class is known (R439, log entry 10). -/
def Block.passClass (b : Block) (fmt : Nat) (o : Orient) (role : Role) : Option PClass :=
  match pairClass b.fmt fmt with
  | none => none
  | some k =>
    if o != b.orient && k != .c16 then none
    else if k = .c4 && b.beyond8 then none
    else if k = .legacy && role != .forward then none
    else some k

/-- A pass that will make the shadow block active has been issued, and has not begun (R97). -/
def Tile.swapPends (x : Tile) (a : Nat) : Bool :=
  x.ops.any (fun o => o.pos = 0 && match o.kind with
    | .stream b _ _ _ _ w _ => b.val = a && w
    | _ => false)

/-- The next vector of a pass: on the first one of a newly loaded block the swap takes place (R95, R97, R98). -/
def State.streamStep (s : State) (t : TileId) (o : Op) (a : Fin 3) (d : Desc) (p : PassCfg) (base : Nat) (swap : Bool)
    (b : Block) : State :=
  let len := 32 * p.cls.group
  let line := d.first + o.pos
  let s := s.touchSegs (.sram t) (d.lineSegs line (len * d.second) len) 0
  let xs := (List.range len).map (fun e => s.operand t d line (len * d.second + e))
  let theta := s.theta t.val
  s.modTile t.val (fun x =>
    let y := x.array a.val
    let y := if swap && o.pos = 0 then { y with active := some b, shadow := none } else y
    let z := { y with pepper := o.pepper.getD y.pepper }.addVector theta p b xs (base + o.pos)
    (x.setArray a.val (if o.pepper.isSome then { z with pepper := y.pepper } else z)).modOp o.id (fun o =>
      { o with pos := o.pos + 1, pepper := o.pepper.map (fun _ => z.pepper) }))

/-- R95, R97, R98, R439. R119 has a STREAM read two descriptors, and the operand names one address: the
accumulator-control descriptor is the 32 bytes after the streamed operand's (the model's choice, log entry 71). -/
def execTensorStream (t : TileId) (c : CtxId) (h : Hdr) (o : Orient) (role : Role) (cont : Bool) (desc : BitVec 32)
    (ups : List Upset) (s : State) : Host.Outcome State Fault Refusal :=
  done ((s.upset ups).issue t c (0, 1) h (lowOp desc) (fun s => s.withDesc t c desc.toNat (fun s d =>
    s.withDesc t c (desc.toNat + 32) (fun s _ =>
      let a := Fin.ofNat 3 h.unit.toNat
      let x := (s.tile t.val).array a.val
      match ctlOf (s.bytes (.sram t) (desc.toNat + 32) 32) with
      | none => s.fault t.val c.val 1
      | some (n, base) =>
        if x.wrongRole role || d.streamFault o n || !x.loadedEver then s.fault t.val c.val 1
        else if (s.tile t.val).engaged c.val (.stream a) then s.hold t.val c.val (.swap (.stream a))
        else
          match (if x.shadow.isSome then x.shadow else x.active) with
          | none => s.fault t.val c.val 1
          | some b => match b.passClass d.fmt o role with
            | none => s.fault t.val c.val 1
            | some k =>
              let p : PassCfg := { cls := k, window := k.window d.fmt, orient := o, clear := !cont,
                                   sx := if d.ts then some d.scale else none }
              (s.addBound t.val c (.stream a d p base n (x.shadow.isSome && !(s.tile t.val).swapPends a.val) b) (sigOf h)
                d n).advance t.val c.val))))

/-! DRAIN (R65, R67, R100, R439). -/

/-- The value handed to the producer. -/
def Entry.drained (e : Entry) (d : Desc) : Num :=
  let a (x : Num) : Num := Num.rne .a32 x
  if e.legacy then
    match Fmt.ofCode d.fmt with
    | some f => f.decode (f.encode .legacy e.acc)
    | none => e.acc
  else
    let f : Num := .one
    let f := match e.st with
      | some v => a (f.mul (Fmt.a32.decode v.toNat))
      | none => f
    let f := match e.sx with
      | some v => a (f.mul (Fmt.a32.decode v.toNat))
      | none => f
    let f := if d.ts then a (f.div (Fmt.a32.decode d.scale.toNat)) else f
    a (e.acc.mul f)

/-- Faults of a result descriptor (R50, R56, R95, R120, R439). -/
def Desc.drainFault (d : Desc) : Bool :=
  d.fieldFault || d.wordFault || d.space != 0 || d.fmt = 9 || d.red != 0 || d.bind != 0
    || d.count = 0 || 1024 < d.count || 1024 < d.base + d.count
    || d.entryLen < d.second + d.count || d.laneLen ≤ 32 * d.first

/-- The values of entry i of a drain, with their places. -/
def Arr.drainVals (a : Arr) (d : Desc) (i : Nat) : List ((Nat × Nat) × Num) :=
  d.drainLanes.map (fun j => (d.place i j, (mget ({} : Entry) a.entries (j * 1024 + d.base + i)).drained d))

/-- An entry is a legacy entry once the passes issued have added to it (R67). -/
def Tile.legacyAt (x : Tile) (a j e : Nat) : Bool :=
  x.ops.foldl (fun l o => match o.kind with
    | .stream b _ p base n _ _ => if b.val = a && base + o.pos ≤ e && e < base + n then p.cls = .legacy else l
    | _ => l) (mget ({} : Entry) (x.array a).entries (j * 1024 + e)).legacy

/-- Any entry of the drain is a legacy entry (R67). -/
def Tile.drainsLegacy (x : Tile) (a : Nat) (d : Desc) : Bool :=
  (List.range 32).any (fun j => (List.range d.count).any (fun i => x.legacyAt a j (d.base + i)))

/-- The assembly buffer of a context once its drains in progress have run: which places are held (R436). -/
def Tile.asmAfter (x : Tile) (c : Nat) : List Assembly :=
  x.ops.foldl (fun m o => match o.kind with
    | .drain _ d _ part => match Fmt.ofCode d.fmt with
      | some f =>
        if o.ctx.val = c && d.bs then
          let r := formReady f d m (part ++ ((List.range d.count).drop o.pos).flatMap (fun i =>
            d.drainLanes.map (fun j => (d.place i j, .zero))))
          keepOpen d r.2.1 r.2.2
        else m
      | none => m
    | _ => m) (x.ctx c).asm

/-- Values for a block-scaled result would bring the values held above 16,384 (R436). -/
def Tile.asmFull (x : Tile) (c : Nat) (d : Desc) (places : List (Nat × Nat)) : Bool :=
  d.bs && match Fmt.ofCode d.fmt with
    | some f => (placeBlocks f d (x.asmAfter c) (places.map (fun p => (p, .zero)))).isNone
    | none => false

/-- Trace sample of an entry of a drain of a tagged tensor (R411 kind 6). -/
def State.traceDrain (s : State) (t : TileId) (d : Desc) (i : Nat) : State :=
  if d.tag = 0 || !s.traces 6 then s
  else
    let c := d.place i 0
    s.traceOut 6 t.val (s.tile t.val).stamp
      (s.bytes (.sram t) (d.ea + c.1 * d.pitch * 32 + elemBit d.fmt c.2 / 8) 48)

/-- The next entry of a drain: its values, and those of blocks that were not complete, go to the producer; after the last
entry what is still open goes into the assembly buffer (R65, R100, R436). -/
def State.drainStep (s : State) (t : TileId) (o : Op) (a : Fin 3) (d : Desc) (pass : Option Nat)
    (part : List ((Nat × Nat) × Num)) : State :=
  let vals := ((s.tile t.val).array a.val).drainVals d o.pos
  let s := if o.pos = 0 then s.beginWrite t.val d.tag else s
  let next (s : State) (part : List ((Nat × Nat) × Num)) : State :=
    (s.modTile t.val (fun x => x.modOp o.id (fun o => { o with pos := o.pos + 1, kind := .drain a d pass part }))).traceDrain
      t d o.pos
  match Fmt.ofCode d.fmt with
  | none => next s []
  | some f =>
    if d.bs then
      let r := formReady f d ((s.tile t.val).ctx o.ctx.val).asm (part ++ vals)
      let last : Bool := o.pos + 1 = d.count
      let s := s.modCtx t.val o.ctx.val (fun y => { y with asm := if last then keepOpen d r.2.1 r.2.2 else r.2.1 })
      next (s.writeMade t d r.1 []) (if last then [] else r.2.2)
    else next (s.writeMade t d [] (formDirect f vals)) []

/-- R65, R67, R100, R101, R439. -/
def execTensorDrain (t : TileId) (c : CtxId) (h : Hdr) (role : Role) (trails : Bool) (desc : BitVec 32) (s : State) :
    Host.Outcome State Fault Refusal :=
  done (s.issue t c (0, 2) h (lowOp desc) (fun s => s.withDesc t c desc.toNat (fun s d =>
    let a := Fin.ofNat 3 h.unit.toNat
    let x := s.tile t.val
    if (x.array a.val).wrongRole role || d.drainFault || (x.drainsLegacy a.val d && !(d.fmt = 6 || d.fmt = 7))
        || x.asmFull c.val d ((List.range d.count).flatMap (fun i => d.drainLanes.map (d.place i))) then
      s.fault t.val c.val 1
    else
      -- the pass that it trails is the last one issued to the array (R101)
      let pass := if trails then (x.ops.filter (fun o => o.kind.engine = some (3 + a.val))).getLast?.map (·.id) else none
      (s.addOp t.val c (.drain a d pass []) (sigOf h)).advance t.val c.val)))

end Sys2Proof.Machine
end

