-- ==== Sys2Proof/Machine/Vector.lean ====
section
/-! DEFINITION. The vector unit: loads and stores (R435, R436), elementwise operations (R76, R77, R79, R432),
reductions (R78) and helpers (R118, R433). -/
namespace Sys2Proof.Machine

/-- Precision named by instruction bit [53] (R115). -/
def prec (h : Hdr) : Fmt := if bitOf h.unit.toNat 2 then .w40 else .a32

/-- The value in a lane: registers hold W40 (R104). -/
def Ctx.val (c : Ctx) (v l : Nat) : Num := Fmt.w40.decode (c.lane v l)
def Ctx.setVal (c : Ctx) (v l : Nat) (x : Num) : Ctx := c.setLane v l (Fmt.w40.encode .nearestEven x)

/-- Write values to the lanes of a register; every value is formed before any lane is written. -/
def Ctx.putLanes (c : Ctx) (v : Nat) (ls : List Nat) (g : Nat → Num) : Ctx :=
  (ls.map (fun l => (l, g l))).foldl (fun c x => c.setVal v x.1 x.2) c

def lanes : List Nat := List.range 64

/-- An elementwise operation on all 64 lanes (R433). -/
def Ctx.elementwise (c : Ctx) (d : Nat) (g : Nat → Num) : Ctx := c.putLanes d lanes g

/-- An operation waits while a halted load or store keeps the vector unit (R123), or one of its context has not run (R105). -/
def State.onVector (s : State) (t : TileId) (c : CtxId) (f : State → State) : State :=
  if (s.tile t.val).engaged c.val .vector then s.hold t.val c.val (.swap .vector) else f s

/-- A vector operation, by its opcode, that only works on registers. -/
def State.vec (s : State) (t : TileId) (c : CtxId) (k : Nat) (h : Hdr) (f : Ctx → Ctx) : State :=
  s.issue t c (1, k) h noLow (fun s => s.onVector t c (fun s =>
    ((s.modCtx t.val c.val f).addOp t.val c .vector (sigOf h)).advance t.val c.val))

/-! Sequences of values (R78). -/

def groups64 (xs : List Num) : List (List Num) :=
  (List.range ((xs.length + 63) / 64)).map (fun g => (xs.drop (64 * g)).take 64)

def padTo (n : Nat) (z : Num) (xs : List Num) : List Num := xs ++ List.replicate (n - xs.length) z

def treeLevel (f : Num → Num → Num) : List Num → List Num
  | a :: b :: r => f a b :: treeLevel f r
  | l => l

/-- The pairwise tree of 6 levels over 64 values. -/
def tree64 (f : Num → Num → Num) (xs : List Num) : Num :=
  ((List.range 6).foldl (fun l _ => treeLevel f l) xs).headD .zero

def rsum (p : Fmt) (xs : List Num) : Num :=
  let add (a b : Num) : Num := Num.rne p (a.add b)
  ((groups64 xs).map (fun g => tree64 add (padTo 64 .zero g))).foldl add .zero

/-- Maximum and minimum reductions: pads are NaN and the running value starts as the first group's result. -/
def rext (f : Num → Num → Num) (xs : List Num) : Num :=
  match (groups64 xs).map (fun g => tree64 f (padTo 64 .nan g)) with
  | [] => .nan
  | g :: gs => gs.foldl f g

/-- Elements of N values laid out from a first register (R433). -/
def Ctx.run64 (c : Ctx) (first n : Nat) : List Num := (List.range n).map (fun i => c.val (first + i / 64) (i % 64))

def Ctx.putRun (c : Ctx) (first : Nat) (xs : List Num) : Ctx :=
  (xs.zip (List.range xs.length)).foldl (fun c x => c.setVal (first + x.2 / 64) (x.2 % 64) x.1) c

def regsOf (n : Nat) : Nat := (n + 63) / 64

/-! Elementwise operations. -/

/-- R76. -/
def execVectorAdd (t : TileId) (c : CtxId) (h : Hdr) (d a b : Fin 32) (s : State) : Host.Outcome State Fault Refusal :=
  done (s.vec t c 2 h (fun x => x.elementwise d (fun l => Num.rne (prec h) ((x.val a l).add (x.val b l)))))

/-- R76. -/
def execVectorSub (t : TileId) (c : CtxId) (h : Hdr) (d a b : Fin 32) (s : State) : Host.Outcome State Fault Refusal :=
  done (s.vec t c 3 h (fun x => x.elementwise d (fun l => Num.rne (prec h) ((x.val a l).sub (x.val b l)))))

/-- R76. -/
def execVectorMul (t : TileId) (c : CtxId) (h : Hdr) (d a b : Fin 32) (s : State) : Host.Outcome State Fault Refusal :=
  done (s.vec t c 4 h (fun x => x.elementwise d (fun l => Num.rne (prec h) ((x.val a l).mul (x.val b l)))))

/-- R76. -/
def execVectorFma (t : TileId) (c : CtxId) (h : Hdr) (d a b e : Fin 32) (s : State) : Host.Outcome State Fault Refusal :=
  done (s.vec t c 5 h (fun x =>
    x.elementwise d (fun l => Num.rne (prec h) (Num.fma (x.val a l) (x.val b l) (x.val e l)))))

/-- R79. -/
def execVectorMax (t : TileId) (c : CtxId) (h : Hdr) (d a b : Fin 32) (s : State) : Host.Outcome State Fault Refusal :=
  done (s.vec t c 6 h (fun x => x.elementwise d (fun l => (x.val a l).max2 (x.val b l))))

/-- R79. -/
def execVectorMin (t : TileId) (c : CtxId) (h : Hdr) (d a b : Fin 32) (s : State) : Host.Outcome State Fault Refusal :=
  done (s.vec t c 7 h (fun x => x.elementwise d (fun l => (x.val a l).min2 (x.val b l))))

/-- R432. -/
def execVectorCmp (t : TileId) (c : CtxId) (h : Hdr) (k : CmpCond) (d a b : Fin 32) (s : State) :
    Host.Outcome State Fault Refusal :=
  done (s.vec t c 8 h (fun x => x.elementwise d (fun l => if cmpHolds k (x.val a l) (x.val b l) then .one else .zero)))

/-- R77. -/
def execVectorExp2 (t : TileId) (c : CtxId) (h : Hdr) (d a : Fin 32) (s : State) : Host.Outcome State Fault Refusal :=
  done (s.vec t c 9 h (fun x => x.elementwise d (fun l => Num.rne (prec h) ((x.val a l).exp2 (prec h)))))

/-- R77. -/
def execVectorLog2 (t : TileId) (c : CtxId) (h : Hdr) (d a : Fin 32) (s : State) : Host.Outcome State Fault Refusal :=
  done (s.vec t c 10 h (fun x => x.elementwise d (fun l => Num.rne (prec h) ((x.val a l).log2 (prec h)))))

/-- R77. -/
def execVectorRsqrt (t : TileId) (c : CtxId) (h : Hdr) (d a : Fin 32) (s : State) : Host.Outcome State Fault Refusal :=
  done (s.vec t c 11 h (fun x => x.elementwise d (fun l => Num.rne (prec h) (x.val a l).rsqrt)))

/-- R77. -/
def execVectorRcp (t : TileId) (c : CtxId) (h : Hdr) (d a : Fin 32) (s : State) : Host.Outcome State Fault Refusal :=
  done (s.vec t c 12 h (fun x => x.elementwise d (fun l => Num.rne (prec h) (x.val a l).rcp)))

/-! Reductions (R78, R433). -/

/-- A reduction over N elements; an N outside 1–2,048, or a range past v31, is a descriptor fault (R433). -/
def State.reduceVec (s : State) (t : TileId) (c : CtxId) (k : Nat) (h : Hdr) (d first : Fin 32) (n : Nat)
    (f : List Num → Num) : State :=
  s.issue t c (1, k) h noLow (fun s =>
    if n = 0 || 2048 < n || 32 < first.val + regsOf n then s.fault t.val c.val 1
    else s.onVector t c (fun s =>
      ((s.modCtx t.val c.val (fun x => let r := f (x.run64 first n); x.elementwise d (fun _ => r))).addOp t.val c
        .vector (sigOf h)).advance t.val c.val))

/-- R78. -/
def execVectorRsum (t : TileId) (c : CtxId) (h : Hdr) (d first : Fin 32) (n : BitVec 16) (s : State) :
    Host.Outcome State Fault Refusal :=
  done (s.reduceVec t c 13 h d first n.toNat (rsum (prec h)))

/-- R78, R79. -/
def execVectorRmax (t : TileId) (c : CtxId) (h : Hdr) (d first : Fin 32) (n : BitVec 16) (s : State) :
    Host.Outcome State Fault Refusal :=
  done (s.reduceVec t c 14 h d first n.toNat (rext Num.max2))

/-- R78, R79. -/
def execVectorRmin (t : TileId) (c : CtxId) (h : Hdr) (d first : Fin 32) (n : BitVec 16) (s : State) :
    Host.Outcome State Fault Refusal :=
  done (s.reduceVec t c 15 h d first n.toNat (rext Num.min2))

/-! Helpers (R118, R433). -/

/-- The helper descriptor's fields. -/
structure Helper where
  n : Nat
  x : Nat
  y : Nat
  mu : Nat
  gamma : Nat
  beta : Nat
  eps : Nat
  deriving DecidableEq, Repr

/-- Which register fields a helper uses, beside x. -/
structure HelperUse where
  y : Bool
  mu : Bool
  gb : Bool
  deriving DecidableEq, Repr

/-- Read and check a helper descriptor (R433). -/
def helperOf (u : HelperUse) (bs : List Byte) : Option Helper :=
  let b (i : Nat) := bytesAt bs i 1
  let n := bytesAt bs 0 2
  let run (r : Nat) : Bool := r + regsOf n ≤ 32
  if n = 0 || 2048 < n || b 7 != 0 || bytesAt bs 12 20 != 0 then none
  else if 32 ≤ b 2 || (u.y && 32 ≤ b 3) || (u.mu && 31 ≤ b 4) || (u.gb && (32 ≤ b 5 || 32 ≤ b 6)) then none
  else if !run (b 2) || (u.y && !run (b 3)) || (u.gb && (!run (b 5) || !run (b 6))) then none
  else some ⟨n, b 2, b 3, b 4, b 5, b 6, bytesAt bs 8 4⟩

def State.helper (s : State) (t : TileId) (c : CtxId) (k : Nat) (h : Hdr) (m : Low) (u : HelperUse) (desc : Nat)
    (f : Helper → Ctx → Ctx) : State :=
  s.issue t c (1, k) h m (fun s =>
    if !descAddrOk desc then s.fault t.val c.val 2
    else
      let s := s.touch (.sram t) desc 32 1
      if s.anyMarked (.sram t) desc 32 then s.fault t.val c.val 1
      else match helperOf u (s.bytes (.sram t) desc 32) with
        | none => s.fault t.val c.val 1
        | some d => s.onVector t c (fun s =>
            ((s.modCtx t.val c.val (f d)).addOp t.val c .vector (sigOf h)).advance t.val c.val))

/-- NSTAT: μ and r (R118). -/
def nstat (p : Fmt) (rms : Bool) (eps : Num) (xs : List Num) : Num × Num :=
  let m (a b : Num) : Num := Num.rne p (a.mul b)
  let inv := Num.rne p (Num.ofNat xs.length).rcp
  let mu := if rms then .zero else m (rsum p xs) inv
  let ds := if rms then xs else xs.map (fun x => Num.rne p (x.sub mu))
  let var := m (rsum p (ds.map (fun d => m d d))) inv
  (mu, Num.rne p (Num.rne p (var.add eps)).rsqrt)

/-- R118. -/
def execVectorNstat (t : TileId) (c : CtxId) (h : Hdr) (rms : Bool) (desc : BitVec 32) (s : State) :
    Host.Outcome State Fault Refusal :=
  done (s.helper t c 16 h (lowMod 1 (if rms then 1 else 0) desc) ⟨false, true, false⟩ desc.toNat (fun d x =>
    let r := nstat (prec h) rms (Fmt.a32.decode d.eps) (x.run64 d.x d.n)
    (x.elementwise d.mu (fun _ => r.1)).elementwise (d.mu + 1) (fun _ => r.2)))

/-- NAPPLY (R118). -/
def napply (p : Fmt) (mu r : Nat → Num) (xs gs bs : List Num) : List Num :=
  ((xs.zip (gs.zip bs)).zip (List.range xs.length)).map (fun x =>
    let l := x.2 % 64
    let t := Num.rne p (x.1.1.sub (mu l))
    let t := Num.rne p (t.mul (r l))
    Num.rne p (Num.fma t x.1.2.1 x.1.2.2))

/-- R118. -/
def execVectorNapply (t : TileId) (c : CtxId) (h : Hdr) (desc : BitVec 32) (s : State) :
    Host.Outcome State Fault Refusal :=
  done (s.helper t c 17 h (lowOp desc) ⟨true, true, true⟩ desc.toNat (fun d x =>
    x.putRun d.y (napply (prec h) (x.val d.mu) (x.val (d.mu + 1)) (x.run64 d.x d.n) (x.run64 d.gamma d.n)
      (x.run64 d.beta d.n))))

/-- SMAX (R118). -/
def smax (p : Fmt) (xs : List Num) : List Num :=
  let r (v : Num) : Num := Num.rne p v
  let l := log2e p
  let a := r ((rext Num.max2 xs).mul l)
  let es := xs.map (fun x => r ((r (Num.fma x l a.neg)).exp2 p))
  let inv := r (rsum p es).rcp
  es.map (fun e => r (e.mul inv))

/-- R118. -/
def execVectorSmax (t : TileId) (c : CtxId) (h : Hdr) (desc : BitVec 32) (s : State) :
    Host.Outcome State Fault Refusal :=
  done (s.helper t c 18 h (lowOp desc) ⟨true, false, false⟩ desc.toNat (fun d x => x.putRun d.y (smax (prec h) (x.run64 d.x d.n))))

/-! Loads and stores (R435, R436). -/

/-- Faults of a VECTOR LD or ST descriptor (R120, R50, R56, R435). -/
def Desc.vecFault (d : Desc) : Bool :=
  d.fieldFault || d.wordFault || d.space != 0 || d.fmt = 9 || (!d.bound && d.count != 0) || d.base != 0
    || d.n1 ≤ d.first || d.n0 ≤ 64 * d.second

/-- A lane of a load: decoded, and multiplied by the tensor scale (R435). -/
def State.loadLane (s : State) (t : TileId) (d : Desc) (p : Fmt) (j : Nat) : Num :=
  if 64 * d.second + j < d.n0 then
    let x := s.elem (.sram t) d d.first (64 * d.second + j)
    if d.ts then Num.rne p (x.mul (Fmt.a32.decode d.scale.toNat)) else x
  else .zero

/-- A step of a load: with the last access the register is written, from the bytes as they then stand (log entry 73). -/
def State.ldStep (s : State) (t : TileId) (o : Op) (v : Fin 32) (p : Fmt) (d : Desc) : State :=
  let s := s.modTile t.val (fun x => x.modOp o.id (fun o => { o with pos := o.pos + 1 }))
  if o.pos + 1 < o.kind.steps then s
  else
    let s := s.touchSegs (.sram t) d.vecSegs 0
    s.modCtx t.val o.ctx.val (fun x => x.elementwise v (fun j => s.loadLane t d p j))

/-- R435. -/
def execVectorLd (t : TileId) (c : CtxId) (h : Hdr) (v : Fin 32) (desc : BitVec 32) (s : State) :
    Host.Outcome State Fault Refusal :=
  done (s.issue t c (1, 0) h (lowOp desc) (fun s => s.withDesc t c desc.toNat (fun s d =>
    if d.vecFault then s.fault t.val c.val 1
    else s.onVector t c (fun s =>
      (s.addBound t.val c (.vectorLd v (bitOf h.unit.toNat 2) d) (sigOf h) d 1).advance t.val c.val))))

/-- Values handed to the producer (R435). -/
def storeVals (x : Ctx) (p : Fmt) (d : Desc) (v : Nat) : List ((Nat × Nat) × Num) :=
  d.groupLanes.map (fun j =>
    ((d.first, 64 * d.second + j),
     if d.ts then Num.rne p ((x.val v j).div (Fmt.a32.decode d.scale.toNat)) else x.val v j))

/-- Begin, or go on with, the context's run of tagged stores (R82). -/
def State.storeRun (s : State) (t c : Nat) (d : Desc) : State :=
  let cur := ((s.tile t).ctx c).store
  if cur = some ⟨d.ea, d.tag⟩ then s
  else
    let s := s.endRun t c
    if d.tag = 0 then s
    else (s.beginWrite t d.tag).modCtx t c (fun y => { y with store := some ⟨d.ea, d.tag⟩ })

/-- A step of a store: with the last access what it completes is written and counted. -/
def State.stStep (s : State) (t : TileId) (o : Op) (d : Desc) (bs : List FormedBlock) (ms : List Made) : State :=
  let s := s.modTile t.val (fun x => x.modOp o.id (fun o => { o with pos := o.pos + 1 }))
  if o.pos + 1 < o.kind.steps then s else s.writeMade t d bs ms

/-- A store issues: its values are placed, the blocks that they complete are formed, and those, or the elements of a result
without block scale, are written when its accesses are served (R435, R436). A store with a completion signal ends its run
at its completion (R82). -/
def State.placeSt (s : State) (t : TileId) (c : CtxId) (h : Hdr) (v : Fin 32) (d : Desc) : State :=
  let s := s.storeRun t.val c.val d
  let y := (s.tile t.val).ctx c.val
  let xs := storeVals y (prec h) d v
  let run := if h.sig && d.tag != 0 then some (⟨d.ea, d.tag⟩ : StoreRun) else none
  let store (y : Ctx) : Ctx := if run.isSome then { y with store := none } else y
  match Fmt.ofCode d.fmt with
  | none => s
  | some f =>
    let r := formReady f d y.asm xs
    let s := s.modCtx t.val c.val (fun y => store (if d.bs then { y with asm := keepOpen d r.2.1 r.2.2 } else y))
    s.addBound t.val c (if d.bs then .vectorSt d r.1 [] run else .vectorSt d [] (formDirect f xs) run) (sigOf h) d 1

/-- R435. -/
def execVectorSt (t : TileId) (c : CtxId) (h : Hdr) (v : Fin 32) (desc : BitVec 32) (s : State) :
    Host.Outcome State Fault Refusal :=
  done (s.issue t c (1, 1) h (lowOp desc) (fun s => s.withDesc t c desc.toNat (fun s d =>
    if d.vecFault then s.fault t.val c.val 1
    else s.onVector t c (fun s =>
      if (s.tile t.val).asmFull c.val d (d.groupLanes.map (fun j => (d.first, 64 * d.second + j))) then
        s.fault t.val c.val 1
      else (s.placeSt t c h v d).advance t.val c.val))))

end Sys2Proof.Machine
end

