-- ==== Sys2Proof/Machine/Queue.lean ====
section
/-! DEFINITION. Transfer queues (R121–R123): what MOVE and NET operations append, how a transfer starts, sends, spills
(R129) and completes (R116), the vault interface (R109–R111), and what the banks of SRAM serve in a core cycle: the
steps of operations, late ones among them, and the bytes of transfers (R101, R107, R108, R123). -/
namespace Sys2Proof.Machine

/-! The bytes of a transfer. -/

/-- Byte ranges of a descriptor's element rows, then of its scale plane (R34, R35, R41, R44). -/
def Desc.segments (d : Desc) : List (Nat × Nat) :=
  (List.range d.n1).map (fun r => (d.ea + r * d.pitch * 32, rowBytes d.fmt d.n0))
    ++ (if d.bs then [(d.sa, d.scaleBytes)] else [])

def Desc.length (d : Desc) : Nat := (d.segments.map (·.2)).sum

/-- Check every word of the source. -/
def State.touchAll (s : State) (u : MemUnit) (segs : List (Nat × Nat)) (reader : Nat) : State :=
  segs.foldl (fun s g => s.touch u g.1 g.2 reader) s

/-- The bytes in order. -/
def State.gather (s : State) (u : MemUnit) (segs : List (Nat × Nat)) : List Byte :=
  segs.flatMap (fun g => s.bytes u g.1 g.2)

/-- Whether each byte lies in a poisoned word. -/
def State.gatherBad (s : State) (u : MemUnit) (segs : List (Nat × Nat)) : List Bool :=
  if (s.mem u).errs = [] then []
  else segs.flatMap (fun g => (List.range g.2).map (fun i => s.marked u (g.1 + i)))

/-- Write bytes over the ranges in order; bytes from poisoned words mark the words they cover (R179). -/
def State.scatter (s : State) (u : MemUnit) : List (Nat × Nat) → List Byte → List Bool → State
  | [], _, _ => s
  | (a, n) :: r, bs, bad =>
    let s := s.store u a (bs.take n)
    let s := (below n (fun i => bad.getD i false)).foldl (fun s i => s.poison u (a + i) 1) s
    s.scatter u r (bs.drop n) (bad.drop n)

/-! Faults of MOVE and NET descriptors. -/

/-- A MOVE endpoint (R44, R111, R120, R166, R167). -/
def State.moveFault (s : State) (t : Nat) (d : Desc) (write : Bool) : Bool :=
  d.fieldFault || d.moveWordFault || (!d.bound && d.count != 0) || d.base != 0 || d.second != 0
    || d.windowFault s t write || ((d.space = 1 || (d.space = 2 && d.first = t)) && s.vaultHeld t)

/-- A NET source (R44, R50, R52, R120). -/
def State.netFault (s : State) (t : Nat) (d : Desc) (stack : Bool) : Bool :=
  s.moveFault t d false || !(d.space = 0 || (stack && d.space = 4)) || d.fmt = 8

/-! Appending (R121). -/

/-- Append a transfer to a queue of the issuing context; 64 transfers not yet started hold the context. -/
def State.append (s : State) (t : TileId) (c : CtxId) (h : Hdr) (k : XKind) (len route : Nat) : State :=
  let q := 4 * c.val + h.unit.toNat % 4
  let x := s.tile t.val
  let y := x.queue q
  if 64 ≤ y.notStarted then s.hold t.val c.val (.space q)
  else
    let z : Xfer := { id := x.nextId, ctx := c, q := q, kind := k, len := len, sig := sigOf h, route := route }
    (s.setTile t.val ({ x with nextId := x.nextId + 1 }.setQueue q { y with xfers := y.xfers ++ [z] })).advance t.val c.val

/-! Transfers of a tile. -/

def Tile.modXfer (x : Tile) (q id : Nat) (f : Xfer → Xfer) : Tile :=
  x.setQueue q { x.queue q with xfers := (x.queue q).xfers.map (fun z => if z.id = id then f z else z) }

/-- A transfer by its number, and its queue. -/
def Tile.xfer? (x : Tile) (id : Nat) : Option (Nat × Xfer) :=
  x.queues.findSome? (fun q => (q.2.xfers.find? (fun z => z.id = id)).map (fun z => (q.1, z)))

/-- Change a transfer by its number, if the tile still holds it. -/
def State.modXfer (s : State) (t id : Nat) (f : Xfer → Xfer) : State :=
  match (s.tile t).xfer? id with
  | some (q, _) => s.modTile t (fun x => x.modXfer q id f)
  | none => s

def State.setPhase (s : State) (t q id : Nat) (p : XPhase) : State :=
  s.modTile t (fun x => x.modXfer q id (fun z => { z with phase := p }))

def Xfer.isMove (z : Xfer) : Bool :=
  match z.kind with
  | .move .. => true
  | _ => false

/-- Bytes of a MOVE have been written at its destination, or refused (R116, R146). -/
def State.ackXfer (s : State) (t id n : Nat) (refused : Bool) : State :=
  s.modXfer t id (fun z =>
    if z.isMove then { z with acked := z.acked + n, refused := z.refused || refused } else z)

/-! The vault interface (R109–R111, R170, R183). -/

/-- 64-byte words that byte ranges touch. -/
def wordsOf (segs : List (Nat × Nat)) : Nat := (segs.map (fun g => (g.1 + g.2 + 63) / 64 - g.1 / 64)).sum

/-- Whether a request still touches a 64-byte word. -/
def VaultReq.covers (r : VaultReq) (w : Nat) : Bool := r.segs.any (fun g => g.1 / 64 ≤ w && w * 64 < g.1 + g.2)

/-- The interface accepts reads until 64 words are outstanding, and of each write the next word (R109). -/
def acceptWords : Nat → List VaultReq → List VaultReq
  | _, [] => []
  | n, r :: rs =>
    let k := if r.read then min n (wordsOf r.segs - r.taken) else 1 - r.taken
    { r with taken := r.taken + k } :: acceptWords (if r.read then n - k else n) rs

/-- The first request of the tile itself, or from the network, if its next word can be served: accepted, its bank not
under refresh, and no earlier request touches the same word (R110, R170). -/
def nextReq (bank : Option Nat) (own : Bool) (rs : List VaultReq) : Option Nat :=
  match rs.findIdx? (fun r => r.own = own && r.taken != 0) with
  | none => none
  | some i => match rs[i]? with
    | none => none
    | some r =>
      let w := (r.segs.headD (0, 0)).1 / 64
      if some (w % 16) = bank || (rs.take i).any (fun q => q.covers w) then none else some i

/-- Requests of the tile and of the network are served in alternation when both wait (R110). -/
def Tile.pickReq (x : Tile) (rs : List VaultReq) (bank : Option Nat) : Option Nat :=
  match nextReq bank x.vturn rs with
  | some i => some i
  | none => nextReq bank (!x.vturn) rs

/-- One word of a request. -/
def State.serveWord (s : State) (v : TileId) (r : VaultReq) : State × VaultReq :=
  match r.segs with
  | [] => (s, r)
  | (a, l) :: rest =>
    let u := MemUnit.vault v
    let k := min l (64 - a % 64)
    let r' : VaultReq := { r with segs := if k = l then rest else (a + k, l - k) :: rest, taken := r.taken - 1 }
    if r.read then
      let s := s.touch u a k 2
      (s, { r' with data := r.data ++ s.bytes u a k, bad := r.bad ++ List.replicate k (s.marked u a) })
    else
      let s := s.store u a (r.data.take k)
      (if (r.bad.take k).any id then s.poison u a k else s, { r' with data := r.data.drop k, bad := r.bad.drop k })

/-- A request reaches the vault interface of a tile. -/
def State.vaultAsk (s : State) (v : Nat) (r : VaultReq) : State :=
  s.modTile v (fun x => { x with vreqs := x.vreqs ++ [r] })

/-! MOVE (R117, R134, R146). -/

/-- Space of a packet's address: a stack's is 4 and its number. -/
def Desc.where' (d : Desc) : Nat := if d.space = 4 then 4 + d.first else d.space

/-- A flit that carries a poisoned word poisons all of its words at the receiver (R179, R133). -/
def wholeFlits (bad : List Bool) : List Bool :=
  (List.range bad.length).map (fun i => ((bad.drop (i / 128 * 128)).take 128).any id)

/-- Head of the packets of a MOVE. -/
def State.moveFlit (s : State) (t : TileId) (z : Xfer) (ty : PktType) (d : Desc) : Flit :=
  { vc := 1, ty := ty, part := ((s.tile t.val).part).getD 0, route := z.route, dst := d.first, src := t.val, xid := z.id,
    len := z.len, head := true, tail := true, pktLen := 1 }

/-- The flits of bytes off on of a transfer of a total length; packets hold 4 KiB (R134). -/
def flitsFrom (f : Flit) (total off : Nat) (bs : List Byte) (bad : List Bool) : List Flit :=
  (List.range ((bs.length + 127) / 128)).map (fun i =>
    let o := off + 128 * i
    let first := o / 4096 * 4096
    { f with
      head := o = first, tail := o + 128 = first + 4096 || total ≤ o + 128, off := o, len := total,
      pktLen := min 32 ((total - first + 127) / 128), poison := f.poison || ((bad.drop (128 * i)).take 128).any id,
      hdr := f.hdr.map (fun h => { h with part := BitVec.ofNat 2 (o / 4096) }), data := (bs.drop (128 * i)).take 128 })

def AccUse.writes : AccUse → Bool
  | .write .. => true
  | _ => false

/-- An access to SRAM waits for its banks, behind those that came before it (R107). -/
def Tile.addAccess (x : Tile) (u : AccUse) (segs : List (Nat × Nat)) : Tile :=
  { x with accs := x.accs ++ [⟨u, banksOf u.writes segs, 0⟩] }

/-- Bytes of a MOVE, from an offset on, are there: they go to their destination. -/
def State.moveTo (s : State) (t : TileId) (z : Xfer) (dst : Desc) (off : Nat) (bs : List Byte) (bad : List Bool) : State :=
  let segs := piecesOf dst.segments off bs.length
  if dst.space = 0 then s.modTile t.val (fun x => x.addAccess (.write false segs bs bad (.ack t.val z.id)) segs)
  else if dst.space = 1 then
    s.vaultAsk t.val ⟨true, false, .move t.val z.id, off, bs.length, segs, 0, bs, bad⟩
  else
    s.pushFlits t.val 4 1 ((flitsFrom (s.moveFlit t z .data dst) z.len off bs bad).map (fun g =>
      { g with addr := some (dst.where', piecesOf dst.segments g.off g.data.length) }))

/-- A MOVE starts: a source beyond the tile's SRAM is asked for; one in it is read as its banks serve it. -/
def State.startMove (s : State) (t : TileId) (z : Xfer) (src : Desc) : State :=
  if src.space = 0 then s
  else (chunksOf z.len).foldl (fun s off =>
    let n := min 4096 (z.len - off)
    let segs := piecesOf src.segments off n
    if src.space = 1 then s.vaultAsk t.val ⟨true, true, .move t.val z.id, off, n, segs, 0, [], []⟩
    else s.pushFlits t.val 4 1 [{ s.moveFlit t z .readReq src with off := off, addr := some (src.where', segs) }]) s

/-- Bytes that a MOVE has read arrive at its tile. -/
def State.moveBytes (s : State) (t : TileId) (id off : Nat) (bs : List Byte) (bad : List Bool) : State :=
  match (s.tile t.val).xfer? id with
  | some (_, z) => match z.kind with
    | .move _ dst => s.moveTo t z dst off bs bad
    | _ => s
  | none => s

/-- Read data go back on VC5 (R137), from a tile's port. -/
def readFlits (part : PartId) (dst src xid off : Nat) (bs : List Byte) (bad : List Bool) : List Flit :=
  flitsOf { vc := 5, ty := .response, part := part, route := 0, dst := dst, src := src, xid := xid, off := off, len := 1,
            addr := some (0, []), head := true, tail := true } (fun i => ((bad.drop (i * 128)).take 128).any id) bs

/-! Spills back into their slots (R129). -/

/-- Landing buffers of whose transfers the overflow area has held some and holds none, and toward which none is on its
way, end their episode (R129): the senders' grants end with it. -/
def State.endEpisodes (s : State) (t : TileId) : State :=
  let x := s.tile t.val
  let coming (b : Nat) : Bool :=
    x.spillIn.any (fun i => i.dest.buf.val = b)
      || s.tiles.any (fun e => e.2.queues.any (fun q => q.2.xfers.any (fun z => z.phase = .spilling && match z.kind with
        | .put _ _ d => d.tile = t && d.buf.val = b
        | _ => false)))
  let ended (e : Nat × Bool) : Bool := e.2 && !x.spilled.any (fun p => p.buf = e.1) && !coming e.1
  let dead := (x.episodes.filter ended).map (·.1)
  if dead = [] then s
  else
    let s := s.setTile t.val { x with episodes := x.episodes.filter (fun e => !ended e) }
    { s with tiles := s.tiles.map (fun e => (e.1, { e.2 with
      inbox := e.2.inbox.filter (fun m => match m with
        | .spillGrant u b => !(u = t && dead.contains b)
        | _ => true),
      queues := e.2.queues.map (fun q => (q.1, { q.2 with xfers := q.2.xfers.map (fun z => match z.kind with
        | .put _ _ d => if d.tile = t && dead.contains d.buf.val then { z with asked := false } else z
        | _ => z) })) })) }

/-- A spilled transfer is in its slot, and its counter increments (R129). -/
def State.refilled (s : State) (t : TileId) (buf slot : Nat) : State :=
  let y := (s.tile t.val).slot buf slot
  let s := s.modTile t.val (fun x =>
    { x.setSlot buf slot { y with st := .filled } with
      spilled := match x.spilled.find? (fun p => p.moving && p.buf = buf && p.slot = slot) with
        | some p => x.spilled.erase p
        | none => x.spilled })
  let s := s.endEpisodes t
  match y.ctr with
  | some c => s.addCounter t.val c 1
  | none => s

/-- Bytes of a spilled transfer, from an offset on, go into its slot. -/
def State.landRefill (s : State) (t : TileId) (buf slot off : Nat) (bs : List Byte) (bad : List Bool) : State :=
  match (s.tile t.val).landingOf buf, (s.tile t.val).spilled.any (fun p => p.moving && p.buf = buf && p.slot = slot) with
  | some l, true =>
    let segs := [(l.base + slot * l.size + off, bs.length)]
    s.modTile t.val (fun x => x.addAccess (.write false segs bs bad (.refill buf slot)) segs)
  | _, _ => s

/-- The vault that holds a tile's overflow area: its own, or that of its partner in the same partition (R130, R168). -/
def State.overVault (s : State) (t : Nat) : Nat :=
  let p := s.obj 0x5100 0x44 t
  if p < 6912 && s.partOf p = s.partOf t then p else t

/-- A request has been served. -/
def State.served (s : State) (v : TileId) (r : VaultReq) : State :=
  match r.use with
  | .move t id =>
    if !r.read then s.ackXfer t id r.len false
    else if r.own then s.moveBytes (Fin.ofNat 6912 t) id r.off r.data r.bad
    else s.pushFlits v.val 4 5 (readFlits (((s.tile v.val).part).getD 0) t v.val id r.off r.data r.bad)
  | .refill t b i =>
    if t = v.val then s.landRefill v b i 0 r.data r.bad
    else s.pushFlits v.val 4 5 ((readFlits (((s.tile v.val).part).getD 0) t v.val 0 0 r.data r.bad).map (fun f =>
      { f with dests := [⟨Fin.ofNat 6912 t, Fin.ofNat 16 b, Fin.ofNat 64 i, none⟩] }))
  | .spill => s

/-- The vaults of a tile's region are retraining (R183). -/
def State.vaultPass (s : State) (u : Nat) : Bool :=
  match (s.region (regionOf u)).retrain with
  | .running _ => true
  | _ => false

/-- The bank of a vault that is under refresh: for 96 net cycles (R170). -/
def State.refreshing (s : State) (v : Nat) : Option Nat :=
  ((s.tile v).refresh.filter (fun b => s.netOf v < b.2 + 96)).map (·.1.val)

/-- One net cycle of a vault interface: reads are accepted, and one word is served, of a bank that is not under refresh
(R109, R110, R170); during a retraining pass it serves what it has accepted (R183). -/
def State.vaultCycle (s : State) (v : TileId) : State :=
  let x := s.tile v.val
  let used := (x.vreqs.map (fun r => if r.read then r.taken else 0)).sum
  let rs := if s.vaultPass v.val then x.vreqs else acceptWords (64 - used) x.vreqs
  match x.pickReq rs (s.refreshing v.val) with
  | none => s.modTile v.val (fun x => { x with vreqs := rs })
  | some i =>
    match rs[i]? with
    | none => s
    | some r =>
      let y := s.serveWord v r
      if y.2.segs = [] then
        (y.1.modTile v.val (fun x => { x with vreqs := rs.eraseIdx i, vturn := !r.own })).served v y.2
      else y.1.modTile v.val (fun x => { x with vreqs := rs.set i y.2, vturn := !r.own })

/-! Starting. -/

/-- Queue class: VC4 for class U, VC1 for class D (R117). -/
def State.putVc (s : State) (t q : Nat) : Fin 6 := if s.obj 0x5100 (0x21 + q) t = 1 then 4 else 1

/-- A NET transfer from SRAM starts on a VC: its source is read, and its flits enter the router, as the banks serve it. -/
def State.startSend (s : State) (t : TileId) (q : Nat) (z : Xfer) (vc : Fin 6) (p : XPhase) : State :=
  s.modTile t.val (fun x => x.modXfer q z.id (fun z => { z with vc := vc, phase := p }))

/-- Record that a transfer waits for a slot credit. -/
def State.awaitCredit (s : State) (t q : Nat) (z : Xfer) : State :=
  if z.since.isSome then s
  else s.modTile t (fun x => x.modXfer q z.id (fun z => { z with since := some (s.coreOf t) }))

/-- A granted spill of a landing buffer of a tile (R129). -/
def State.granted (s : State) (t : Nat) (d : Dest) : Bool :=
  (s.tile t).inbox.contains (.spillGrant d.tile d.buf.val) && (s.tile d.tile.val).episodes.any (fun e => e.1 = d.buf.val)

/-- The path of a route from a tile ends at an edge gate: its tile and direction. -/
def State.gateEnd (s : State) (p route vc t : Nat) : Option (Nat × Nat) :=
  match s.routeEnd p route vc 6912 t with
  | some (g, d) => if d = 4 then none else some (g, d)
  | none => none

/-- A PUT starts, if it may start now: with a relay slot credit of the gate that its route reaches (R214), on VC5 under a
granted spill (R129), or with the credit of its slot (R127, R140). A PUT toward another module spends no slot credit here:
the credit of a slot is taken by the port of its module (R297; no rule says which credit the sender spends, log entry
26). -/
def State.startPut (s : State) (t : TileId) (q : Nat) (z : Xfer) (p : PartId) (route : Nat) (dest : Dest) : State :=
  let vc := s.putVc t.val q
  match s.gateEnd p.val route vc.val t.val with
  | some (_, d) => match s.relayFor d p.val dest.buf.val with
    | some r =>
      if (s.relay r).inflight < 64 then
        (s.setRelay r { s.relay r with inflight := (s.relay r).inflight + 1 }).startSend t q z vc .started
      else s.awaitCredit t.val q z
    | none => if s.exports d p then s.awaitCredit t.val q z else s.startSend t q z vc .started
  | none =>
    if s.granted t.val dest then s.startSend t q z 5 .spilling
    else match s.takeSlot dest t.val false false with
      | some s => s.startSend t q z vc .started
      | none => s.awaitCredit t.val q z

/-- A multicast from tile memory starts: where no leaf branch holds its credits at a router, the source does (R153). -/
def State.startMcast (s : State) (t : TileId) (q : Nat) (z : Xfer) (p : PartId) (route : Nat) (dests : List Dest) : State :=
  match dests with
  | d :: _ =>
    if s.sourceCredit p.val route 6912 t.val then
      match s.takeSlot d t.val false true with
      | some s => s.startSend t q z 2 .started
      | none => s.awaitCredit t.val q z
    else s.startSend t q z 2 .started
  | [] => s.startSend t q z 2 .started

/-- Start one transfer, if it may start now. -/
def State.startXfer (s : State) (t : TileId) (q : Nat) (z : Xfer) (p : PartId) : State :=
  match z.kind with
  | .move src _ => (s.setPhase t.val q z.id .started).startMove t z src
  | .put _ route dest => s.startPut t q z p route dest
  | .mcast src route dests stamp =>
    if src.space = 4 then
      (s.setPhase t.val q z.id .started).modEngine src.first (fun x =>
        { x with reads := x.reads ++ [⟨t, z.id, p, stamp, src, route, dests⟩] })
    else s.startMcast t q z p route dests
  | .reduce .. => s.startSend t q z 3 .started
  | .signal route dest ctr =>
    let f : Flit :=
      { vc := 1, ty := .signal, part := p, route := route, dst := dest.val, src := t.val, head := true, tail := true,
        xid := z.id, dests := [⟨dest, 0, 0, some ctr⟩], len := 1, pktLen := 1 }
    (s.pushFlits t.val 4 1 [f]).setPhase t.val q z.id .started

/-! The bytes of a source in SRAM (R134, R157, R179, R205). -/

/-- The source descriptor of a transfer that is read from SRAM. -/
def Xfer.sramSrc (z : Xfer) : Option Desc :=
  let of (d : Desc) : Option Desc := if d.space = 0 then some d else none
  match z.kind with
  | .move a _ => of a
  | .put a .. => of a
  | .mcast a .. => of a
  | .reduce a .. => of a
  | .signal .. => none

/-- The next 128 bytes of a transfer's source (R134). -/
def Xfer.nextSegs (z : Xfer) (d : Desc) : List (Nat × Nat) := piecesOf d.segments z.sent (min 128 (z.len - z.sent))

/-- The header that the flits of a NET transfer carry (R135, R137). -/
def Xfer.head (z : Xfer) (t : TileId) (p : PartId) : Flit :=
  let f : Flit :=
    { vc := z.vc, ty := .data, part := p, route := z.route, dst := 0, src := t.val, head := true, tail := true,
      xid := z.id, q := z.q }
  match z.kind with
  | .put _ _ dest => { f with
      ty := if z.phase = .spilling then .spill else .data, dst := dest.tile.val, dests := [dest] }
  | .mcast _ _ dests _ => { f with dests := dests }
  | .reduce src _ dest tail => { f with
      ty := .reduce, dests := dest.toList, hdr := tail.map (fun h => { h with fp16 := src.fmt = 5 }) }
  | _ => f

/-- Elements of a reduce-put operand: a partial from a poisoned word is NaN (R179); whether one of them is not finite. -/
def reduceBytes (fmt : Nat) (bs : List Byte) (bad : List Bool) : List Byte × Bool :=
  match Fmt.ofCode fmt with
  | none => (bs, false)
  | some f =>
    let w := fmtWidth fmt / 8
    let es := (List.range (bs.length / w)).map (fun i =>
      if ((bad.drop (i * w)).take w).any id then f.nan else bytesAt bs (i * w) w)
    (es.flatMap (leBytes w), nonFinite (es.map f.decode))

/-- The next bytes of a transfer's source have been read: they go on their way. A flit of a reduce-put with an element
that is not finite, or of a poisoned tile, is poisoned, and sets the latch (R157, R205). -/
def State.sendStep (s : State) (t : TileId) (q : Nat) (z : Xfer) (d : Desc) : State :=
  let u := MemUnit.sram t
  let segs := z.nextSegs d
  let s := s.touchSegs u segs (if z.isMove then 2 else 3)
  let bs := s.gather u segs
  let bad := s.gatherBad u segs
  let s := s.modTile t.val (fun x => x.modXfer q z.id (fun w => { w with sent := w.sent + bs.length }))
  let f := z.head t (((s.tile t.val).part).getD 0)
  match z.kind with
  | .move _ dst => s.moveTo t z dst z.sent bs bad
  | .reduce .. =>
    let r := reduceBytes d.fmt bs bad
    let s := if r.2 then s.modTile t.val (fun x => { x with poison := true }) else s
    s.pushFlits t.val 4 3 (flitsFrom { f with poison := (s.tile t.val).poison } z.len z.sent r.1 [])
  | _ => s.pushFlits t.val 4 z.vc.val (flitsFrom f z.len z.sent bs bad)

/-! Completing (R116). -/

/-- Whether the last flit of a NET transfer has left the tile: at most the router's own buffer holds flits of it. -/
def State.leftTile (s : State) (t : Nat) (z : Xfer) (vc : Nat) : Bool :=
  !(((s.router t).buf 4 vc).drop 8).any (fun f => f.xid = z.id && f.src = t)

/-- Whether the last flit of a stack-sourced multicast has left its gate (R195). -/
def State.leftGate (s : State) (t : Nat) (z : Xfer) (stack : Nat) : Bool :=
  !s.routers.any (fun r =>
    (mget [] r.2.gateIn (bufKey (engineSide stack) 2)).any (fun f => f.edge = 80 + stack && f.xid = z.id && f.dst = t))

/-- Whether a transfer has reached its completion moment. -/
def State.xferDone (s : State) (t : Nat) (z : Xfer) : Bool :=
  match z.kind with
  | .move .. => z.len ≤ z.acked
  | .put .. => z.len ≤ z.sent && s.leftTile t z 1 && s.leftTile t z 4 && s.leftTile t z 5
  | .mcast src .. =>
    if src.space = 4 then z.phase = .answered && s.leftGate t z src.first else z.len ≤ z.sent && s.leftTile t z 2
  | .reduce .. => z.len ≤ z.sent && s.leftTile t z 3
  | .signal .. => s.leftTile t z 1

/-- The oldest transfer of its queue completes (R121, R116); a MOVE of which a packet was refused sends no signal (R146). -/
def State.completeXfer (s : State) (t : TileId) (q : Nat) (z : Xfer) : State :=
  if !s.xferDone t.val z then s
  else
    let s := s.modTile t.val (fun x =>
      let y := x.queue q
      x.setQueue q { y with xfers := y.xfers.filter (fun w => w.id != z.id), done := y.done + 1 })
    if z.refused then s else s.signal t.val z.sig

/-- An operation of the vector unit. -/
def OpKind.isVector : OpKind → Bool
  | .vectorLd .. | .vectorSt .. | .vector => true
  | _ => false

/-- An engine operation has reached its completion moment: every step has run, and the vector unit completes those of one
context in program order (R105, R116). -/
def Tile.opDone (x : Tile) (o : Op) : Bool :=
  o.ran && !(o.kind.isVector && x.ops.any (fun p => p.id < o.id && p.ctx = o.ctx && p.kind.isVector)) && match o.kind with
    | .move .. => false
    | _ => true

/-- An engine operation completes (R116); a tagged write ends (R82). -/
def State.completeOp (s : State) (t : TileId) (o : Op) : State :=
  let s := s.modTile t.val (fun x => { x with ops := x.ops.filter (fun p => p.id != o.id) })
  let s := match o.kind with
    | .drain _ d .. => s.endWrite t.val d.tag
    | .vectorSt _ _ _ (some r) => s.endWrite t.val r.tag
    | _ => s
  s.signal t.val o.sig

/-! Late operations (R123). -/

/-- No operation before it has its engine: it is the oldest that has not run, suspended ones of other contexts apart
(R123). -/
def Tile.atHead (x : Tile) (o : Op) : Bool :=
  match o.kind.engine with
  | none => true
  | some e => !x.ops.any (fun p => p.id < o.id && p.kind.engine = some e && !p.ran && match p.late with
      | .suspended _ => p.ctx = o.ctx
      | _ => true)

/-- The place of an engine among those that switch between contexts. -/
def OpKind.seat (k : OpKind) : Nat := k.engine.getD 9

/-- An engine switches between contexts: it does nothing before a core cycle (R123). -/
def Tile.switch (x : Tile) (k : OpKind) (core : Nat) : Tile := { x with switching := mset k.seat core x.switching }

/-- A late operation halts (class D), or its context yields (class U, counted in 0x7200:10); a pass keeps its generators. -/
def State.setLate (s : State) (t : TileId) (o : Op) (q : Nat) : State :=
  if s.obj 0x5100 (0x21 + q) t.val = 1 then
    ((s.forkPass t.val o).modTile t.val (fun x =>
      (x.modOp o.id (fun o => { o with late := .suspended q })).switch o.kind (s.coreOf t.val + 3))).bump 0x7200 0x10 t.val 1
  else s.modTile t.val (fun x => x.modOp o.id (fun o => { o with late := .halted q }))

/-- Its data has arrived: a MOVE appends its transfer, another operation goes on; one that was suspended takes its engine
back by a switch. -/
def State.unlate (s : State) (t : TileId) (o : Op) : State :=
  match o.kind with
  | .move a b route q =>
    s.modTile t.val (fun x =>
      let x := ([a, b].filter Desc.bound).foldl (fun (x : Tile) d => x.take d.boundQ 1)
        { x with ops := x.ops.filter (fun p => p.id != o.id) }
      let y := x.queue q
      x.setQueue q { y with xfers := y.xfers ++
        [{ id := o.id, ctx := o.ctx, q := q, kind := .move a b, len := a.length, sig := o.sig, route := route }] })
  | _ => s.modTile t.val (fun x =>
      let y := x.modOp o.id (fun o => { o with late := .no })
      match o.late with
      | .suspended _ => y.switch o.kind (s.coreOf t.val + 2)
      | _ => y)

/-- The check of an operation in a core cycle (R123): before its next vector or row, or before it starts. A suspended one goes
on with SUSPENDED_CONTEXT_RESUME. -/
def State.checkOp (s : State) (t : TileId) (o : Op) : State :=
  let x := s.tile t.val
  let moves : Bool := match o.kind with
    | .move .. => true
    | _ => false
  if o.ran && !moves || !x.atHead o then s
  else match o.late, x.lateOn o with
    | .suspended _, _ => s
    | .no, none => if moves then s.unlate t o else s
    | .no, some q => s.setLate t o q
    | .halted _, none => s.unlate t o
    | .halted _, some q => if s.obj 0x5100 (0x21 + q) t.val = 1 then s.setLate t o q else s

def State.checkOps (s : State) (t : TileId) : State := (s.tile t.val).ops.foldl (fun s o => s.checkOp t o) s

/-! SRAM banks (R107, R108). -/

/-- A step of a pass or a drain is held back (R101): a clearing pass until the drains issued before it have read the entry, a
trailing drain until its pass has added to the entry. -/
def Tile.heldBack (x : Tile) (o : Op) : Bool :=
  match o.kind with
  | .stream a _ p base .. =>
    p.clear && x.ops.any (fun q => q.id < o.id && match q.kind with
      | .drain b d _ _ => a = b && d.base + q.pos ≤ base + o.pos && base + o.pos < d.base + d.count
      | _ => false)
  | .drain _ d (some pass) _ =>
    x.ops.any (fun q => q.id = pass && match q.kind with
      | .stream _ _ _ base n _ _ => base + q.pos ≤ d.base + o.pos && d.base + o.pos < base + n
      | _ => false)
  | _ => false

/-- The next step of an operation can run in this core cycle. -/
def Tile.runs (x : Tile) (core : Nat) (o : Op) : Bool :=
  !o.ran && !o.isLate && x.atHead o && !x.heldBack o && (x.lateOn o).isNone && mget 0 x.switching o.kind.seat ≤ core

/-- The accesses of a core cycle: those that wait, and the next of each operation and transfer that has none waiting. -/
def Tile.requests (x : Tile) (core : Nat) : List Access :=
  let ask (u : AccUse) (write : Bool) (segs : List (Nat × Nat)) : List Access :=
    if x.accs.any (fun a => a.use = u) then [] else [⟨u, banksOf write segs, 0⟩]
  x.accs ++ (x.ops.filter (x.runs core)).flatMap (fun o => ask (.op o.id) o.kind.writes (o.kind.segs o.pos))
    ++ x.queues.flatMap (fun q => q.2.xfers.flatMap (fun z => match z.sramSrc with
      | some d => if z.phase != .waiting && z.sent < z.len then ask (.send z.id) false (z.nextSegs d) else []
      | none => []))

/-- Place of a requester in the priority order (R107). -/
def OpKind.bankClass : OpKind → Nat
  | .stream .. => 2
  | .drain .. => 3
  | .load .. => 4
  | _ => 5

def Tile.classOf (x : Tile) (a : Access) : Nat :=
  match a.use with
  | .write true .. => 1
  | .op id => ((x.ops.find? (fun o => o.id = id)).map (fun o => o.kind.bankClass)).getD 5
  | _ => 6

/-- The context whose operation or transfer an access is for. -/
def Tile.ctxOf (x : Tile) (a : Access) : Option Nat :=
  match a.use with
  | .op id => (x.ops.find? (fun o => o.id = id)).map (·.ctx.val)
  | .send id => (x.xfer? id).map (·.2.ctx.val)
  | .write false _ _ _ (.ack _ id) => (x.xfer? id).map (·.2.ctx.val)
  | _ => none

/-- Order of a bank: refused in 8 cycles before all others, then the priority, then, within one class, the access that came
first (R107 gives no order inside a class: the model's choice; log entry 73). -/
def Tile.rank (x : Tile) (a : Access) (i : Nat) : Nat :=
  (if 8 ≤ a.refused then 0 else 1) * 2 ^ 40 + x.classOf a * 2 ^ 32 + i

/-- The banks that access i is granted in a core cycle. -/
def Tile.grants (x : Tile) (as : List Access) (i : Nat) : List Nat :=
  match as[i]? with
  | none => []
  | some a => (a.banks.eraseDups).filter (fun b =>
      (List.range as.length).all (fun j => match as[j]? with
        | some c => i = j || !c.banks.contains b || x.rank a i < x.rank c j
        | none => true))

/-- An access after a core cycle: the banks that have still to serve it. -/
def Access.after (a : Access) (granted : List Nat) : Access :=
  let left := granted.foldl (fun l b => l.erase b) a.banks
  { a with banks := left, refused := if granted.length < a.banks.eraseDups.length then a.refused + 1 else 0 }

/-- The accesses of a core cycle after it: each bank serves one requester. -/
def Tile.arbitrate (x : Tile) (core : Nat) : List Access :=
  let as := x.requests core
  (List.range as.length).filterMap (fun i => as[i]?.map (fun a => a.after (x.grants as i)))

/-- Bytes that have been written are in place. -/
def State.afterWrite (s : State) (t : TileId) (n : Nat) : After → State
  | .ack u id => s.ackXfer u id n false
  | .land buf slot => s.modTile t.val (fun x =>
      let y := x.slot buf slot
      x.setSlot buf slot { y with got := y.got + n })
  | .refill buf slot =>
    let y := (s.tile t.val).slot buf slot
    let s := s.modTile t.val (fun x => x.setSlot buf slot { y with got := y.got + n })
    if y.got + n < y.len then s else s.refilled t buf slot

/-- The next step of an operation. -/
def State.opStep (s : State) (t : TileId) (o : Op) : State :=
  match o.kind with
  | .load a d b => s.loadStep t o a d b
  | .stream a d p base _ w b => s.streamStep t o a d p base w b
  | .drain a d pass part => s.drainStep t o a d pass part
  | .vectorLd v w40 d => s.ldStep t o v (if w40 then .w40 else .a32) d
  | .vectorSt d bs ms _ => s.stStep t o d bs ms
  | .vector => s
  | .move .. => s

/-- The next 128 bytes of a remote read of SRAM have been read, and go back on VC5 (R137). -/
def State.replyStep (s : State) (v : TileId) (src id off pos : Nat) (segs : List (Nat × Nat)) : State :=
  let u := MemUnit.sram v
  let n := (segs.map (·.2)).sum
  let now := piecesOf segs pos 128
  let s := s.touchSegs u now 2
  let f : Flit :=
    { vc := 5, ty := .response, part := ((s.tile v.val).part).getD 0, route := 0, dst := src, src := v.val, xid := id,
      addr := some (0, []), head := true, tail := true }
  let fs := (flitsFrom f (off + n) (off + pos) (s.gather u now) (s.gatherBad u now)).map (fun g =>
    { g with head := pos = 0, tail := n ≤ pos + 128, len := 1, pktLen := (n + 127) / 128 })
  let s := s.pushFlits v.val 4 5 fs
  if n ≤ pos + 128 then s
  else s.modTile v.val (fun x => x.addAccess (.reply src id off (pos + 128) segs) (piecesOf segs (pos + 128) 128))

/-- What an access does once every bank has served it (R108). -/
def State.serveAccess (s : State) (t : TileId) (a : Access) : State :=
  match a.use with
  | .op id => match (s.tile t.val).ops.find? (fun o => o.id = id) with
    | some o => s.opStep t o
    | none => s
  | .send id => match (s.tile t.val).xfer? id with
    | some (q, z) => match z.sramSrc with
      | some d => s.sendStep t q z d
      | none => s
    | none => s
  | .write _ segs bs bad done => (s.scatter (.sram t) segs bs bad).afterWrite t bs.length done
  | .reply src id off pos segs => s.replyStep t src id off pos segs

/-- One core cycle of the SRAM of a tile: accesses that every bank has served take effect, the others retry (R107, R108). -/
def State.sramCycle (s : State) (t : TileId) : State :=
  let as := (s.tile t.val).arbitrate (s.coreOf t.val)
  if as = [] then s
  else
    let s := s.modTile t.val (fun x => { x with accs := as.filter (fun a => a.banks != []) })
    (as.filter (fun a => a.banks = [])).foldl (fun s a => s.serveAccess t a) s

/-- Contexts an operation of which a bank has refused in the core cycle that has ended (R107). -/
def Tile.refusedCtxs (x : Tile) : List Nat := ((x.accs.filter (fun a => a.refused != 0)).filterMap x.ctxOf).eraseDups

/-! Landing slots and spills (R127, R129, R130). -/

/-- Free ranges of an area, past a cursor, between the ranges in use. -/
def gapsOf (size : Nat) : Nat → Map Nat → List (Nat × Nat)
  | c, [] => if c < size then [(c, size - c)] else []
  | c, (a, l) :: r => (if c < a then [(c, a - c)] else []) ++ gapsOf size (max c (a + l)) r

/-- The first n bytes of some ranges. -/
def firstBytes : List (Nat × Nat) → Nat → List (Nat × Nat)
  | [], _ => []
  | (a, l) :: r, n => if n = 0 then [] else (a, min l n) :: firstBytes r (n - min l n)

/-- Room for a spilled transfer in a tile's overflow area: the lowest free bytes of it, if enough are left (R130; where
in the area it lies is the model's choice, log entry 11). -/
def State.overRoom (s : State) (t n : Nat) : Option (List (Nat × Nat)) :=
  let used : Map Nat := ((s.tile t).spilled.flatMap (·.segs)).foldl (fun m g => mset g.1 g.2 m) []
  let free := gapsOf (s.obj 0x5100 0x43 t) 0 used
  if (free.map (·.2)).sum < n then none else some (firstBytes free n)

/-- Ranges of the vault that hold a spilled transfer of a tile. -/
def State.overSegs (s : State) (t : Nat) (segs : List (Nat × Nat)) : List (Nat × Nat) :=
  segs.map (fun g => (s.obj 0x5100 0x42 t + g.1, g.2))

/-- A request of a tile for its overflow area in its partner's vault: on VC5 (R130). -/
def State.overFlit (s : State) (t : TileId) (v : Nat) (ty : PktType) (segs : List (Nat × Nat)) : Flit :=
  { vc := 5, ty := ty, part := ((s.tile t.val).part).getD 0, route := 0, dst := v, src := t.val, head := true, tail := true,
    len := (segs.map (·.2)).sum, pktLen := 1, addr := some (2, segs) }

/-- Move the oldest spilled transfer of a buffer toward an open slot (R129): the vault is read for it. -/
def State.refill (s : State) (t : TileId) (buf slot : Nat) (p : Spilled) : State :=
  let v := s.overVault t.val
  let s := s.modTile t.val (fun x =>
    { x.setSlot buf slot { x.slot buf slot with st := .taken, got := 0, len := p.len, ctr := p.ctr } with
      spilled := x.spilled.map (fun q => if q = p then { q with moving := true, slot := slot } else q) })
  let segs := s.overSegs t.val p.segs
  if v = t.val then s.vaultAsk v ⟨true, true, .refill t.val buf slot, 0, p.len, segs, 0, [], []⟩
  else s.pushFlits t.val 4 5
    [{ s.overFlit t v .readReq segs with dests := [⟨Fin.ofNat 6912 v, Fin.ofNat 16 buf, Fin.ofNat 64 slot, none⟩] }]

/-- FREE of a slot (R127). -/
def State.freeSlot (s : State) (t : TileId) (buf slot : Nat) : State :=
  let x := s.tile t.val
  if (x.slot buf slot).st != .filled then s.bump 0x7200 0x15 t.val 1
  else match x.spilled.find? (fun p => p.buf = buf && !p.moving) with
    | some p => s.refill t buf slot p
    | none => s.returnCredit t.val buf slot

end Sys2Proof.Machine
end

