-- ==== Sys2Proof/Machine/Stop.lean ====
section
/-! DEFINITION. What stops a partition and what is told of it: packets of this module (R305–R308), ring responses
(R278, R280), completions and notices (R385–R388), pauses (R276), the partition stop (R274) and the job stop of a
link failure (R317). -/
namespace Sys2Proof.Machine

/-! Trace points (R397, R411): their data bytes are not laid down, so they are free bytes (log entry 5). -/

/-- A trace record whose first data bytes are known. -/
def State.tracePointOf (s : State) (kind src : Nat) (step : BitVec 32) (bs : List Byte) : State :=
  if s.traces kind then
    let d := s.drawBytes (48 - bs.length)
    d.2.traceOut kind src step (bs ++ d.1)
  else s

def State.tracePoint (s : State) (kind src : Nat) (step : BitVec 32) : State := s.tracePointOf kind src step []

/-- A partition enters a state (R273, R411 kind 1). -/
def State.toPstate (s : State) (p v : Nat) : State := (s.setPstate p v).tracePoint 1 p 0

/-! Routing between modules (R305–R308). -/

inductive LinkRoute where
  | noRoute
  | self
  | out (p b : Nat) (layer : Bool)
  | down (p b : Nat)
  deriving DecidableEq, Repr

def State.tableEntry (s : State) (inst module : Nat) : BitVec 32 := mget 0 s.tables (inst * 16384 + module)

/-- Primary and alternate routes of an entry: valid, port, sub-port, VC offset (R306). -/
def entryRoutes (e : Nat) : List (Bool × Nat × Nat × Bool) :=
  [(bitOf e 0, e / 2 % 8, e / 16 % 8, bitOf e 7), (bitOf e 8, e / 2 ^ 9 % 8, e / 2 ^ 12 % 8, bitOf e 15),
   (bitOf e 16, e / 2 ^ 17 % 8, e / 2 ^ 20 % 8, bitOf e 23)]

def State.routeUsable (s : State) (r : Bool × Nat × Nat × Bool) : Bool :=
  r.1 && (r.2.1 = 6 || (r.2.1 < 6 && (s.sub r.2.1 r.2.2.1).takes))

def routeTo (k : PktHdr) (r : Bool × Nat × Nat × Bool) : LinkRoute :=
  if r.2.1 = 6 then .self else .out r.2.1 r.2.2.1 (k.vc.val != 0 && (k.layer || r.2.2.2))

/-- Route of a packet by a table: VC1–VC5 take the primary route only; VC0 takes the alternates in turn (R307). -/
def State.linkRoute (s : State) (inst : Nat) (k : PktHdr) : LinkRoute :=
  let e := (s.tableEntry inst k.dst.toNat).toNat
  match entryRoutes e with
  | r :: alts =>
    if !r.1 || r.2.1 = 7 then .noRoute
    else if s.routeUsable r then routeTo k r
    else if k.vc.val = 0 then
      match alts.find? s.routeUsable with
      | some a => routeTo k a
      | none => .down r.2.1 r.2.2.1
    else .down r.2.1 r.2.2.1
  | [] => .noRoute

/-- The host sub-port (R311): named by the protection set-up, on a port of split 3 in class RCK. -/
def State.hostSub (s : State) : Option (Nat × Nat) :=
  match namedSub (s.obj 0x3010 1 0) with
  | some (p, b) => if s.obj 0x6000 3 p = 3 && s.obj 0x6000 2 p = 2 then some (p, b) else none
  | none => none

/-! Far addresses (R186). -/

def farModule (a : Nat) : Nat := a / 2 ^ 50
def farIsHost (a : Nat) : Bool := bitOf a 49
def farStack (a : Nat) : Nat := a / 2 ^ 44 % 32
def farZeros (a : Nat) : Bool := a / 2 ^ 37 % 128 = 0
def farByte (a : Nat) : Nat := a % 2 ^ 37
def farHostOffset (a : Nat) : Nat := a % 2 ^ 49

/-- A packet of a job that met a down sub-port (R317): job, port, sub-port and the cause of E7040. -/
abbrev Failure := Nat × Nat × Nat × Nat

/-- The host sub-port to which the bridge forwards a far request of a module: below the size of the host window (R313). -/
def State.bridgeFar (s : State) (a : Nat) (fromHost : Bool) : Option (Nat × Nat) :=
  s.hostSub.filter (fun x => !fromHost && farHostOffset a < s.obj 0x6010 5 x.1)

/-- A packet of a job that meets a down sub-port (R317). -/
def jobFailure (job : BitVec 32) (p b : Nat) : List Failure := if job = 0 then [] else [(job.toNat, p, b, 5)]

/-- A packet that ends at this module and goes to the host leaves by the host sub-port (R312). -/
def State.toHostOutF (s : State) (k : Pkt) : State × List Failure :=
  if k.hdr.toHost then
    match s.hostSub with
    | some (p, b) => if (s.sub p b).takes then (s.sendOn p b k, []) else (s.bump 0x7500 0xB p 1, jobFailure k.hdr.job p b)
    | none => (s, [])
  else (s, [])

/-- A packet of this module that ends at it: a far request of an own engine to the host is forwarded by the bridge, or refused
(R313). -/
def State.selfOut (s : State) (k : Pkt) : State × List Failure :=
  let a := bytesAt k.xf 0 8
  if (k.hdr.ty = 7 || k.hdr.ty = 8) && farIsHost a then
    match s.bridgeFar a false with
    | some (p, b) =>
      if (s.sub p b).takes then (s.sendOn p b { k with hdr := { k.hdr with toHost := true } }, [])
      else (s.bump 0x7500 0xB p 1, jobFailure k.hdr.job p b)
    | none => (s.bump 0x7500 0xB 0 1, [])
  else s.toHostOutF k

/-- Send a packet that originates here by the local table; one that a quiescing port does not take is held before the
lookup (R310). -/
def State.sendLocalF (s : State) (k : Pkt) : State × List Failure :=
  match s.linkRoute 6 k.hdr with
  | .out p b l => (if s.holdsNew p k.hdr then s.holdPkt p 6 k
      else s.sendOn p b { k with hdr := { k.hdr with layer := l } }, [])
  | .self => s.selfOut k
  | .noRoute => (s.bump 0x7500 0xB 0 1, [])
  | .down p b => (s.bump 0x7500 0xB p 1, jobFailure k.hdr.job p b)

/-! Ring responses. -/

/-- A type-11 packet of a request: its transfer fields hold the request ID, request ring, status, total length and
offset (R279). -/
def State.ringPkt (s : State) (p : Nat) (r : Request) (status total off : Nat) (data : List Byte) : Pkt :=
  let h : PktHdr :=
    { vc := 4, layer := false, ty := 11, slots := if data.length ≤ 64 then 0 else (data.length + 127) / 128,
      dst := r.sender, src := s.moduleId, job := BitVec.ofNat 32 (s.obj 0x2102 (p + 1) 0),
      fromHost := r.fromHost, toHost := r.fromHost }
  ⟨h, leBytes 8 r.id.toNat ++ leBytes 1 r.ring ++ leBytes 1 status ++ leBytes 4 total ++ leBytes 4 off, data⟩

/-- A status-only response (R278). -/
def State.statusReplyF (s : State) (p : Nat) (r : Request) (status : Nat) : State × List Failure :=
  let x := s.sendLocalF (s.ringPkt p r status 0 0 [])
  (x.1.bump 0x7500 0x11 r.port.val 1, x.2)

/-- Answer every outstanding request of a partition with one status (R280, R285). -/
def State.answerAllF (s : State) (p status : Nat) : State × List Failure :=
  let rs := (s.part p).requests
  let x := rs.foldl (fun (x : State × List Failure) r =>
    let y := x.1.statusReplyF p r status; (y.1, x.2 ++ y.2)) (s, [])
  let s := x.1.modPart p (fun x => { x with requests := [] })
  (if status = 2 then s.setObj 0x2110 8 0 (s.obj 0x2110 8 0 + rs.length) else s, x.2)

/-! Completions and notices (R385–R388). -/

def State.ringFree (s : State) : Nat := 65536 - (s.obj 0x2300 3 0 + 2 ^ 32 - s.obj 0x2300 4 0) % 2 ^ 32

def Completion.bytes (c : Completion) (tick : Nat) : List Byte :=
  leBytes 4 c.tag ++ leBytes 2 c.op ++ leBytes 1 c.part ++ leBytes 1 c.code ++ leBytes 2 c.tile ++ leBytes 2 0
    ++ leBytes 4 c.detail ++ leBytes 8 tick ++ leBytes 8 0

def State.isTraining (s : State) (p : Nat) : Bool := (s.part p).bin.any (·.training)

/-- Ask a training partition to pause (R276). -/
def State.askPause (s : State) (p : Nat) (c : PauseCause) : State :=
  s.modPart p (fun x => { x with pauses := c :: x.pauses.filter (· != c) })

/-- Withdraw a cause of a pause; without any cause the partition resumes. -/
def State.unpause (s : State) (p : Nat) (c : PauseCause) : State :=
  let s := s.modPart p (fun x => { x with pauses := x.pauses.filter (· != c) })
  if (s.part p).pauses = [] && s.pstate p = 5 then s.toPstate p 3 else s

/-- The completion ring becomes full (R388): E8030 once, and training partitions pause. -/
def State.checkFull (s : State) : State :=
  if s.ringFree ≤ 256 && !s.ringFull then
    let s := { s with ringFull := true }.raise 0x8030 srcModule 0 (leBytes 4 s.ringFree)
    (List.range 16).foldl (fun s p =>
      if s.isTraining p && (s.pstate p = 3 || s.pstate p = 5) then s.askPause p .ring else s) s
  else s

/-- Where the next entry of the completion ring goes (R173). -/
def State.completionAt (s : State) : Nat := 0x17F8100000 + s.obj 0x2300 3 0 % 65536 * 32

/-- SC0 writes one entry into the completion ring. -/
def State.writeCompletion (s : State) (c : Completion) : State :=
  let i := s.obj 0x2300 3 0
  let s := s.store (.stack 0) s.completionAt (c.bytes s.tick)
  ((s.setObj 0x2300 3 0 ((i + 1) % 2 ^ 32)).tracePoint 0 0 0).checkFull

/-- Write the waiting entries while there is room, oldest first; while the channel of the next entry retrains, its write and
the index that follows it wait (R184, R385). -/
def State.flushCompletions (s : State) : Nat → State
  | 0 => s
  | n + 1 =>
    match s.waiting with
    | [] => s
    | c :: r =>
      if (s.core 0).down || s.ringFree = 0 || 3 ≤ s.mstate
          || s.chanBusy 0 s.completionAt 32 then s
      else ({ s with waiting := r }.writeCompletion c).flushCompletions n

/-- A completion or notice: a notice replaces a waiting one of its kind and partition (R387). -/
def State.complete (s : State) (c : Completion) : State :=
  let w := if 0x8000 ≤ c.op && s.waiting.any (fun d => d.op = c.op && d.part = c.part)
    then s.waiting.map (fun d => if d.op = c.op && d.part = c.part then c else d) else s.waiting ++ [c]
  { s with waiting := w }.flushCompletions w.length

def State.notice (s : State) (op part detail : Nat) : State :=
  s.complete { op, tag := 0, part, code := 0, tile := 0xFFFF, detail }

/-! Commands taken from the ring (R385, R386). -/

/-- End of a timeout, in reference ticks; none without one. -/
def Taken.due (c : Taken) : Option Nat :=
  if (c.op = 7 || c.op = 9) && c.timeout != 0 then some (c.tick + c.timeout * msTicks) else none

/-- An entry whose opcode or partition does not exist. -/
def Taken.bad (c : Taken) : Bool := c.op = 0 || 9 < c.op || 15 < c.part

/-- A command that ends in the tick of its timeout is late (R128); one whose end waited keeps the bit of that end. -/
def State.lateBit (s : State) (c : Taken) (code : Nat) : Nat :=
  if c.ended.isNone && code != 5 && c.due = some s.tick then 128 else 0

/-- A command's entry is removed and its completion written. -/
def State.completeTaken (s : State) (c : Taken) (code tile : Nat) : State :=
  let late := s.lateBit c code
  ({ s with taken := s.taken.erase c }).complete
    { op := c.op, tag := c.tag, part := c.part, code := code + late, tile, detail := 0 }

/-- Bad entries of a partition whose earlier commands have all completed end with code 3 (R386; log entry 49). -/
def State.endBad (s : State) (p : Nat) : State :=
  ((s.taken.filter (fun c => c.part = p)).takeWhile (·.bad)).foldl (fun s c => s.completeTaken c 3 0xFFFF) s

/-- A command ends, and with it the bad entries that stood behind it. -/
def State.finish (s : State) (c : Taken) (code tile : Nat) : State := (s.completeTaken c code tile).endBad c.part

/-- The running pause command of a partition. -/
def State.pauseCmd (s : State) (p : Nat) : Option Taken :=
  s.taken.find? (fun c => c.part = p && c.op = 7 && c.running && c.ended.isNone)

/-- A dispatched pause command ends; while SC1 restarts, its completion waits for it (R393). -/
def State.endDispatched (s : State) (c : Taken) (code : Nat) : State :=
  if (s.core 1).down then
    { s with taken := s.taken.map (fun d => if d = c then { d with ended := some (code + s.lateBit c code) } else d) }
  else s.finish c code 0xFFFF

/-- A pause command that still runs when its partition stops or is reset names a state it cannot act on (R386). -/
def State.endPausing (s : State) (p : Nat) : State :=
  match s.pauseCmd p with
  | some c => s.endDispatched c 2
  | none => s

/-! The partition stop (R274). -/

def State.isLive (s : State) (p : Nat) : Bool := s.pstate p = 3 || s.pstate p = 4 || s.pstate p = 5

/-- Tiles that hold the program of a partition. -/
def State.tilesOf (s : State) (p : Nat) : List Nat :=
  (s.tiles.filter (fun e => e.2.part.any (fun q => q.val = p))).map (·.1)

/-- Stop every context of a tile, without a fault code (R131, R274); operations in progress are abandoned, and what they
have written stays. -/
def State.stopTile (s : State) (t : Nat) : State :=
  let s := (List.range 8).foldl (fun s c =>
    let y := (s.tile t).ctx c
    if y.run = .idle || y.run = .stopped then s
    else (s.stopCtx t c).modCtx t c (fun y => { y with fault := 0 })) s
  s.modTile t (fun x => x.abandonOps)

/-- Relays of a partition that has been stopped or reset: what the teacher has sent is discarded, and what is sent to the
student from here on (R215). -/
def State.releaseRelays (s : State) (p : Nat) : State :=
  { s with relays := s.relays.map (fun e =>
      let y := if e.2.teacher.any (fun x => x.1.val = p) then { e.2 with held := [], inflight := 0 } else e.2
      (e.1, { y with discards := y.discards || y.student.any (fun x => x.1.val = p) })) }

/-- Millrace reads of a partition held at the gate are discarded (R196). -/
def State.dropHeldReads (s : State) (p : Nat) : State :=
  { s with engines := s.engines.map (fun e =>
      (e.1, { e.2 with heldReads := e.2.heldReads.filter (fun h => h.part.val != p) })) }

/-- Inputs that a port reduction unit holds for a partition are discarded: its waits end (R204). -/
def State.dropInputs (s : State) (p : Nat) : State :=
  { s with ports := s.ports.map (fun e => (e.1, { e.2 with
      ins := e.2.ins.filter (fun r => r.part.val != p), gateIn := e.2.gateIn.filter (fun g => g.1.val != p) })) }

/-- Whether the running turnover names a partition. -/
def State.inTurnover (s : State) (p : Nat) : Bool := s.turn.any (fun t => t.entries.any (fun e => e.part.val = p))

/-- A partition stop; a notice is given unless a stop command did it (R387). Cold-scale mode ends (R260). -/
def State.stopPartF (s : State) (p cause : Nat) (tell : Bool) : State × List Failure :=
  if !s.isLive p then (s, [])
  else
    let s := (s.tilesOf p).foldl State.stopTile s
    let s := ((s.toPstate p 6).setObj 0x2103 (p + 1) 0 cause).setObj 0x8130 (p + 2) 0 0
    let s := ((s.dropHeldReads p).dropInputs p).releaseRelays p
    let s := (s.endPausing p).modPart p (fun x => { x with pauses := [], joined := [], cold := none })
    let x := s.answerAllF p (if s.inTurnover p then 2 else 4)
    (if tell then x.1.notice 0x8001 p cause else x.1, x.2)

/-! The job stop (R317, R318). -/

/-- Stop every live partition of a job. -/
def State.stopJobF (s : State) (job : Nat) (cause : Nat) : State × List Failure :=
  (List.range 16).foldl (fun (x : State × List Failure) p =>
    if x.1.isLive p && x.1.obj 0x2102 (p + 1) 0 = job then
      let y := x.1.stopPartF p cause true; (y.1, x.2 ++ y.2)
    else x) (s, [])

def upSubs (s : State) : List (Nat × Nat) :=
  ((List.range 6).flatMap (fun p => (List.range 8).map (fun b => (p, b)))).filter (fun x => (s.sub x.1 x.2).isUp)

/-- The way of a packet that originates here. -/
def State.ownWay (s : State) : Way := ⟨s.moduleId, 0⟩

/-- The way of a packet that this module passes on (R308). -/
def Way.on (w : Way) : Way := { w with hops := w.hops + 1 }

/-- A stop frame: a type-1 packet with the job, the origin and the cause (R318). -/
def stopPkt (w : Way) (job : Nat) (origin cause : Nat) : Pkt :=
  let h : PktHdr :=
    { vc := 0, layer := false, ty := 1, slots := 0, dst := 0x3FFF, src := w.src, job := BitVec.ofNat 32 job, hops := w.hops }
  ⟨h, leBytes 4 job ++ leBytes 2 origin ++ leBytes 1 cause, []⟩

/-- Send a stop frame on every up sub-port but one. -/
def State.floodStop (s : State) (w : Way) (job origin cause : Nat) (but : Option (Nat × Nat)) : State :=
  (upSubs s).foldl (fun s x => if but = some x then s else s.sendOn x.1 x.2 (stopPkt w job origin cause)) s

/-- Remember a (job, origin) pair for 10 s; the last 256 are kept. -/
def State.rememberStop (s : State) (job : Nat) (origin : BitVec 14) : State :=
  { s with stops := ((BitVec.ofNat 32 job, origin, s.tick) :: s.stops).take 256 }

/-- Link failures, one after another (R317). The answers of a partition that one of them stops may meet a down sub-port
in their turn; a job whose failure is in the list is told once. Each turn leaves at least one partition less to stop, so
that n of 32 is enough. -/
def State.failAll : Nat → State → List Failure → List Nat → State
  | 0, s, _, _ => s
  | _, s, [], _ => s
  | n + 1, s, (job, p, b, cause) :: r, told =>
    if told.contains job then s.failAll n r told
    else
      let me := s.moduleId
      let x := s.stopJobF job 5
      let s := x.1.raise 0x7040 (8 * p + b) 0 (leBytes 4 job ++ leBytes 1 cause ++ leBytes 2 me.toNat)
      ((s.rememberStop job me).floodStop s.ownWay job me.toNat cause none).failAll n (r ++ x.2) (job :: told)

/-- What follows the failures that an operation met. -/
def settleFailures (x : State × List Failure) : State := x.1.failAll 32 (x.2.eraseDups) []

def State.stopPart (s : State) (p cause : Nat) (tell : Bool) : State := settleFailures (s.stopPartF p cause tell)
def State.stopJob (s : State) (job : Nat) (cause : Nat) : State := settleFailures (s.stopJobF job cause)
def State.sendLocal (s : State) (k : Pkt) : State := settleFailures (s.sendLocalF k)
def State.statusReply (s : State) (p : Nat) (r : Request) (status : Nat) : State :=
  settleFailures (s.statusReplyF p r status)
def State.answerAll (s : State) (p status : Nat) : State := settleFailures (s.answerAllF p status)

/-- A link failure for a job (R317). -/
def State.linkFailure (s : State) (job p b cause : Nat) : State := settleFailures (s, [(job, p, b, cause)])

/-- Refuse a packet that came in on a port (R308); a refusal is never answered. -/
def State.refusePkt (s : State) (port code : Nat) (k : PktHdr) : State :=
  let s := s.bump 0x7500 0xB port 1
  if k.ty = 12 then s
  else
    let h : PktHdr :=
      { vc := 5, layer := false, ty := 12, slots := 0, dst := k.src, src := s.moduleId, job := k.job,
        fromHost := k.fromHost, toHost := k.fromHost }
    s.sendLocal ⟨h, [BitVec.ofNat 8 code], []⟩

/-- A packet for the host at its bridge, arrived by a link between modules: one whose "from host" flag is clear is refused
with code 3 (R312). -/
def State.bridgeOut (s : State) (port : Nat) (k : Pkt) : State :=
  if k.hdr.fromHost then settleFailures (s.toHostOutF { k with hdr := { k.hdr with hops := k.hdr.hops + 1 } })
  else s.refusePkt port 3 k.hdr

/-- E9040 for a packet of the host (R312, R422). -/
def State.hostRefused (s : State) (port sub idx osub inst ty : Nat) (cause : Nat) : State :=
  s.raise 0x9040 (8 * port + sub) 0
    (leBytes 1 cause ++ leBytes 2 idx ++ leBytes 1 osub ++ leBytes 2 inst ++ leBytes 1 ty)

/-- A packet that is not permitted: code 3, and E9040 where it comes from a host (R312). -/
def State.rejectPkt (s : State) (port sub : Nat) (h : PktHdr) : State :=
  let s := s.refusePkt port 3 h
  if h.fromHost then s.hostRefused port sub 0 0 0 h.ty.toNat 4 else s

/-- A tree packet or stop frame that the module does not take: one of the host, which R312 permits none of these types, or
one that has passed 63 modules (R308). -/
def State.turnAway (s : State) (port sub : Nat) (vc : Fin 6) (ty : BitVec 4) (job : Nat) (w : Way) : Option State :=
  let h : PktHdr :=
    { vc := vc, layer := false, ty := ty, slots := 0, dst := s.moduleId, src := w.src, job := BitVec.ofNat 32 job, hops := w.hops }
  if s.hostSub = some (port, sub) then some (s.rejectPkt port sub { h with src := s.moduleId, fromHost := true })
  else if 63 ≤ w.hops.toNat then some (s.refusePkt port 4 h)
  else none

/-- Job of a partition. -/
def State.jobOf (s : State) (p : Nat) : Nat := s.obj 0x2102 (p + 1) 0

/-- Jobs whose route plans name a sub-port (R316, R442). -/
def State.jobsOn (s : State) (p b : Nat) : List Nat :=
  (((List.range 16).filter (fun q => 2 ≤ s.pstate q && (s.part q).bin.any (fun x => x.job.any (fun j =>
    j.subports.any (fun y => y.1.val = p && y.2.val = b))))).map (fun q => s.obj 0x2102 (q + 1) 0)).eraseDups

end Sys2Proof.Machine
end

