-- ==== Sys2Proof/Machine/Move.lean ====
section
/-! DEFINITION. MOVE and NET operations (R117, R443) and the events of a tile: completions, starts, deliveries,
credits, spills, timeouts and remote reads. -/
namespace Sys2Proof.Machine

/-! MOVE (R117, R44). -/

/-- The W40 case of R52. -/
def moveW40 (a b : Desc) : Bool := (a.fmt = 8 || b.fmt = 8) && (a.space != 0 || b.space != 0)

/-- Transfer queue that an operation of a context names (R121). -/
def queueOf (c : CtxId) (h : Hdr) : Nat := 4 * c.val + h.unit.toNat % 4

/-- R117, R121, R123. -/
def execMoveCopy (t : TileId) (c : CtxId) (h : Hdr) (src : BitVec 32) (dst : MoveDst) (ups : List Upset) (s : State) :
    Host.Outcome State Fault Refusal :=
  done ((s.upset ups).issue t c (2, 0) h noLow (fun s => s.withDesc t c src.toNat (fun s a =>
    s.withDesc t c dst.desc.toNat (fun s b =>
      if s.moveFault t.val a false || s.moveFault t.val b true || moveW40 a b then s.fault t.val c.val 1
      else if 64 ≤ ((s.tile t.val).queue (queueOf c h)).notStarted then s.hold t.val c.val (.space (queueOf c h))
      else if [a, b].any (fun d => d.bound && (s.tile t.val).ready d.boundQ = 0) then
        (s.addOp t.val c (.move a b dst.route.val (queueOf c h)) (sigOf h)).advance t.val c.val
      else
        (s.modTile t.val (fun x => ([a, b].filter Desc.bound).foldl (fun (x : Tile) d => x.take d.boundQ 1) x)).append
          t c h (.move a b) a.length dst.route.val))))

/-! NET (R117, R443). -/

/-- A destination fails the issuing tile's check (R443): its tile is none of the partition's, or does not declare the landing
buffer with that slot and size. -/
def State.destFault (s : State) (t : Nat) (d : Dest) (len : Nat) : Bool :=
  s.tilePart d.tile.val != s.tilePart t || !s.landingFits d.tile.val d.buf.val d.slot.val len

/-- The path of a route from a tile ends at an edge gate. -/
def State.endsAtGate (s : State) (p route vc t : Nat) : Bool := (s.gateEnd p route vc t).isSome

/-- A guard is open on a tile, and in effect (R263). -/
def Tile.guarded (x : Tile) : Bool := x.guard.any (·.on)

/-- A PUT toward a relay faults under a guard (R263), and beyond the 4 KiB that one transfer of a relay holds (R214; no
rule names the outcome, log entry 26). -/
def State.relayFault (s : State) (t d len : Nat) : Bool :=
  (s.tile t).part.any (s.exports d) && ((s.tile t).guarded || 4096 < len)

/-- R443. -/
def execNetPut (t : TileId) (c : CtxId) (h : Hdr) (src : BitVec 32) (route : Fin 512) (dest : Dest) (s : State) :
    Host.Outcome State Fault Refusal :=
  done (s.issue t c (3, 0) h noLow (fun s => s.withDesc t c src.toNat (fun s d =>
    let bad : Bool := match s.gateEnd ((s.tilePart t.val).getD 0) route.val (s.putVc t.val (queueOf c h)).val t.val with
      | some (_, side) => s.relayFault t.val side d.length
      | none => s.destFault t.val dest d.length
    if s.netFault t.val d false || bad then s.fault t.val c.val 1
    else s.append t c h (.put d route.val dest) d.length route.val)))

/-- R195, R443. -/
def execNetMcast (t : TileId) (c : CtxId) (h : Hdr) (src : BitVec 32) (route : Fin 512) (dests : List Dest)
    (s : State) : Host.Outcome State Fault Refusal :=
  done (s.issue t c (3, 1) h noLow (fun s => s.withDesc t c src.toNat (fun s d =>
    if s.netFault t.val d true || dests.any (fun x => s.destFault t.val x d.length) then s.fault t.val c.val 1
    else s.append t c h (.mcast d route.val dests (s.tile t.val).stamp) d.length route.val)))

/-- R50, R120, R156, R263. -/
def execNetReduce (t : TileId) (c : CtxId) (h : Hdr) (src : BitVec 32) (route : Fin 512) (dest : Option Dest)
    (tail : Option TailHdr) (s : State) : Host.Outcome State Fault Refusal :=
  done (s.issue t c (3, 2) h noLow (fun s => s.withDesc t c src.toNat (fun s d =>
    let p := (s.tilePart t.val).getD 0
    if s.netFault t.val d false || !(d.fmt = 5 || d.fmt = 7) || d.bs
        || ((s.tile t.val).guarded && s.endsAtGate p route.val 3 t.val) then s.fault t.val c.val 1
    else s.append t c h (.reduce d route.val dest tail) d.length route.val)))

/-- R125. -/
def execNetSignal (t : TileId) (c : CtxId) (h : Hdr) (route : Fin 512) (dest : TileId) (ctr : Fin 64) (s : State) :
    Host.Outcome State Fault Refusal :=
  done (s.issue t c (3, 3) h noLow (fun s => s.append t c h (.signal route.val dest ctr) 0 route.val))

/-! Events of a tile. -/

/-- The oldest transfer of each queue. -/
def Tile.heads (x : Tile) : List (Nat × Xfer) := x.queues.filterMap (fun q => q.2.xfers.head?.map (fun z => (q.1, z)))

/-- R116: an engine operation, or the oldest transfer of its queue, reaches its completion moment. -/
def execOperationComplete (t : TileId) (id : Nat) (s : State) : Host.Outcome State Fault Refusal :=
  done (
    if !(s.region (regionOf t.val)).clocked || s.inReset t.val then s
    else match (s.tile t.val).ops.find? (fun o => o.id = id) with
      | some o => if (s.tile t.val).opDone o then s.completeOp t o else s
      | none => match (s.tile t.val).heads.find? (fun z => z.2.id = id && z.2.phase != .waiting) with
        | some (q, z) => s.completeXfer t q z
        | none => s)

/-- R123: a suspended operation whose data has arrived takes back an engine. -/
def execSuspendedContextResume (t : TileId) (c : CtxId) (s : State) : Host.Outcome State Fault Refusal :=
  done (
    if !s.executes t.val then s
    else match (s.tile t.val).lateOp c.val with
      | some o => match o.late, (s.tile t.val).lateOn o with
        | .suspended _, none => s.unlate t o
        | _, _ => s
      | none => s)

/-- Remove n counter messages of a counter from the inbox. -/
def dropCounterMsgs (c : Fin 64) : Nat → List Msg → List Msg
  | 0, l => l
  | _, [] => []
  | n + 1, m :: r => if m = .counter c then dropCounterMsgs c n r else m :: dropCounterMsgs c (n + 1) r

/-- R125: increments cross into CORE, and are applied in the first core cycle that begins after it, before any condition
is evaluated; with the compute clock stopped none begins (R103). -/
def execCounterIncrementArrival (t : TileId) (ctr : Fin 64) (n : BitVec 32) (s : State) :
    Host.Outcome State Fault Refusal :=
  done (
    if s.inReset t.val then s
    else (s.modTile t.val (fun x => { x with inbox := dropCounterMsgs ctr n.toNat x.inbox })).addCounter t.val ctr n)

/-- R128: the timeout of a wait has expired in an earlier core cycle, whose arrivals have been applied before. -/
def execSyncTimeout (t : TileId) (c : CtxId) (s : State) : Host.Outcome State Fault Refusal :=
  done (
    let y := (s.tile t.val).ctx c.val
    match y.run with
    | .waiting w since =>
      let timed := match w with
        | .counter .. => true | .sem _ => true | .fence _ => true | .verdict _ => true
        | _ => false
      if timed && expired since (s.coreOf t.val) y.tmo.toNat && (s.region (regionOf t.val)).clocked then
        s.modTile t.val (fun x =>
          { x.modCtx c.val (fun y => endWait y 1) with semq := x.semq.filter (fun e => e.2 != c.val) })
      else s
    | _ => s)

/-- R121: the first waiting transfer starts if its queue's limit allows. -/
def execQueueTransferStart (t : TileId) (q : Fin 32) (s : State) : Host.Outcome State Fault Refusal :=
  done (
    let x := s.tile t.val
    let xs := (x.queue q.val).xfers
    match xs.find? (fun z => z.phase = .waiting), x.part with
    | some z, some p =>
      if s.executes t.val && !(x.ctx z.ctx.val).isStopped
          && decide ((xs.filter (fun z => z.phase != .waiting)).length < s.tileObj 0x5100 (q.val + 1) t.val)
      then s.startXfer t q.val z p
      else s
    | _, _ => s)

/-- R127: a transfer is wholly in its slot; the destination counter increments. -/
def execLandingDelivery (t : TileId) (buf : Fin 16) (slot : Fin 64) (s : State) : Host.Outcome State Fault Refusal :=
  done (
    let x := s.tile t.val
    let y := x.slot buf.val slot.val
    if y.st = .filled || y.len = 0 || y.got < y.len then s
    else
      let s := s.setTile t.val (x.setSlot buf.val slot.val { y with st := .filled })
      match y.ctr with
      | some c => s.addCounter t.val c 1
      | none => s)

/-! Spills (R129, R130). -/

/-- A one-flit packet on VC0 between tiles of a partition: a spill request (0) or grant (1) for a landing buffer (R137). -/
def spillFlit (p : PartId) (src : Nat) (d : Dest) (kind q dst : Nat) : Flit :=
  { vc := 0, ty := .control, part := p, route := 0, dst := dst, src := src, head := true, tail := true, dests := [d],
    len := 1, pktLen := 1, q := q, data := [BitVec.ofNat 8 kind] }

/-- R129: a PUT that has waited for a slot credit for longer than the spill threshold asks its receiver. -/
def execSpillRequest (t : TileId) (q : Fin 32) (s : State) : Host.Outcome State Fault Refusal :=
  done (
    let x := s.tile t.val
    match (x.queue q.val).xfers.find? (fun z => z.phase = .waiting), x.part with
    | some z, some p =>
      match z.kind, z.since with
      | .put _ route d, some n =>
        if decide (n + s.tileObj 0x5100 0x41 t.val < s.coreOf t.val) && !z.asked
            && !s.endsAtGate p.val route (s.putVc t.val q.val).val t.val then
          (s.setTile t.val (x.modXfer q.val z.id (fun z => { z with asked := true }))).pushFlits t.val 4 0
            [spillFlit p t.val d 0 q.val d.tile.val]
        else s
      | _, _ => s
    | _, _ => s)

/-- R129: the receiver grants; E3020 at the start of an episode. -/
def execSpillGrant (t : TileId) (buf : Fin 16) (src : TileId) (s : State) : Host.Outcome State Fault Refusal :=
  done (
    let x := s.tile t.val
    match x.inbox.find? (fun m => match m with
      | .spillRequest u _ b => u = src && b = buf.val
      | _ => false), x.part with
    | some m, some p =>
      if s.inReset t.val then s
      else
        let first := !x.episodes.any (fun e => e.1 = buf.val)
        let s := s.setTile t.val { x with
          inbox := x.inbox.erase m, episodes := if first then x.episodes ++ [(buf.val, false)] else x.episodes }
        let s := if first then s.raise 0x3020 t.val x.stamp (leBytes 1 buf.val ++ leBytes 2 src.val ++ [0]) else s
        s.pushFlits t.val 4 0 [spillFlit p t.val ⟨t, buf, 0, none⟩ 1 0 src.val]
    | _, _ => s)

/-- A spilled transfer that does not fit: its owner stops, and then the partition (R130). -/
def State.overflowFull (s : State) (t : TileId) (buf : Nat) (src : TileId) : State :=
  let s := match (s.tile t.val).landingOf buf with
    | some l => s.fault t.val l.owner.val 3
    | none => s
  let s := s.raise 0x3020 t.val (s.tile t.val).stamp (leBytes 1 buf ++ leBytes 2 src.val ++ [1])
  match s.tilePart t.val with
  | some p => s.stopPart p 8 true
  | none => s

/-- A spilled transfer is recorded, after all that arrived before it, and written into the overflow area, as a
request from the network (R110); where its slot is open, the oldest one of its buffer goes on into the slot (R129). -/
def State.recordSpill (s : State) (t : TileId) (i : SpillIn) (segs : List (Nat × Nat)) : State :=
  let d := i.dest
  let v := s.overVault t.val
  let s := s.modTile t.val (fun x =>
    { x with
      spilled := x.spilled ++ [⟨d.buf.val, d.slot.val, i.src.val, segs, i.len, d.ctr, false⟩],
      episodes := x.episodes.map (fun e => if e.1 = d.buf.val then (e.1, true) else e) })
  let area := s.overSegs t.val segs
  let s := if v = t.val then s.vaultAsk v ⟨false, false, .spill, 0, i.len, area, 0, i.data, i.bad⟩
    else s.pushFlits t.val 4 5 ((flitsFrom (s.overFlit t v .spill area) i.len 0 i.data i.bad).map (fun g =>
      { g with addr := some (2, piecesOf area g.off g.data.length) }))
  let st := ((s.tile t.val).slot d.buf.val d.slot.val).st
  if st = .avail || st = .returning then
    match (s.tile t.val).spilled.find? (fun p => p.buf = d.buf.val && !p.moving) with
    | some p => s.refill t d.buf.val d.slot.val p
    | none => s
  else s

/-- R129, R130: a spilled transfer that has come in whole goes into the overflow area. -/
def execSpilledTransferArrival (t src : TileId) (q : Fin 32) (s : State) : Host.Outcome State Fault Refusal :=
  done (
    match (s.tile t.val).spillIn.find? (fun i => i.src = src && i.q = q.val && decide (i.len ≤ i.data.length)) with
    | none => s
    | some i =>
      let s := s.modTile t.val (fun x => { x with spillIn := x.spillIn.erase i })
      match s.overRoom t.val i.len with
      | some segs => s.recordSpill t i segs
      | none => s.overflowFull t i.dest.buf.val src)

/-! Remote reads, refusals and credits. -/

/-- A remote read is served: from SRAM as its banks serve it, or by the vault interface in its turn (R107, R110). -/
def State.serveRemote (s : State) (v : TileId) (src id off space : Nat) (segs : List (Nat × Nat)) : State :=
  if space = 2 then s.vaultAsk v.val ⟨false, true, .move src id, off, (segs.map (·.2)).sum, segs, 0, [], []⟩
  else s.modTile v.val (fun x => x.addAccess (.reply src id off 0 segs) (piecesOf segs 0 128))

/-- R110, R137: a remote read request that has reached its target is answered on VC5; while the target's vault
interface retrains, one for its vault waits (R183). -/
def execRemoteReadRequest (src : TileId) (id : Nat) (s : State) : Host.Outcome State Fault Refusal :=
  done (
    let asks (m : Msg) : Bool := match m with
      | .readRequest u i _ _ _ => u = src && i = id
      | _ => false
    let found : Option (Nat × Msg) := s.tiles.findSome? (fun e => (e.2.inbox.find? asks).map (fun m => (e.1, m)))
    match found with
    | some (v, .readRequest u i off space segs) =>
      if space = 2 && s.vaultPass v then s
      else
        (s.modTile v (fun x => { x with inbox := x.inbox.erase (.readRequest u i off space segs) })).serveRemote
          (Fin.ofNat 6912 v) src.val id off space segs
    | _ => s)

/-- R146: the source counts a response and records it; bytes of a MOVE that it refuses are not written. -/
def execRefusalResponseReceive (t : TileId) (s : State) : Host.Outcome State Fault Refusal :=
  done (
    let x := s.tile t.val
    match x.inbox.find? (fun m => match m with
      | .refusal .. => true
      | _ => false) with
    | some (.refusal code route by' part xid n) =>
      (((s.setTile t.val { x with inbox := x.inbox.erase (.refusal code route by' part xid n) }).bump 0x7300 0xF t.val 1).setObj
        0x5300 8 t.val (code % 16 + route * 2 ^ 4 + by' * 2 ^ 13 + part * 2 ^ 26)).ackXfer t.val xid n true
    | _ => s)

/-- R127, R153: a slot credit has come back to its holder, and can be taken. -/
def execSlotCreditArrival (t : TileId) (buf : Fin 16) (slot : Fin 64) (s : State) : Host.Outcome State Fault Refusal :=
  done (
    let x := s.tile t.val
    let y := x.slot buf.val slot.val
    match y.holder with
    | none => s
    | some h =>
      let m := Msg.credit t buf.val slot.val
      let k := (t, buf.val, slot.val)
      let open' (s : State) : State := s.modTile t.val (fun x => x.setSlot buf.val slot.val {})
      if y.st != .returning then s
      else if y.beyond then
        if (s.router h).credits.contains k then
          open' (s.modRouter h (fun r => { r with credits := r.credits.erase k }))
        else s
      else if (s.tile h).inbox.contains m then open' (s.modTile h (fun x => { x with inbox := x.inbox.erase m }))
      else s)

end Sys2Proof.Machine
end

