-- ==== Sys2Proof/Machine/Ctrl.lean ====
section
/-! DEFINITION. SYNC operations (R113, R125–R128, R200), CTRL operations (R117, R192, R441) and the layer guard
(R261–R265). -/
namespace Sys2Proof.Machine

/-! SYNC. -/

/-- A context begins to wait; its condition is first evaluated at the end of this core cycle, after every increment that
arrives in it (R125, R128). -/
def State.beginWait (s : State) (t c : Nat) (w : Wait) : State :=
  s.modCtx t c (fun y => { y with run := .waiting w (s.coreOf t) })

/-- R125. -/
def execSyncWait (t : TileId) (c : CtxId) (h : Hdr) (ctr : Fin 64) (v : BitVec 32) (s : State) :
    Host.Outcome State Fault Refusal :=
  done (s.issueAt t c (4, 0) h (lowMod 6 ctr.val v) (fun s => s.beginWait t.val c.val (.counter ctr v)))

/-- R126. -/
def execSyncSemw (t : TileId) (c : CtxId) (h : Hdr) (m : Fin 16) (s : State) : Host.Outcome State Fault Refusal :=
  done (s.issueAt t c (4, 1) h noLow (fun s =>
    (s.beginWait t.val c.val (.sem m)).modTile t.val (fun x => { x with semq := x.semq ++ [(m.val, c.val)] })))

/-- R126. -/
def execSyncSemp (t : TileId) (c : CtxId) (h : Hdr) (m : Fin 16) (s : State) : Host.Outcome State Fault Refusal :=
  done (s.issueAt t c (4, 2) h noLow (fun s =>
    if (s.tile t.val).sem m.val = 0xFFFF then s.bump 0x7200 0x12 t.val 1
    else s.modTile t.val (fun x => x.setSem m.val (x.sem m.val + 1))))

/-- R125. -/
def execSyncCset (t : TileId) (c : CtxId) (h : Hdr) (ctr : Fin 64) (v : BitVec 32) (s : State) :
    Host.Outcome State Fault Refusal :=
  done (s.issueAt t c (4, 3) h (lowOp v) (fun s => s.modTile t.val (fun x => x.setCounter ctr.val v)))

/-- R125. -/
def execSyncCadd (t : TileId) (c : CtxId) (h : Hdr) (ctr : Fin 64) (v : BitVec 32) (s : State) :
    Host.Outcome State Fault Refusal :=
  done (s.issueAt t c (4, 4) h (lowOp v) (fun s => s.modTile t.val (fun x => x.setCounter ctr.val (x.counter ctr.val + v))))

/-- R113, R117. -/
def execSyncTmo (t : TileId) (c : CtxId) (h : Hdr) (v : BitVec 32) (s : State) : Host.Outcome State Fault Refusal :=
  done (s.issueAt t c (4, 5) h (lowOp v) (fun s => s.modCtx t.val c.val (fun y => { y with tmo := v })))

/-- R117: the queue is named in the unit field. -/
def execSyncFence (t : TileId) (c : CtxId) (h : Hdr) (s : State) : Host.Outcome State Fault Refusal :=
  done (s.issue t c (4, 6) h noLow (fun s =>
    ((s.beginWait t.val c.val (.fence (queueOf c h))).signal t.val (sigOf h)).advance t.val c.val))

/-- R127. -/
def execSyncFree (t : TileId) (c : CtxId) (h : Hdr) (buf : Fin 16) (slot : Fin 64) (s : State) :
    Host.Outcome State Fault Refusal :=
  done (s.issue t c (4, 7) h (lowFree buf slot) (fun s =>
    if ((s.tile t.val).landingOf buf.val).any (fun l => slot.val < l.slots) then
      ((s.freeSlot t buf.val slot.val).signal t.val (sigOf h)).advance t.val c.val
    else s.fault t.val c.val 2))

/-- R200. -/
def execSyncVwait (t : TileId) (c : CtxId) (h : Hdr) (stamp : BitVec 32) (s : State) :
    Host.Outcome State Fault Refusal :=
  done (s.issueAt t c (4, 8) h (lowOp stamp) (fun s => s.beginWait t.val c.val (.verdict stamp)))

/-! CTRL. -/

/-- A jump taken: it completes at issue, unless it faults (R441, R131). -/
def State.jump (s : State) (t c : Nat) (sig : Option (Fin 64)) (target : BitVec 32) : State :=
  if target.toNat < 8192 then (s.signal t sig).modCtx t c (fun y => { y with pc := target.toNat }) else s.fault t c 4

/-- R441. -/
def execCtrlJmp (t : TileId) (c : CtxId) (h : Hdr) (target : BitVec 32) (s : State) :
    Host.Outcome State Fault Refusal :=
  done (s.issue t c (5, 0) h noLow (fun s => s.jump t.val c.val (sigOf h) target))

/-- R441. -/
def execCtrlBr (t : TileId) (c : CtxId) (h : Hdr) (src : BrSrc) (cond : BrCond) (op : Opnd) (target : BitVec 32)
    (s : State) : Host.Outcome State Fault Refusal :=
  done (s.issue t c (5, 1) h noLow (fun s =>
    let y := (s.tile t.val).ctx c.val
    if brHolds cond (brSrcVal y src) (opndVal y op) then s.jump t.val c.val (sigOf h) target
    else (s.signal t.val (sigOf h)).advance t.val c.val))

/-- R117. -/
def execCtrlSset (t : TileId) (c : CtxId) (h : Hdr) (d : Fin 16) (v : BitVec 32) (s : State) :
    Host.Outcome State Fault Refusal :=
  done (s.issueAt t c (5, 2) h noLow (fun s => s.modCtx t.val c.val (fun y => y.setScalar d.val v)))

/-- R117, R441. -/
def execCtrlSadd (t : TileId) (c : CtxId) (h : Hdr) (d : Fin 16) (op : Opnd) (s : State) :
    Host.Outcome State Fault Refusal :=
  done (s.issueAt t c (5, 3) h noLow (fun s => s.modCtx t.val c.val (fun y => y.setScalar d.val (y.scalar d.val + opndVal y op))))

/-- R441. -/
def execCtrlScmp (t : TileId) (c : CtxId) (h : Hdr) (d a : Fin 16) (cond : BrCond) (op : Opnd) (s : State) :
    Host.Outcome State Fault Refusal :=
  done (s.issueAt t c (5, 4) h noLow (fun s => s.modCtx t.val c.val (fun y =>
    y.setScalar d.val (if brHolds cond (y.scalar a.val) (opndVal y op) then 1 else 0))))

/-- R117. -/
def execCtrlYield (t : TileId) (c : CtxId) (h : Hdr) (s : State) : Host.Outcome State Fault Refusal :=
  done (s.issueAt t c (5, 5) h noLow (fun s => s.modCtx t.val c.val (fun y => { y with yielded := true })))

/-- Clear the histogram counts of every slot (R82). -/
def clearHist (h : Map Hist) : Map Hist := h.map (fun e => (e.1, { e.2 with counts := [] }))

/-- The partition's step begun rises to a stamp; cold-scale mode may end (R216, R260). -/
def State.stepBegun (s : State) (p : Nat) (stamp : BitVec 32) : State :=
  let cur := BitVec.ofNat 32 (s.obj 0x8600 (0x11 + p) 0)
  if stampDiff stamp cur ≤ 0 then s
  else
    let s := s.setObj 0x8600 (0x11 + p) 0 stamp.toNat
    match (s.part p).cold with
    | some e =>
      if stamp = e && s.obj 0x8130 (p + 2) 0 = e.toNat then
        (s.setObj 0x8130 (p + 2) 0 0).raise 0x5040 p 0
          (leBytes 4 (s.part p).s0.toNat ++ leBytes 1 (e - (s.part p).s0).toNat ++ [1])
      else s
    | none => s

/-- The effect of a STEP marker (R192). -/
def State.stepMarker (s : State) (t : Nat) : State :=
  let n := (s.tile t).stamp + 1
  let s := s.modTile t (fun x => { x with stamp := n })
  let s := ([0, 1, 2].foldl (fun (s : State) a => s.forkPasses t a) s).reseed t n
  let s := s.modTile t (fun x => { x with
    hist := if s.obj 0x5200 8 t = 1 then clearHist x.hist else x.hist, poison := false, reported := [] })
  match s.tilePart t with
  | some p => s.stepBegun p n
  | none => s

/-- R192, R263, R276. -/
def execCtrlStep (t : TileId) (c : CtxId) (h : Hdr) (s : State) : Host.Outcome State Fault Refusal :=
  done (s.issue t c (5, 6) h noLow (fun s =>
    if (s.tile t.val).guarded then s.fault t.val c.val 1
    else if s.pausing t.val then s.hold t.val c.val .step
    else ((s.stepMarker t.val).signal t.val (sigOf h)).advance t.val c.val))

/-! The layer guard. -/

/-- R261. -/
def execGuardOpen (t : TileId) (c : CtxId) (h : Hdr) (compiled : Bool) (rsvd : BitVec 6) (route : Fin 512)
    (layer : BitVec 16) (s : State) : Host.Outcome State Fault Refusal :=
  done (s.issue t c (5, 7) h (lowGuard true compiled rsvd route layer) (fun s =>
    let x := s.tile t.val
    if rsvd != 0 || route.val = 511 || x.guard.isSome then s.fault t.val c.val 2
    else
      let g : Guard :=
        { ctx := c, level := 0, on := compiled || s.cold t.val || s.obj 0x8140 1 0 = 1,
          counters := x.counters, sems := x.sems, resume := (x.ctx c.val).pc + 1, route := route.val,
          layer := layer.toNat, mark := x.nextId }
      let s := s.setTile t.val ({ x with guard := some g, overflow := !g.on && x.overflow }.modCtx c.val (fun y => y.setScalar 13 0))
      (s.signal t.val (sigOf h)).advance t.val c.val))

/-- R261, R264. -/
def execGuardClose (t : TileId) (c : CtxId) (h : Hdr) (compiled : Bool) (rsvd : BitVec 6) (route : Fin 512)
    (layer : BitVec 16) (s : State) : Host.Outcome State Fault Refusal :=
  done (s.issue t c (5, 7) h (lowGuard false compiled rsvd route layer) (fun s =>
    let x := s.tile t.val
    match x.guard with
    | some g =>
      if rsvd != 0 || route.val = 511 || g.ctx != c then s.fault t.val c.val 2
      else if !g.on then
        ((s.setTile t.val { x with guard := none }).signal t.val (sigOf h)).advance t.val c.val
      else
        let s := s.setTile t.val ({ x with guard := some { g with closing := true, route := route.val } }.modCtx c.val
          (fun y => { y with run := .waiting .guard (s.coreOf t.val) }))
        (s.signal t.val (sigOf h)).advance t.val c.val
    | none => s.fault t.val c.val 2))

/-- R264: once the layer's transfers have completed, the vote goes out as one reduce-put flit. -/
def execGuardVoteSend (t : TileId) (s : State) : Host.Outcome State Fault Refusal :=
  done (
    let x := s.tile t.val
    match x.guard, x.part with
    | some g, some p =>
      if s.executes t.val && g.closing && !g.voted
          && !x.queues.any (fun q => q.2.xfers.any (fun z => g.mark ≤ z.id)) then
        let f : Flit :=
          { vc := 3, ty := .reduce, part := p, route := g.route, dst := t.val, src := t.val, poison := x.poison,
            head := true, tail := true, len := 128, pktLen := 1,
            data := leBytes 4 (if x.overflow then 0x3F800000 else 0) ++ List.replicate 124 0 }
        (s.setTile t.val { x with guard := some { g with voted := true } }).pushFlits t.val 4 3 [f]
      else s
    | _, _ => s)

/-- The guard tree's root: the tile at whose local output the tree ends (R264). -/
def State.isGuardRoot (s : State) (t p route : Nat) : Bool :=
  let e := (s.router t).entry p route
  entryOk e 3 && entryOuts e = [4]

/-- E5010 from the root of the tree (R264). -/
def State.tellGuard (s : State) (t : Nat) (g : Guard) (p level : Nat) : State :=
  if s.isGuardRoot t p g.route then
    s.raise 0x5010 t (s.tile t).stamp (leBytes 1 p ++ leBytes 2 g.layer ++ leBytes 1 level)
  else s

/-- R264: the sum that the root has sent arrives back at the tile. A sum that is neither +0 nor above it, the NaN of
mismatched packets (R158), counts as a set vote (the model's choice; log entry 74). -/
def execGuardVoteResult (t : TileId) (sum : BitVec 32) (s : State) : Host.Outcome State Fault Refusal :=
  done (
    let x := s.tile t.val
    match x.guard, x.part with
    | some g, some p =>
      if !(g.closing && g.voted && s.executes t.val && x.inbox.contains (.vote sum)) then s
      else
        let x := { x with inbox := x.inbox.erase (.vote sum) }
        let ready (f : Ctx → Ctx) (x : Tile) : Tile := x.modCtx g.ctx.val (fun y => f { y with run := .ready })
        if (Fmt.a32.decode sum.toNat).isZero then s.setTile t.val (ready id { x with guard := none })
        else if g.level < 2 then
          let g' : Guard := { g with level := g.level + 1, closing := false, voted := false }
          let s := s.setTile t.val (ready (fun y => { y.setScalar 13 (BitVec.ofNat 32 (g.level + 1)) with pc := g.resume })
            { x with guard := some g', overflow := false, counters := g.counters, sems := g.sems })
          (s.bump 0x7200 0x13 t.val 1).tellGuard t.val g p.val (g.level + 1)
        else
          (((s.setTile t.val (ready id { x with guard := none, poison := true })).bump 0x7200 0x14 t.val 1).tellGuard
            t.val g p.val 3)
    | _, _ => s)

/-- R117, R82, R436. -/
def execCtrlEnd (t : TileId) (c : CtxId) (h : Hdr) (s : State) : Host.Outcome State Fault Refusal :=
  done (s.issue t c (5, 8) h noLow (fun s =>
    ((s.endRun t.val c.val).modCtx t.val c.val (fun y => { y with run := .idle, asm := [] })).signal t.val (sigOf h)))

end Sys2Proof.Machine
end

