-- ==== Sys2Proof/Machine/Memory.lean ====
section
/-! DEFINITION. The memory tiers: refresh (R170), vault clears (R182), retraining passes (R183, R184) and pool windows
(R187). -/
namespace Sys2Proof.Machine

/-- What an action asked for by an object write does: the next state, or the abort that leaves all as it is. -/
abbrev Attempt := Except Abort State

/-! Usable memories. -/

/-- A vault that is on the floor plan and trained (R20, R111, R375). -/
def State.vaultUsable (s : State) (t : Nat) : Bool := s.floorOf t = 0 && !(s.tile t).vaultBad

def State.regionVaults (s : State) (r : Nat) : List Nat := (regionTiles r).filter s.vaultUsable

/-- A stack that is up: trained, not failed, its controller clocked (R352) and out of edge reset. -/
def State.stackUp (s : State) (e : Nat) : Bool :=
  s.mstate < 3 && (s.engine e).trained && !(s.engine e).failed && (s.engine e).st != 0
    && s.sideClocked (engineSide e)

/-- R170: a bank is refreshed for 96 net cycles, one at a time and in at most 1 % of the cycles of its interface, so that a
request never waits longer; no result bit changes. -/
def execVaultRefresh (t : TileId) (bank : Fin 16) (s : State) : Host.Outcome State Fault Refusal :=
  done (
    if (s.region (regionOf t.val)).netUp && s.vaultUsable t.val
        && !(s.tile t.val).refresh.any (fun b => s.netOf t.val < b.2 + 9600) then
      s.modTile t.val (fun x => { x with refresh := some (bank, s.netOf t.val) })
    else s)

/-! Vault clears (R182). -/

/-- R182, R329, R438. A further write while a clear of the region runs is accepted and changes nothing (the model's choice;
log entry 31). -/
def State.actVaultClear (s : State) (r v : Nat) : Attempt :=
  if v != 1 then .ok s
  else if !(s.region r).netUp || !(s.regionVaults r).all s.inReset then .error .stateConflict
  else if (s.region r).clearing.isSome then .ok s
  else .ok (s.modRegion r (fun g => { g with clearing := some g.net }))

/-- Zero every usable vault of a region. -/
def State.zeroVaults (s : State) (r : Nat) : State :=
  (s.regionVaults r).foldl (fun s t => s.zero (.vault (Fin.ofNat 6912 t))) s

/-- R182: 3,145,728 net cycles after its start. -/
def execVaultClearDone (r : RegionId) (s : State) : Host.Outcome State Fault Refusal :=
  done (
    match (s.region r.val).clearing with
    | some n => if n + 3145728 ≤ (s.region r.val).net then
        (s.zeroVaults r.val).modRegion r.val (fun g => { g with clearing := none }) else s
    | none => s)

/-! Retraining (R183, R184). -/

/-- Ask for a pass of a region's vaults; ignored while one is pending or running. -/
def State.askVaultPass (s : State) (r : Nat) : State :=
  if (s.region r).retrain = .idle then
    { s.modRegion r (fun g => { g with retrain := .pending }) with passes := s.passes ++ [r] }
  else s

/-- R183, R438. -/
def State.actVaultRetrain (s : State) (r v : Nat) : Attempt := .ok (if v = 1 then s.askVaultPass r else s)

/-- Ask for a pass of one channel of a stack. -/
def State.askChannelPass (s : State) (e ch : Nat) : State :=
  if (s.engine e).pass ch = .idle then
    { s.modEngine e (fun x => { x with retrain := mset ch .pending x.retrain, retrainCh := ch }) with
      chPasses := s.chPasses ++ [(e, ch)] }
  else s

/-- R184, R189. -/
def State.actChannelRetrain (s : State) (e v : Nat) : Attempt :=
  if 15 < v then .error .valueRange else .ok (s.askChannelPass e v)

/-- R183, R184: policy passes. A stack has no temperature, so its passes come from corrections. -/
def execRetrainPolicyTrigger (u : RetrainUnit) (s : State) : Host.Outcome State Fault Refusal :=
  done (
    match u with
    | .vaults r =>
      let g := s.region r.val
      if !(s.core 2).down && s.obj 0x4040 3 r.val = 1 && (200 < (g.temp - g.passTemp).natAbs || 1000 < g.corrected) then
        s.askVaultPass r.val else s
    | .channel e ch =>
      if !(s.core 2).down && s.obj 0x6830 3 e.val = 1 && 1000 < mget 0 (s.engine e.val).second ch.val then
        s.askChannelPass e.val ch.val else s)

/-- R183: no other region retrains, the rail is on, and no earlier request could start. -/
def execVaultRetrainStart (r : RegionId) (s : State) : Host.Outcome State Fault Refusal :=
  done (
    let on (q : Nat) : Bool := (s.region q).st = .running
    if (s.region r.val).retrain = .pending && on r.val && !s.regions.any (fun e => e.2.retrain.isRunning)
        && (s.passes.filter on).head? = some r.val then
      { s.modRegion r.val (fun g => { g with retrain := .running s.tick }) with passes := s.passes.erase r.val }
    else s)

/-- A pass of a region's vaults ends with E4030: 0 retrained, 1 failed, 2 abandoned. A pass that was abandoned does not count
as the last one of the policy (log entry 31). -/
def State.endVaultPass (s : State) (r result : Nat) : State :=
  match (s.region r).retrain with
  | .running since =>
    let s := s.modRegion r (fun g =>
      { g with retrain := .idle, retrainBad := result != 0, passTemp := if result = 2 then g.passTemp else g.temp })
    (s.setObj 0x4040 6 r s.tick).raise 0x4030 r 0
      (leBytes 1 result ++ [0xFF] ++ leBytes 4 (s.tick - since))
  | _ => s

/-- A running pass of a region whose rail goes off is abandoned; at T3 its request becomes pending again (R183). -/
def State.abandonVaultPass (s : State) (r : Nat) (again : Bool) : State :=
  if (s.region r).retrain.isRunning then
    let s := s.endVaultPass r 2
    if again then s.askVaultPass r else s
  else s

/-- R183. -/
def execVaultRetrainEnd (r : RegionId) (ok : Bool) (s : State) : Host.Outcome State Fault Refusal :=
  done (s.endVaultPass r.val (if ok then 0 else 1))

/-- R184. -/
def execChannelRetrainStart (e : EngineId) (s : State) : Host.Outcome State Fault Refusal :=
  done (
    let busy := s.engines.any (fun x => x.2.retrain.any (fun c => c.2.isRunning))
    match (s.chPasses.filter (fun p => s.stackUp p.1)).head? with
    | some (f, ch) =>
      if f = e.val && !busy && s.stackUp f then
        { s.modEngine f (fun x => { x with retrain := mset ch (.running s.tick) x.retrain, retrainCh := ch }) with
          chPasses := s.chPasses.erase (f, ch) }
      else s
    | none => s)

/-- The running pass of a stack's channel ends with E4030. -/
def State.endChannelPass (s : State) (e result : Nat) : State :=
  match (s.engine e).retrain.find? (fun c => c.2.isRunning) with
  | some (ch, .running since) =>
    let s := (s.modEngine e (fun x => { x with retrain := mset ch .idle x.retrain, retrainBad := result != 0 })).raise
      0x4030 e 0 (leBytes 1 result ++ leBytes 1 ch ++ leBytes 4 (s.tick - since))
    (s.mirror 16384).flushCompletions s.waiting.length
  | _ => s

/-- R184. -/
def execChannelRetrainEnd (e : EngineId) (ok : Bool) (s : State) : Host.Outcome State Fault Refusal :=
  done (s.endChannelPass e.val (if ok then 0 else 1))

/-! Pool windows (R187). -/

/-- End of the job area (R173). -/
def jobEnd : Nat := 0x17C0000000
def twoMiB : Nat := 0x200000

/-- Stack windows of admitted partitions. -/
def State.admittedWindows (s : State) : List Window :=
  (List.range 16).flatMap (fun p =>
    if 2 ≤ s.pstate p then match (s.part p).bin with
      | some b => b.windows
      | none => []
    else [])

def overlaps (a n b m : Nat) : Bool := a < b + m && b < a + n && n != 0 && m != 0

/-- Whether the pool window of a stack, as a base, size and enable, may stand. -/
def State.poolCheck (s : State) (e base size en : Nat) : Option Abort :=
  if base % twoMiB != 0 || size % twoMiB != 0 || jobEnd < base + size || 1 < en then some .valueRange
  else if en = 1 && s.admittedWindows.any (fun w => w.stack.val = e && overlaps base size w.base w.size) then
    some .stateConflict
  else none

/-- A write to 0x6860:01–03. -/
def State.actPool (s : State) (e sub v : Nat) : Attempt :=
  let f (i : Nat) : Nat := if sub = i then v else s.obj 0x6860 i e
  match s.poolCheck e (f 1) (f 2) (f 3) with
  | some a => .error a
  | none => .ok (s.setObj 0x6860 sub e v)

end Sys2Proof.Machine
end

