-- ==== Sys2Proof/Machine/Controller.lean ====
section
/-! DEFINITION. The stack controllers (R174, R184): the requests that wait at them, in the order of R174: flits of MOVEs
(R117), far requests (R186, R187, R243, R312, R313) and ring requests, which ports write (R277, R278, R280); and scrubbing
(R177). -/
namespace Sys2Proof.Machine

/-! MOVE traffic (R117, R174). -/

/-- Byte ranges that a flit of a MOVE names. -/
def Flit.segs (f : Flit) : List (Nat × Nat) := (f.addr.map (·.2)).getD []

/-- A controller serves one flit of a MOVE that came in at a gate: read data go back on VC5, and with the last flit of a
packet that was written its acknowledgement. -/
def State.serveFlit (s : State) (e : EngineId) (t : Nat) (f : Flit) : State :=
  let u := MemUnit.stack e
  let d := engineSide e.val
  if f.ty = .readReq then
    let s := s.touchSegs u f.segs 2
    s.gatePush t d 5 (readFlits f.part f.src t f.xid f.off (s.gather u f.segs) (s.gatherBad u f.segs))
  else
    let s := s.scatter u f.segs f.data (List.replicate f.data.length f.poison)
    if f.tail then s.gatePush t d 5 [{ answerFlit t 0 f with len := f.off % 4096 + f.data.length }] else s

/-! Far requests (R186, R187, R312, R313). -/

def within (a n base size : Nat) : Bool := base ≤ a && a + n ≤ base + size

/-- What the host may read and write in stacks (R312). -/
def State.hostMay (s : State) (write : Bool) (stack a n : Nat) : Bool :=
  if write then
    (stack = 0 && within a n 0x17F8000000 0x100000) || (s.turn.isNone && within a n 0x17C0000000 0x30000000)
  else stack = 0 && (within a n 0x17F8100000 0x200000 || within a n 0x17F8300000 0x20000)

def farHdr (f : FarReq) (write : Bool) : PktHdr :=
  { vc := 1, layer := f.layer, ty := if write then 8 else 7, slots := 0, dst := BitVec.ofNat 14 (farModule f.addr.toNat),
    src := f.src, job := f.job, fromHost := f.fromHost, hops := f.hops }

/-- Responses of at most 4 KiB each. -/
def State.farAnswer (s : State) (f : FarReq) (poison : Bool) (bs : List Byte) : State :=
  let n := max 1 ((bs.length + 4095) / 4096)
  (List.range n).foldl (fun s i =>
    let d := (bs.drop (4096 * i)).take 4096
    let h : PktHdr :=
      { vc := 5, layer := false, ty := 9, slots := if d.length ≤ 64 then 0 else (d.length + 127) / 128,
        dst := f.src, src := s.moduleId, job := f.job, poison := poison,
        fromHost := f.fromHost, toHost := f.fromHost }
    s.sendLocal ⟨h, leBytes 8 (f.addr.toNat + 4096 * i) ++ leBytes 4 d.length, d⟩) s

/-- A far request for the host at its bridge (R313); one of a job that meets the host sub-port down is a link failure
(R317). -/
def State.farToHost (s : State) (f : FarReq) (write poison : Bool) (n : Nat) (data : List Byte) : State :=
  let a := f.addr.toNat
  match s.bridgeFar a f.fromHost with
  | some (p, b) =>
    if (s.sub p b).takes then
      let h := { farHdr f write with
        toHost := true, hops := f.hops + 1, poison := poison,
        slots := if data.length ≤ 64 then 0 else (data.length + 127) / 128 }
      s.sendOn p b ⟨h, leBytes 8 a ++ leBytes 4 n, data⟩
    else
      let s := s.refusePkt f.port.val 2 (farHdr f write)
      if f.job = 0 then s else s.linkFailure f.job.toNat p b 5
  | none =>
    let s := s.refusePkt f.port.val 3 (farHdr f write)
    if f.fromHost then s.hostRefused f.port.val f.sub.val 0 0 0 (if write then 8 else 7) 4 else s

/-- The bridge marks what comes from the host and replaces its source (R312). -/
def State.markFar (s : State) (f : FarReq) : FarReq :=
  if s.hostSub = some (f.port.val, f.sub.val) then { f with fromHost := true, src := s.moduleId } else f

/-- A far read is served. -/
def State.serveFarRead (s : State) (e : EngineId) (f : FarReq) : State :=
  let b := farByte f.addr.toNat
  let s := s.touch (.stack e) b f.len 10
  s.farAnswer f (s.anyMarked (.stack e) b f.len) (s.bytes (.stack e) b f.len)

/-- Bytes of a far write go to DRAM, and are acknowledged; what came in poisoned is written so (R179, R294). -/
def State.storeFar (s : State) (e : EngineId) (f : FarReq) (data : List Byte) (poison : Bool) : State :=
  let b := farByte f.addr.toNat
  let s := s.store (.stack e) b data
  (if poison then s.poison (.stack e) b data.length else s).farAnswer f false []

/-- The commit group that a packet of a far write goes on with: from the same module and job, at the next address. -/
def CommitIn.goesOn (c : CommitIn) (f : FarReq) : Bool :=
  c.first.src = f.src && c.first.job = f.job && c.first.addr.toNat + c.data.length = f.addr.toNat

/-- A far write is served. The length field of a packet names the bytes from its address to the end of the write; a commit
group's packets, of which only the last brings all of these, are held in the commit buffer until it is whole (R241, R243;
how a controller knows the packets of a commit group is the model's choice, log entry 34). -/
def State.serveFarWrite (s : State) (e : EngineId) (f : FarReq) (data : List Byte) (poison : Bool) : State :=
  let cs := (s.engine e.val).commits
  let put (cs : List CommitIn) : State := s.modEngine e.val (fun x => { x with commits := cs })
  match cs.find? (fun c => c.goesOn f) with
  | some c =>
    let c' : CommitIn := { c with data := c.data ++ data, poison := c.poison || poison }
    if data.length < f.len then put (cs.map (fun d => if d = c then c' else d))
    else (put (cs.erase c)).storeFar e c.first c'.data c'.poison
  | none => if data.length < f.len then put (cs ++ [⟨f, data, poison⟩]) else s.storeFar e f data poison

/-! Ports as edge units. -/

/-- Route ID of a partition from a port's side to a tile, as the plan names it. -/
def State.ingressRoute (s : State) (port p : Nat) (tile : TileId) : Nat :=
  match (s.part p).bin with
  | some b => ((b.ingress.find? (fun x => x.1.val = port && x.2.1 = tile)).map (fun x => x.2.2.val)).getD 511
  | none => 511

/-- The gate at which a port injects on a route (R18). -/
def State.portGate (s : State) (port p route vc : Nat) : Nat := s.sideGate (portSide port) p route vc

/-- Origin code of a port in a flit. -/
def portEdge (port sub : Nat) : Nat := 32 + 8 * port + sub

/-- A counter signal from a port (R277, R297). -/
def State.portSignal (s : State) (port sub : Nat) (p : PartId) (vc : Fin 6) (tile : TileId) (ctr : Fin 64) (poison : Bool) :
    State :=
  let route := s.ingressRoute port p.val tile
  let g := s.portGate port p.val route vc.val
  let f : Flit :=
    { vc := vc, ty := .signal, part := p, route := route, dst := tile.val, src := g, head := true, tail := true,
      dests := [⟨tile, 0, 0, some ctr⟩], len := 1, pktLen := 1, edge := portEdge port sub, poison := poison }
  s.gatePush g (portSide port) vc.val [f]

/-- A transfer into a landing slot from a port (R297): it needs the slot's credit; none while it is not there. -/
def State.portPut (s : State) (port sub : Nat) (p : PartId) (vc : Fin 6) (d : Dest) (poison : Bool)
    (data : List Byte) : Option State :=
  let route := s.ingressRoute port p.val d.tile
  let g := s.portGate port p.val route vc.val
  (s.takeSlot d g true false).map (fun s =>
    let f : Flit :=
      { vc := vc, ty := .data, part := p, route := route, dst := d.tile.val, src := g, head := true, tail := true,
        dests := [d], edge := portEdge port sub, poison := poison }
    s.gatePush g (portSide port) vc.val (flitsOf f (fun _ => poison) data))

/-! Rings. -/

/-- Producer, consumer and entry count of a ring header (R277). -/
def State.ringHead (s : State) (r : RingPlan) : Nat × Nat × Nat :=
  let w (i : Nat) : Nat := leVal (s.bytes (.stack r.stack) (r.header + 4 * i) 4)
  (w 0, w 1, w 2)

/-- Free-running index difference. -/
def idxDiff (a b : Nat) : Nat := (a + 2 ^ 32 - b) % 2 ^ 32

def RingReq.request (r : RingReq) (index : Nat) : Request :=
  ⟨r.id, r.sender, r.ring, r.reply, r.fromHost, index, r.port⟩

/-- Header of the packet of a ring request. -/
def RingReq.hdr (r : RingReq) (job : Nat) : PktHdr :=
  { vc := 4, layer := false, ty := 10, slots := 0, dst := 0, src := r.sender, job := BitVec.ofNat 32 job, fromHost := r.fromHost,
    hops := r.hops }

/-- A status-only answer at arrival (R278). -/
def State.answerRequest (s : State) (r : RingReq) (status : Nat) : State :=
  s.statusReply r.part.val (RingReq.request r 0) status

/-- Where the payload of the next request of a ring goes: each entry has an equal part of the payload area. -/
def State.payloadAt (s : State) (g : RingPlan) : Nat :=
  let h := s.ringHead g
  g.payload + h.1 % h.2.2 * (g.paySize / h.2.2)

/-- R277: payload, entry and producer index, then the signal to the dispatch counter; a payload that came in poisoned is
written so (R179, R294). -/
def State.writeRequest (s : State) (r : RingReq) (g : RingPlan) (bad : Bool) : State :=
  let h := s.ringHead g
  let i := h.1 % h.2.2
  let at' := s.payloadAt g
  let u := MemUnit.stack g.stack
  let entry := leBytes 8 r.id.toNat ++ leBytes 2 r.sender.toNat ++ leBytes 2 r.reply ++ leBytes 4 r.payload.length
    ++ leBytes 8 at' ++ List.replicate 40 0
  let s := s.store u at' r.payload
  let s := if bad then s.poison u at' r.payload.length else s
  let s := s.store u (g.entries + 64 * i) entry
  let s := s.store u g.header (leBytes 4 ((h.1 + 1) % 2 ^ 32))
  let s := s.modPart r.part.val (fun x => { x with requests := x.requests ++ [RingReq.request r h.1] })
  s.portSignal r.port.val r.sub.val r.part 4 g.tile g.ctr bad

/-- The reader of a ring header checks its words: a port reads as a far request does (10; E4020 lists no reader code for
one, the model's choice: log entry 64). -/
def State.touchHead (s : State) (g : RingPlan) : State := s.touch (.stack g.stack) g.header 64 10

/-- The ring of a request that its partition's binary declares, with a reply ring that it declares (R280). -/
def State.ringOf (s : State) (r : RingReq) : Option RingPlan :=
  (s.part r.part.val).bin.bind (fun b => if b.rspRings.length ≤ r.reply then none else b.reqRings[r.ring]?)

/-- A request for a partition, with what R278 and R280 answer at arrival. A ring that the binary does not declare has no room
for it: it is answered with status 3 (the model's choice: R278 gives no code of its own; log entry 64). A request that
arrives in the drain of a turnover is withdrawn, and counts so (R283, R285). -/
def State.takeRequest (s : State) (r : RingReq) (bad : Bool) : State :=
  let p := r.part.val
  if s.pstate p = 4 then (s.answerRequest r 1).setObj 0x2110 7 0 (s.obj 0x2110 7 0 + 1)
  else if s.pstate p != 3 then s.answerRequest r 4
  else match (s.part p).bin with
    | none => s.answerRequest r 4
    | some b => match b.reqRings[r.ring]? with
      | none => s.answerRequest r 3
      | some g =>
        if b.rspRings.length ≤ r.reply then s.answerRequest r 5
        else
          let s := s.touchHead g
          let h := s.ringHead g
          if s.ringFull || h.2.2 ≤ idxDiff h.1 h.2.1 || g.paySize / h.2.2 < r.payload.length then s.answerRequest r 3
          else s.writeRequest r g bad

/-! The order of requests (R174, R184). -/

/-- Byte ranges of a stack that a request touches. -/
def State.reqSegs (s : State) : StackReq → List (Nat × Nat)
  | .move _ f => f.segs
  | .farRead f => [(farByte f.addr.toNat, f.len)]
  | .farWrite f d _ => [(farByte f.addr.toNat, d.length)]
  | .ring r _ => match s.ringOf r with
    | some g => [(g.header, 64), (s.payloadAt g, r.payload.length), (g.entries + 64 * ((s.ringHead g).1 % (s.ringHead g).2.2), 64)]
    | none => []

/-- Two sets of byte ranges touch one 64-byte address. -/
def meets64 (xs ys : List (Nat × Nat)) : Bool :=
  xs.any (fun a => ys.any (fun b => a.2 != 0 && b.2 != 0 && a.1 / 64 * 64 < b.1 + b.2 && b.1 / 64 * 64 < a.1 + a.2))

/-- A request touches a channel that retrains: it waits. -/
def State.reqBlocked (s : State) (e : Nat) (r : StackReq) : Bool := (s.reqSegs r).any (fun g => s.chanBusy e g.1 g.2)

/-- The request that a controller serves next: the first that does not wait and meets none that came before it. -/
def State.nextReq? (s : State) (e : Nat) : Option Nat :=
  let rs := (s.engine e).reqs
  (List.range rs.length).find? (fun i => match rs[i]? with
    | some r => !s.reqBlocked e r && !(rs.take i).any (fun q => meets64 (s.reqSegs q) (s.reqSegs r))
    | none => false)

def State.serveReq (s : State) (e : EngineId) : StackReq → State
  | .move t f => s.serveFlit e t f
  | .farRead f => s.serveFarRead e f
  | .farWrite f d bad => s.serveFarWrite e f d bad
  | .ring r bad => s.takeRequest r bad

/-- A controller serves one request. -/
def State.serveReqs (s : State) (e : EngineId) : State :=
  let rs := (s.engine e.val).reqs
  match (if s.stackUp e.val then s.nextReq? e.val else none) with
  | some i => match rs[i]? with
    | some r => (s.modEngine e.val (fun x => { x with reqs := rs.eraseIdx i })).serveReq e r
    | none => s
  | none => s

/-- A controller serves every request that it has and that does not wait: a later access to their addresses comes after
them. -/
def State.catchUp (s : State) (e : EngineId) : State :=
  (s.engine e.val).reqs.foldl (fun s _ => s.serveReqs e) s

/-- An access to a byte range has to wait: a channel of it retrains, or a request that waits for one came before it. -/
def State.rangeBusy (s : State) (e a n : Nat) : Bool :=
  s.chanBusy e a n
    || (s.engineWaits e && (s.engine e).reqs.any (fun r => s.reqBlocked e r && meets64 (s.reqSegs r) [(a, n)]))

def State.segsBusy (s : State) (e : Nat) (segs : List (Nat × Nat)) : Bool := segs.any (fun g => s.rangeBusy e g.1 g.2)

/-- A request comes to a controller. -/
def State.askStack (s : State) (e : EngineId) (r : StackReq) : State :=
  (s.modEngine e.val (fun x => { x with reqs := x.reqs ++ [r] })).catchUp e

/-- No engine is held or repairs: the ports give credits toward the edge (R381). -/
def State.edgeRuns (s : State) : Bool := s.obj 0x2003 3 0 = 0

/-! Far requests and ring requests arrive. -/

/-- A far request at its module: refused, passed to the host, or brought to the controller (R187, R308, R312, R313). n: the
bytes that it names; r: the request, of a packet that is poisoned or not. -/
def State.farArrive (s : State) (f : FarReq) (write : Bool) (n : Nat) (data : List Byte) (r : FarReq → Bool → StackReq) :
    State :=
  let a := f.addr.toNat
  let f := s.markFar f
  if !s.linkUp f.port.val f.sub.val || farModule a != s.moduleId.toNat then s
  else
    let take := s.takeRx f.port.val f.sub.val (linkChannel 1 f.layer) (max 1 ((data.length + 4095) / 4096))
    let t := take.1
    let e := Fin.ofNat 32 (farStack a)
    let b := farByte a
    if 63 ≤ f.hops.toNat then t.refusePkt f.port.val 4 (farHdr f write)
    else if farIsHost a then t.farToHost f write take.2 n data
    else if f.fromHost && !(farZeros a && s.hostMay write e.val b n) then
      (t.refusePkt f.port.val 3 (farHdr f write)).hostRefused f.port.val f.sub.val 0 0 0 (if write then 8 else 7) 4
    else if !f.fromHost && !(farZeros a && s.obj 0x6860 3 e.val = 1
        && within b n (s.obj 0x6860 1 e.val) (s.obj 0x6860 2 e.val)) then
      (t.bump 0x7410 5 e.val 1).refusePkt f.port.val 3 (farHdr f write)
    else if s.stackUp e.val && s.edgeRuns then t.askStack e (r f take.2)
    else s

/-- R186, R187. -/
def execFarReadRequest (fr : FarReq) (s : State) : Host.Outcome State Fault Refusal :=
  done (s.farArrive fr false fr.len [] (fun f _ => .farRead f))

/-- R186, R187, R243, R312. -/
def execFarWriteRequest (fr : FarReq) (data : List Byte) (s : State) : Host.Outcome State Fault Refusal :=
  done (s.farArrive fr true (max fr.len data.length) data (fun f bad => .farWrite f data bad))

/-- R277, R278, R280, R285, R388. -/
def execRingRequestArrival (r : RingReq) (s : State) : Host.Outcome State Fault Refusal :=
  done (
    -- the bridge marks what comes from the host and replaces its source (R312)
    let r := if s.hostSub = some (r.port.val, r.sub.val) then { r with fromHost := true, sender := s.moduleId } else r
    if !s.linkUp r.port.val r.sub.val then s
    else
      let take := s.takeVc r.port.val r.sub.val 4 1
      if 63 ≤ r.hops.toNat then take.1.refusePkt r.port.val 4 (RingReq.hdr r (s.jobOf r.part.val))
      else match (if s.pstate r.part.val = 3 then s.ringOf r else none) with
      | some g => if s.stackUp g.stack.val && s.edgeRuns then take.1.askStack g.stack (.ring r take.2.1) else s
      | none => take.1.takeRequest r take.2.1)

/-! Scrubbing (R177). -/

/-- R177: vaults and stacks are scrubbed in idle cycles, below every other requester; a scrub waits on a retraining vault or
channel (R183, R184) and on a bank under refresh (R170). -/
def execScrubRead (u : MemUnit) (word : Nat) (ups : List Upset) (s : State) : Host.Outcome State Fault Refusal :=
  done (
    let s := s.upset ups
    match u with
    | .sram _ => s
    | .vault t =>
      if (s.region (regionOf t.val)).st = .running && s.vaultUsable t.val && !s.vaultPass t.val && word < 0xC000000 / 64
          && (s.tile t.val).vreqs = [] && s.refreshing t.val != some (word % 16) then s.readWord u word 8 else s
    | .stack e =>
      if s.stackUp e.val && word < 0x1800000000 / 64 && !s.chanBusy e.val (64 * word) 64 && (s.nextReq? e.val).isNone
          && s.traceFor e.val = [] then s.readWord u word 8 else s)

end Sys2Proof.Machine
end

