-- ==== Sys2Proof/Machine/Crypto.lean ====
section
/-! DEFINITION. The digests of the module: SHA-384 (R23, R314, R338, R402, R409) and SipHash-2-4 (R247). -/
namespace Sys2Proof.Machine

/-! SHA-384. -/

def shaK0 : List (BitVec 64) :=
  [0x428A2F98D728AE22, 0x7137449123EF65CD, 0xB5C0FBCFEC4D3B2F, 0xE9B5DBA58189DBBC, 0x3956C25BF348B538,
   0x59F111F1B605D019, 0x923F82A4AF194F9B, 0xAB1C5ED5DA6D8118, 0xD807AA98A3030242, 0x12835B0145706FBE,
   0x243185BE4EE4B28C, 0x550C7DC3D5FFB4E2, 0x72BE5D74F27B896F, 0x80DEB1FE3B1696B1, 0x9BDC06A725C71235,
   0xC19BF174CF692694, 0xE49B69C19EF14AD2, 0xEFBE4786384F25E3, 0x0FC19DC68B8CD5B5, 0x240CA1CC77AC9C65]

def shaK1 : List (BitVec 64) :=
  [0x2DE92C6F592B0275, 0x4A7484AA6EA6E483, 0x5CB0A9DCBD41FBD4, 0x76F988DA831153B5, 0x983E5152EE66DFAB,
   0xA831C66D2DB43210, 0xB00327C898FB213F, 0xBF597FC7BEEF0EE4, 0xC6E00BF33DA88FC2, 0xD5A79147930AA725,
   0x06CA6351E003826F, 0x142929670A0E6E70, 0x27B70A8546D22FFC, 0x2E1B21385C26C926, 0x4D2C6DFC5AC42AED,
   0x53380D139D95B3DF, 0x650A73548BAF63DE, 0x766A0ABB3C77B2A8, 0x81C2C92E47EDAEE6, 0x92722C851482353B]

def shaK2 : List (BitVec 64) :=
  [0xA2BFE8A14CF10364, 0xA81A664BBC423001, 0xC24B8B70D0F89791, 0xC76C51A30654BE30, 0xD192E819D6EF5218,
   0xD69906245565A910, 0xF40E35855771202A, 0x106AA07032BBD1B8, 0x19A4C116B8D2D0C8, 0x1E376C085141AB53,
   0x2748774CDF8EEB99, 0x34B0BCB5E19B48A8, 0x391C0CB3C5C95A63, 0x4ED8AA4AE3418ACB, 0x5B9CCA4F7763E373,
   0x682E6FF3D6B2B8A3, 0x748F82EE5DEFB2FC, 0x78A5636F43172F60, 0x84C87814A1F0AB72, 0x8CC702081A6439EC]

def shaK3 : List (BitVec 64) :=
  [0x90BEFFFA23631E28, 0xA4506CEBDE82BDE9, 0xBEF9A3F7B2C67915, 0xC67178F2E372532B, 0xCA273ECEEA26619C,
   0xD186B8C721C0C207, 0xEADA7DD6CDE0EB1E, 0xF57D4F7FEE6ED178, 0x06F067AA72176FBA, 0x0A637DC5A2C898A6,
   0x113F9804BEF90DAE, 0x1B710B35131C471B, 0x28DB77F523047D84, 0x32CAAB7B40C72493, 0x3C9EBE0A15C9BEBC,
   0x431D67C49C100D4C, 0x4CC5D4BECB3E42B6, 0x597F299CFC657E2A, 0x5FCB6FAB3AD6FAEC, 0x6C44198C4A475817]

def shaK : List (BitVec 64) := shaK0 ++ shaK1 ++ shaK2 ++ shaK3

def shaInit : List (BitVec 64) :=
  [0xCBBB9D5DC1059ED8, 0x629A292A367CD507, 0x9159015A3070DD17, 0x152FECD8F70E5939, 0x67332667FFC00B31,
   0x8EB44A8768581511, 0xDB0C2E0D64F98FA7, 0x47B5481DBEFA4FA4]

def rotr (n : Nat) (x : BitVec 64) : BitVec 64 := x.rotateRight n
def rotl (n : Nat) (x : BitVec 64) : BitVec 64 := x.rotateLeft n

/-- The 80 words of the schedule, newest first, from the 16 of a block. -/
def shaSchedule : Nat → List (BitVec 64) → List (BitVec 64)
  | 0, ws => ws
  | n + 1, ws =>
    let w (i : Nat) : BitVec 64 := ws.getD (i - 1) 0
    let s0 := rotr 1 (w 15) ^^^ rotr 8 (w 15) ^^^ (w 15 >>> 7)
    let s1 := rotr 19 (w 2) ^^^ rotr 61 (w 2) ^^^ (w 2 >>> 6)
    shaSchedule n ((w 16 + s0 + w 7 + s1) :: ws)

/-- One round on the eight working words. -/
def shaRound (v : List (BitVec 64)) (kw : BitVec 64 × BitVec 64) : List (BitVec 64) :=
  match v with
  | [a, b, c, d, e, f, g, h] =>
    let s1 := rotr 14 e ^^^ rotr 18 e ^^^ rotr 41 e
    let ch := (e &&& f) ^^^ (~~~e &&& g)
    let t1 := h + s1 + ch + kw.1 + kw.2
    let s0 := rotr 28 a ^^^ rotr 34 a ^^^ rotr 39 a
    let mj := (a &&& b) ^^^ (a &&& c) ^^^ (b &&& c)
    [t1 + (s0 + mj), a, b, c, d + t1, e, f, g]
  | v => v

def beVal (bs : List Byte) : Nat := bs.foldl (fun a b => a * 256 + b.toNat) 0
def beBytes (n v : Nat) : List Byte := (leBytes n v).reverse

/-- One block of 128 bytes. -/
def shaBlock (h : List (BitVec 64)) (bs : List Byte) : List (BitVec 64) :=
  let ws := (List.range 16).map (fun i => BitVec.ofNat 64 (beVal ((bs.drop (8 * i)).take 8)))
  let v := (shaK.zip (shaSchedule 64 ws.reverse).reverse).foldl shaRound h
  (h.zip v).map (fun p => p.1 + p.2)

/-- The eight words of a message's digest, from the initial words. -/
def shaWords (init : List (BitVec 64)) (bs : List Byte) : List (BitVec 64) :=
  let pad := List.replicate ((111 + 128 - bs.length % 128) % 128) (0 : Byte)
  let m := bs ++ [0x80] ++ pad ++ beBytes 16 (8 * bs.length)
  (List.range (m.length / 128)).foldl (fun h i => shaBlock h ((m.drop (128 * i)).take 128)) init

def sha384 (bs : List Byte) : List Byte := ((shaWords shaInit bs).take 6).flatMap (fun w => beBytes 8 w.toNat)

/-! SipHash-2-4. -/

/-- The four words of the state. -/
structure Sip where
  v0 : BitVec 64
  v1 : BitVec 64
  v2 : BitVec 64
  v3 : BitVec 64
  deriving DecidableEq, Repr

def Sip.round (s : Sip) : Sip :=
  let v0 := s.v0 + s.v1
  let v1 := rotl 13 s.v1 ^^^ v0
  let v0 := rotl 32 v0
  let v2 := s.v2 + s.v3
  let v3 := rotl 16 s.v3 ^^^ v2
  let v0 := v0 + v3
  let v3 := rotl 21 v3 ^^^ v0
  let v2 := v2 + v1
  let v1 := rotl 17 v1 ^^^ v2
  let v2 := rotl 32 v2
  ⟨v0, v1, v2, v3⟩

def Sip.word (s : Sip) (m : BitVec 64) : Sip :=
  let t := ({ s with v3 := s.v3 ^^^ m }.round).round
  { t with v0 := t.v0 ^^^ m }

def sipHash (k0 k1 : BitVec 64) (bs : List Byte) : BitVec 64 :=
  let s : Sip := ⟨k0 ^^^ 0x736f6d6570736575, k1 ^^^ 0x646f72616e646f6d, k0 ^^^ 0x6c7967656e657261,
                  k1 ^^^ 0x7465646279746573⟩
  let n := bs.length
  let s := (List.range (n / 8)).foldl (fun s i => s.word (BitVec.ofNat 64 (bytesAt bs (8 * i) 8))) s
  let s := s.word (BitVec.ofNat 64 (bytesAt bs (n / 8 * 8) (n % 8) + n % 256 * 2 ^ 56))
  let s := ((({ s with v2 := s.v2 ^^^ 0xff }.round).round).round).round
  s.v0 ^^^ s.v1 ^^^ s.v2 ^^^ s.v3

end Sys2Proof.Machine
end

