-- ==== Sys2Proof/Machine/Rule.lean ====
section
/-! DEFINITION. The update rules of the engines: state records (R222–R225), the rules (R232, R233), the merge of a
held-on-norm entry (R240), sums of squares (R230) and working copies (R193, R233). -/
namespace Sys2Proof.Machine

def w40 (x : Num) : Num := Num.rne .w40 x
def f32 (v : BitVec 32) : Num := Fmt.a32.decode v.toNat

/-! Weights and carry (R232, R233). -/

/-- Exponent of ulp(w). -/
def ulpExp (w : Num) : Int := if w.isZero then -133 else max w.lead (-126) - 7

/-- W = w + c × ulp(w) / 256, exactly. -/
def effWeight (w : Nat) (c : Byte) : Num :=
  let v := Fmt.bf16.decode w
  v.add (Num.ofInt c.toInt (ulpExp v - 8))

/-- Nearest integer, ties to even. -/
def rneInt : Num → Int
  | .fin s m q => if s then -(rneAt m q 0 : Int) else (rneAt m q 0 : Int)
  | _ => 0

/-- New weight and carry of one parameter; none when the weight is infinite or NaN (R234). -/
def formWeight (wNew : Num) : Option (Nat × Byte) :=
  let bits := Fmt.bf16.encode .nearestEven wNew
  let wn := Fmt.bf16.decode bits
  if !wn.isFinite then none
  else
    let rr := wNew.sub wn
    let cn := rneInt (rr.scale (8 - ulpExp wn))
    some (bits, BitVec.ofInt 8 (min 127 cn))

/-- The weight step shared by the rules: W − η(u + λW). -/
def newWeight (v : Vals) (u w : Num) : Num :=
  let d := w40 ((f32 v.lam).mul w)
  let d := w40 (u.add d)
  let d := w40 ((f32 v.eta).mul d)
  w40 (w.sub d)

def sgn (x : Num) : Num := if x.isNan then .nan else if x.isZero then .zero else if x.lt .zero then Num.one.neg else .one

/-! Records (R222–R225). -/

def recSize (rule : Nat) : Nat := if rule = 3 || rule = 4 then 28992 else 12352
def isRuleM (rule : Nat) : Bool := rule = 3 || rule = 4

/-- Pairs of bytes, little-endian. -/
def halves : List Byte → List Nat
  | a :: b :: r => (a.toNat + 256 * b.toNat) :: halves r
  | _ => []

def recWeights (rec : List Byte) : List Nat := halves ((rec.drop 64).take 8192)
def recCarry (rec : List Byte) : List Byte := (rec.drop 8256).take 4096
def recStamp (rec : List Byte) : BitVec 32 := BitVec.ofNat 32 (bytesAt rec 0 4)
/-- The effective weights of a record. -/
def recW (rec : List Byte) : List Num := ((recWeights rec).zip (recCarry rec)).map (fun p => effWeight p.1 p.2)

def slotOff (i : Nat) : Nat := 12352 + 8320 * i
def slotBytes (rec : List Byte) (i : Nat) : List Byte := (rec.drop (slotOff i)).take 8320
def slotStamp (sl : List Byte) : BitVec 32 := BitVec.ofNat 32 (bytesAt sl 0 4)
def slotCount (sl : List Byte) : Nat := bytesAt sl 4 4
def slotValid (sl : List Byte) : Bool := bytesAt sl 28 1 % 2 = 1
def slotVals (sl : List Byte) : Vals :=
  ⟨BitVec.ofNat 32 (bytesAt sl 8 4), BitVec.ofNat 32 (bytesAt sl 12 4), BitVec.ofNat 32 (bytesAt sl 16 4),
   BitVec.ofNat 32 (bytesAt sl 20 4), BitVec.ofNat 32 (bytesAt sl 24 4), false⟩

/-- The newest of the valid slots (R225). -/
def newestSlot (rec : List Byte) : Nat :=
  let a := slotBytes rec 0
  let b := slotBytes rec 1
  if slotValid b && (!slotValid a || 0 < stampDiff (slotStamp b) (slotStamp a)) then 1 else 0

/-- Decoded moments: elements with the scale of their block of 128 (R36). -/
def moments (f : Fmt) (els scales : List Byte) : List Num :=
  (els.zip (List.range els.length)).map (fun p =>
    match scaleOf false (scales.getD (p.2 / 128) 0).toNat with
    | none => .nan
    | some (e, z) => if z then .zero else (f.decode p.1.toNat).scale e)

def slotM (sl : List Byte) : List Num := moments .fp8e4m3 ((sl.drop 64).take 4096) ((sl.drop 8256).take 32)
def slotV (sl : List Byte) : List Num := moments .fp8e5m2 ((sl.drop 4160).take 4096) ((sl.drop 8288).take 32)

/-- Moments formed in blocks of 128 by R45: element bytes and scale bytes. -/
def formMoments (f : Fmt) (code : Nat) (xs : List Num) : List Byte × List Byte :=
  let bs := (List.range 32).map (fun q =>
    let r := formBlock f code false (((xs.drop (128 * q)).take 128).map (fun x => ((q, 0), x)))
    (r.2.map (fun m => BitVec.ofNat 8 m.bits), BitVec.ofNat 8 r.1))
  (bs.flatMap (·.1), bs.map (·.2))

def Vals.bytes (v : Vals) : List Byte :=
  leBytes 4 v.eta.toNat ++ leBytes 4 v.beta1.toNat ++ leBytes 4 v.beta2.toNat ++ leBytes 4 v.eps.toNat
    ++ leBytes 4 v.lam.toNat

/-- A slot as written (R224). -/
def slotOf (stamp : BitVec 32) (count : Nat) (v : Vals) (m vv : List Num) : List Byte :=
  let fm := formMoments .fp8e4m3 3 m
  let fv := formMoments .fp8e5m2 4 vv
  leBytes 4 stamp.toNat ++ leBytes 4 count ++ v.bytes ++ [1] ++ List.replicate 35 0
    ++ fm.1 ++ fv.1 ++ fm.2 ++ fv.2

/-! The rules (R232). -/

def powW40 (n : Nat) (p q : Num) : Nat → Num
  | 0 => p
  | k + 1 =>
    if n = 0 then p
    else
      let p := if n % 2 = 1 then w40 (p.mul q) else p
      if n / 2 = 0 then p else powW40 (n / 2) p (w40 (q.mul q)) k

/-- Bias factor 1 / (1 − b^n) (rule 3). -/
def biasFactor (b : Num) (n : Nat) : Num :=
  w40 ((w40 (Num.one.sub (powW40 n .one b 32))).rcp)

/-- Pad positions of a block are +0 (R218). -/
def zeroPads (params : Nat) (xs : List Num) : List Num :=
  (xs.zip (List.range 4096)).map (fun p => if p.2 < params then p.1 else .zero)

/-- New moments of an update, before they are stored. -/
def newMoments (params : Nat) (v : Vals) (xs mo vo : List Num) : List Num × List Num :=
  let b1 := f32 v.beta1
  let b2 := f32 v.beta2
  let o1 := w40 (Num.one.sub b1)
  let o2 := w40 (Num.one.sub b2)
  (zeroPads params ((xs.zip mo).map (fun p => w40 ((w40 (b1.mul p.2)).add (w40 (o1.mul p.1))))),
   zeroPads params ((xs.zip vo).map (fun p => w40 ((w40 (b2.mul p.2)).add (w40 (o2.mul (w40 (p.1.mul p.1))))))))

/-- The u of rule M from the stored moments of a slot. -/
def momentSteps (rule : Nat) (v : Vals) (count : Nat) (mq vq : List Num) : List Num :=
  let c1 := if rule = 4 then Num.one else biasFactor (f32 v.beta1) count
  let c2 := if rule = 4 then Num.one else biasFactor (f32 v.beta2) count
  (mq.zip vq).map (fun p =>
    let mh := w40 (p.1.mul c1)
    let r := w40 ((w40 ((w40 (p.2.mul c2)).add (f32 v.eps))).rsqrt)
    w40 (mh.mul r))

/-- Weights and carries of an update; pad positions are +0 (R218); none when the update is lost (R234). -/
def newWeights (v : Vals) (params : Nat) (us ws : List Num) : Option (List (Nat × Byte)) :=
  ((us.zip ws).zip (List.range 4096)).mapM (fun p =>
    if p.2 < params then formWeight (newWeight v p.1.1 p.1.2) else some (0, 0))

/-- An update formed and not yet written: the new slot of rule M, and weights and carry. -/
structure Update where
  slot : Option (Nat × List Byte)
  wc   : List (Nat × Byte)
  deriving DecidableEq, Repr

/-- The x of R232: gradients without loss scale, times the apply factor, with an armed entry merged (R240). -/
def scaledGrads (params k : Nat) (a : BitVec 32) (g : List Num) (merge : Option (List Num × Nat × BitVec 32)) :
    List Num :=
  let one (i : Nat) (x : Num) : Num :=
    let x := x.scale (-(k : Int))
    let x := if a = 0x3F800000 then x else w40 (x.mul (f32 a))
    match merge with
    | some (h, kh, ah) => w40 (x.add (w40 (((h.getD i .zero).scale (-(kh : Int))).mul (f32 ah))))
    | none => x
  zeroPads params ((g.zip (List.range 4096)).map (fun p => one p.2 p.1))

/-- R232, R233 for one block of step s; none: the update is lost. -/
def ruleUpdate (rule params : Nat) (v : Vals) (stamp : BitVec 32) (rec : List Byte) (xs : List Num) : Option Update :=
  if isRuleM rule then
    let i := newestSlot rec
    let old := slotBytes rec i
    let n := slotCount old + 1
    let ms := newMoments params v xs (slotM old) (slotV old)
    let sl := slotOf stamp n v ms.1 ms.2
    (newWeights v params (momentSteps rule v n (slotM sl) (slotV sl)) (recW rec)).map (fun w => ⟨some (1 - i, sl), w⟩)
  else
    let us := if rule = 2 then xs.map sgn else xs
    (newWeights v params us (recW rec)).map (fun w => ⟨none, w⟩)

/-- The weights of a block from its newest slot and its old weights (R245). -/
def redoWeights (rule params : Nat) (rec : List Byte) : Option (List (Nat × Byte)) :=
  let sl := slotBytes rec (newestSlot rec)
  newWeights (slotVals sl) params (momentSteps rule (slotVals sl) (slotCount sl) (slotM sl) (slotV sl)) (recW rec)

/-- The commit group: block header with the new weight stamp, weights and carry (R242, R243). -/
def commitGroup (stamp : BitVec 32) (rec : List Byte) (w : List (Nat × Byte)) : List Byte :=
  leBytes 4 stamp.toNat ++ (rec.drop 4).take 60 ++ w.flatMap (fun p => leBytes 2 p.1) ++ w.map (·.2)

/-! Sums of squares (R230). -/

def sumSquares (params k : Nat) (g : List Num) : Num :=
  (g.take params).foldl (fun q x => let y := x.scale (-(k : Int)); w40 (q.add (w40 (y.mul y)))) .zero

/-! Working copies (R193, R233): the 64 × 64 plane in the area's format, no tensor scale. -/

def wcDesc (word : BitVec 32) : Desc :=
  { space := 4, addr := 0, saddr := 0, word := word, scale := 0, pitch := 0, n0 := 64, n1 := 64, axes := 0, bind := 0,
    count := 0, base := 0, first := 0, second := 0 }

/-- Bytes of one row of 64 element codes (R34). -/
def packRow (fmt : Nat) (bits : List Nat) : List Byte :=
  leBytes (rowBytes fmt 64) (((bits.zip (List.range 64)).map (fun p => p.1 * 2 ^ elemBit fmt p.2)).sum)

/-- Element bytes and scale bytes of a working copy. -/
def workingCopy (word : BitVec 32) (ws : List Num) : List Byte × List Byte :=
  let d := wcDesc word
  match Fmt.ofCode d.fmt with
  | none => ([], [])
  | some f =>
    let xs := (ws.zip (List.range 4096)).map (fun p => ((p.2 / 64, p.2 % 64), p.1))
    let rows (ms : List Made) : List Byte := (List.range 64).flatMap (fun r =>
      packRow d.fmt ((List.range 64).map (fun k => ((ms.find? (fun m => m.row = r && m.k = k)).map (·.bits)).getD 0)))
    if d.bs then
      match placeBlocks f d [] xs with
      | none => ([], [])
      | some p =>
        (rows (p.1.flatMap (·.made)),
         (List.range d.scaleBytes).map (fun i =>
           BitVec.ofNat 8 (((p.1.find? (fun b => b.ix = i)).map (·.code)).getD 0)))
    else (rows (formDirect f xs), [])

/-- The effective weights of a commit group's pairs. -/
def pairW (w : List (Nat × Byte)) : List Num := w.map (fun p => effWeight p.1 p.2)

end Sys2Proof.Machine
end

