-- ==== Sys2Proof/Machine/Millrace.lean ====
section
/-! DEFINITION. The millrace (R191–R198, R442): working-copy areas and their stamps, stack-sourced multicasts and
their gate, working copies received, and the digests of copies (R247, R248). -/
namespace Sys2Proof.Machine

/-! The route plan. -/

/-- Name of a block of a partition's job. -/
def ekey (p g b : Nat) : Nat := p * 2 ^ 32 + blockKey g b

def planBlock (j : JobPlan) (g b : Nat) : Option BlockPlan := j.blocks.find? (fun x => x.group.val = g && x.block = b)
def planGroup (j : JobPlan) (g : Nat) : Option GroupPlan := j.groups.find? (fun x => x.group.val = g)

/-- Index of a block in the route plan. -/
def planIndex (j : JobPlan) (g b : Nat) : BitVec 16 :=
  BitVec.ofNat 16 (j.blocks.findIdx (fun x => x.group.val = g && x.block = b))

/-- The working-copy area of a block, owned here or received (R193). -/
def planArea (j : JobPlan) (owned : Bool) (g b : Nat) : Option WcArea :=
  j.areas.find? (fun a => a.owned = owned && a.group.val = g && a.first ≤ b && b < a.first + a.count)

def elemAt (a : WcArea) (b : Nat) : Nat := a.elemBase + (b - a.first) * a.elemBytes
def scaleAt (a : WcArea) (b : Nat) : Nat := a.scaleBase + (b - a.first) * a.scaleBytes
def stampAt (a : WcArea) (b : Nat) : Nat := a.stampBase + 4 * (b - a.first)

/-- Blocks of this module that an engine owns (R218). -/
def State.ownedBy (s : State) (j : JobPlan) (e : Nat) : List BlockPlan :=
  j.blocks.filter (fun b => b.owner = s.moduleId && b.engine.val = e)

def State.ownedHere (s : State) (j : JobPlan) : List BlockPlan := j.blocks.filter (fun b => b.owner = s.moduleId)

/-- Block identity word (R224). -/
def blockIdent (g b : Nat) : Nat := b % 2 ^ 28 + g * 2 ^ 28

/-- Send packets of a job on a sub-port; towards one that is down it is a link failure (R317). -/
def State.sendJob (s : State) (x : PortId × SubId) (ks : List Pkt) : State :=
  match ks with
  | [] => s
  | k :: _ =>
    if (s.sub x.1.val x.2.val).takes then ks.foldl (fun s k => s.sendOn x.1.val x.2.val k) s
    else s.linkFailure k.hdr.job.toNat x.1.val x.2.val 5

/-- Header of a packet of a job's tree traffic; the plan names its layer (R298). -/
def State.jobHdr (s : State) (p : Nat) (vc : Fin 6) (layer : Bool) (ty : BitVec 4) (plan : BitVec 16) (dst : BitVec 14)
    (n : Nat) : PktHdr :=
  { vc := vc, layer := layer, ty := ty, slots := if n ≤ 64 then 0 else (n + 127) / 128, dst := dst, src := s.moduleId,
    job := BitVec.ofNat 32 (s.obj 0x2102 (p + 1) 0), plan := plan }

/-! Digests of working copies (R247). -/

/-- The digest of a block's copy, as read back. -/
def State.copyDigest (s : State) (a : WcArea) (b : Nat) (stamp : BitVec 32) : BitVec 64 :=
  let seed := BitVec.ofNat 64 (s.obj 0x8000 1 0)
  sipHash (mix64 (seed ^^^ 1)) (mix64 (seed ^^^ 2))
    (leBytes 4 stamp.toNat ++ leBytes 4 (blockIdent a.group.val b)
      ++ s.bytes (.stack a.stack) (elemAt a b) a.elemBytes ++ s.bytes (.stack a.stack) (scaleAt a b) a.scaleBytes)

def sameRollup (r : Rollup) (p : PartId) (stamp : BitVec 32) (m : BitVec 14) (e : EngineId) : Bool :=
  r.part = p && r.stamp = stamp && r.module = m && r.engine = e

/-- XOR a digest into the rollup of a step, module and engine. -/
def addRollup (p : PartId) (stamp : BitVec 32) (m : BitVec 14) (e : EngineId) (d : BitVec 64) (rs : List Rollup) :
    List Rollup :=
  if rs.any (fun r => sameRollup r p stamp m e) then
    rs.map (fun r => if sameRollup r p stamp m e then { r with value := r.value ^^^ d, blocks := r.blocks + 1 } else r)
  else ⟨p, stamp, m, e, d, 1, none⟩ :: rs

/-- Gather blocks of an owning module and engine (R198). -/
def gatherCount (j : JobPlan) (m : BitVec 14) (e : EngineId) : Nat :=
  (j.blocks.filter (fun b => b.owner = m && b.engine = e && (planArea j false b.group.val b.block).isSome)).length

/-- Compare a received record with the own rollup, once both are there (R248). -/
def State.checkRollup (s : State) (port : Nat) (p : PartId) (stamp : BitVec 32) (m : BitVec 14) (e : EngineId) :
    State :=
  match s.job p.val, (s.part p.val).rollups.find? (fun r => sameRollup r p stamp m e) with
  | some j, some r =>
    match r.theirs with
    | some v =>
      if r.blocks < gatherCount j m e then s
      else
        let s := s.modPart p.val (fun x => { x with rollups := x.rollups.filter (fun q => !sameRollup q p stamp m e) })
        if v = r.value then s
        else
          let s := (s.bump 0x7440 0xA e.val 1).raise 0x6040 (8 * port) stamp
            (leBytes 2 m.toNat ++ leBytes 1 e.val ++ leBytes 8 r.value.toNat ++ leBytes 8 v.toNat)
          if s.obj 0x8300 2 0 = 0 then
            let job := s.obj 0x2102 (p.val + 1) 0
            ((s.stopJob job 4).rememberStop job s.moduleId).floodStop s.ownWay job s.moduleId.toNat 3 none
          else s
    | none => s
  | _, _ => s

/-! Stack-sourced multicasts (R195–R197). -/

/-- Blocks of the working-copy areas of a stack that byte ranges touch. -/
def coveredBlocks (j : JobPlan) (stack : Nat) (segs : List (Nat × Nat)) : List (WcArea × Nat) :=
  (j.areas.filter (fun a => a.stack.val = stack)).flatMap (fun a =>
    ((List.range a.count).filter (fun i => segs.any (fun g =>
      overlaps g.1 g.2 (elemAt a (a.first + i)) a.elemBytes || overlaps g.1 g.2 (scaleAt a (a.first + i)) a.scaleBytes))).map
        (fun i => (a, a.first + i)))

/-- The stamp that a block's table entry holds. -/
def State.blockStamp (s : State) (a : WcArea) (b : Nat) : BitVec 32 :=
  BitVec.ofNat 32 (leVal (s.bytes (.stack a.stack) (stampAt a b) 4))

/-- The controller reads the range and injects its flits on VC2 at the root of the tree, whose gate holds the slot credits
of a tree with one leaf and no fork (R153, R195): none while the credit is not there. -/
def State.serveRead (s : State) (h : HeldRead) (poison : Bool) : Option State :=
  let e := h.src.first
  let p := h.part
  let t := h.tile
  let answered (s : State) : State := s.modXfer t.val h.id (fun z => { z with phase := .answered })
  match s.treeGate e p.val h.route 2 with
  | none =>
    let f : Flit := { vc := 2, ty := .data, part := p, route := h.route, dst := t.val, src := t.val, head := true, tail := true }
    some ((answered s).refuse t.val refuseNoRoute f)
  | some g =>
    let s? := match h.dests with
      | d :: _ => if s.sourceCredit p.val h.route 6912 g then s.takeSlot d g true true else some s
      | [] => some s
    s?.map (fun s =>
      let u := h.src.mem t
      let s := s.touchSegs u h.src.segments 4
      let bs := s.gather u h.src.segments
      let bad := s.gatherBad u h.src.segments
      let f : Flit :=
        { vc := 2, ty := .data, part := p, route := h.route, dst := t.val, src := g, head := true, tail := true,
          dests := h.dests, xid := h.id, edge := 80 + e, poison := poison }
      let s := s.gatePush g (engineSide e) 2 (flitsOf f (fun i => ((bad.drop (i * 128)).take 128).any id) bs)
      answered (s.bump 0x7420 1 e bs.length))

/-- A read leaves the controller of an engine, and its gate. -/
def State.dropRead (s : State) (e : Nat) (h : HeldRead) : State :=
  s.modEngine e (fun x => { x with reads := x.reads.erase h, heldReads := x.heldReads.erase h })

/-- The stamp of a block that a read for stamp s covers, against s − 1. -/
def State.stampGap (s : State) (h : HeldRead) (c : WcArea × Nat) : Int := stampDiff (s.blockStamp c.1 c.2) (h.stamp - 1)

/-- Blocks that a read covers. -/
def State.readBlocks (s : State) (h : HeldRead) : List (WcArea × Nat) :=
  match s.job h.part.val with
  | some j => coveredBlocks j h.src.first h.src.segments
  | none => []

/-- A read has to wait for a channel: of its range, or of the stamps that the gate checks (R184). -/
def State.readBusy (s : State) (h : HeldRead) : Bool :=
  s.segsBusy h.src.first (h.src.segments ++ (s.readBlocks h).map (fun c => (stampAt c.1 c.2, 4)))

/-- Serve a stack-sourced read, hold it, or serve it poisoned, by the gate's check (R196). The stamps are read, and one from
a poisoned word poisons the read (R179). A read whose root has no slot credit for it waits at the controller (R153). -/
def State.gateRead (s : State) (h : HeldRead) : State :=
  let e := h.src.first
  let u := MemUnit.stack (Fin.ofNat 32 e)
  let cs := s.readBlocks h
  let s := (s.catchUp (Fin.ofNat 32 e)).dropRead e h
  let wait (s : State) : State := s.modEngine e (fun x => { x with reads := x.reads ++ [h] })
  if s.readBusy h then wait s
  else
    let s := s.touchSegs u (cs.map (fun c => (stampAt c.1 c.2, 4))) 4
    if cs.any (fun c => s.stampGap h c < 0) then s.modEngine e (fun x => { x with heldReads := x.heldReads ++ [h] })
    else
      let bad := cs.any (fun c => s.anyMarked u (stampAt c.1 c.2) 4)
      match cs.find? (fun c => 0 < s.stampGap h c) with
      | some (a, b) =>
        match s.serveRead h true with
        | some s' =>
          (s'.bump 0x7420 3 e 1).raise 0x6080 e h.stamp
            (leBytes 2 h.tile.val ++ leBytes 1 a.group.val ++ leBytes 4 b ++ leBytes 4 (s.blockStamp a b).toNat)
        | none => wait s
      | none => (s.serveRead h bad).getD (wait s)

/-- Reads held at an engine's gate are looked at again after a stamp has been written (R196, R197). -/
def State.releaseReads (s : State) (e : Nat) : State := (s.engine e).heldReads.foldl State.gateRead s

/-- R195, R196: a read of a tile that has come to a controller; a reset of the tile does not take it back (R381). -/
def execStackMcastRead (t : TileId) (id : Nat) (s : State) : Host.Outcome State Fault Refusal :=
  done (
    match s.engines.findSome? (fun e => e.2.reads.find? (fun h => h.tile = t && h.id = id)) with
    | some h => if s.stackUp h.src.first && !s.readBusy h then s.gateRead h else s
    | none => s)

/-! Working copies received (R198). -/

/-- The frame of a working copy: stamp, block identity and offset in the transfer fields; element bytes, then scale
bytes, at most 4 KiB a packet. -/
def State.copyPkts (s : State) (p : Nat) (plan : BitVec 16) (f : CopyFrame) (poison : Bool) : List Pkt :=
  let bs := f.elems ++ f.scales
  (List.range ((bs.length + 4095) / 4096)).map (fun i =>
    let d := (bs.drop (4096 * i)).take 4096
    ⟨{ s.jobHdr p 2 f.layer 6 plan 0x3FFF d.length with poison := poison, src := f.way.src, hops := f.way.hops },
     leBytes 4 f.stamp.toNat ++ leBytes 4 (blockIdent f.group.val f.block) ++ leBytes 4 (4096 * i) ++ leBytes 4 bs.length, d⟩)

/-- Send a working copy to the children of the allgather tree, on the layer that the plan's VC offset gives (R198, R298). -/
def State.sendCopies (s : State) (p : Nat) (j : JobPlan) (bp : BlockPlan) (f : CopyFrame) (poison : Bool) : State :=
  let f := { f with layer := f.layer || bp.copyOff }
  bp.copyOut.foldl (fun s x => s.sendJob x (s.copyPkts p (planIndex j bp.group.val bp.block) f poison)) s

/-- Write a working copy that has come in into its gather area: elements, scales, then the stamp (R194, R198); what came in
poisoned is written so (R179). -/
def State.writeGather (s : State) (a : WcArea) (f : CopyFrame) (poison : Bool) : State :=
  let u := MemUnit.stack a.stack
  let s := s.catchUp a.stack
  let put (s : State) (at' : Nat) (bs : List Byte) : State :=
    let s := s.store u at' bs
    if poison then s.poison u at' bs.length else s
  let s := put (put s (elemAt a f.block) (f.elems.take a.elemBytes)) (scaleAt a f.block) (f.scales.take a.scaleBytes)
  (s.store u (stampAt a f.block) (leBytes 4 f.stamp.toNat)).bump 0x7420 4 a.stack.val 1

/-- The copy of a digested step is read back (R247). -/
def State.digestGather (s : State) (port : Nat) (p : PartId) (bp : BlockPlan) (a : WcArea) (stamp : BitVec 32) : State :=
  if !(s.part p.val).digested.contains stamp then s
  else
    let s := s.touchSegs (.stack a.stack) [(elemAt a bp.block, a.elemBytes), (scaleAt a bp.block, a.scaleBytes)] 5
    let d := s.copyDigest a bp.block stamp
    let s := (s.bump 0x7440 9 a.stack.val 1).modPart p.val
      (fun x => { x with rollups := addRollup p stamp bp.owner bp.engine d x.rollups })
    s.checkRollup port p stamp bp.owner bp.engine

/-- The gather area of a copy can be written: its stack is up, the edge runs, and none of its channels retrains (R184,
R381). -/
def State.gatherFree (s : State) (a : WcArea) (b : Nat) : Bool :=
  s.stackUp a.stack.val && s.edgeRuns
    && !s.segsBusy a.stack.val [(elemAt a b, a.elemBytes), (scaleAt a b, a.scaleBytes), (stampAt a b, 4)]

/-- R198, R194: a working copy arrives where the plan says that it does. -/
def execAllgatherArrival (port : PortId) (sub : SubId) (p : PartId) (f : CopyFrame) (s : State) :
    Host.Outcome State Fault Refusal :=
  done (
    match (s.job p.val).bind (fun j => (planBlock j f.group.val f.block).map (fun bp => (j, bp))) with
    | none => s
    | some (j, bp) =>
      if bp.copyIn != some (port, sub) || !s.linkUp port.val sub.val then s
      else
        let n := (f.elems.length + f.scales.length + 4095) / 4096
        let take := s.takeRx port.val sub.val (linkChannel 2 f.layer) n
        let away := take.1.turnAway port.val sub.val 2 6 (s.jobOf p.val) f.way
        let f := { f with way := Way.on f.way }
        if away.isSome then away.getD s
        else match planArea j false f.group.val f.block with
        | none => take.1.sendCopies p.val j bp f take.2
        | some a =>
          if !s.gatherFree a f.block then s
          else
            let s := (take.1.writeGather a f take.2).sendCopies p.val j bp f take.2
            (s.digestGather port.val p bp a f.stamp).releaseReads a.stack.val)

/-- R248: the owner's record arrives. -/
def execDigestRecordReceive (link : LinkIn) (p : PartId) (stamp : BitVec 32) (owner : BitVec 14) (engine : EngineId)
    (rollup : BitVec 64) (s : State) : Host.Outcome State Fault Refusal :=
  done (
    let port := link.port
    let sub := link.sub
    let w := link.way
    let t := (s.takeTail port.val sub.val).1
    let away := t.turnAway port.val sub.val 3 5 (s.jobOf p.val) w
    if !s.linkUp port.val sub.val then s
    else if away.isSome then away.getD s
    else if (s.job p.val).isNone || !s.isLive p.val then s
    else
      let s := t
      let put (rs : List Rollup) : List Rollup :=
        if rs.any (fun r => sameRollup r p stamp owner engine) then
          rs.map (fun r => if sameRollup r p stamp owner engine then { r with theirs := some rollup } else r)
        else ⟨p, stamp, owner, engine, 0, 0, some rollup⟩ :: rs
      let s := s.modPart p.val (fun x => { x with rollups := put x.rollups })
      s.checkRollup port.val p stamp owner engine)

end Sys2Proof.Machine
end

