-- ==== Sys2Proof/Machine/Journal.lean ====
section
/-! DEFINITION. What an engine keeps in its stack for blocks in hand: the sluice (R235, R236), the journal (R244), and the
group values that a journal entry records (R226). -/
namespace Sys2Proof.Machine

/-! Free choices (log entry 5). -/

/-- The n-th number, from 0, that an ascending list does not hold. -/
def nthFree (n : Nat) (used : List Nat) : Nat := used.foldl (fun c u => if u ≤ c then c + 1 else c) n

/-- One of the free numbers below a bound, by a free value. -/
def State.pickFree (s : State) (bound : Nat) (used : List Nat) : Nat × State :=
  (nthFree (Config.freeNat s.free % (bound - used.length)) used, { s with free := s.free + 1 })

/-! The sluice (R235, R236). -/

/-- A sluice entry's header. -/
structure Entry64 where
  stamp : BitVec 32
  group : Nat
  block : Nat
  kind  : Nat
  k     : Nat
  armed : Bool
  q     : Nat
  target : BitVec 32
  factor : BitVec 32
  deriving DecidableEq, Repr

def State.entryHead (s : State) (ep : EnginePlan) (i : Nat) : Entry64 :=
  let h := s.bytes (.stack ep.engine) (headAddr ep i) 64
  { stamp := BitVec.ofNat 32 (bytesAt h 0 4), group := bytesAt h 4 4 / 2 ^ 28, block := bytesAt h 4 4 % 2 ^ 28,
    kind := bytesAt h 8 1, k := bytesAt h 9 1, armed := bytesAt h 10 1 % 2 = 1, q := bytesAt h 12 5,
    target := BitVec.ofNat 32 (bytesAt h 20 4), factor := BitVec.ofNat 32 (bytesAt h 24 4) }

def entryBytes (x : Entry64) : List Byte :=
  leBytes 4 x.stamp.toNat ++ leBytes 4 (blockIdent x.group x.block) ++ leBytes 1 x.kind ++ leBytes 1 x.k
    ++ leBytes 1 (if x.armed then 1 else 0) ++ [0] ++ leBytes 5 x.q ++ [0, 0, 0] ++ leBytes 4 x.target.toNat
    ++ leBytes 4 x.factor.toNat ++ List.replicate 36 0

def State.writeHead (s : State) (ep : EnginePlan) (i : Nat) (x : Entry64) : State :=
  s.store (.stack ep.engine) (headAddr ep i) (entryBytes x)

/-- The engine reads the headers of its entries of a kind (R175, R178). -/
def State.touchHeads (s : State) (ep : EnginePlan) (kind : Nat) : State :=
  s.touchSegs (.stack ep.engine)
    (((s.sluiceUsed ep).filter (fun x => x.2 = kind)).map (fun x => (headAddr ep x.1, 64))) 5

/-- Entries of a kind, ascending index. -/
def State.entriesOf (s : State) (ep : EnginePlan) (kind : Nat) : List (Nat × Entry64) :=
  ((s.sluiceUsed ep).filter (fun x => x.2 = kind)).map (fun x => (x.1, s.entryHead ep x.1))

/-- An engine without spare entries withholds its credits: an episode begins with E6060 (R236). -/
def State.checkSluice (s : State) (ep : EnginePlan) : State :=
  let e := ep.engine.val
  if s.sluiceFree ep ≤ (s.engine e).busy && !(s.engine e).full then
    let n (k : Nat) : Nat := ((s.sluiceUsed ep).filter (fun x => x.2 = k)).length
    (s.modEngine e (fun x => { x with full := true })).raise 0x6060 e 0
      (leBytes 4 (s.sluiceFree ep) ++ leBytes 4 (n 1) ++ leBytes 4 (n 2) ++ leBytes 4 (n 3) ++ leBytes 4 (n 4))
  else s

/-- Free entries: the header is zeroed, and an episode ends. -/
def State.freeEntries (s : State) (ep : EnginePlan) (is : List Nat) : State :=
  if is = [] then s
  else (is.foldl (fun s i => s.store (.stack ep.engine) (headAddr ep i) (List.replicate 64 0)) s).modEngine
    ep.engine.val (fun x => { x with full := false })

/-- Write data and then the header of an entry of free choice; none when no entry is free. -/
def State.newEntry (s : State) (ep : EnginePlan) (x : Entry64) (data : List Byte) : Option (Nat × State) :=
  if s.sluiceFree ep = 0 then none
  else
    let r := s.pickFree (sluiceEntries ep) ((s.sluiceUsed ep).map (·.1))
    let s := r.2.store (.stack ep.engine) (entryAddr ep r.1) data
    some (r.1, (s.writeHead ep r.1 x).checkSluice ep)

/-- The gradient of an entry (A32), and whether it, or its header, is poisoned (R179). -/
def State.entryGrad (s : State) (ep : EnginePlan) (i : Nat) : List (BitVec 32) × Bool :=
  let u := MemUnit.stack ep.engine
  let bs := s.bytes u (entryAddr ep i) 16384
  ((List.range 4096).map (fun k => BitVec.ofNat 32 (bytesAt bs (4 * k) 4)), 
    s.anyMarked u (entryAddr ep i) 16384 || s.anyMarked u (headAddr ep i) 64)

def gradBytes (g : List (BitVec 32)) : List Byte := g.flatMap (fun v => leBytes 4 v.toNat)

/-! The journal (R244). -/

/-- One journal entry. -/
structure Journal where
  stamp : BitVec 32
  group : Nat
  block : Nat
  kind  : Nat
  rule  : Nat
  entry : Option Nat
  factor : BitVec 32
  vals  : Vals
  deriving DecidableEq, Repr

def State.journalAt (s : State) (ep : EnginePlan) (i : Nat) : Journal :=
  let h := s.bytes (.stack ep.engine) (ep.journal + 64 * i) 64
  let f (o : Nat) : BitVec 32 := BitVec.ofNat 32 (bytesAt h o 4)
  { stamp := f 0, group := bytesAt h 4 4 / 2 ^ 28, block := bytesAt h 4 4 % 2 ^ 28, kind := bytesAt h 8 1,
    rule := bytesAt h 9 1, entry := if f 12 = 0xFFFFFFFF then none else some (f 12).toNat, factor := f 16,
    vals := ⟨f 20, f 24, f 28, f 32, f 36, false⟩ }

def journalBytes (x : Journal) : List Byte :=
  let v : Vals := if isRuleM x.rule then x.vals else { x.vals with beta1 := 0, beta2 := 0, eps := 0 }
  leBytes 4 x.stamp.toNat ++ leBytes 4 (blockIdent x.group x.block) ++ leBytes 1 x.kind ++ leBytes 1 x.rule ++ [0, 0]
    ++ leBytes 4 (x.entry.getD 0xFFFFFFFF) ++ leBytes 4 x.factor.toNat ++ v.bytes ++ List.replicate 24 0

def Journal.isFor (x : Journal) (g b : Nat) (stamp : BitVec 32) : Bool := x.group = g && x.block = b && x.stamp = stamp

/-- Journal entries of a block and step. -/
def State.journalOf (s : State) (ep : EnginePlan) (g b : Nat) (stamp : BitVec 32) : List Nat :=
  (s.journalUsed ep).filter (fun i => (s.journalAt ep i).isFor g b stamp)

/-- Write a journal entry: over the one that the block has for the step, or else in a slot of free choice on a channel that
does not retrain. Each entry belongs to a block in progress, and at most 64 are (R221), so that a slot is free. -/
def State.writeJournal (s : State) (ep : EnginePlan) (x : Journal) : State :=
  let at' (s : State) (i : Nat) : State := s.store (.stack ep.engine) (ep.journal + 64 * i) (journalBytes x)
  match s.journalOf ep x.group x.block x.stamp with
  | i :: _ => at' s i
  | [] =>
    let used := s.journalTaken ep
    if 64 ≤ used.length then s
    else let r := s.pickFree 64 used; at' r.2 r.1

def State.clearJournal (s : State) (ep : EnginePlan) (g b : Nat) (stamp : BitVec 32) : State :=
  (s.journalOf ep g b stamp).foldl (fun s i =>
    s.store (.stack ep.engine) (ep.journal + 64 * i) (List.replicate 64 0)) s

/-! Group values (R226). -/

/-- Values in force for the blocks of a step. -/
def State.valsFor (s : State) (g : Nat) (stamp : BitVec 32) : Vals :=
  let as := mget [] s.acts g
  let zero : Vals := ⟨0, 0, 0, 0, 0, false⟩
  match as.find? (fun a => 0 ≤ stampDiff stamp a.stamp) with
  | some a => a.vals
  | none => (as.getLast?.map (·.vals)).getD zero

/-! Acceptance (R244). -/

def ruleOf (j : JobPlan) (g : Nat) : Nat := ((planGroup j g).map (·.rule)).getD 1

/-- Packets of a block and step have been accepted before: the block has its entry. -/
def Engine.holds (x : Engine) (p : Nat) (h : TailHdr) : Bool :=
  let same (k : TailHdr) : Bool := k.group = h.group && k.block = h.block && k.stamp = h.stamp
  x.ins.any (fun r => r.part.val = p && same r.blk.hdr) || x.deferred.any (fun d => d.1.val = p && same d.2.hdr)

/-- The engine accepts the first packet of a block: an arrival entry for an owned block that is, or will be, the next
expected, and of which it holds no other arrival for the step (R244). -/
def State.journalArrival (s : State) (j : JobPlan) (ep : EnginePlan) (p : Nat) (h : TailHdr) : State :=
  let g := h.group.toNat
  let b := h.block.toNat
  let mine : Bool := (planBlock j g b).any (fun bp => bp.owner = s.moduleId && bp.engine = ep.engine)
    && (mfind (ekey p g b) (s.engine ep.engine.val).expected).any (fun n => decide (0 ≤ stampDiff h.stamp n))
  if mine then
    s.writeJournal ep ⟨h.stamp, g, b, 1, ruleOf j g, none, 0x3F800000, s.valsFor g h.stamp⟩
  else s

end Sys2Proof.Machine
end

