-- ==== Sys2Proof/Machine/Deliver.lean ====
section
/-! DEFINITION. Where a flit goes when it leaves a router: into its tile (R107, R127, R137, R160, R264), or through an edge
gate to a stack, a port or a relay (R18, R152, R195, R203, R206, R214). -/
namespace Sys2Proof.Machine

/-! Elements of the carry formats (R156, R201). -/

def elemWidth (fp16 : Bool) : Nat := if fp16 then 2 else 4
def carryFmt (fp16 : Bool) : Fmt := if fp16 then .fp16 else .a32

/-- Elements as bit patterns. -/
def patsOf (fp16 : Bool) (bs : List Byte) : List (BitVec 32) :=
  (List.range (bs.length / elemWidth fp16)).map (fun i =>
    BitVec.ofNat 32 (bytesAt bs (i * elemWidth fp16) (elemWidth fp16)))

def tailNum (fp16 : Bool) (v : BitVec 32) : Num := (carryFmt fp16).decode v.toNat
def elemsOf (fp16 : Bool) (bs : List Byte) : List Num := (patsOf fp16 bs).map (tailNum fp16)
def toFp16 (x : Num) : BitVec 32 := BitVec.ofNat 32 (Fmt.fp16.encode .nearestEven x)

/-- Packets of a block in a carry format, and elements of each (R201). -/
def partsOf (fp16 : Bool) : Nat := if fp16 then 2 else 4
def partLen (fp16 : Bool) : Nat := 4096 / partsOf fp16

/-- Put the elements of one packet into a block. -/
def placePart (fp16 : Bool) (i : Nat) (es all : List (BitVec 32)) : List (BitVec 32) :=
  let n := partLen fp16
  let es := es.take n ++ List.replicate (n - es.length) 0
  all.take (i * n) ++ es ++ all.drop ((i + 1) * n)

/-- Every packet of the block is there. -/
def RedIn.whole (r : RedIn) : Bool := (List.range (partsOf r.blk.hdr.fp16)).all r.parts.contains

/-! Delivery in a tile. -/

/-- Bytes from the network are to be written in SRAM, at the first place of the order; a poisoned flit poisons its words
(R107, R179). -/
def State.arrive (s : State) (t : TileId) (segs : List (Nat × Nat)) (f : Flit) (k : After) : State :=
  s.modTile t.val (fun x =>
    x.addAccess (.write true segs f.data (List.replicate f.data.length f.poison) k) segs)

/-- A flit for a landing slot (R127). -/
def State.landFlit (s : State) (t : TileId) (d : Dest) (f : Flit) : State :=
  match (s.tile t.val).landingOf d.buf.val with
  | none => s
  | some l =>
    (s.modTile t.val (fun x =>
      let y := x.slot d.buf.val d.slot.val
      x.setSlot d.buf.val d.slot.val { y with len := f.len, ctr := d.ctr })).arrive t
      [(l.base + d.slot.val * l.size + f.off, f.data.length)] f (.land d.buf.val d.slot.val)

/-- A flit of a MOVE from another tile: into SRAM, or as a write at the vault interface (R110, R117). -/
def State.moveFlitIn (s : State) (t : TileId) (f : Flit) (space : Nat) (segs : List (Nat × Nat)) : State :=
  if space = 2 then
    s.vaultAsk t.val ⟨false, false, .move f.src f.xid, f.off, f.data.length, segs, 0, f.data,
      List.replicate f.data.length f.poison⟩
  else s.arrive t segs f (.ack f.src f.xid)

/-- A flit of read data for a MOVE of the tile; with the last one of a packet its bytes have arrived (R137). -/
def State.readFlitIn (s : State) (t : TileId) (f : Flit) : State :=
  let s := s.modXfer t.val f.xid (fun z => { z with
    data := (if f.head then [] else z.data) ++ f.data,
    bad := (if f.head then [] else z.bad) ++ List.replicate f.data.length f.poison })
  if f.tail then
    match (s.tile t.val).xfer? f.xid with
    | some (_, z) => s.moveBytes t f.xid (f.off / 4096 * 4096) z.data z.bad
    | none => s
  else s

/-- A flit of a spilled transfer (R129). -/
def State.spillFlitIn (s : State) (t : TileId) (f : Flit) (d : Dest) : State :=
  s.modTile t.val (fun x =>
    let mine (i : SpillIn) : Bool := i.src.val = f.src && i.id = f.xid
    let bad := List.replicate f.data.length f.poison
    if x.spillIn.any mine then
      { x with spillIn := x.spillIn.map (fun i => if mine i then { i with data := i.data ++ f.data, bad := i.bad ++ bad } else i) }
    else { x with spillIn := x.spillIn ++ [⟨Fin.ofNat 6912 f.src, f.xid, f.q, d, f.len, f.data, bad⟩] })

def State.toInbox (s : State) (t : Nat) (m : Msg) : State := s.modTile t (fun x => { x with inbox := x.inbox ++ [m] })

/-- A control flit: a spill request or grant on VC0 (R129), or on VC2 the sum of a guard tree (R264). -/
def State.controlIn (s : State) (t : TileId) (f : Flit) : State :=
  if f.vc = 2 then s.toInbox t.val (.vote (BitVec.ofNat 32 (bytesAt f.data 0 4)))
  else match f.dests with
    | d :: _ =>
      if bytesAt f.data 0 1 = 0 then s.toInbox t.val (.spillRequest (Fin.ofNat 6912 f.src) f.q d.buf.val)
      else s.toInbox t.val (.spillGrant (Fin.ofNat 6912 f.src) d.buf.val)
    | [] => s

/-- A credit comes back: of a landing slot, to its tile, or to the router or the edge unit that holds it (R127, R153); or of
a relay, whose slot is free again (R214). -/
def State.creditIn (s : State) (t : TileId) (f : Flit) : State :=
  match f.dests with
  | d :: _ =>
    if s.creditBeyond f then
      s.modRouter t.val (fun r => { r with credits := r.credits ++ [(d.tile, d.buf.val, d.slot.val)] })
    else s.toInbox t.val (.credit d.tile d.buf.val d.slot.val)
  | [] =>
    let r := f.edge - 1
    s.setRelay r { s.relay r with inflight := (s.relay r).inflight - 1 }

/-- A flit leaves a router by its local output and is accepted there. Responses to a tile in reset are discarded (R144,
R381). -/
def State.deliverFlit (s : State) (t : TileId) (f : Flit) : State :=
  if f.ty = .response && s.inReset t.val then s
  else match f.ty with
  | .response =>
    if f.addr.isSome then match f.dests with
      | d :: _ => s.landRefill t d.buf.val d.slot.val f.off f.data (List.replicate f.data.length f.poison)
      | [] => s.readFlitIn t f
    else if bytesAt f.data 0 1 = 0 then s.ackXfer t.val f.xid f.len false
    else s.toInbox t.val (.refusal (bytesAt f.data 0 1) f.route f.src f.part.val f.xid f.len)
  | .credit => s.creditIn t f
  | .control => s.controlIn t f
  | .spill => match f.addr, f.destAt t.val with
    | some (_, segs), _ => s.vaultAsk t.val ⟨false, false, .spill, 0, f.data.length, segs, 0, f.data,
        List.replicate f.data.length f.poison⟩
    | none, some d => s.spillFlitIn t f d
    | none, none => s
  | .readReq => match f.addr, f.dests with
    | some (_, segs), d :: _ => s.vaultAsk t.val
        ⟨false, true, .refill f.src d.buf.val d.slot.val, 0, (segs.map (·.2)).sum, segs, 0, [], []⟩
    | some (sp, segs), [] => s.toInbox t.val (.readRequest (Fin.ofNat 6912 f.src) f.xid f.off sp segs)
    | none, _ => s
  | .signal => match (f.destAt t.val).bind (·.ctr) with
    | some c => s.toInbox t.val (.counter c)
    | none => s
  | .data => match f.addr, f.destAt t.val with
    | some (sp, segs), _ => s.moveFlitIn t f sp segs
    | none, some d => s.landFlit t d f
    | none, none => s
  | .reduce => match f.destAt t.val with
    | some d => s.landFlit t d f
    | none =>
      -- the root of a guard tree multicasts the sum on the next route (R264)
      if f.hdr.isSome then s
      else s.pushFlits t.val 4 2 [{ f with vc := 2, ty := .control, route := f.route + 1, src := t.val, age := 0 }]

/-- The local output takes a flit; while a vault retrains, requests for it and transfers for an overflow area in it wait
(R183). -/
def State.localRoom (s : State) (t : Nat) (f : Flit) : Bool :=
  !(f.forVault && s.vaultPass t) && !(f.ty = .spill && f.addr.isNone && s.vaultPass (s.overVault t))

/-- An output can take a flit: a credit of the far end's buffer (R138, R152), at most one flit to a net cycle of either end
(R149). -/
def State.room (s : State) (t out vc : Nat) (f : Flit) : Bool :=
  if out = 4 then s.localRoom t f
  else match neighbour t out with
    | some u => decide (((s.router u).buf (opposite out) vc).length < linkDepth t out)
        && mfind (opposite out) (s.router u).got != some (s.netOf u)
    | none => decide (((s.router t).gateBuf out vc).length < 16)

/-- A flit on a link; one into a region whose network rail is down is lost (R162). -/
def State.linkFlit (s : State) (u port : Nat) (f : Flit) : State :=
  if (s.region (regionOf u)).netUp then
    (s.pushFlits u port f.vc.val [f]).modRouter u (fun r => { r with got := mset port (s.netOf u) r.got })
  else s

/-- A flit leaves a router by an output (R133, R164). -/
def State.sendFlit (s : State) (t out : Nat) (f : Flit) : State :=
  let s := s.bump 0x7300 (out + 1) t 1
  if out = 4 then s.deliverFlit (Fin.ofNat 6912 t) f
  else match neighbour t out with
    | some u => s.linkFlit u (opposite out) f
    | none => s.modRouter t (fun r =>
        { r with gate := putFlits (bufKey out f.vc.val) (r.gateBuf out f.vc.val ++ [f]) r.gate })

/-! The tailrace at the gates (R203, R206). -/

/-- The reduction unit that takes the local gate partial of a block at a gate of a side. -/
def State.tailPort (s : State) (p d : Nat) (h : TailHdr) : Option Nat :=
  (s.job p).bind (fun j => (planBlock j h.group.toNat h.block.toNat).bind (fun bp =>
    if bp.inputs.contains none && portSide bp.redPort.val = d then some bp.redPort.val else none))

/-- The engine whose gate a perimeter tile is. -/
def State.tailEngine (s : State) (p t d : Nat) : Option Nat :=
  (List.range 32).find? (fun e => engineSide e = d && (s.stackGates p e).contains t)

/-- A block whose packets go on coming. -/
def RedIn.openFor (r : RedIn) (p : PartId) (h : TailHdr) : Bool :=
  r.part = p && r.blk.hdr.stamp = h.stamp && r.blk.hdr.group = h.group && r.blk.hdr.block = h.block && !r.whole

/-- A port cannot take a block: the reduction unit of its own block of the front cannot emit (R206): its output's
sub-port takes packets and has no credit for them. -/
def State.portHolds (s : State) (port : Nat) : Bool :=
  (s.port port).ins.any (fun r =>
    match (s.job r.part.val).bind (fun j => planBlock j r.blk.hdr.group.toNat r.blk.hdr.block.toNat) with
    | some bp => match bp.output with
      | some y => (s.sub y.1.val y.2.val).takes && (s.sub y.1.val y.2.val).queue.any (fun k => k.hdr.vc = 3)
      | none => s.withholds bp.engine.val
    | none => false)

/-- The unit behind a gate takes a flit of the tailrace. -/
def State.tailRoom (s : State) (t d : Nat) (f : Flit) (h : TailHdr) : Bool :=
  match s.tailPort f.part.val d h with
  | some q => !(f.head && s.portHolds q)
  | none => match s.tailEngine f.part.val t d with
    | some e => if (s.engine e).ins.any (fun r => r.openFor f.part h) then (s.engine e).st = 2
        else !s.withholds e
    | none => true

/-- An engine takes a packet of a block: the first one is accepted into its journal before any other write (R244). One of
a block that repair marked lost is discarded and counted (R246). -/
def State.engineTake (s : State) (e : Nat) (p : PartId) (b : TailBlock) : State :=
  let h := b.hdr
  let x := s.engine e
  if x.lost.contains (ekey p.val h.group.toNat h.block.toNat, h.stamp) then s.bump 0x7440 0xD e 1
  else match x.ins.find? (fun r => r.openFor p h) with
  | some r =>
    let r' : RedIn := { r with
      blk := ⟨{ r.blk.hdr with poison := r.blk.hdr.poison || h.poison }, placePart h.fp16 h.part.toNat b.grad r.blk.grad⟩,
      parts := h.part.toNat :: r.parts }
    s.setEngine e { x with ins := x.ins.map (fun q => if q = r then r' else q) }
  | none =>
    let s := s.setEngine e { x with ins := x.ins ++
      [⟨p, none, ⟨{ h with part := 0 }, placePart h.fp16 h.part.toNat b.grad (List.replicate 4096 0)⟩, [h.part.toNat], false, 0⟩] }
    match (s.job p.val).bind (fun j => (planEngine j e).map (fun ep => (j, ep))) with
    | some (j, ep) => (if x.holds p.val h then s else (s.catchUp ep.engine).journalArrival j ep p.val h).checkSluice ep
    | none => s

/-- A whole packet of the tailrace has passed a gate; its poison is the OR over its flits (R157, R203, R208). -/
def State.tailPacket (s : State) (t d : Nat) (f : Flit) (h : TailHdr) (fs : List Flit) : State :=
  let b : TailBlock :=
    ⟨{ h with poison := h.poison || fs.any (·.poison) }, patsOf h.fp16 (fs.flatMap (·.data))⟩
  let s := s.countPassed f.part.val h
  match s.tailPort f.part.val d h with
  | some q => s.modPort q (fun x => { x with gateIn := x.gateIn ++ [(f.part, b)] })
  | none => match s.tailEngine f.part.val t d with
    | some e => s.engineTake e f.part b
    | none => s

/-! Other traffic at the gates. -/

/-- A destination counter in transfer fields: 0xFF for none. -/
def ctrCode (c : Option (Fin 64)) : Nat := match c with
  | some c => c.val
  | none => 0xFF

/-- A packet of VC1 or VC4 that no relay takes leaves the module: a PUT as type 2, a signal as type 3 (R297). Which module
a route leads to is not stated: a free number (log entry 26). The transfer fields name tile, landing buffer, slot and
counter; their layout is the model's (log entry 26). -/
def State.linkOut (s : State) (f : Flit) (bs : List Byte) (poison : Bool) : State :=
  match f.dests with
  | [] => s
  | d :: _ =>
    let h : PktHdr :=
      { vc := f.vc, layer := false, ty := if f.ty = .signal then 3 else 2,
        slots := if bs.length ≤ 64 then 0 else (bs.length + 127) / 128, dst := BitVec.ofNat 14 (Config.freeNat s.free),
        src := s.moduleId, job := BitVec.ofNat 32 (s.obj 0x2102 (f.part.val + 1) 0), poison := poison }
    { s with free := s.free + 1 }.sendLocal
      ⟨h, leBytes 2 d.tile.val ++ leBytes 1 d.buf.val ++ leBytes 1 d.slot.val
        ++ leBytes 1 (ctrCode d.ctr), if f.ty = PktType.signal then [] else bs⟩

/-- A whole packet of VC1 or VC4 at a gate (R18, R174, R214, R297). -/
def State.gatePacket (s : State) (t d : Nat) (f : Flit) (fs : List Flit) : State :=
  let bs := fs.flatMap (·.data)
  let bad := fs.any (·.poison)
  match f.addr with
  | some (sp, _) =>
    if 4 ≤ sp && engineSide (sp - 4) = d then
      s.modEngine (sp - 4) (fun x => { x with reqs := x.reqs ++ fs.map (fun g => .move t g) })
    else s.refuse t refuseNoRoute f
  | none => match f.ty, f.dests with
    | .data, x :: _ => match s.relayFor d f.part.val x.buf.val with
      | some r => s.relayTake r t f bs bad
      | none => s.linkOut f bs bad
    | .signal, _ => s.linkOut f bs bad
    | _, _ => s

/-- The edge unit behind a gate takes the oldest flit of a VC. -/
def State.takeGateFlit (s : State) (t d vc : Nat) (f : Flit) : State :=
  let k := bufKey d vc
  let r := s.router t
  let fs := (if f.head then [] else mget [] r.gatePk k) ++ [f]
  let s := s.setRouter t { r with
    gate := putFlits k ((r.gateBuf d vc).drop 1) r.gate, gatePk := putFlits k (if f.tail then [] else fs) r.gatePk }
  if !f.tail then s
  else
    let f := fs.headD f
    match f.vc.val, f.hdr with
    | 3, some h => s.tailPacket t d f h fs
    | 1, _ => s.gatePacket t d f fs
    | 4, _ => s.gatePacket t d f fs
    | _, _ => s

def State.gateTakes (s : State) (t d : Nat) (f : Flit) : Bool :=
  match f.vc.val, f.hdr with
  | 3, some h => s.tailRoom t d f h
  | _, _ => true

/-- The order of the VCs at an edge gate: where several wait, R152 names none. VC0, VC5, then VC1 to VC4 by number is the
model's choice (log entry 22). -/
def gateOrder : List Nat := [0, 5, 1, 2, 3, 4]

/-- One net cycle of an edge gate toward the edge: one flit (R152), of the first VC that the unit takes. -/
def State.gateSink (s : State) (t d : Nat) : State :=
  match gateOrder.find? (fun vc => match (s.router t).gateBuf d vc with
    | f :: _ => s.gateTakes t d f
    | [] => false) with
  | some vc => match (s.router t).gateBuf d vc with
    | f :: _ => s.takeGateFlit t d vc f
    | [] => s
  | none => s

/-- One net cycle of an edge gate toward its router: one flit goes from the FIFO into the router's buffer, where that has
room (R138, R152). -/
def State.gateSource (s : State) (t d : Nat) : State :=
  let r := s.router t
  let front (vc : Nat) : List Flit := mget [] r.gateIn (bufKey d vc)
  match gateOrder.find? (fun vc => front vc != [] && (r.buf d vc).length < 8) with
  | some vc =>
    (s.setRouter t { r with gateIn := putFlits (bufKey d vc) ((front vc).drop 1) r.gateIn }).pushFlits t d vc ((front vc).take 1)
  | none => s

/-- The gates of a router, in both directions. -/
def State.gateCycle (s : State) (t : Nat) : State :=
  if (s.router t).gate = [] && (s.router t).gateIn = [] then s
  else (List.range 4).foldl (fun s d => if isPerimeterToward t d then (s.gateSink t d).gateSource t d else s) s

end Sys2Proof.Machine
end

