-- ==== Sys2Proof/Machine/Router.lean ====
section
/-! DEFINITION. What routers do: reception and replay (R136), routing and arbitration (R139, R142–R146), forks and leaf
credits (R153–R155), merges (R156–R158), the route watchdog (R141), flushes (R161), dead links and regions (R162) and the
direction tables (R144). -/
namespace Sys2Proof.Machine

/-! Packets in progress (R134): what their heads chose, whether their rest is discarded, and the outputs they hold. -/

def dropKey (who vc out : Nat) : Nat := (who * 8 + vc) * 8 + out
def Router.drops? (r : Router) (k : Nat) : Bool := r.drops.any (fun d => d.1 = k)
def Router.addDrop (r : Router) (k p : Nat) : Router := if r.drops? k then r else { r with drops := (k, p) :: r.drops }
def Router.delDrop (r : Router) (k : Nat) : Router := { r with drops := r.drops.filter (fun d => d.1 != k) }

/-- The rest of a packet is discarded, unless the flit discarded is its last. -/
def Router.dropRest (r : Router) (k : Nat) (f : Flit) : Router := if f.tail then r.delDrop k else r.addDrop k f.part.val

/-- A sender gives up the outputs it holds on a VC. -/
def Router.unlock (r : Router) (who vc : Nat) : Router :=
  { r with lock := r.lock.filter (fun e => !(e.1 % 8 = vc && e.2.1 = who)) }

/-- Lock values of R134's senders beside the inputs. -/
def holdWho (input : Nat) : Nat := 8 + input
def mergeWho (p route : Nat) : Nat := 16 + p * 512 + route

/-- A flit of a sender has gone out: the output is its packet's until its last flit (R134), and sends no other in this net
cycle (R139). -/
def Router.sentBy (r : Router) (out who now : Nat) (f : Flit) : Router :=
  { r with
    sent := mset out now r.sent,
    lock := if f.tail then mdel (bufKey out f.vc.val) r.lock else mset (bufKey out f.vc.val) (who, f.part.val) r.lock }

/-- Age of a packet by its head: 1 more for each 16 net cycles of waiting at this router, at most 255 (R139). -/
def State.ageNow (s : State) (t : Nat) (f : Flit) : Nat := min 255 (f.age + (s.netOf t - f.came) / 16)

/-- Discard the oldest flit of an input; the rest of its packet follows it. -/
def State.discard (s : State) (t port vc : Nat) (f : Flit) : State :=
  (s.popFlit t port vc).modRouter t (fun r =>
    ({ r with dec := mdel (bufKey port vc) r.dec }.unlock port vc).dropRest (dropKey port vc 7) f)

/-- Discard a packet from a flit on, and refuse it (R146). -/
def State.discardRefuse (s : State) (t port vc code : Nat) (f : Flit) : State := (s.discard t port vc f).refuse t code f

/-! Routing (R142–R144). -/

/-- What a router does with the oldest flit of an input VC. -/
inductive Plan where
  | sink                                      -- rest of a packet that is discarded
  | flush                                     -- of a partition that is being flushed
  | refuse (code : Nat)
  | one (out : Nat)
  | fork (outs leaf : List Nat)               -- several outputs, or a leaf branch
  | merge                                     -- MERGE_EMIT takes it
  | cast                                      -- a broadcast of the service gate
  deriving DecidableEq, Repr

def planOf (outs leaf : List Nat) : Plan :=
  match outs, leaf with
  | [], _ => .merge
  | [o], [] => .one o
  | os, ls => .fork os ls

/-- The choice of a head flit: by the direction tables on VC0 and VC5, else by its route entry. -/
def State.headPlan (s : State) (t port vc : Nat) (f : Flit) : Plan :=
  if f.isCast then .cast
  else if vc = 0 || vc = 5 then
    let d := s.nextDir t f.dst
    if d = 5 then .refuse refuseUnreachable else .one d
  else
    let e := (s.router t).entry f.part.val f.route
    if !entryOk e vc then .refuse refuseNoRoute
    else if entryMerge e then (if (entryOperands e).contains port then .merge else .refuse refuseNoRoute)
    else planOf (entryOuts e) (if vc = 2 then (entryOuts e).filter (entryLeaf e) else [])

/-- A router to which the flush of a partition has come discards its flits (R161). -/
def State.flushes (s : State) (t p : Nat) : Bool := (s.router t).flushing.contains p

/-- Body flits follow their head's choice (R142); one whose head is lost is lost as well. -/
def State.plan (s : State) (t port vc : Nat) (f : Flit) : Plan :=
  let r := s.router t
  if s.flushes t f.part.val && !f.isCast then .flush
  else if r.drops? (dropKey port vc 7) then .sink
  else if f.head then s.headPlan t port vc f
  else match mfind (bufKey port vc) r.dec with
    | some d => planOf d.outs d.leaf
    | none => .sink

/-- Why an output refuses a packet: a dead link, or its tile (R146, R160, R162). -/
def State.outRefusal (s : State) (t out : Nat) (f : Flit) : Option Nat :=
  if out = 4 then s.localRefusal t f
  else if (s.router t).dead.contains out then some refuseUnreachable
  else none

/-! Arbitration (R139). -/

/-- A flit that an output can send now: its sender and its place in the order. -/
structure Bid where
  out  : Nat
  who  : Nat
  rank : Nat
  deriving DecidableEq, Repr

/-- Local, north, east, south, west. -/
def inputOrder (port : Nat) : Nat := (port + 1) % 5

/-- VC0, then VC5, then the highest age, the lower VC, and the input; a held flit before the same input's next one. Between
flits of VC0, or of VC5, age and input decide as well (the model's choice: R139 names no order; log entry 22). -/
def rankOf (vc age input : Nat) (held : Bool) : Nat :=
  (if vc = 0 then 0 else if vc = 5 then 1 else 2) * 2 ^ 20 + (255 - age) * 2 ^ 12 + vc * 2 ^ 8
    + inputOrder input * 2 + (if held then 0 else 1)

/-- The output is not in the hands of another packet on the VC (R134), and has a credit for the flit. -/
def State.canSend (s : State) (t out vc who : Nat) (f : Flit) : Bool :=
  (match mfind (bufKey out vc) (s.router t).lock with
   | some l => l.1 = who
   | none => true)
  && s.room t out vc f

def State.inputBid (s : State) (t port vc : Nat) : Option Bid :=
  let r := s.router t
  match r.buf port vc with
  | f :: _ =>
    if mget 0 r.replays (bufKey port vc) % 2 = 1 then none
    else match s.plan t port vc f with
      | .one o =>
        if (s.outRefusal t o f).isNone && s.canSend t o vc port f then
          let age := if f.head then s.ageNow t f else ((mfind (bufKey port vc) r.dec).map (·.age)).getD 0
          some ⟨o, port, rankOf vc age port false⟩
        else none
      | _ => none
  | [] => none

/-- The landing slot that a leaf branch leads to. -/
def State.leafDest (s : State) (t out : Nat) (f : Flit) : Option Dest :=
  match s.branchEnd f.part.val f.route 2 t out with
  | some (u, 4) => f.destAt u
  | _ => none

/-- A held flit needs the slot credit of its leaf: at the head of each transfer (R153). -/
def Hold.needsCredit (h : Hold) (f : Flit) : Bool := f.leaf && f.head && f.off = 0 && !h.credit

/-- The state after that credit has been taken; none while it is not there. -/
def State.leafCredit (s : State) (t : Nat) (h : Hold) (f : Flit) : Option State :=
  if h.needsCredit f then
    match s.leafDest t h.out f with
    | some d => s.takeSlot d t true true
    | none => some s
  else some s

def State.holdBid (s : State) (t : Nat) (h : Hold) : Option Bid :=
  match h.flits with
  | f :: _ =>
    if (s.router t).drops? (dropKey h.input 2 h.out) || (s.outRefusal t h.out f).isSome
        || (s.leafCredit t h f).isNone || !s.canSend t h.out 2 (holdWho h.input) f then none
    else some ⟨h.out, holdWho h.input, rankOf 2 (if f.head then s.ageNow t f else h.age) h.input true⟩
  | [] => none

/-! Merges (R156–R158): the flits with which one goes on. -/

/-- The oldest flit of an operand, when it belongs to the entry's packets. -/
def State.operandFlit (s : State) (t p route port : Nat) : Option Flit :=
  match (s.router t).buf port 3 with
  | f :: _ => if f.part.val = p && f.route = route && !(s.router t).drops? (dropKey port 3 7)
      && mget 0 (s.router t).replays (bufKey port 3) % 2 = 0 then some f else none
  | [] => none

/-- The decision of a merge that begins: its entry, as the heads find it (R145). -/
def State.newMerge (s : State) (t p route : Nat) : Option MergeSt :=
  let e := (s.router t).entry p route
  if entryOk e 3 && entryMerge e then some { ports := entryOperands e, fp16 := e.getLsbD 30, out := (entryOuts e).headD 4 }
  else none

/-- The merge of an entry, when every operand that has not ended has its next flit: those flits, first operand first. -/
def State.mergeReady (s : State) (t p route : Nat) : Option (MergeSt × List (Nat × Flit)) :=
  if s.flushes t p then none
  else
    let take (m : MergeSt) (head : Bool) : Option (MergeSt × List (Nat × Flit)) :=
      ((m.ports.filter (fun i => !m.ended.contains i)).mapM (fun i =>
        match s.operandFlit t p route i with
        | some f => if f.head = head then some (i, f) else none
        | none => none)).map (fun fs => (m, fs))
    match mfind (p * 512 + route) (s.router t).merging with
    | some m => take m false
    | none => match s.newMerge t p route with
      | none => none
      | some m => (take m true).map (fun x =>
          let f0 := (x.2.head?.map (·.2)).map (fun f => (f.pktLen, f.pktBytes, s.ageNow t f))
          ({ m with
             uneven := x.2.any (fun y => some (y.2.pktLen, y.2.pktBytes) != f0.map (fun z => (z.1, z.2.1))),
             age := (f0.map (·.2.2)).getD 0 }, x.2))

def State.mergeBid (s : State) (t p route : Nat) : Option Bid :=
  match s.mergeReady t p route with
  | some (m, (i, f) :: _) =>
    if (s.router t).drops? (dropKey (mergeWho p route) 3 m.out) || (s.outRefusal t m.out f).isSome
        || !s.canSend t m.out 3 (mergeWho p route) f then none
    else some ⟨m.out, mergeWho p route, rankOf 3 m.age i false⟩
  | _ => none

/-- Entries whose merges have a flit at some input. -/
def Router.mergesHere (r : Router) : List (Nat × Nat) :=
  ((List.range 5).filterMap (fun i => (r.buf i 3).head?.map (fun f => (f.part.val, f.route)))).eraseDups

/-- The links by which a broadcast at an input goes on, when all of them can send it. -/
def State.castBids (s : State) (t port : Nat) : List Bid :=
  let outs := (s.broadcastMask t).filter (fun o => o != 4 && !(s.router t).dead.contains o)
  match (s.router t).buf port 0 with
  | f :: _ => if f.isCast && outs.all (fun o => s.canSend t o 0 port f) then
      outs.map (fun o => ⟨o, port, rankOf 0 (s.ageNow t f) port false⟩) else []
  | [] => []

def State.bids (s : State) (t : Nat) : List Bid :=
  let r := s.router t
  (List.range 5).flatMap (fun port => (List.range 6).filterMap (s.inputBid t port) ++ s.castBids t port)
    ++ r.holds.filterMap (s.holdBid t) ++ r.mergesHere.filterMap (fun m => s.mergeBid t m.1 m.2)

/-- The output grants a bid in this net cycle. -/
def State.wins (s : State) (t : Nat) (b : Bid) : Bool :=
  mfind b.out (s.router t).sent != some (s.netOf t)
    && (s.bids t).all (fun c => c.out != b.out || b.rank ≤ c.rank)

/-! Unicast (R142). -/

def State.forward (s : State) (t port vc out : Nat) (f : Flit) : State :=
  let age := if f.head then s.ageNow t f else ((mfind (bufKey port vc) (s.router t).dec).map (·.age)).getD 0
  let s := (s.popFlit t port vc).modRouter t (fun r =>
    { r.sentBy out port (s.netOf t) f with
      dec := if f.tail then mdel (bufKey port vc) r.dec else mset (bufKey port vc) ⟨f.part.val, [out], [], age⟩ r.dec })
  s.sendFlit t out { f with age := if f.head then age else f.age }

def State.routeUnicast (s : State) (t port vc out : Nat) (f : Flit) : State :=
  match s.outRefusal t out f with
  | some code => s.discardRefuse t port vc code f
  | none => match s.inputBid t port vc with
    | some b => if s.wins t b then s.forward t port vc out f else s
    | none => s

/-! Forks and leaf branches (R153, R154). -/

def Router.holdOf (r : Router) (input out : Nat) : Hold :=
  (r.holds.find? (fun h => h.input = input && h.out = out)).getD { input := input, out := out }

/-- Holds stand in the order of their inputs and outputs. -/
def Router.setHold (r : Router) (h : Hold) : Router :=
  let others := r.holds.filter (fun g => !(g.input = h.input && g.out = h.out))
  if h.flits = [] && !h.credit then { r with holds := others }
  else
    let n := h.input * 8 + h.out
    { r with holds := others.filter (fun g => g.input * 8 + g.out < n) ++ h :: others.filter (fun g => n < g.input * 8 + g.out) }

/-- A held flit leaves its branch. -/
def State.sendHeld (s : State) (t : Nat) (h : Hold) (f : Flit) (rest : List Flit) : State :=
  let age := if f.head then s.ageNow t f else h.age
  let last : Bool := f.tail && decide (f.len ≤ f.off + f.data.length)
  let s := s.modRouter t (fun r => (r.sentBy h.out (holdWho h.input) (s.netOf t) f).setHold
    { h with flits := rest, part := f.part.val, age := age, credit := (h.credit || h.needsCredit f) && !last })
  s.sendFlit t h.out { f with age := if f.head then age else f.age, leaf := false }

/-- A branch goes on: it discards a packet that its output refuses (R160, R162), and sends one flit when it is granted. -/
def State.drainHold (s : State) (t input out : Nat) : Nat → State
  | 0 => s
  | n + 1 =>
    let r := s.router t
    let h := r.holdOf input out
    let k := dropKey input 2 out
    match h.flits with
    | [] => s
    | f :: rest =>
      let gone (r : Router) : Router := (r.setHold { h with flits := rest, credit := false }).dropRest k f
      if r.drops? k then (s.modRouter t gone).drainHold t input out n
      else match s.outRefusal t out f with
        | some code =>
          ((s.modRouter t (fun r => (gone r).unlock (holdWho input) 2)).refuse t code f).drainHold t input out n
        | none => match s.holdBid t h with
          | some b => if s.wins t b then ((s.leafCredit t h f).getD s).sendHeld t h f rest else s
          | none => s

def State.drainHolds (s : State) (t input : Nat) : State :=
  (List.range 5).foldl (fun s out => s.drainHold t input out 9) s

/-- A fork takes no further flit of an input while the hold of one of its branches is full (R154). -/
def Router.holdFull (r : Router) (port : Nat) (outs : List Nat) : Bool :=
  outs.any (fun o => 8 ≤ (r.holdOf port o).flits.length)

/-- A multicast flit at a fork or leaf branch: one from each input in a net cycle, while every hold has room. -/
def State.routeMulticast (s : State) (t port : Nat) (outs leaf : List Nat) (f : Flit) : State :=
  let s := s.drainHolds t port
  if (s.router t).holdFull port outs || mfind (8 + port) (s.router t).sent = some (s.netOf t) then s
  else
    let age := if f.head then s.ageNow t f else 0
    let s := (s.popFlit t port 2).modRouter t (fun r =>
      let r := outs.foldl (fun r o =>
        let h := r.holdOf port o
        r.setHold { h with flits := h.flits ++ [{ f with leaf := leaf.contains o }] }) r
      { r with
        sent := mset (8 + port) (s.netOf t) r.sent,
        dec := if f.tail then mdel (bufKey port 2) r.dec else mset (bufKey port 2) ⟨f.part.val, outs, leaf, age⟩ r.dec,
        forkSince := mdel port r.forkSince, forkTold := r.forkTold.filter (· != port) })
    s.drainHolds t port

/-! Dead links (R136, R162). -/

/-- Partitions whose routes use a tile for which p holds. -/
def State.routesUse (s : State) (q : Nat) (p : Nat → Bool) : Bool :=
  (s.part q).bin.any (fun b => b.routes.any (fun e => p e.1.val))

/-- Stop the live partitions whose routes use a tile for which p holds, one E3040 each (R162). -/
def State.stopRouted (s : State) (p : Nat → Bool) (region : Nat) : State :=
  (List.range 16).foldl (fun s q =>
    if s.routesUse q p then
      if s.isLive q then (s.stopPart q 2 true).raise 0x3040 q 0 (leBytes 1 region)
      else if s.pstate q = 2 then s.modPart q (fun x => { x with barred := some region })
      else s
    else s) s

/-- Whole packets of a buffer: what follows the last packet end is cut off. -/
def wholePackets (fs : List Flit) : List Flit := (fs.reverse.dropWhile (fun f => !f.tail)).reverse

/-- The link at an input brings nothing more: a packet that has come in part is lost, and gives up what it holds. -/
def Router.cutInput (r : Router) (port : Nat) : Router :=
  (List.range 6).foldl (fun r vc =>
    let fs := wholePackets (r.buf port vc)
    let r := { r with
      bufs := putFlits (bufKey port vc) fs r.bufs,
      since := if fs = [] then mdel (bufKey port vc) r.since else r.since,
      replays := if fs = [] then mdel (bufKey port vc) r.replays else r.replays }
    if fs.head?.any (fun f => !f.head) then r
    else ({ r with dec := mdel (bufKey port vc) r.dec }.delDrop (dropKey port vc 7)).unlock port vc) r

/-- A link of a router is dead: its output sends no more, and its input brings no more. -/
def Router.markDead (r : Router) (d : Nat) : Router :=
  let r := r.cutInput d
  { r with
    dead := if r.dead.contains d then r.dead else d :: r.dead, lock := r.lock.filter (fun e => e.1 / 8 != d) }

/-- A link toward a region that is off is dead (R162); its mark is cleared once the region is up again (R348). -/
def Router.markLost (r : Router) (d : Nat) : Router :=
  if r.dead.contains d then r else { r.markDead d with lost := d :: r.lost }

/-- Mark a link dead in both directions (R136). -/
def State.killLink (s : State) (t d : Nat) : State :=
  let s := s.modRouter t (fun r => r.markDead d)
  match neighbour t d with
  | some u => s.modRouter u (fun r => r.markDead (opposite d))
  | none => s

/-- The flit's CRC fails: it waits for its replay; after 16 failed replays the link is dead, and what has not been received
on it is lost. Where its two tiles lie in different regions, E3040 and a barred start name the receiving router's (the
model's choice: R136 and R162 do not say; log entry 23). -/
def State.badCrc (s : State) (t port vc : Nat) : State :=
  let k := bufKey port vc
  let n := mget 0 (s.router t).replays k / 2 + 1
  if n ≤ 16 then s.modRouter t (fun r => { r with replays := mset k (2 * n + 1) r.replays })
  else
    let s := s.modRouter t (fun r => { r with bufs := mdel k r.bufs })
    let s := (s.killLink t port).raise 0x3060 t 0 (leBytes 1 port)
    s.stopRouted (fun u => u = t || neighbour t port = some u) (regionOf t)

/-! Reception. -/

/-! Flushes (R161). -/

/-- A list without the flits of a partition among its oldest 8, which stand in the router. -/
def flushBuf (p : Nat) (fs : List Flit) : List Flit := (fs.take 8).filter (fun f => f.part.val != p || f.isCast) ++ fs.drop 8

/-- Discard a partition's flits from the input buffers, fork holds and merge state of one router, with all that its packets
hold there. What stands before or behind it in a FIFO or in a tile is discarded as it comes. -/
def Router.flush (r : Router) (p now : Nat) : Router :=
  let mine (f : Flit) : Bool := f.part.val = p && !f.isCast
  let front := (r.bufs.filter (fun b => b.2.head?.any mine)).map (·.1)
  let bufs := (r.bufs.map (fun b => (b.1, flushBuf p b.2))).filter (fun b => b.2 != [])
  { r with
    bufs := bufs,
    since := (r.since.filter (fun e => bufs.any (fun b => b.1 = e.1))).map (fun e =>
      if front.contains e.1 then (e.1, now) else e),
    paused := r.paused.filter (fun e => !front.contains e.1),
    replays := r.replays.filter (fun e => !front.contains e.1),
    dec := r.dec.filter (fun e => e.2.part != p),
    drops := r.drops.filter (fun d => d.2 != p),
    lock := r.lock.filter (fun e => e.2.2 != p),
    holds := (r.holds.map (fun h =>
      { h with flits := h.flits.filter (fun f => !mine f), credit := h.credit && h.part != p })).filter
        (fun h => h.flits != [] || h.credit),
    forkSince := r.forkSince.filter (fun e => !front.contains (bufKey e.1 2)),
    forkTold := r.forkTold.filter (fun i => !front.contains (bufKey i 2)),
    merging := r.merging.filter (fun m => m.1 / 512 != p) }

/-- Flits of a partition in the input buffers and holds of a router. -/
def Router.flushCount (r : Router) (p : Nat) : Nat :=
  (((r.bufs.flatMap (fun b => b.2.take 8)) ++ r.holds.flatMap (·.flits)).filter (fun f =>
    f.part.val = p && !f.isCast)).length

/-- The flush of a partition comes to a router: it discards the partition's flits, and goes on to do so until the partition
starts. One that comes late, to a partition that has started again, changes nothing. -/
def State.flushHere (s : State) (t p : Nat) : State :=
  if s.isLive p then s
  else
    let r := s.router t
    let n := r.flushCount p
    let s := s.setRouter t { r.flush p (s.netOf t) with flushing := if r.flushing.contains p then r.flushing else p :: r.flushing }
    if n = 0 then s else s.bump 0x7300 0xA t n

/-- The service gate broadcasts the flush of a partition on VC0. -/
def State.sendFlush (s : State) (p : Nat) : State :=
  match s.serviceTile with
  | none => s
  | some g => s.gatePush g 3 0
      [{ vc := 0, ty := .control, part := Fin.ofNat 16 p, route := 0, dst := castDst, src := g, head := true, tail := true,
         len := 1, pktLen := 1, data := [2] }]

/-- R161: the service gate flushes a partition that has been stopped or reset; SC1 dispatches none while it restarts (R384). -/
def execPartitionFlush (p : PartId) (s : State) : Host.Outcome State Fault Refusal :=
  done (if s.isLive p.val || (s.core 1).down then s else s.sendFlush p.val)

/-- A broadcast goes on by every link of the router's mask at once, and its control logic takes it (R137, R144). -/
def State.routeCast (s : State) (t port : Nat) (f : Flit) : State :=
  let outs := (s.broadcastMask t).filter (fun o => o != 4 && !(s.router t).dead.contains o)
  let bs := s.castBids t port
  if bs.length = outs.length && bs.all (s.wins t) then
    let s := outs.foldl (fun s o =>
      (s.modRouter t (fun r => r.sentBy o port (s.netOf t) f)).sendFlit t o f) (s.popFlit t port 0)
    s.flushHere t f.part.val
  else s

/-- Route the oldest flit of an input (R142, R143, R161). -/
def State.routeFlit (s : State) (t port vc : Nat) (f : Flit) : State :=
  match s.plan t port vc f with
  | .flush => ((s.popFlit t port vc).modRouter t (fun r => { r with dec := mdel (bufKey port vc) r.dec })).bump 0x7300 0xA t 1
  | .sink => (s.popFlit t port vc).modRouter t (fun r => r.dropRest (dropKey port vc 7) f)
  | .refuse code => s.discardRefuse t port vc code f
  | .one o => s.routeUnicast t port vc o f
  | .fork os ls => s.routeMulticast t port os ls f
  | .merge => s
  | .cast => s.routeCast t port f

/-- R136, R142–R146: the oldest flit of an input VC, with the result of its CRC, is routed as its output grants it. -/
def execFlitReceive (t : TileId) (port : Fin 5) (vc : Fin 6) (crcOk : Bool) (s : State) :
    Host.Outcome State Fault Refusal :=
  done (
    if !(s.region (regionOf t.val)).netUp then s
    else match (s.router t.val).buf port.val vc.val with
      | [] => if vc.val = 2 then s.drainHolds t.val port.val else s
      | f :: _ =>
        let k := bufKey port.val vc.val
        if mget 0 (s.router t.val).replays k % 2 = 1 then s
        else if !crcOk && (neighbour t.val port.val).isSome then s.badCrc t.val port.val vc.val
        else (s.modRouter t.val (fun r => { r with replays := mdel k r.replays })).routeFlit t.val port.val vc.val f)

/-- R136: the sending router resends the flit that failed at its neighbour. -/
def execHopReplayRequest (t : TileId) (dir : Fin 4) (vc : Fin 6) (s : State) : Host.Outcome State Fault Refusal :=
  done (
    match neighbour t.val dir.val with
    | none => s
    | some u =>
      let k := bufKey (opposite dir.val) vc.val
      let n := mget 0 (s.router u).replays k
      if n % 2 = 0 then s
      else (s.modRouter u (fun r => { r with replays := mset k (n - 1) r.replays })).bump 0x7300 6 t.val 1)

/-! Watchdogs (R141, R155). -/

/-- The owning partition is paused at a step boundary: the watch does not count (R141). -/
def State.watchHeld (s : State) (p : Nat) : Bool := s.pstate p = 5

/-- R141. A flit that still has not advanced after a further period raises E3050 again (the model's choice: no rule says;
log entry 23). -/
def execRouteWatchdogExpiry (t : TileId) (port : Fin 5) (vc : Fin 6) (s : State) : Host.Outcome State Fault Refusal :=
  done (
    let r := s.router t.val
    let n := s.obj 0x5300 5 t.val
    match r.buf port.val vc.val, mfind (bufKey port.val vc.val) r.since with
    | f :: _, some since =>
      let held := mget 0 r.paused (bufKey port.val vc.val)
      if n != 0 && decide (since + held + n < s.netOf t.val) && !s.watchHeld f.part.val then
        let s := s.raise 0x3050 t.val 0
          (leBytes 2 f.route ++ leBytes 1 vc.val ++ leBytes 1 port.val ++ leBytes 1 f.part.val)
        let s := s.modRouter t.val (fun r =>
          { r with
            since := mset (bufKey port.val vc.val) (s.netOf t.val) r.since,
            paused := mdel (bufKey port.val vc.val) r.paused })
        -- a merge wait above the watchdog's threshold (R411 kind 5)
        let s := if vc.val = 3 && entryMerge (r.entry f.part.val f.route) then s.tracePoint 5 t.val 0 else s
        if vc.val = 0 || vc.val = 5 then s else s.stopPart f.part.val 1 true
      else s
    | _, _ => s)

/-- The branch of the waiting tree whose hold is full (R154). -/
def State.fullBranch (s : State) (t port : Nat) : Option Nat :=
  match (s.router t).buf port 2 with
  | f :: _ => match s.plan t port 2 f with
    | .fork os _ => os.find? (fun o => 8 ≤ ((s.router t).holdOf port o).flits.length)
    | _ => none
  | [] => none

/-- The fork at an input withholds it: a multicast flit waits there, and the hold of one of its branches is full (R154). -/
def State.withheld (s : State) (t port : Nat) : Bool := (s.fullBranch t port).isSome

/-- R155. Where several branches are full, E3010 names the first in the order N, E, S, W, local (the model's choice; log
entry 23). -/
def execForkStallExpiry (t : TileId) (port : Fin 5) (s : State) : Host.Outcome State Fault Refusal :=
  done (
    let r := s.router t.val
    match mfind port.val r.forkSince with
    | some n =>
      if decide (n + s.obj 0x5300 6 t.val < s.netOf t.val) && !r.forkTold.contains port.val && s.withheld t.val port.val then
        match s.fullBranch t.val port.val, r.buf port.val 2 with
        | some o, f :: _ =>
          (s.setRouter t.val { r with forkTold := port.val :: r.forkTold }).raise 0x3010 t.val (s.tile t.val).stamp
            (leBytes 2 f.route ++ leBytes 1 f.part.val ++ leBytes 1 o)
            |>.tracePoint 5 t.val 0
        | _, _ => s
      else s
    | none => s)

/-! Merging (R156–R158, R80). -/

/-- Element by element in operand order, each addition rounded to A32. -/
def mergeElems (xs : List (List Num)) : List Num :=
  match xs with
  | [] => []
  | x :: rest => rest.foldl (fun a b => (a.zip b).map (fun p => Num.rne .a32 (p.1.add p.2))) x

def packElems (fp16 : Bool) (xs : List Num) : List Byte :=
  xs.flatMap (fun x => leBytes (elemWidth fp16) ((carryFmt fp16).encode .nearestEven x))

/-- The merged flit of one flit of every operand (R156, R157). Which source tile, transfer fields and age the merged packet
carries no rule says: those of the first operand are the model's choice (log entry 22). -/
def mergeFlits (fp16 : Bool) (fs : List Flit) (f : Flit) : Flit :=
  let bs := packElems fp16 (mergeElems (fs.map (fun g => elemsOf fp16 g.data)))
  { f with data := bs, poison := fs.any (·.poison) || nonFinite (elemsOf fp16 bs) }

/-- A flit of a mismatched packet: canonical NaN and poison (R158). -/
def nanFlit (fp16 : Bool) (f : Flit) : Flit :=
  { f with data := packElems fp16 ((elemsOf fp16 f.data).map (fun _ => .nan)), poison := true }

/-- Take one flit of each operand; those that a longer packet has left, once the first operand ends, are discarded. -/
def State.takeOperands (s : State) (t p route : Nat) (m : MergeSt) (fs : List (Nat × Flit)) (last : Bool) : State :=
  let s := (fs.pwFilter (fun x y => x.1 ≠ y.1)).foldl (fun s x => (s.popFlit t x.1 3).modRouter t (fun r =>
    { r with dec := if x.2.tail then mdel (bufKey x.1 3) r.dec else mset (bufKey x.1 3) ⟨p, [], [], m.age⟩ r.dec })) s
  let key := p * 512 + route
  s.modRouter t (fun r =>
    if last then
      let left := (fs.filter (fun x => !x.2.tail)).map (·.1)
      { left.foldl (fun r i => { r with dec := mdel (bufKey i 3) r.dec }.addDrop (dropKey i 3 7) p) r with
        merging := mdel key r.merging }
    else
      let ended := m.ended ++ (fs.filter (fun x => x.2.tail)).map (·.1)
      { r with merging := mset key { m with ended := ended } r.merging })

/-- R156–R158: one flit of the present packet of an entry. Where its output refuses the packet (a dead link: R21, R162; a tile:
R160), the response goes to the source that the merged packet carries, that of the first operand: "the sender" of a merged
packet is not stated, so this is the model's choice (log entry 22). -/
def execMergeEmit (t : TileId) (p : PartId) (route : Fin 512) (s : State) : Host.Outcome State Fault Refusal :=
  done (
    if !(s.region (regionOf t.val)).netUp then s
    else match s.mergeReady t.val p.val route.val with
      | some (m, (i, f) :: fs) =>
        let all := (i, f) :: fs
        let g := if m.uneven then nanFlit m.fp16 f else mergeFlits m.fp16 (all.map (·.2)) f
        let k := dropKey (mergeWho p.val route.val) 3 m.out
        let taken (s : State) : State :=
          let s := s.takeOperands t.val p.val route.val m all f.tail
          if m.uneven && f.head then s.bump 0x7300 0xE t.val 1 else s
        if (s.router t.val).drops? k then (taken s).modRouter t.val (fun r => r.dropRest k f)
        else match s.outRefusal t.val m.out g with
          | some code =>
            ((taken s).modRouter t.val (fun r => (r.unlock (mergeWho p.val route.val) 3).dropRest k f)).refuse t.val code g
          | none => match s.mergeBid t.val p.val route.val with
            | some b =>
              if s.wins t.val b then
                ((taken s).modRouter t.val (fun r => r.sentBy m.out (mergeWho p.val route.val) (s.netOf t.val) f)).sendFlit
                  t.val m.out { g with age := if f.head then m.age else g.age }
              else s
            | none => s
      | _ => s)

/-! Dead regions (R162). -/

/-- R162. -/
def execNeighbourLinkLoss (r : RegionId) (s : State) : Host.Outcome State Fault Refusal :=
  done (
    if !(s.region r.val).isOff then s
    else
      let edges := (regionTiles r.val).flatMap (fun t => (List.range 4).filterMap (fun d =>
        match neighbour t d with
        | some u => if regionOf u = r.val then none else some (u, opposite d)
        | none => none))
      let s := edges.foldl (fun s x => s.modRouter x.1 (fun y => y.markLost x.2)) s
      s.stopRouted (fun t => regionOf t = r.val) r.val)

/-- Marks toward a region that is up again are cleared (R348). -/
def State.clearMarks (s : State) : State :=
  { s with routers := s.routers.map (fun e =>
      let back (d : Nat) : Bool := e.2.lost.contains d && match neighbour e.1 d with
        | some u => (s.region (regionOf u)).netUp
        | none => false
      (e.1, { e.2 with dead := e.2.dead.filter (fun d => !back d), lost := e.2.lost.filter (fun d => !back d) })) }

/-- R144, R348: the tables avoid every ROUTER_OUT tile and every dead link. -/
def execDirectionTableRewrite (s : State) : Host.Outcome State Fault Refusal :=
  done (
    if s.floor.isNone then s
    else
      let s := s.clearMarks
      let holes := (List.range 6912).flatMap (fun t =>
        if s.floorOf t = 3 then (List.range 4).flatMap (fun d => (t * 4 + d) :: ((neighbour t d).map (fun u =>
          u * 4 + opposite d)).toList) else [])
      let dead := s.routers.flatMap (fun e => e.2.dead.map (fun d => e.1 * 4 + d))
      { s with avoid := (holes ++ dead).eraseDups, tablesOn := true })

end Sys2Proof.Machine
end

