-- ==== Sys2Proof/Machine/Tailrace.lean ====
section
/-! DEFINITION. The tailrace at the ports (R201–R204, R206, R80): reception of block parts and the port reduction. -/
namespace Sys2Proof.Machine

/-- The tailrace header as transfer-field bytes (R201). -/
def tailBytes (h : TailHdr) : List Byte :=
  leBytes 16 (h.stamp.toNat + h.block.toNat * 2 ^ 32 + h.group.toNat * 2 ^ 60 + h.k.toNat * 2 ^ 64
    + (if h.poison then 2 ^ 69 else 0) + (if h.fp16 then 2 ^ 70 else 0) + h.part.toNat * 2 ^ 71
    + h.contrib.toNat * 2 ^ 73)

/-- Elements with A32 carry are converted to FP16 at the gate; an infinity from it poisons the block (R203, R157). -/
def gateConvert (b : TailBlock) : TailBlock :=
  if b.hdr.fp16 then b
  else
    let es := b.grad.map (fun v => toFp16 (tailNum false v))
    { hdr := { b.hdr with fp16 := true, poison := b.hdr.poison || nonFinite (es.map (tailNum true)) }, grad := es }

def RedIn.isFor (r : RedIn) (p : PartId) (input : Option (PortId × SubId)) (plan : BitVec 16) : Bool :=
  r.part = p && r.input = input && r.plan = plan

/-- The block that an input packet belongs to: a link packet's by its plan index, the local partial's by its header. -/
def planOfInput (j : JobPlan) (input : Option PartFrom) (h : TailHdr) : BitVec 16 :=
  match input with
  | some x => x.plan
  | none => planIndex j h.group.toNat h.block.toNat

/-- Put a packet into the oldest incomplete block of its input, or begin one. A part of a local A32 tree covers a quarter
of the block and is held as FP16. -/
def Port.takePart (x : Port) (p : PartId) (input : Option (PortId × SubId)) (plan : BitVec 16) (layer : Bool)
    (h : TailHdr) (blk : TailBlock) : Port :=
  let put (all : List (BitVec 32)) : List (BitVec 32) := placePart h.fp16 h.part.toNat (blk.grad.take (partLen h.fp16)) all
  let mark (ps : List Nat) : List Nat :=
    if h.fp16 then h.part.toNat :: ps
    else if ps.contains (10 + (h.part.toNat ^^^ 1)) then (h.part.toNat / 2) :: ps else (10 + h.part.toNat) :: ps
  match x.ins.find? (fun r => r.isFor p input plan && !r.whole) with
  | some r =>
    let r' : RedIn := { r with
      blk := ⟨{ r.blk.hdr with poison := r.blk.hdr.poison || blk.hdr.poison }, put r.blk.grad⟩,
      parts := mark r.parts, layer := r.layer || layer }
    { x with ins := x.ins.map (fun q => if q = r then r' else q) }
  | none =>
    { x with ins := x.ins ++
      [⟨p, input, ⟨{ blk.hdr with part := 0 }, put (List.replicate 4096 0)⟩, mark [], layer, plan⟩] }

/-- R202, R203, R204: one packet of a block arrives at a port reduction unit: from a link sub-port, or from a gate of the
port's side through which it has passed. -/
def execTailracePartReceive (port : PortId) (p : PartId) (input : Option PartFrom) (blk : TailBlock) (s : State) :
    Host.Outcome State Fault Refusal :=
  done (
    let x := s.port port.val
    let from' : Option (PortId × SubId) := input.map (·.link)
    let here : Bool := match from' with
      | some (q, u) => s.linkUp q.val u.val
      | none => s.sideClocked (portSide port.val) && x.gateIn.contains (p, blk)
    match s.job p.val with
    | none => s
    | some j =>
      let i := planOfInput j input blk.hdr
      let away : Option State := input.bind (fun y =>
        if !here then none
        else (s.takeTail y.link.1.val y.link.2.val).1.turnAway y.link.1.val y.link.2.val 3 4 (s.jobOf p.val) y.way)
      if away.isSome then away.getD s
      else if !here || x.failed || !s.isLive p.val
          || !(j.blocks[i.toNat]?).any (fun bp => bp.redPort = port && bp.inputs.contains from') then s
      else
        let take : State × Bool × Bool := match from' with
          | some (q, u) => s.takeTail q.val u.val
          | none => (s.modPort port.val (fun x => { x with gateIn := x.gateIn.erase (p, blk) }), false, false)
        let s := take.1
        let h := blk.hdr
        let x := s.port port.val
        if x.done.any (fun c => c.part = p && c.key = blockKey h.group.toNat h.block.toNat && c.stamp = h.stamp
            && c.inputs.contains from') then
          if h.part = 0 then s.bump 0x7500 2 port.val 1 else s
        else
          let blk := gateConvert { blk with hdr := { h with poison := h.poison || take.2.1 } }
          s.setPort port.val (x.takePart p from' i take.2.2 h blk))

/-- Sum of one element over the inputs: widened exactly, each addition rounded to A32, the sum to FP16 (R80). The sum starts
with the first partial and not with +0 (the model's choice; log entry 74). -/
def reduceElems (bs : List (List (BitVec 32))) : List (BitVec 32) :=
  (mergeElems (bs.map (fun l => l.map (tailNum true)))).map toFp16

/-- The block that a reduction unit emits (R204), and whether its inputs disagree. -/
def reduceBlocks (bs : List TailBlock) : Option (TailBlock × Bool) :=
  match bs with
  | [] => none
  | b :: _ =>
    let h := b.hdr
    let contrib := BitVec.ofNat 15 ((bs.map (·.hdr.contrib.toNat)).sum)
    if bs.any (fun x => x.hdr.stamp != h.stamp || x.hdr.k != h.k || x.hdr.group != h.group || x.hdr.block != h.block) then
      some (⟨{ h with poison := true, contrib := contrib }, List.replicate 4096 (toFp16 .nan)⟩, true)
    else
      let es := reduceElems (bs.map (·.grad))
      some (⟨{ h with poison := bs.any (·.hdr.poison) || nonFinite (es.map (tailNum true)), contrib := contrib }, es⟩, false)

/-- Packets of a block on a link (R201, R297). -/
def State.tailPkts (s : State) (p : Nat) (plan : BitVec 16) (layer : Bool) (b : TailBlock) : List Pkt :=
  (List.range 2).map (fun i =>
    ⟨s.jobHdr p 3 layer 4 plan 0x3FFF 4096, tailBytes { b.hdr with part := BitVec.ofNat 2 i },
     ((b.grad.drop (2048 * i)).take 2048).flatMap (fun v => leBytes 2 v.toNat)⟩)

/-- A block in FP16 enters a local engine, packet by packet (R204). -/
def State.engineTakeBlock (s : State) (e : Nat) (p : PartId) (b : TailBlock) : State :=
  (List.range 2).foldl (fun s i => s.engineTake e p
    ⟨{ b.hdr with part := BitVec.ofNat 2 i }, (b.grad.drop (2048 * i)).take 2048⟩) s

/-- The output of a reduction unit takes a block: the packets of its link do not wait for credits, or the local engine
withholds none (R206). -/
def State.outputTakes (s : State) (bp : BlockPlan) : Bool :=
  match bp.output with
  | some y => !(s.sub y.1.val y.2.val).queue.any (fun k => k.hdr.vc = 3)
  | none => !s.withholds bp.engine.val

/-- R204, R206: every input of a block is there, and its output takes it. -/
def execPortReductionEmit (port : PortId) (p : PartId) (g : GroupId) (b : BitVec 28) (s : State) :
    Host.Outcome State Fault Refusal :=
  done (
    let x := s.port port.val
    match (s.job p.val).bind (fun j => (planBlock j g.val b.toNat).map (fun bp => (j, bp))) with
    | none => s
    | some (j, bp) =>
      let i := planIndex j g.val b.toNat
      let ins := bp.inputs.map (fun y => (x.ins.find? (fun r => r.isFor p y i)).filter (·.whole))
      if bp.redPort != port || x.failed || !s.sideClocked (portSide port.val) || !s.isLive p.val || ins.any Option.isNone || !s.outputTakes bp then s
      else
        let rs := ins.filterMap id
        match reduceBlocks (rs.map (·.blk)) with
        | none => s
        | some (out, bad) =>
          let h := out.hdr
          let s := s.setPort port.val { x with
            ins := rs.foldl (fun l r => l.erase r) x.ins,
            done := ⟨p, blockKey h.group.toNat h.block.toNat, h.stamp, bp.inputs⟩ :: x.done }
          let s := s.bump 0x7500 1 port.val 1
          let s := if bad then s.bump 0x7500 2 port.val 1 else s
          match bp.output with
          | some y => s.sendJob y (s.tailPkts p.val i (bp.outOff || rs.any (·.layer)) out)
          | none => s.engineTakeBlock bp.engine.val p out)

end Sys2Proof.Machine
end

