-- ==== Sys2Proof/Machine/Engine.lean ====
section
/-! DEFINITION. The update engines (R218–R246): the sluice and the journal, group values, the handling of arriving
blocks, settling, hold mode and the commands of R239, far-tier blocks, and the repair pass. -/
namespace Sys2Proof.Machine

/-! Group values (R226). -/

/-- The pending values of a group (0x8700–0x8705). -/
def State.pendingVals (s : State) (g : Nat) : Vals :=
  let f (i : Nat) : BitVec 32 := BitVec.ofNat 32 (s.obj (0x8700 + i) (g + 1) 0)
  ⟨f 0, f 1, f 2, f 3, f 4, s.obj 0x8705 (g + 1) 0 = 1⟩

/-- In-force objects 0x8710–0x8715. -/
def State.showVals (s : State) (g : Nat) (v : Vals) : State :=
  (((((s.setObj 0x8710 (g + 1) 0 v.eta.toNat).setObj 0x8711 (g + 1) 0 v.beta1.toNat).setObj
    0x8712 (g + 1) 0 v.beta2.toNat).setObj 0x8713 (g + 1) 0 v.eps.toNat).setObj 0x8714 (g + 1) 0 v.lam.toNat).setObj
    0x8715 (g + 1) 0 (if v.hold then 1 else 0)

/-- Handling of a block of a step begins: the activation in force for it is reached. -/
def State.reachVals (s : State) (g : Nat) (stamp : BitVec 32) : State :=
  let as := mget [] s.acts g
  match as.find? (fun a => 0 ≤ stampDiff stamp a.stamp) with
  | some a =>
    if a.reached then s
    else
      let s := { s with acts := mset g (as.map (fun b => if b = a then { b with reached := true } else b)) s.acts }
      (s.setObj 0x8707 (g + 1) 0 a.stamp.toNat).showVals g a.vals
  | none => s

/-- Blocks of one engine in groups whose latest values set hold mode (R238). -/
def State.holdBlocks (s : State) (j : JobPlan) (e : Nat) (hold : Nat → Bool) : Nat :=
  ((s.ownedBy j e).filter (fun b => hold b.group.val)).length

def State.holdFits (s : State) (j : JobPlan) (hold : Nat → Bool) : Bool :=
  j.engines.all (fun ep => let n := s.holdBlocks j ep.engine.val hold; n = 0 || n ≤ sluiceEntries ep - 64)

/-- A write of an activation stamp (R226). Handling of a block has begun once an engine has accepted its first packet, since
its journal entry then records the values (R244). -/
def State.actActivate (s : State) (g : Nat) (t : BitVec 32) : Attempt :=
  let as := mget [] s.acts g
  let mine := s.admittedJobs.flatMap (fun x => ((s.ownedHere x.2).filter (fun b => b.group.val = g)).map (fun b => (x.1, b)))
  let from' (h : TailHdr) : Bool := h.group.toNat = g && decide (0 ≤ stampDiff h.stamp t)
  let begun := mine.any (fun b =>
    match mfind (ekey b.1 g b.2.block) (s.engine b.2.engine.val).expected with
    | some n => decide (0 < stampDiff n t)
    | none => false)
    || s.engines.any (fun e => e.2.deferred.any (fun d => from' d.2.hdr) || e.2.ins.any (fun r => from' r.blk.hdr))
  let kept := match as with
    | a :: _ => if a.reached then as else as.drop 1
    | [] => []
  let open' := match kept with
    | a :: _ :: _ => mine.any (fun b =>
        match mfind (ekey b.1 g b.2.block) (s.engine b.2.engine.val).settled with
        | some n => decide (stampDiff n (a.stamp - 1) < 0)
        | none => false)
    | _ => false
  let v := s.pendingVals g
  let holdOf (h : Nat) : Bool := if h = g then v.hold else ((mget [] s.acts h).head?.map (·.vals.hold)).getD false
  if begun || open' || (v.hold && !s.admittedJobs.all (fun x => s.holdFits x.2 holdOf)) then .error .stateConflict
  else .ok ({ s with acts := mset g (((⟨t, v, false⟩ : Act) :: kept).take 2) s.acts }.setObj 0x8706 (g + 1) 0 t.toNat)

/-! Outcomes (R229). -/

def State.contribute (s : State) (p : Nat) (stamp : BitVec 32) (f : Contribution → Contribution) : State :=
  s.modPart p (fun x => { x with contribs := mset stamp.toNat (f (mget {} x.contribs stamp.toNat)) x.contribs })

/-- The module has joined the verdict of a step, or applied it. -/
def State.hasJoined (s : State) (p : Nat) (stamp : BitVec 32) : Bool :=
  let x := s.part p
  decide (stampDiff stamp x.lastStamp ≤ 0) || x.joined.any (fun j => decide (stampDiff stamp j.1 ≤ 0))

/-- E6020 or E6010, once per engine, step and cause. -/
def State.tellBlock (s : State) (e p code cause : Nat) (stamp : BitVec 32) (data : List Byte) : State :=
  if (s.engine e).told.contains (p, stamp, code, cause) then s
  else (s.modEngine e (fun x => { x with told := (p, stamp, code, cause) :: x.told })).raise code e stamp data

def State.tellSkipped (s : State) (e p g b cause : Nat) (stamp : BitVec 32) : State :=
  s.tellBlock e p 0x6020 cause stamp (leBytes 1 g ++ leBytes 4 b ++ leBytes 1 cause)

def State.tellLost (s : State) (e p g b cause kind : Nat) (stamp : BitVec 32) : State :=
  s.tellBlock e p 0x6010 cause stamp (leBytes 1 g ++ leBytes 4 b ++ leBytes 1 cause ++ leBytes 1 kind)

/-! Settling (R193, R194, R198, R247). -/

/-- Byte ranges that a block's settling touches: stamp, working copy, journal entry, and the headers of the entries that it
frees. -/
def State.settleSegs (s : State) (j : JobPlan) (bp : BlockPlan) (stamp : BitVec 32) (free : List Nat) : List (Nat × Nat) :=
  let copy : List (Nat × Nat) := match planArea j true bp.group.val bp.block with
    | some a => [(stampAt a bp.block, 4), (elemAt a bp.block, a.elemBytes), (scaleAt a bp.block, a.scaleBytes)]
    | none => []
  let heads : List (Nat × Nat) := match planEngine j bp.engine.val with
    | some ep => (s.journalOf ep bp.group.val bp.block stamp).map (fun i => (ep.journal + 64 * i, 64))
        ++ free.map (fun i => (headAddr ep i, 64))
    | none => []
  copy ++ heads

/-- A block settles: its stamp is written, its journal entry cleared, sluice entries freed, its copy digested and sent,
and reads behind the stamp served. -/
def State.settleBlock (s : State) (j : JobPlan) (p : PartId) (bp : BlockPlan) (stamp : BitVec 32) (free : List Nat) :
    State :=
  let e := bp.engine
  let g := bp.group.val
  let b := bp.block
  match planArea j true g b with
  | none => s
  | some a =>
    let u := MemUnit.stack e
    let s := s.store u (stampAt a b) (leBytes 4 stamp.toNat)
    let s := s.modEngine e.val (fun x => { x with
      settled := mset (ekey p.val g b) stamp x.settled,
      settling := x.settling.filter (fun y => !(y.part = p && y.group = bp.group && y.block = b && y.stamp = stamp)) })
    let s := match planEngine j e.val with
      | some ep => (s.clearJournal ep g b stamp).freeEntries ep free
      | none => s
    -- the copy is read back for the digest, and to be sent (R178, R179)
    let s := s.touchSegs u [(elemAt a b, a.elemBytes), (scaleAt a b, a.scaleBytes)] 5
    let s := if (s.part p.val).digested.contains stamp then
        let d := s.copyDigest a b stamp
        (s.bump 0x7440 9 e.val 1).modEngine e.val (fun x =>
          { x with rollups := bp.subs.foldl (fun rs m => addRollup p stamp m e d rs) x.rollups })
      else s
    let f : CopyFrame :=
      { group := bp.group, block := b, stamp := stamp, elems := s.bytes u (elemAt a b) a.elemBytes,
        scales := s.bytes u (scaleAt a b) a.scaleBytes, way := s.ownWay }
    let bad := s.anyMarked u (elemAt a b) a.elemBytes || s.anyMarked u (scaleAt a b) a.scaleBytes
    (s.sendCopies p.val j bp f bad).releaseReads e.val

/-- R194: the working-copy writes of an update have completed. -/
def execWorkingCopySettle (e : EngineId) (g : GroupId) (b : BitVec 28) (s : State) : Host.Outcome State Fault Refusal :=
  done (
    match (s.engine e.val).settling.find? (fun y => y.group = g && y.block = b.toNat) with
    | none => s
    | some y =>
      match (s.job y.part.val).bind (fun j => (planBlock j g.val b.toNat).map (fun bp => (j, bp))) with
      | some (j, bp) =>
        if s.stackUp e.val && !s.segsBusy e.val (s.settleSegs j bp y.stamp y.free) then
          (s.catchUp e).settleBlock j y.part bp y.stamp y.free
        else s
      | none => s)

/-! Snapshot copies (R249, R250). -/

def pad64 (n : Nat) : Nat := (n + 63) / 64 * 64

/-- Bytes of the content of a block. -/
def contentLen (j : JobPlan) (bp : BlockPlan) (content : Nat) : Nat :=
  if content = 0 then match planArea j true bp.group.val bp.block with
    | some a => a.elemBytes + a.scaleBytes
    | none => 0
  else if content = 1 then 12352
  else recSize (ruleOf j bp.group.val)

/-- Byte ranges of the content of a block in its engine's stack; none where its record lies in the far tier. -/
def contentSegs (j : JobPlan) (bp : BlockPlan) (content : Nat) : Option (List (Nat × Nat)) :=
  if content = 0 then some (match planArea j true bp.group.val bp.block with
    | some a => [(elemAt a bp.block, a.elemBytes), (scaleAt a bp.block, a.scaleBytes)]
    | none => [])
  else match bp.state with
    | .stack a => some [(a, contentLen j bp content)]
    | .far _ => none

/-- The engine reads byte ranges of its stack: the bytes, and whether one of them is poisoned (R179). -/
def State.readStack (s : State) (e : EngineId) (segs : List (Nat × Nat)) : (List Byte × Bool) × State :=
  let u := MemUnit.stack e
  let s := s.touchSegs u segs 5
  ((s.gather u segs, segs.any (fun g => s.anyMarked u g.1 g.2)), s)

/-- The snapshot holds content of a block that an update of a step is about to change. -/
def State.snapNeeds (s : State) (p : PartId) (bp : BlockPlan) (stamp : BitVec 32) : Option Nat :=
  let k := ekey p.val bp.group.val bp.block
  let x := s.engine bp.engine.val
  match s.shipping with
  | some (snap, content) =>
    if 0 < stampDiff stamp snap && !x.shipped.contains k && !x.copies.any (fun c => c.1 = k)
        && (mfind k x.settled).any (fun n => decide (0 ≤ stampDiff n snap)) then some content else none
  | none => none

/-- Copy content into kind-4 entries, if more entries are free than the blocks in progress plus 64. -/
def State.snapCopy (s : State) (ep : EnginePlan) (p : PartId) (bp : BlockPlan) (stamp : BitVec 32) (bs : List Byte)
    (bad : Bool) : Option State :=
  let need := (bs.length + 16383) / 16384
  if s.sluiceFree ep ≤ (s.engine bp.engine.val).busy + 64 || s.sluiceFree ep < need then none
  else
    let head : Entry64 := ⟨stamp - 1, bp.group.val, bp.block, 4, 0, false, 0, 0, 0⟩
    let r := (List.range need).foldl (fun (acc : List Nat × State) i =>
      let d := (bs.drop (16384 * i)).take 16384
      match acc.2.newEntry ep head d with
      | some (n, s) => (acc.1 ++ [n], if bad then s.poison (.stack ep.engine) (entryAddr ep n) d.length else s)
      | none => acc) ([], s)
    some (r.2.modEngine bp.engine.val (fun x =>
      { x with copies := x.copies ++ [(ekey p.val bp.group.val bp.block, r.1)] }))

/-! Updates (R232–R234, R240, R242). -/

/-- The armed entry merged into an update of a step: that of the earliest step (R240). -/
def State.mergeFor (s : State) (ep : EnginePlan) (g b : Nat) (stamp : BitVec 32) : Option (Nat × Entry64) :=
  ((s.entriesOf ep 2).filter (fun x => x.2.group = g && x.2.block = b && x.2.armed
      && decide (0 ≤ stampDiff stamp x.2.target))).foldl
    (fun (acc : Option (Nat × Entry64)) x => match acc with
      | some y => if stampDiff x.2.stamp y.2.stamp < 0 then some x else some y
      | none => some x) none

/-- The engine reads the entry of a merge: headers and gradient. -/
def State.touchMerge (s : State) (ep : EnginePlan) (m : Option (Nat × Entry64)) : State :=
  match m with
  | some x => s.touch (.stack ep.engine) (entryAddr ep x.1) 16384 5
  | none => s

/-- The values of a merge: gradient, k and factor. -/
def State.mergeVals (s : State) (ep : EnginePlan) (m : Option (Nat × Entry64)) : Option (List Num × Nat × BitVec 32) :=
  m.map (fun x => ((s.entryGrad ep x.1).1.map f32, x.2.k, x.2.factor))

/-- A block is skipped as poisoned: flags and counts of its step, unless the module has joined; it settles unchanged. -/
def State.skipBlock (s : State) (j : JobPlan) (p : PartId) (bp : BlockPlan) (stamp : BitVec 32) (cause : Nat)
    (free : List Nat) : State :=
  let s := (s.bump 0x7440 2 bp.engine.val 1).tracePoint 3 bp.engine.val stamp
  let s := s.tellSkipped bp.engine.val p.val bp.group.val bp.block cause stamp
  let s := if s.hasJoined p.val stamp then s
    else s.contribute p.val stamp (fun c => { c with flags := c.flags ||| flagPoisoned, skipped := c.skipped + 1 })
  s.settleBlock j p bp stamp free

/-- An update is lost (R234, R245). -/
def State.loseBlock (s : State) (j : JobPlan) (p : PartId) (bp : BlockPlan) (stamp : BitVec 32) (cause kind : Nat)
    (free : List Nat) : State :=
  let s := (s.bump 0x7440 6 bp.engine.val 1).tracePoint 3 bp.engine.val stamp
  let s := s.tellLost bp.engine.val p.val bp.group.val bp.block cause kind stamp
  let s := if s.hasJoined p.val stamp then s
    else s.contribute p.val stamp (fun c => { c with
      flags := c.flags ||| flagLost, skipped := c.skipped + 1,
      sums := mdel (blockKey bp.group.val bp.block) c.sums })
  s.settleBlock j p bp stamp free

/-- The working copy of a block from its weights. -/
def State.writeCopy (s : State) (j : JobPlan) (bp : BlockPlan) (ws : List Num) : State :=
  match planArea j true bp.group.val bp.block with
  | some a =>
    let c := workingCopy a.fmt ws
    (s.store (.stack bp.engine) (elemAt a bp.block) c.1).store (.stack bp.engine) (scaleAt a bp.block) c.2
  | none => s

/-- The writes of a formed update, in the order of R242, up to the working copy. -/
def State.writeUpdate (s : State) (j : JobPlan) (bp : BlockPlan) (addr : Nat) (stamp : BitVec 32) (rec : List Byte)
    (u : Update) : State :=
  let m := MemUnit.stack bp.engine
  let s := match u.slot with
    | some (i, sl) => (s.store m (addr + slotOff i + 64) (sl.drop 64)).store m (addr + slotOff i) (sl.take 64)
    | none => s
  (s.store m addr (commitGroup stamp rec u.wc)).writeCopy j bp (pairW u.wc)

/-- What an update reads of a record: header, weights and carry; of rule M the newest slot and the header of the other
(R221). -/
def State.recordSegs (s : State) (e : EngineId) (rule addr : Nat) : List (Nat × Nat) :=
  if isRuleM rule then
    let i := newestSlot (s.bytes (.stack e) addr 28992)
    [(addr, 12352), (addr + slotOff i, 8320), (addr + slotOff (1 - i), 64)]
  else [(addr, 12352)]

/-- An update of a block in the stack: applied and settling, skipped (cause 5), or lost. -/
def State.applyBlock (s : State) (j : JobPlan) (ep : EnginePlan) (w : Waiting) (bp : BlockPlan) (addr : Nat) : State :=
  let rule := ruleOf j bp.group.val
  let u := MemUnit.stack bp.engine
  let segs := s.recordSegs bp.engine rule addr
  let s := (s.touchSegs u segs 5).touchHeads ep 2
  let m := s.mergeFor ep bp.group.val bp.block w.stamp
  let s := s.touchMerge ep m
  if segs.any (fun g => s.anyMarked u g.1 g.2) || m.any (fun x => (s.entryGrad ep x.1).2) then
    s.skipBlock j w.part bp w.stamp 5 w.entry.toList
  else
    let rec' := s.bytes u addr (recSize rule)
    let xs := scaledGrads bp.params w.k w.factor (w.grad.map f32) (s.mergeVals ep m)
    match ruleUpdate rule bp.params w.vals w.stamp rec' xs with
    | none => s.loseBlock j w.part bp w.stamp 2 w.kind w.entry.toList
    | some up =>
      let s := ((s.writeUpdate j bp addr w.stamp rec' up).bump 0x7440 1 bp.engine.val 1).tracePoint 3 bp.engine.val w.stamp
      s.modEngine bp.engine.val (fun x =>
        { x with settling := x.settling ++
          [⟨w.part, bp.group, bp.block, w.stamp, w.entry.toList ++ (m.map (·.1)).toList⟩] })

/-! Far-tier updates (R241). -/

/-- Far packets from this module. -/
def State.farSend (s : State) (p : Nat) (ty : BitVec 4) (addr : BitVec 64) (len : Nat) (data : List Byte) (bad : Bool) :
    State :=
  let h : PktHdr :=
    { vc := 1, layer := false, ty := ty, slots := if data.length ≤ 64 then 0 else (data.length + 127) / 128,
      dst := BitVec.ofNat 14 (farModule addr.toNat), src := s.moduleId, job := BitVec.ofNat 32 (s.obj 0x2102 (p + 1) 0),
      poison := bad }
  s.sendLocal ⟨h, leBytes 8 addr.toNat ++ leBytes 4 len, data⟩

def State.farWrite (s : State) (p : Nat) (addr : BitVec 64) (bs : List Byte) (bad : Bool) : State :=
  (List.range ((bs.length + 4095) / 4096)).foldl (fun s i =>
    let d := (bs.drop (4096 * i)).take 4096
    s.farSend p 8 (addr + BitVec.ofNat 64 (4096 * i)) d.length d bad) s

/-- A commit group for the far module's commit buffer: the length field of each packet names all the bytes from its address
on (R241, R243; log entry 34). -/
def State.farCommit (s : State) (p : Nat) (addr : BitVec 64) (bs : List Byte) : State :=
  (List.range ((bs.length + 4095) / 4096)).foldl (fun s i =>
    s.farSend p 8 (addr + BitVec.ofNat 64 (4096 * i)) (bs.length - 4096 * i) ((bs.drop (4096 * i)).take 4096) false) s

/-- Ask for the record of a far block. -/
def State.farAsk (s : State) (p : PartId) (j : JobPlan) (bp : BlockPlan) : State :=
  match bp.state with
  | .far a => s.farSend p.val 7 a (recSize (ruleOf j bp.group.val)) [] false
  | .stack _ => s

/-- Start fetches while the limit allows, oldest first. -/
def State.pumpFar (s : State) (e : Nat) : Nat → State
  | 0 => s
  | n + 1 =>
    let x := s.engine e
    if s.obj 0x6800 1 e ≤ (x.far.filter (fun f => f.fetching && !f.fetched)).length then s
    else match x.far.find? (fun f => !f.fetching && !f.fetched) with
      | none => s
      | some f =>
        let s := s.setEngine e { x with far := x.far.map (fun g => if g = f then { g with fetching := true } else g) }
        match (s.job f.part.val).bind (fun j => (planBlock j f.group.val f.block).map (fun bp => (j, bp))) with
        | some (j, bp) => (s.farAsk f.part j bp).pumpFar e n
        | none => s

/-- Begin the far update of a block from its sluice entry. -/
def State.beginFar (s : State) (f : FarOp) (e : Nat) : State :=
  (s.modEngine e (fun x => { x with far := x.far ++ [f] })).pumpFar e 64

/-- Begin an update: copied or made to wait for the snapshot first (R250). -/
def State.beginUpdate (s : State) (j : JobPlan) (ep : EnginePlan) (w : Waiting) (bp : BlockPlan) (addr : Nat) : State :=
  match s.snapNeeds w.part bp w.stamp with
  | none => s.applyBlock j ep w bp addr
  | some content =>
    let c := s.readStack bp.engine ((contentSegs j bp content).getD [])
    match c.2.snapCopy ep w.part bp w.stamp c.1.1 c.1.2 with
    | some s => s.applyBlock j ep w bp addr
    | none => c.2.modEngine bp.engine.val (fun x => { x with waiting := x.waiting ++ [w] })

/-! Arrival (R228). -/

/-- Another step of the block is in hand: all work on one block is serialised (R219). -/
def Engine.working (x : Engine) (p : PartId) (g : GroupId) (b : Nat) : Bool :=
  x.settling.any (fun y => y.part = p && y.group = g && y.block = b)
    || x.far.any (fun y => y.part = p && y.group = g && y.block = b)
    || x.waiting.any (fun y => y.part = p && y.group = g && y.block = b)

/-- The block is not the next expected of an owned block (R207, R202, R228 step 1). Its own arrival entry is cleared; that
of the update which it repeats stands. -/
def State.rejectBlock (s : State) (e : Nat) (p : PartId) (h : TailHdr) : State :=
  let g := h.group.toNat
  let b := h.block.toNat
  let s := match (s.job p.val).bind (fun j => planEngine j e) with
    | some ep =>
      if (mfind (ekey p.val g b) (s.engine e).expected).any (fun n => decide (0 < stampDiff h.stamp n))
          && !(s.engine e).ins.any (fun r => r.part = p && r.blk.hdr.group = h.group && r.blk.hdr.block = h.block
            && r.blk.hdr.stamp = h.stamp) then s.clearJournal ep g b h.stamp else s
    | none => s
  let s := (s.bump 0x7420 5 e 1).tellSkipped e p.val g b 4 h.stamp
  s.modPart p.val (fun x => { x with early := x.early ||| flagPoisoned })

/-- A block whose checks have passed: held on norm, in hold mode, far, or applied (R228 steps 3 to 6). -/
def State.takeBlock (s : State) (e : EngineId) (p : PartId) (j : JobPlan) (bp : BlockPlan) (ep : EnginePlan) (h : TailHdr)
    (xs : List Num) (q : Num) : State :=
  let g := bp.group.val
  let b := bp.block
  let vals := s.valsFor g h.stamp
  let ceiling := BitVec.ofNat 32 (s.obj 0x8400 (g + 1) 0)
  let lim := w40 ((f32 ceiling).mul (f32 (BitVec.ofNat 32 (s.obj 0x8410 (g + 1) 0))))
  let grad := xs.map (fun x => BitVec.ofNat 32 (Fmt.a32.encode .nearestEven x))
  let head (kind : Nat) : Entry64 := ⟨h.stamp, g, b, kind, h.k.toNat, false, Fmt.w40.encode .nearestEven q, 0, 0⟩
  let entry (kind : Nat) (entry : Option Nat) : Journal := ⟨h.stamp, g, b, kind, ruleOf j g, entry, 0x3F800000, vals⟩
  if !(f32 ceiling).isZero && s.obj 0x8400 0xE 0 ≤ s.obj 0x8410 (0xD + g) 0 && lim.lt q then
    match s.newEntry ep (head 2) (gradBytes grad) with
    | none => s
    | some (_, s) =>
      let s := ((s.bump 0x7440 3 e.val 1).tracePoint 3 e.val h.stamp).raise 0x6030 e.val h.stamp
        (leBytes 1 g ++ leBytes 4 b ++ leBytes 5 (Fmt.w40.encode .nearestEven q)
          ++ leBytes 5 (Fmt.w40.encode .nearestEven lim))
      let s := s.contribute p.val h.stamp (fun c => { c with flags := c.flags ||| flagHeld, held := c.held + 1 })
      s.settleBlock j p bp h.stamp []
  else if vals.hold then
    match s.newEntry ep (head 1) (gradBytes grad) with
    | none => s
    | some (_, s) => ((s.bump 0x7440 4 e.val 1).tracePoint 3 e.val h.stamp).clearJournal ep g b h.stamp
  else match bp.state with
    | .far _ =>
      match s.newEntry ep (head 3) (gradBytes grad) with
      | none => s
      | some (i, s) => ((s.tracePoint 3 e.val h.stamp).writeJournal ep (entry 1 (some i))).beginFar
          { part := p, group := bp.group, block := b, stamp := h.stamp, entry := i, factor := 0x3F800000, vals := vals } e.val
    | .stack addr =>
      (s.writeJournal ep (entry 1 none)).beginUpdate j ep
        ⟨p, bp.group, b, h.stamp, h.k.toNat, 0x3F800000, vals, grad, none, 1⟩ bp addr

/-- The gradient of a block, without its pads: their positions are +0 whatever arrives (R218), and a value there that is not
finite does not poison the block (the model's choice: R228 does not say; log entry 34). -/
def blockGrad (bp : BlockPlan) (blk : TailBlock) : List Num × List Num :=
  let xs := ((blk.grad ++ List.replicate (4096 - blk.grad.length) 0).take 4096).map (tailNum blk.hdr.fp16)
  (xs, xs.take bp.params)

/-- Cause for which a block is skipped on arrival: contributions, poison, a value that is not finite; 0 for none (R228
steps 2 and 3). -/
def skipCause (bp : BlockPlan) (blk : TailBlock) : Nat :=
  if blk.hdr.contrib.toNat != bp.contrib then 3 else if blk.hdr.poison then 1
  else if nonFinite (blockGrad bp blk).2 then 2 else 0

/-- The plan of an arriving block, with the engine's, where the block is the next expected of an owned one (R207, R228). -/
def State.blockPlan (s : State) (e : EngineId) (p : PartId) (h : TailHdr) : Option (JobPlan × BlockPlan × EnginePlan) :=
  ((s.job p.val).bind (fun j => (planBlock j h.group.toNat h.block.toNat).bind (fun bp =>
    (planEngine j e.val).map (fun ep => (j, bp, ep))))).filter (fun x =>
      x.2.1.owner = s.moduleId && x.2.1.engine = e
        && mfind (ekey p.val h.group.toNat h.block.toNat) (s.engine e.val).expected = some h.stamp)

/-- The handling of a block has to wait for a channel (R184): a block that is skipped only settles; all other handling
touches a record or an entry's gradient, and so every channel. -/
def State.blockWaits (s : State) (e : EngineId) (p : PartId) (blk : TailBlock) : Bool :=
  let h := blk.hdr
  match s.blockPlan e p h with
  | none => match (s.job p.val).bind (fun j => planEngine j e.val) with
    | some ep => s.segsBusy e.val ((s.journalOf ep h.group.toNat h.block.toNat h.stamp).map (fun i => (ep.journal + 64 * i, 64)))
    | none => false
  | some (j, bp, _) =>
    if skipCause bp blk = 0 then s.engineWaits e.val else s.segsBusy e.val (s.settleSegs j bp h.stamp [])

/-- Handle a block whose turn has come (R228). -/
def State.handleBlock (s : State) (e : EngineId) (p : PartId) (blk : TailBlock) : State :=
  let h := blk.hdr
  let g := h.group.toNat
  let b := h.block.toNat
  let key := ekey p.val g b
  let s := s.catchUp e
  match s.blockPlan e p h with
  | none => s.rejectBlock e.val p h
  | some (j, bp, ep) =>
    let s := (s.reachVals g h.stamp).modEngine e.val (fun x =>
      { x with expected := mset key (h.stamp + 1) x.expected })
    let (xs, own) := blockGrad bp blk
    let finite := !nonFinite own
    let q := if finite then sumSquares bp.params h.k.toNat xs else .zero
    let s := s.contribute p.val h.stamp (fun c => { c with
      handled := c.handled + 1,
      sums := if finite then mset (blockKey g b) (Fmt.w40.encode .nearestEven q) c.sums else c.sums })
    let cause := skipCause bp blk
    if cause != 0 then s.skipBlock j p bp h.stamp cause [] else s.takeBlock e p j bp ep h xs q

/-- An engine works: it runs, and its stack is up. -/
def State.engineRuns (s : State) (e : Nat) : Bool := (s.engine e).st = 2 && s.stackUp e

/-- A block's turn has come: the verdict of the step before has been applied (R220), and no other step of it is in hand
(R219). -/
def State.turnCome (s : State) (e : Nat) (p : PartId) (h : TailHdr) : Bool :=
  0 ≤ stampDiff (s.part p.val).lastStamp (h.stamp - 1)
    && !(s.engine e).working p (Fin.ofNat 12 h.group.toNat) h.block.toNat

/-- R228, R220: every packet of a block has been accepted. One whose partition has stopped is discarded with it. -/
def execTailraceBlockArrival (e : EngineId) (p : PartId) (blk : TailBlock) (s : State) :
    Host.Outcome State Fault Refusal :=
  done (
    let h := blk.hdr
    match (s.engine e.val).ins.find? (fun r => r.part = p && r.blk = blk && r.whole) with
    | none => s
    | some r =>
      let took (s : State) : State := s.modEngine e.val (fun x => { x with ins := x.ins.erase r })
      if !s.engineRuns e.val then s
      else match (s.job p.val).bind (fun j => planEngine j e.val) with
        | none => (took s).rejectBlock e.val p h
        | some ep =>
          if !s.isLive p.val then
            (if s.blockWaits e p blk then s
             else (took (s.catchUp e)).clearJournal ep h.group.toNat h.block.toNat h.stamp)
          else if s.turnCome e.val p h then
            (if s.blockWaits e p blk then s else ((took s).handleBlock e p blk).checkSluice ep)
          else (took s).modEngine e.val (fun x => { x with deferred := x.deferred ++ [(p, blk)] }))

/-- R220: the verdict of the step before has been applied. -/
def execDeferredBlockCheck (e : EngineId) (p : PartId) (g : GroupId) (b : BitVec 28) (s : State) :
    Host.Outcome State Fault Refusal :=
  done (
    match (s.engine e.val).deferred.find? (fun d => d.1 = p && d.2.hdr.group.toNat = g.val && d.2.hdr.block = b) with
    | none => s
    | some d =>
      if !s.turnCome e.val p d.2.hdr || !s.engineRuns e.val || s.blockWaits e p d.2 then s
      else (s.modEngine e.val (fun x => { x with deferred := x.deferred.erase d })).handleBlock e p d.2)

/-! Repair of one block (R245, R246). -/

/-- The end of an edge reset: an engine that has no far repair left runs, and the module once they all do. -/
def State.endRepair (s : State) (e : Nat) : State :=
  if (s.engine e).far.any (fun f => f.repair.isSome) then s
  else
    let s := s.modEngine e (fun x => { x with st := 2 })
    if (List.range 32).all (fun i => (s.engine i).st = 2 || (s.engine i).failed || !(s.engine i).trained)
    then s.setObj 0x2003 3 0 0 else s

/-- E6050. -/
def State.tellRepaired (s : State) (e : EngineId) (x : Journal) : State :=
  (s.raise 0x6050 e.val x.stamp (leBytes 1 x.group ++ leBytes 4 x.block ++ leBytes 1 x.kind)).bump 0x7440 7 e.val 1

/-- The update of a journal entry is lost; a block that still waited for its verdict is handled by its loss (R220, R246). -/
def State.loseEntry (s : State) (p : PartId) (j : JobPlan) (bp : BlockPlan) (x : Journal) : State :=
  let e := bp.engine.val
  let key := ekey p.val x.group x.block
  let s := if mfind key (s.engine e).expected = some x.stamp then
      (s.modEngine e (fun y => { y with expected := mset key (x.stamp + 1) y.expected })).contribute p.val x.stamp
        (fun c => { c with handled := c.handled + 1 })
    else s
  (s.loseBlock j p bp x.stamp 1 x.kind x.entry.toList).modEngine e (fun y => { y with lost := (key, x.stamp) :: y.lost })

/-- What repair found of a committed update, or of one that it can complete from the record (R245). -/
inductive Found where
  | settled                                   -- record and working copy at the step
  | committed (ws : List Num)                 -- the record at the step
  | moments (w : List (Nat × Byte))           -- the newest slot at the step: weights recomputed
  | lost                                      -- recomputed weights are not finite (R234)
  | open'                                     -- not committed
  deriving DecidableEq, Repr

def foundIn (rule params : Nat) (stamp wc : BitVec 32) (rec : List Byte) : Found :=
  let sl := slotBytes rec (newestSlot rec)
  if recStamp rec = stamp then (if wc = stamp then .settled else .committed (recW rec))
  else if isRuleM rule && slotValid sl && slotStamp sl = stamp then
    match redoWeights rule params rec with
    | none => .lost
    | some w => .moments w
  else .open'

/-- The entries that a committed update frees: its own, and the one that it merged (R240). -/
def State.committedFrees (s : State) (ep : EnginePlan) (x : Journal) : List Nat :=
  x.entry.toList ++ ((s.mergeFor ep x.group x.block x.stamp).map (·.1)).toList

/-- The engine reads the stamp of a block's working copy: the stamp, and whether its word is poisoned (R179). -/
def State.copyStamp (s : State) (j : JobPlan) (g b : Nat) : (BitVec 32 × Bool) × State :=
  match planArea j true g b with
  | some a =>
    let s := s.touch (.stack a.stack) (stampAt a b) 4 5
    ((s.blockStamp a b, s.anyMarked (.stack a.stack) (stampAt a b) 4), s)
  | none => ((0, false), s)

/-- The engine reads the header of the sluice entry that a journal entry names. -/
def State.touchEntry (s : State) (ep : EnginePlan) (x : Journal) : State :=
  match x.entry with
  | some i => s.touch (.stack ep.engine) (headAddr ep i) 64 5
  | none => s

/-- The gradient entry of a journal entry is valid. -/
def State.entryValid (s : State) (ep : EnginePlan) (x : Journal) : Bool :=
  (x.kind = 2 || x.kind = 3) && x.entry.any (fun i =>
    let h := s.entryHead ep i
    (h.kind = 1 || h.kind = 3) && h.stamp = x.stamp && h.group = x.group && h.block = x.block)

/-- Repair of one journal entry of a block whose record lies in the stack. A record or a stamp that is read poisoned makes the
block poisoned, with cause 5 (R179, R228). -/
def State.repairLocal (s : State) (p : PartId) (j : JobPlan) (ep : EnginePlan) (bp : BlockPlan) (x : Journal) (addr : Nat) :
    State :=
  let e := ep.engine
  let u := MemUnit.stack e
  let segs := s.recordSegs e x.rule addr
  let s := ((s.touchSegs u segs 5).touchHeads ep 2).touchEntry ep x
  let (wc, s) := s.copyStamp j x.group x.block
  let rec' := s.bytes u addr (recSize x.rule)
  if segs.any (fun g => s.anyMarked u g.1 g.2) || wc.2 then s.skipBlock j p bp x.stamp 5 x.entry.toList
  else match foundIn x.rule bp.params x.stamp wc.1 rec' with
  | .settled => (s.freeEntries ep (s.committedFrees ep x)).clearJournal ep x.group x.block x.stamp
  | .committed ws => ((s.writeCopy j bp ws).tellRepaired e x).settleBlock j p bp x.stamp (s.committedFrees ep x)
  | .moments w =>
    (((s.store u addr (commitGroup x.stamp rec' w)).writeCopy j bp (pairW w)).tellRepaired e x).settleBlock j p bp x.stamp
      (s.committedFrees ep x)
  | .lost => s.loseEntry p j bp x
  | .open' =>
    if !s.entryValid ep x then s.loseEntry p j bp x
    else
      let i := x.entry.getD 0
      let s := s.touch u (entryAddr ep i) 16384 5
      let g := s.entryGrad ep i
      if g.2 then s.skipBlock j p bp x.stamp 5 [i]
      else
        let s := s.applyBlock j ep
          ⟨p, bp.group, bp.block, x.stamp, (s.entryHead ep i).k, x.factor, x.vals, g.1, some i, x.kind⟩ bp addr
        match (s.engine e.val).settling.find? (fun y => y.part = p && y.group = bp.group && y.block = bp.block) with
        | some y => (s.tellRepaired e x).settleBlock j p bp x.stamp y.free
        | none => s

/-- Repair of one journal entry. The record of a far block is read at its far address, unless no write-back of it can have
begun: its entry is that of an arrival. -/
def State.repairEntry (s : State) (p : PartId) (j : JobPlan) (ep : EnginePlan) (x : Journal) : State :=
  match planBlock j x.group x.block with
  | none => s.clearJournal ep x.group x.block x.stamp
  | some bp => match bp.state with
    | .stack addr => s.repairLocal p j ep bp x addr
    | .far _ =>
      if x.kind = 1 then s.loseEntry p j bp x
      else s.beginFar
        { part := p, group := bp.group, block := bp.block, stamp := x.stamp, entry := x.entry.getD 0, factor := x.factor,
          vals := x.vals, repair := some x.kind } ep.engine.val

/-- The pass has to wait for a channel: of a journal entry, or for a record (R184). -/
def State.repairWaits (s : State) (e : Nat) : Bool :=
  s.admittedJobs.any (fun x => (planEngine x.2 e).any (fun ep =>
    s.segsBusy e [(ep.journal, 4096)] || (s.journalUsed ep != [] && s.engineWaits e)))

/-- R245: after an edge reset. -/
def execRepairPass (e : EngineId) (s : State) : Host.Outcome State Fault Refusal :=
  done (
    if s.obj 0x2003 3 0 = 0 || (s.engine e.val).st = 2 || s.mstate = 3 || (s.engine e.val).failed || s.repairWaits e.val
        || (s.engine e.val).far.any (fun f => f.repair.isSome) then s
    else
      let s : State := { s with engines := s.engines.map (fun x => (x.1, { x.2 with st := if x.2.st = 0 then 1 else x.2.st })) }
      let s := (s.setObj 0x2003 3 0 2).catchUp e
      let s := s.admittedJobs.foldl (fun s x =>
        match planEngine x.2 e.val with
        | some ep =>
          let s := s.touchSegs (.stack e) ((s.journalUsed ep).map (fun i => (ep.journal + 64 * i, 64))) 5
          (((s.journalUsed ep).map (s.journalAt ep)).foldl (fun s y => s.repairEntry (Fin.ofNat 16 x.1) x.2 ep y) s)
        | none => s) s
      s.endRepair e.val)

/-! Far responses (R241, R245, R250). -/

/-- A far update is dropped from those in progress. -/
def State.dropFar (s : State) (e : Nat) (f : FarOp) : State := s.modEngine e (fun x => { x with far := x.far.erase f })

/-- Where a far update stands. -/
def State.putFar (s : State) (e : Nat) (f f' : FarOp) : State :=
  s.modEngine e (fun x => { x with far := x.far.map (fun y => if y = f then f' else y) })

/-- The journal entry of a far update. -/
def FarOp.journal (f : FarOp) (j : JobPlan) (kind : Nat) : Journal :=
  ⟨f.stamp, f.group.val, f.block, kind, ruleOf j f.group.val, some f.entry, f.factor, f.vals⟩

/-- The record of a far update goes back in the order of R242; its working copy is held until that has completed. -/
def State.writeFar (s : State) (e : Nat) (j : JobPlan) (bp : BlockPlan) (f : FarOp) (slot : Option (Nat × List Byte))
    (commit : Option (List Byte)) (ws : List Num) (free : List Nat) : State :=
  let s := match bp.state with
    | .far a =>
      let put (s : State) (off : Nat) (bs : List Byte) : State := s.farWrite f.part.val (a + BitVec.ofNat 64 off) bs false
      let s := match slot with
        | some (i, sl) => put (put s (slotOff i + 64) (sl.drop 64)) (slotOff i) (sl.take 64)
        | none => s
      match commit with
      | some c => s.farCommit f.part.val a c
      | none => s
    | .stack _ => s
  let c := match planArea j true f.group.val f.block with
    | some a => workingCopy a.fmt ws
    | none => ([], [])
  s.putFar e f { f with fetching := true, fetched := true, elems := c.1, scales := c.2, free := free }

/-- The rule is applied to a far record, and the record written back (R241). -/
def State.applyFar (s : State) (e : EngineId) (j : JobPlan) (ep : EnginePlan) (bp : BlockPlan) (f : FarOp)
    (rec' : List Byte) : State :=
  let rule := ruleOf j f.group.val
  let s := ((s.touch (.stack e) (entryAddr ep f.entry) 16384 5).touch (.stack e) (headAddr ep f.entry) 64 5).touchHeads ep 2
  let m := s.mergeFor ep f.group.val f.block f.stamp
  let s := s.touchMerge ep m
  let gr := s.entryGrad ep f.entry
  if gr.2 || m.any (fun x => (s.entryGrad ep x.1).2) then (s.dropFar e.val f).skipBlock j f.part bp f.stamp 5 [f.entry]
  else
    let xs := scaledGrads bp.params (s.entryHead ep f.entry).k f.factor (gr.1.map f32) (s.mergeVals ep m)
    match ruleUpdate rule bp.params f.vals f.stamp rec' xs with
    | none => (s.dropFar e.val f).loseBlock j f.part bp f.stamp 2 3 [f.entry]
    | some up =>
      (s.writeJournal ep (f.journal j 3)).writeFar e.val j bp f up.slot (some (commitGroup f.stamp rec' up.wc)) (pairW up.wc)
        (f.entry :: (m.map (·.1)).toList)

/-- A far record has come for a repair (R245). -/
def State.repairFar (s : State) (e : EngineId) (j : JobPlan) (ep : EnginePlan) (bp : BlockPlan) (f : FarOp) (kind : Nat)
    (rec' : List Byte) : State :=
  let x := f.journal j kind
  let rule := ruleOf j f.group.val
  let s := (s.touchHeads ep 2).touchEntry ep x
  let (wc, s) := s.copyStamp j f.group.val f.block
  let frees := s.committedFrees ep x
  if wc.2 then (s.dropFar e.val f).skipBlock j f.part bp f.stamp 5 [f.entry]
  else match foundIn rule bp.params f.stamp wc.1 rec' with
  | .settled => ((s.dropFar e.val f).freeEntries ep frees).clearJournal ep f.group.val f.block f.stamp
  | .committed ws => (s.tellRepaired e x).writeFar e.val j bp f none none ws frees
  | .moments w => (s.tellRepaired e x).writeFar e.val j bp f none (some (commitGroup f.stamp rec' w)) (pairW w) frees
  | .lost => (s.dropFar e.val f).loseEntry f.part j bp x
  | .open' =>
    if s.entryValid ep x then (s.tellRepaired e x).applyFar e j ep bp f rec'
    else (s.dropFar e.val f).loseEntry f.part j bp x

/-- Port and sub-port by which packets to a far address leave this module, if its table has a route to it (R306, R313). -/
def State.farRoute (s : State) (a : Nat) : Option (Nat × Nat) :=
  match entryRoutes (s.tableEntry 6 (farModule a)).toNat with
  | r :: _ => if !r.1 then none else if r.2.1 = 6 then (if farIsHost a then s.hostSub else none) else some (r.2.1, r.2.2.1)
  | [] => none

/-- A far request of a block has failed: a link failure for its job (R188, R316, R317). -/
def State.farFailed (s : State) (p : PartId) (bp : BlockPlan) : State :=
  let x := match bp.state with
    | .far a => (s.farRoute a.toNat).getD (0, 0)
    | .stack _ => (0, 0)
  s.linkFailure (s.obj 0x2102 (p.val + 1) 0) x.1 x.2 2

/-- The content of a far block that the snapshot has asked for (R250). Of a poisoned answer the bytes are free. -/
def State.shipAnswer (s : State) (e : EngineId) (j : JobPlan) (bp : BlockPlan) (k content : Nat) (ans : FarAnswer) : State :=
  let n := contentLen j bp content
  let put (s : State) (bs : List Byte) (bad : Bool) : State := s.modEngine e.val (fun x =>
    { x with shipFar := x.shipFar.map (fun y => if y.1 = k then (k, some (bs.take n, bad)) else y) })
  match ans with
  | .data rec' => put s rec' false
  | .poisoned => let d := s.drawBytes n; put d.2 d.1 true
  | .failed => (s.modEngine e.val (fun x =>
      { x with shipFar := x.shipFar.filter (fun y => y.1 != k) })).farFailed (Fin.ofNat 16 (k / 2 ^ 32)) bp

/-- The answer to the fetch of a far update; its record is copied first where the snapshot needs it (R250). -/
def State.farRecord (s : State) (e : EngineId) (j : JobPlan) (bp : BlockPlan) (ep : EnginePlan) (f : FarOp)
    (ans : FarAnswer) : State :=
  match ans with
  | .failed => (s.dropFar e.val f).farFailed f.part bp
  | .poisoned => (s.dropFar e.val f).skipBlock j f.part bp f.stamp 5 [f.entry]
  | .data rec' => match f.repair with
    | some kind => s.repairFar e j ep bp f kind rec'
    | none => match s.snapNeeds f.part bp f.stamp with
      | none => s.applyFar e j ep bp f rec'
      | some content =>
        let c : (List Byte × Bool) × State := match contentSegs j bp content with
          | some segs => s.readStack bp.engine segs
          | none => ((rec'.take (contentLen j bp content), false), s)
        match c.2.snapCopy ep f.part bp f.stamp c.1.1 c.1.2 with
        | none => s
        | some s => s.applyFar e j ep bp f rec'

/-- R241: the record of a far block returns, for the snapshot or for an update. -/
def execFarFetchResponse (e : EngineId) (g : GroupId) (b : BitVec 28) (ans : FarAnswer) (s : State) :
    Host.Outcome State Fault Refusal :=
  done (
    let x := s.engine e.val
    let plan (p : Nat) : Option (JobPlan × BlockPlan × EnginePlan) :=
      (s.job p).bind (fun j => (planBlock j g.val b.toNat).bind (fun bp => (planEngine j e.val).map (fun ep => (j, bp, ep))))
    match x.shipFar.find? (fun y => y.1 % 2 ^ 32 = blockKey g.val b.toNat && y.2.isNone), s.shipping with
    | some y, some (_, content) => match plan (y.1 / 2 ^ 32) with
      | some (j, bp, _) => s.shipAnswer e j bp y.1 content ans
      | none => s
    | _, _ => match x.far.find? (fun f => f.group = g && f.block = b.toNat && f.fetching && !f.fetched) with
      | none => s
      | some f => match plan f.part.val with
        | none => s
        | some (j, bp, ep) =>
          let waits : Bool := match ans with
            | .failed => false
            | .poisoned => s.segsBusy e.val (s.settleSegs j bp f.stamp [f.entry])
            | .data _ => s.engineWaits e.val
          if waits then s
          else
            let s := ((s.catchUp e).farRecord e j bp ep f ans).pumpFar e.val 64
            if f.repair.isSome then s.endRepair e.val else s)

/-- R241: the write-back has completed; the working copy and its stamp are written and the entry freed. -/
def execFarWritebackDone (e : EngineId) (g : GroupId) (b : BitVec 28) (ok : Bool) (s : State) :
    Host.Outcome State Fault Refusal :=
  done (
    match (s.engine e.val).far.find? (fun f => f.group = g && f.block = b.toNat && f.fetched) with
    | none => s
    | some f =>
      match (s.job f.part.val).bind (fun j => (planBlock j g.val b.toNat).map (fun bp => (j, bp))) with
      | none => s
      | some (j, bp) =>
        if ok && s.segsBusy e.val (s.settleSegs j bp f.stamp f.free) then s
        else
          let s := (s.catchUp e).dropFar e.val f
          if !ok then s.farFailed f.part bp
          else
            let s := match planArea j true g.val b.toNat with
              | some a => (s.store (.stack e) (elemAt a b.toNat) f.elems).store (.stack e) (scaleAt a b.toNat) f.scales
              | none => s
            let s := (s.bump 0x7440 5 e.val 1).bump 0x7440 1 e.val 1
            let s := (s.settleBlock j f.part bp f.stamp f.free).pumpFar e.val 64
            if f.repair.isSome then s.endRepair e.val else s)

/-! Commands (R239). -/

/-- Kind of the entries that a command acts on. -/
def HoldCmd.kind (c : HoldCmd) : Nat := if c.action ≤ 2 then 1 else 2

/-- An entry that the command has still to act on. -/
def HoldCmd.wants (c : HoldCmd) (h : Entry64) : Bool :=
  h.group = c.group.val && h.stamp = c.step
    && !(c.action = 3 && h.armed && h.target = c.target && h.factor = c.factor)

/-- Entries of an engine that a command has still to act on, with the block that each holds, in ascending block number. -/
def State.commandEntries (s : State) (c : HoldCmd) (e : Nat) : List (Nat × JobPlan × EnginePlan × BlockPlan × Nat × Entry64) :=
  s.admittedJobs.flatMap (fun x => match planEngine x.2 e with
    | none => []
    | some ep =>
      let es := (s.entriesOf ep c.kind).filter (fun y => c.wants y.2)
      ((s.ownedBy x.2 e).insertionSort (fun a b => a.block ≤ b.block)).flatMap (fun bp =>
        (es.filter (fun y => bp.group = c.group && bp.block = y.2.block)).map (fun y => (x.1, x.2, ep, bp, y.1, y.2))))

/-- Apply a hold-mode entry: its journal entry first (R244), then the update of R232, or R241 for a far block. -/
def State.applyHeld (s : State) (factor : BitVec 32) (c : Nat × JobPlan × EnginePlan × BlockPlan × Nat × Entry64) :
    State :=
  let (p, j, ep, bp, i, h) := c
  let vals := s.valsFor h.group h.stamp
  let pid : PartId := Fin.ofNat 16 p
  let s := (s.touch (.stack ep.engine) (entryAddr ep i) 16384 5).writeJournal ep
    ⟨h.stamp, h.group, h.block, 2, ruleOf j h.group, some i, factor, vals⟩
  let g := s.entryGrad ep i
  if g.2 then s.skipBlock j pid bp h.stamp 5 [i]
  else match bp.state with
    | .far _ => s.beginFar
        { part := pid, group := bp.group, block := bp.block, stamp := h.stamp, entry := i, factor := factor, vals := vals }
        ep.engine.val
    | .stack addr => s.beginUpdate j ep ⟨pid, bp.group, bp.block, h.stamp, h.k, factor, vals, g.1, some i, 2⟩ bp addr

/-- One entry of a command; an apply takes a place among the blocks in progress (R236). -/
def State.holdEntry (s : State) (c : HoldCmd) (x : Nat × JobPlan × EnginePlan × BlockPlan × Nat × Entry64) : State :=
  let ep := x.2.2.1
  let i := x.2.2.2.2.1
  let h := x.2.2.2.2.2
  if c.action = 1 then (s.applyHeld c.factor x).checkSluice ep
  else if c.action = 2 then
    (s.bump 0x7440 0xC ep.engine.val 1).settleBlock x.2.1 (Fin.ofNat 16 x.1) x.2.2.2.1 h.stamp [i]
  else if c.action = 3 then s.writeHead ep i { h with armed := true, target := c.target, factor := c.factor }
  else s.freeEntries ep [i]

/-- The entry has to wait for a channel (R184): an apply touches a record; a drop settles the block; the others write the
header. -/
def State.holdWaits (s : State) (c : HoldCmd) (x : Nat × JobPlan × EnginePlan × BlockPlan × Nat × Entry64) : Bool :=
  let ep := x.2.2.1
  let i := x.2.2.2.2.1
  if c.action = 1 then s.engineWaits ep.engine.val
  else if c.action = 2 then s.segsBusy ep.engine.val (s.settleSegs x.2.1 x.2.2.2.1 x.2.2.2.2.2.stamp [i])
  else s.segsBusy ep.engine.val [(headAddr ep i, 64)]

/-- Updates of the command's group and step are in hand at an engine. -/
def Engine.holdOpen (x : Engine) (c : HoldCmd) : Bool :=
  x.settling.any (fun y => y.group = c.group && y.stamp = c.step) || x.far.any (fun y => y.group = c.group && y.stamp = c.step)
    || x.waiting.any (fun y => y.group = c.group && y.stamp = c.step)

/-- Headers that an engine reads as it begins a command: those of its entries of the kind. -/
def State.holdHeads (s : State) (c : HoldCmd) (e : Nat) : List (EnginePlan × List (Nat × Nat)) :=
  s.admittedJobs.filterMap (fun x => (planEngine x.2 e).map (fun ep =>
    (ep, ((s.sluiceUsed ep).filter (fun y => y.2 = c.kind)).map (fun y => (headAddr ep y.1, 64)))))

/-- The engine reads these headers. -/
def State.readHeads (s : State) (c : HoldCmd) (e : EngineId) : State :=
  let s := (s.holdHeads c e.val).foldl (fun s x => s.touchSegs (.stack e) x.2 5) s
  { s with holdCmd := some { c with read := c.read ++ [e] } }

/-- An engine works on through the entries of the running command, once it has read their headers: one block at a time
(R239), after other work on that block (R219), and an apply within its 64 blocks in progress (R221). -/
def State.holdStep (s : State) (e : EngineId) : State :=
  match s.holdCmd with
  | none => s
  | some c =>
    if !s.engineRuns e.val then s
    else if !c.read.contains e then
      (if (s.holdHeads c e.val).any (fun x => s.segsBusy e.val x.2) then s else (s.catchUp e).readHeads c e)
    else match s.commandEntries c e.val with
      | [] => s
      | x :: _ =>
        if s.holdWaits c x || (s.engine e.val).working (Fin.ofNat 16 x.1) x.2.2.2.1.group x.2.2.2.1.block
            || (c.action = 1 && ((s.engine e.val).holdOpen c || 64 ≤ (s.engine e.val).busy)) then s
        else (s.catchUp e).holdEntry c x

/-- A write of 1 to 0x8720:06 (R239, R438): the engines begin. -/
def State.actHoldCommand (s : State) (v : Nat) : Attempt :=
  let action := s.obj 0x8720 1 0
  let c : HoldCmd :=
    { action := action, group := Fin.ofNat 12 (s.obj 0x8720 2 0), step := BitVec.ofNat 32 (s.obj 0x8720 3 0),
      factor := BitVec.ofNat 32 (s.obj 0x8720 4 0), target := BitVec.ofNat 32 (s.obj 0x8720 5 0), result := 3 }
  if v != 1 then .ok s
  else if action = 0 then .error .valueRange
  else if s.holdCmd.isSome then .error .stateConflict
  else
    let es := (List.range 32).flatMap (s.commandEntries { c with action := if action = 3 then 4 else action })
    let late := es.any (fun x => match mfind (ekey x.1 c.group.val x.2.2.2.1.block) (s.engine x.2.2.1.engine.val).settled with
      | some n => decide (stampDiff c.target n ≤ 0)
      | none => false)
    if action = 3 && late then .error .stateConflict
    else
      .ok ({ s with holdCmd := some { c with result := if es = [] then 3 else 2 } }.setObj 0x8720 7 0 1)

/-- R239: every engine has finished: no entry is left, and no update of the group and step is in hand. -/
def execHoldCommandDone (s : State) : Host.Outcome State Fault Refusal :=
  done (
    match s.holdCmd with
    | none => s
    | some c =>
      if (List.range 32).any (fun e => s.commandEntries c e != [] || (c.action = 1 && (s.engine e).holdOpen c)) then s
      else { s with holdCmd := none }.setObj 0x8720 7 0 c.result)

/-! Digest records (R247). -/

/-- R247: the engine has settled all its blocks for a digested step. -/
def execDigestRollupSend (e : EngineId) (p : PartId) (s : State) : Host.Outcome State Fault Refusal :=
  done (
    match s.job p.val with
    | none => s
    | some j =>
      let mine := s.ownedBy j e.val
      let x := s.engine e.val
      match (x.rollups.filter (fun r => r.part = p)).find? (fun r =>
          mine.all (fun b => match mfind (ekey p.val b.group.val b.block) x.settled with
            | some n => decide (0 ≤ stampDiff n r.stamp)
            | none => false)) with
      | none => s
      | some r =>
        let now := x.rollups.filter (fun q => q.part = p && q.stamp = r.stamp)
        let s := s.setEngine e.val { x with rollups := x.rollups.filter (fun q => !(q.part = p && q.stamp = r.stamp)) }
        now.foldl (fun s q =>
          s.sendLocal ⟨s.jobHdr p.val 3 false 5 0xFFFF q.module 24, [],
            leBytes 4 q.stamp.toNat ++ leBytes 2 s.moduleId.toNat ++ leBytes 2 e.val ++ leBytes 8 q.value.toNat
              ++ List.replicate 8 0⟩) s)

/-! Snapshots (R249–R251). -/

/-- Owned blocks of the module in the image's order: engine, group, block. -/
def State.imageBlocks (s : State) : List (Nat × JobPlan × BlockPlan) :=
  (List.range 32).flatMap (fun e => (List.range 12).flatMap (fun g =>
    s.admittedJobs.flatMap (fun x =>
      (((s.ownedBy x.2 e).filter (fun b => b.group.val = g)).insertionSort (fun a b => a.block ≤ b.block)).map
        (fun b => (x.1, x.2, b)))))

def State.imageSize (s : State) (content : Nat) : Nat :=
  4096 + (s.imageBlocks.map (fun x => 64 + pad64 (contentLen x.2.1 x.2.2 content))).sum

/-- Offset of a block's record in the image. -/
def State.imageOffset (s : State) (content e g b : Nat) : Nat :=
  4096 + ((s.imageBlocks.takeWhile (fun x => !(x.2.2.engine.val = e && x.2.2.group.val = g && x.2.2.block = b))).map
    (fun x => 64 + pad64 (contentLen x.2.1 x.2.2 content))).sum

/-- 0x6900:06 while a snapshot runs: 1 while a block has still to settle for its step, then 2. -/
def State.snapshotState (s : State) : Nat :=
  match s.shipping with
  | none => s.obj 0x6900 6 0
  | some (snap, _) =>
    if s.imageBlocks.all (fun x =>
      (mfind (ekey x.1 x.2.2.group.val x.2.2.block) (s.engine x.2.2.engine.val).settled).any (fun n =>
        decide (0 ≤ stampDiff n snap))) then 2 else 1

/-- A write of 1 to 0x6900:05 (R249, R438). -/
def State.actSnapshotStart (s : State) (v : Nat) : Attempt :=
  let step := BitVec.ofNat 32 (s.obj 0x6900 1 0)
  let content := s.obj 0x6900 4 0
  let past := s.imageBlocks.any (fun x =>
    match mfind (ekey x.1 x.2.2.group.val x.2.2.block) (s.engine x.2.2.engine.val).settled with
    | some n => decide (0 < stampDiff n step)
    | none => false)
  if v != 1 then .ok s
  else if s.shipping.isSome || past || s.obj 0x6900 3 0 < s.imageSize content then .error .stateConflict
  else
    let s : State := { s with
      shipping := some (step, content),
      engines := s.engines.map (fun e => (e.1, { e.2 with shipped := [], copies := [], shipFar := [] })) }
    let s := (s.setObj 0x6900 6 0 1).setObj 0x6900 7 0 0
    let head := leBytes 4 step.toNat ++ leBytes 4 s.moduleId.toNat ++ leBytes 4 content ++ leBytes 4 s.imageBlocks.length
    .ok (s.farWrite ((s.admittedJobs.head?.map (·.1)).getD 0) (BitVec.ofNat 64 (s.obj 0x6900 2 0)) (head ++ List.replicate 4080 0) false)

/-- What the snapshot ships of a block, once it is there: a copy, the content in the stack, or a far record that has come. -/
def State.shipData (s : State) (e : EngineId) (j : JobPlan) (bp : BlockPlan) (k content : Nat) :
    Option ((List Byte × Bool) × State) :=
  let x := s.engine e.val
  match x.copies.find? (fun c => c.1 = k), planEngine j e.val with
  | some c, some ep => some (s.readStack e (firstBytes (c.2.map (fun i => (entryAddr ep i, 16384))) (contentLen j bp content)))
  | _, _ => match contentSegs j bp content with
    | some segs => some (s.readStack e segs)
    | none => (x.shipFar.find? (fun y => y.1 = k)).bind (fun y => y.2.map (fun d => (d, s)))

/-- An update that has waited for the shipment of its block begins. -/
def State.resumeWaiting (s : State) (e : EngineId) (j : JobPlan) (p : Nat) (bp : BlockPlan) : State :=
  match (s.engine e.val).waiting.find? (fun w => w.part.val = p && w.group = bp.group && w.block = bp.block),
      planEngine j e.val, bp.state with
  | some w, some ep, .stack a =>
    (s.modEngine e.val (fun x => { x with waiting := x.waiting.erase w })).applyBlock j ep w bp a
  | _, _, _ => s

/-- The shipment of a block has to wait for a channel (R184): of its copy or content, or, where an update of the block waits
for it, for that update's record. -/
def State.shipWaits (s : State) (e : EngineId) (j : JobPlan) (bp : BlockPlan) (k content : Nat) : Bool :=
  let x := s.engine e.val
  let segs : List (Nat × Nat) := match x.copies.find? (fun c => c.1 = k), planEngine j e.val with
    | some c, some ep => c.2.flatMap (fun i => [(entryAddr ep i, 16384), (headAddr ep i, 64)])
    | _, _ => (contentSegs j bp content).getD []
  s.segsBusy e.val segs || (s.engineWaits e.val && x.waiting.any (fun w => w.group = bp.group && w.block = bp.block))

/-- R250: the record of a block is shipped; that of a far block is asked for first. A waiting update of the block begins. -/
def execDirectShipmentComplete (e : EngineId) (g : GroupId) (b : BitVec 28) (s : State) :
    Host.Outcome State Fault Refusal :=
  done (
    match s.shipping, s.imageBlocks.find? (fun x => x.2.2.engine = e && x.2.2.group = g && x.2.2.block = b.toNat) with
    | some (snap, content), some (p, j, bp) =>
      let x := s.engine e.val
      let k := ekey p g.val b.toNat
      if x.shipped.contains k || !s.engineRuns e.val || s.shipWaits e j bp k content
          || (!x.copies.any (fun c => c.1 = k) && !(mfind k x.settled).any (fun n => decide (0 ≤ stampDiff n snap))) then s
      else match (s.catchUp e).shipData e j bp k content with
        | none =>
          if x.shipFar.any (fun y => y.1 = k) then s
          else (s.setEngine e.val { x with shipFar := x.shipFar ++ [(k, none)] }).farAsk (Fin.ofNat 16 p) j bp
        | some (d, s) =>
          let n := contentLen j bp content
          let rec' := leBytes 4 snap.toNat ++ leBytes 4 (blockIdent g.val b.toNat) ++ leBytes 4 n ++ List.replicate 52 0
            ++ d.1 ++ List.replicate (pad64 n - n) 0
          let addr := BitVec.ofNat 64 (s.obj 0x6900 2 0 + s.imageOffset content e.val g.val b.toNat)
          let s := s.farWrite p addr rec' d.2
          let s := (s.bump 0x7440 0xB e.val 1).setObj 0x6900 7 0 (s.obj 0x6900 7 0 + 1)
          let s := match (s.engine e.val).copies.find? (fun c => c.1 = k), planEngine j e.val with
            | some c, some ep => s.freeEntries ep c.2
            | _, _ => s
          (s.modEngine e.val (fun x =>
            { x with
              shipped := k :: x.shipped, copies := x.copies.filter (fun c => c.1 != k),
              shipFar := x.shipFar.filter (fun y => y.1 != k) })).resumeWaiting e j p bp
    | _, _ => s)

/-- After a snapshot an engine frees its kind-4 entries, and begins the updates that waited, as soon as their channels allow
(R184, R251). -/
def State.afterShip (s : State) (e : EngineId) : State :=
  s.admittedJobs.foldl (fun s x => match planEngine x.2 e.val with
    | none => s
    | some ep =>
      let busy (i : Nat) : Bool := s.segsBusy e.val [(headAddr ep i, 64)]
      let is := (s.engine e.val).stale
      let s := (s.freeEntries ep (is.filter (fun i => !busy i))).modEngine e.val (fun y => { y with stale := is.filter busy })
      if s.engineWaits e.val then s
      else
        let ws := (s.engine e.val).waiting.filter (fun w => w.part.val = x.1)
        let s := s.modEngine e.val (fun y => { y with waiting := y.waiting.filter (fun w => w.part.val != x.1) })
        ws.foldl (fun s w => match planBlock x.2 w.group.val w.block with
          | some bp => match bp.state with
            | .stack a => s.applyBlock x.2 ep w bp a
            | .far _ => s
          | none => s) s) s

/-- The snapshot ends (R251). -/
def State.endSnapshot (s : State) (result : Nat) : State :=
  match s.shipping with
  | none => s
  | some (snap, _) =>
    let s : State := { s with
      shipping := none,
      engines := s.engines.map (fun e => (e.1, { e.2 with
        stale := e.2.stale ++ e.2.copies.flatMap (·.2), copies := [], shipFar := [] })) }
    let s := s.setObj 0x6900 6 0 (if result = 0 then 3 else 4)
    let s := (allFin 32).foldl (fun s e => s.afterShip e) s
    s.raise 0x6070 srcModule snap (leBytes 1 result ++ leBytes 8 (s.obj 0x6900 7 0))

/-- R251: done needs every block shipped. -/
def execSnapshotShipEnd (result : Fin 4) (s : State) : Host.Outcome State Fault Refusal :=
  done (
    if result.val = 0 && !s.imageBlocks.all (fun x =>
        (s.engine x.2.2.engine.val).shipped.contains (ekey x.1 x.2.2.group.val x.2.2.block)) then s
    else s.endSnapshot result.val)

end Sys2Proof.Machine
end

