-- ==== Sys2Proof/Machine/Clock.lean ====
section
/-! DEFINITION. The divided clocks: CORE steps and rail voltages (R349–R351), and what one cycle of the mesh does to
tiles, routers, gates, controllers and counters (R107, R109, R124, R125, R152, R154, R158, R164, R190, R217, R253, R362;
log entry 2). -/
namespace Sys2Proof.Machine

/-! CORE steps. -/

/-- R349. -/
def stepDiv : Nat → Nat
  | 0 => 4 | 1 => 5 | 2 => 6 | _ => 8
def minMv : Nat → Nat
  | 0 => 720 | 1 => 640 | 2 => 580 | _ => 500

/-- Firmware requests; the hardware defaults while SC2 is down (R351). -/
def State.fwStep (s : State) (r : Nat) : Nat := if (s.core 2).down then 0 else s.obj 0x4000 3 r
def State.fwMv (s : State) (r : Nat) : Nat := if (s.core 2).down then 750 else s.obj 0x4000 2 r
/-- Thermal index of a region; 3 with more than 4 failed sensors (R354). -/
def Region.thermal (g : Region) : Nat := if 4 < g.bad then 3 else g.index
def State.halfIdx (s : State) (r : Nat) : Nat := if s.power.halfDown.contains (halfOf r) then 3 else 0
/-- The largest of the four requests (R350). -/
def State.stepWanted (s : State) (r : Nat) : Nat :=
  max (max (s.fwStep r) (s.region r).thermal) (max s.power.cap (s.halfIdx r))

/-- A voltage request at or above the minimum of the step in force is applied (R349). -/
def Region.setMv (g : Region) (req : Nat) : Region := if minMv g.step ≤ req then { g with mv := req } else g

/-- A faster step needs its minimum voltage; until then the region stays at the slower one (R349). -/
def Region.setStep (g : Region) (want : Nat) : Region :=
  if g.step ≤ want || minMv want ≤ g.mv then { g with step := want } else g

/-- Apply the requests of a region (R349–R351, R359). -/
def State.applyRegion (s : State) (r : Nat) : State :=
  let want := s.stepWanted r
  s.modRegion r (fun g =>
    { ((g.setMv (s.fwMv r)).setStep want).setMv (s.fwMv r) with
      netDiv := if s.power.halfDown.contains (halfOf r) then 4 else 2 })

/-- Apply the requests of every region that has been powered. -/
def State.applyRegions (s : State) : State := s.regions.foldl (fun s e => s.applyRegion e.1) s

/-- 0x4010:03 (R350, R360). -/
def State.stepShown (s : State) (r : Nat) : Nat :=
  let g := s.region r
  let bit (b : Bool) (i : Nat) : Nat := if b then 2 ^ i else 0
  g.step + bit (s.fwStep r = g.step) 2 + bit (g.thermal = g.step) 3 + bit (s.power.cap = g.step) 4
    + bit (s.halfIdx r = g.step && s.halfIdx r != 0) 5

/-! Stall causes (R124). -/

/-- A transfer comes from a stack; or from a vault, or goes into the own one (R124, R170). -/
def Xfer.fromStack (z : Xfer) : Bool :=
  match z.kind with
  | .move a _ => a.space = 4
  | .mcast a _ _ _ => a.space = 4
  | _ => false
def Xfer.vaultWait (z : Xfer) : Bool :=
  match z.kind with
  | .move a b => a.space = 1 || a.space = 2 || b.space = 1
  | _ => false

/-- Transfers of a queue that wait for network credit: one whose wait for a slot credit has begun, and those behind it. -/
def Queue.blocked (y : Queue) : List Xfer := y.xfers.dropWhile (fun z => !(z.phase = .waiting && z.since.isSome))

/-- A transfer brings data from another tile's SRAM. -/
def Xfer.inbound (z : Xfer) : Bool :=
  match z.kind with
  | .move a _ => a.space = 3
  | _ => false

/-- The transfer that a late operation needs next: the oldest of its queue that serves it (R123). -/
def Tile.needs (x : Tile) (o : Op) (q : Nat) : List Xfer :=
  let from' := match o.kind with
    | .move .. => (x.queue q).taken
    | _ => o.from'
  ((x.queue q).xfers.drop (from' - (x.queue q).done)).take 1

/-- Queue on which the operation of a context is halted (R123). -/
def Tile.haltedOn (x : Tile) (c : Nat) : Option (Op × Nat) :=
  (x.lateOp c).bind (fun o => match o.late with
    | .halted q => some (o, q)
    | _ => none)

/-- Transfers of the tile that the wait of a context is for: that which its halted operation needs, those of a fenced
queue, or those whose completion signal it awaits. -/
def Tile.awaited (x : Tile) (c : Nat) : List Xfer :=
  match x.haltedOn c, (x.ctx c).run with
  | some (o, q), _ => x.needs o q
  | none, .waiting (.fence q) _ => (x.queue q).xfers
  | none, .waiting (.counter k _) _ => x.queues.flatMap (fun q => q.2.xfers.filter (fun z => z.sig = some k))
  | none, _ => []

/-- The counter for which a context waits. -/
def Tile.awaitsCtr (x : Tile) (c : Nat) : Option (Fin 64) :=
  match (x.ctx c).run with
  | .waiting (.counter k _) _ => some k
  | _ => none

/-- Open landing slots whose transfer is on its way and will increment an awaited counter. -/
def Tile.awaitedSlots (x : Tile) (c : Nat) : List Slot :=
  match x.awaitsCtr c with
  | some k => (x.slots.filter (fun y => y.2.st = .taken && y.2.ctr = some k)).map (·.2)
  | none => []

/-- A context waits (R124): an operation of it is halted, or its wait has not ended. A suspended one does not wait. -/
def Tile.waits (x : Tile) (c : Nat) : Bool :=
  if (x.lateOp c).isSome then (x.haltedOn c).isSome
  else match (x.ctx c).run with
    | .waiting .. => true
    | _ => false

/-- The stall cause of a context that waits while its clock runs (R124), without cause 4. held: the tile leads a read held
at the millrace gate, whose waiting contexts count cause 1 (R196); retraining: its own vault interface is in state 2
(R111, R183). -/
def Tile.stallCause (x : Tile) (held retraining : Bool) (c : Nat) : Option Nat :=
  let y := x.ctx c
  let zs := x.awaited c
  let ss := x.awaitedSlots c
  let spilled := (x.awaitsCtr c).any (fun k => x.spilled.any (fun p => p.ctr = some k))
  let credit : Bool := (x.haltedOn c).isSome || zs.any (fun z => z.inbound || (x.queue z.q).blocked.contains z) || ss != []
    || match y.run with
      | .waiting (.space _) _ => true
      | _ => false
  let verdict : Bool := match y.run with
    | .waiting (.verdict _) _ => true
    | _ => false
  if !x.waits c then none
  else if spilled then some 6
  else if verdict then some 7
  else if held || zs.any Xfer.fromStack || ss.any (·.vc2) then some 1
  else if retraining || zs.any Xfer.vaultWait then some 2
  else if credit then some 3
  else some 5

/-- A pass of a context that would clear an entry is held back (R101). -/
def Tile.clearHeld (x : Tile) (c : Nat) : Bool :=
  x.ops.any (fun o => o.ctx.val = c && !o.ran && !o.isLate && x.atHead o && x.heldBack o && match o.kind with
    | .stream .. => true
    | _ => false)

/-- The cause that a context counts: cause 4 comes before 5, and counts for a context that goes on as well (R107), as do
the cycles in which a pass of it is held (R101). A suspended context counts nothing. -/
def Tile.countedCause (x : Tile) (held retraining : Bool) (c : Nat) : Option Nat :=
  let refused := x.refusedCtxs.contains c
  let idle : Bool := match (x.ctx c).run with
    | .idle => true
    | .stopped => true
    | _ => false
  if idle || ((x.lateOp c).isSome && (x.haltedOn c).isNone) then none
  else match x.stallCause held retraining c with
    | some 5 => some (if refused then 4 else 5)
    | some k => some k
    | none => if refused then some 4 else if x.clearHeld c then some 5 else none

/-- Contexts that count under cause 8 while the clock is stopped: neither idle nor stopped. -/
def Ctx.counts8 (y : Ctx) : Bool := y.run != .idle && y.run != .stopped

def Region.retraining (g : Region) : Bool := g.retrain.isRunning

/-- The vault interface of a tile retrains: it is not held in reset (R111, R183). -/
def State.vaultRetrains (s : State) (t : Nat) : Bool :=
  s.vaultUsable t && (s.region (regionOf t)).retraining

/-- An issue sample of a tile for every 65,536 core cycles: the context that issued last, its instruction address and its
stall cause, in this order in its first 6 bytes (R411 kind 4; where they lie, and which context, are the model's choice, log
entry 5). -/
def State.issueSample (s : State) (t : Nat) (held : Bool) : State :=
  let x := s.tile t
  if s.coreOf t % 65536 != 65535 then s
  else s.tracePointOf 4 t x.stamp (leBytes 1 x.last ++ leBytes 4 (x.ctx x.last).pc
    ++ leBytes 1 ((x.countedCause held (s.vaultRetrains t) x.last).getD 0))

/-- One CORE cycle of a tile (R107, R117, R123–R125): increments and waits, late operations, the banks of SRAM and what they
serve, stall counters, and the turn of contexts that have yielded. While the clock is stopped nothing of it goes on (R103). -/
def State.coreTile (s : State) (t : TileId) (clocked : Bool) : State :=
  if !clocked then
    (s.tile t.val).ctxs.foldl (fun s e => if e.2.counts8 then s.bump 0x7200 8 t.val 1 else s) s
  else
    let s := if s.executes t.val then (s.settleWaits t.val).checkOps t else s
    let s := s.sramCycle t
    let x := s.tile t.val
    let held := s.engines.any (fun e => e.2.heldReads.any (fun h => h.tile = t))
    let s := x.ctxs.foldl (fun s e => match x.countedCause held (s.vaultRetrains t.val) e.1 with
      | some k => s.bump 0x7200 k t.val 1
      | none => s) s
    (s.issueSample t.val held).passYields t.val

/-- A merge of a router waits on an input (R158): some operand of an entry is here and another is not. -/
def State.mergeWaits (s : State) (t : Nat) : Bool :=
  (List.range 5).any (fun i => match (s.router t).buf i 3 with
    | f :: _ => s.plan t i 3 f = .merge && (s.mergeReady t f.part.val f.route).isNone
    | [] => false)

/-- The seam FIFO of a seam tile holds 16 flits (R150). -/
def Router.seamFull (r : Router) (t : Nat) : Bool :=
  (tileX t = 47 && (List.range 6).any (fun v => 24 ≤ (r.buf 1 v).length))
    || (tileX t = 48 && (List.range 6).any (fun v => 24 ≤ (r.buf 3 v).length))

/-- Head flits of a partition that is paused at a step boundary: their watch stands still (R141). -/
def State.watchPaused (s : State) (r : Router) : Map Nat :=
  r.since.foldl (fun m e =>
    match mget ([] : List Flit) r.bufs e.1 with
    | f :: _ => if s.pstate f.part.val = 5 then mset e.1 (mget 0 m e.1 + 1) m else m
    | [] => m) r.paused

/-- One NET cycle of a router: its watches and counters (R141, R154, R164), and its edge gates (R152). -/
def State.netRouter (s : State) (t : Nat) : State :=
  let r := s.router t
  let s := if s.watchPaused r = r.paused then s else s.setRouter t { r with paused := s.watchPaused r }
  let full := (List.range 5).filter (s.withheld t)
  let new := full.filter (fun i => (mfind i r.forkSince).isNone)
  let s := if new = [] then s
    else s.modRouter t (fun r => { r with forkSince := new.foldl (fun m i => mset i (s.netOf t) m) r.forkSince })
  let s := if full != [] then s.bump 0x7300 0xB t 1 else s
  let s := if s.mergeWaits t then s.bump 0x7300 0xC t 1 else s
  let s := if r.seamFull t then s.bump 0x7300 0xD t 1 else s
  s.gateCycle t

/-- One NET cycle of a tile: its vault interface (R109), and 0x7400:06 while that retrains. -/
def State.netTile (s : State) (t : TileId) (retraining : Bool) : State :=
  let s := if (s.tile t.val).vreqs != [] then s.vaultCycle t else s
  if retraining && s.floorOf t.val = 0 && !(s.tile t.val).vaultBad then s.bump 0x7400 6 t.val 1 else s

/-- One cycle of the mesh in a region. -/
def State.meshRegion (s : State) (r : Nat) : State :=
  let g := s.region r
  if !g.netUp then s
  else
    let coreTick : Bool := g.div ≤ g.corePh + 1
    let netTick : Bool := g.netDiv ≤ g.netPh + 1
    let s := if coreTick && g.st = .running then
        (s.tiles.filter (fun e => regionOf e.1 = r)).foldl
          (fun s e => s.coreTile (Fin.ofNat 6912 e.1) g.clocked) s
      else s
    let s := if netTick then
        let s := (s.routers.filter (fun e => regionOf e.1 = r)).foldl (fun s e => s.netRouter e.1) s
        if g.retraining then (regionTiles r).foldl (fun s t => s.netTile (Fin.ofNat 6912 t) true) s
        else (s.tiles.filter (fun e => regionOf e.1 = r)).foldl (fun s e => s.netTile (Fin.ofNat 6912 e.1) false) s
      else s
    s.modRegion r (fun g =>
      { g with
        -- a new step takes effect as the next core cycle begins (R350)
        div := if coreTick then stepDiv g.step else g.div,
        corePh := if coreTick then 0 else g.corePh + 1, coreAt := if coreTick then s.now else g.coreAt,
        core := if coreTick && g.clocked then g.core + 1 else g.core,
        netPh := if netTick then 0 else g.netPh + 1, net := if netTick then g.net + 1 else g.net })

/-! The edge (R190, R217, R253). -/

/-- Work of an engine waits for a channel of its stack (R184). -/
def State.workWaits (s : State) (e : EngineId) : Bool :=
  let x := s.engine e.val
  let plan (p g b : Nat) : Option (JobPlan × BlockPlan) := (s.job p).bind (fun j => (planBlock j g b).map (fun bp => (j, bp)))
  (x.ins.any (fun r => r.whole && s.turnCome e.val r.part r.blk.hdr && s.blockWaits e r.part r.blk)
      || x.deferred.any (fun d => s.turnCome e.val d.1 d.2.hdr && s.blockWaits e d.1 d.2)
      || x.settling.any (fun y => (plan y.part.val y.group.val y.block).any (fun z =>
        s.segsBusy e.val (s.settleSegs z.1 z.2 y.stamp y.free)))
      || s.holdCmd.any (fun c => (s.commandEntries c e.val).head?.any (fun y => s.holdWaits c y))
      || x.stale != [] || (s.shipping.isNone && x.waiting != []))

/-- A request waits on a retraining channel of a stack (R190): of a tile, the millrace, a module, a port, the engine, the
trace or the service core. -/
def State.channelWait (s : State) (e : EngineId) : Bool :=
  s.engineWaits e.val
    && ((s.engine e.val).reqs.any (s.reqBlocked e.val) || (s.engine e.val).reads.any s.readBusy || s.workWaits e
      || (s.traceFor e.val).any (fun r => s.chanBusy e.val (s.traceAt r.1) 64)
      || (e = 0 && ((s.waiting != [] && s.chanBusy 0 (s.completionAt) 32)
        || (decide (s.mirrored < s.obj 0x9000 1 0) && s.mstate < 3)))
      || (List.range 16).any (fun p => s.isLive p && (s.part p).bin.any (fun b => b.rspRings.any (fun g => g.stack = e
        && (s.ringHead g).1 != (s.ringHead g).2.1 && s.segsBusy e.val [(g.header, 64)]))))

/-- One EDGE cycle of an engine: its counters, a request of its controller or else a trace record, the running command of
R239, and what a snapshot has left. -/
def State.edgeEngine (s : State) (e : EngineId) : State :=
  let x := s.engine e.val
  let s := if x.heldReads != [] then s.bump 0x7420 2 e.val 1 else s
  let s := if x.full then s.bump 0x7440 8 e.val 1 else s
  let s := if x.retrain.any (fun c => c.2.isRunning) && s.channelWait e then s.bump 0x7410 4 e.val 1 else s
  let s := if x.reqs != [] && (s.nextReq? e.val).isSome then s.serveReqs e
    else if s.traceFor e.val = [] then s
    else if x.failed || !x.trained then s.traceLose e
    else if s.stackUp e.val then s.traceWrite e else s
  let s := if s.shipping.isNone && (x.stale != [] || x.waiting != []) then s.afterShip e else s
  s.holdStep e

/-- One reference tick of a region's power counters (R362). -/
def State.tickRegion (s : State) (r : Nat) : State :=
  let g := s.region r
  if g.st = .running then
    let s := s.bump 0x7600 (g.step + 1) r 1
    if g.stops = [] then s else s.bump 0x7600 5 r 1
  else s.bump 0x7600 6 r 1

/-- One cycle of the 3,760 MHz mesh. -/
def State.meshCycle (s : State) : State :=
  let s := { s with now := s.now + 1 }
  let s : State := s.regions.foldl (fun s e => s.meshRegion e.1) s
  let s : State := if s.now % 3 = 0 then
      let s : State := { s with
        edges := (below 4 s.sideClocked).foldl (fun m d => mset d (mget 0 m d + 1) m) s.edges }
      s.engines.foldl (fun s e => if s.sideClocked (engineSide e.1) then s.edgeEngine (Fin.ofNat 32 e.1) else s) s
    else s
  let s : State := if s.now % 32 = 0 && s.mstate != 4 then (List.range 48).foldl State.tickRegion s else s
  -- the corrections of the policy passes are counted by the second (R183, R184)
  if s.now % 3760000000 = 0 then
    { s with
      regions := s.regions.map (fun e => (e.1, { e.2 with corrected := 0 })),
      engines := s.engines.map (fun e => (e.1, { e.2 with second := [] })) }
  else s

end Sys2Proof.Machine
end

