-- ==== Sys2Proof/Machine/Digest.lean ====
section
/-! DEFINITION. Firmware versions (R444) and the configuration digest with its comparison (R314, R315, R341). -/
namespace Sys2Proof.Machine

/-! Versions (R444). -/

def State.slot (s : State) (k : Nat) : FwSlot := if k = 0 then s.slotA else s.slotB

/-- The slot that runs. -/
def State.running (s : State) : FwSlot := s.slot (s.obj 0x1012 1 0)

def asciiBytes (t : List Char) : List Byte := t.map (fun c => BitVec.ofNat 8 c.toNat)

/-- The release as text, and 0x1020:01–04. -/
def State.release (s : State) : List Byte :=
  let v := s.running.version.toNat
  asciiBytes (Nat.toDigits 10 (v / 2 ^ 24) ++ ['.'] ++ Nat.toDigits 10 (v / 2 ^ 16 % 256) ++ ['.'] ++ Nat.toDigits 10 (v % 2 ^ 16))
def State.partVersion (s : State) (i : Nat) : Nat := (s.running.parts.getD i 0).toNat

/-! The configuration digest (R314, R341). -/

/-- Index, sub-index, instance, length and value. -/
def digestEntry (idx sub : Nat) (v : List Byte) : List Byte :=
  leBytes 2 idx ++ leBytes 1 sub ++ leBytes 2 0 ++ leBytes 2 v.length ++ v

def State.configBytes (s : State) : List Byte :=
  let value (o : Nat × Nat) : List Byte :=
    leBytes (((objType o.1 o.2).bind (fun t => t.1.len)).getD 0) (s.obj o.1 o.2 0)
  let routing := s.blob 0x1F82 1 0
  jobClass.flatMap (fun o => digestEntry o.1 o.2 (value o)) ++ digestEntry 0x100A 0 s.release
    ++ (List.range 4).flatMap (fun i => digestEntry 0x1020 (i + 1) (leBytes 4 (s.partVersion i)))
    ++ (if routing = [] then List.replicate 48 0 else routing)

def State.ownDigest (s : State) : List Byte :=
  let d := s.blob 0x1F80 1 0
  if d = [] then List.replicate 48 0 else d

/-- Whether the digests of a sub-port are equal. -/
def State.digestsMatch (s : State) (p b : Nat) : Bool :=
  bitOf (s.obj 0x6000 5 p) b && (s.sub p b).peerDigest = s.ownDigest

/-- A mismatch begins or ends on a sub-port. -/
def State.noteDigest (s : State) (p b : Nat) : State :=
  let x := s.sub p b
  if x.peerDigest = [] || !bitOf (s.obj 0x6000 5 p) b || s.digestsMatch p b then
    s.setSub p b { x with mismatch := none, mismatchTold := false }
  else if x.mismatch.isNone then s.setSub p b { x with mismatch := some s.tick } else s

def State.noteDigests (s : State) : State :=
  (List.range 6).foldl (fun s p => (List.range 8).foldl (fun (s : State) b =>
    if (s.sub p b).isUp then s.noteDigest p b else s) s) s

/-- A covered object has changed: the digest is recomputed and its generation counted (R314). -/
def State.refreshDigest (s : State) : State :=
  let d := sha384 s.configBytes
  if d = s.blob 0x1F80 1 0 then s
  else ((s.setBlob 0x1F80 1 0 d).setObj 0x1F80 2 0 (s.obj 0x1F80 2 0 + 1)).noteDigests

end Sys2Proof.Machine
end

