-- ==== Sys2Proof/Machine/Verdict.lean ====
section
/-! DEFINITION. The step verdict (R208–R212) with what it drives (R231, R247, R254–R259, R266–R268), and the logit
relays (R213–R215). -/
namespace Sys2Proof.Machine

/-! The record (R209). -/

def Verdict.bytes (v : Verdict) : List Byte :=
  leBytes 4 v.stamp.toNat ++ leBytes 2 v.flags.toNat ++ leBytes 2 v.modules.toNat ++ leBytes 4 v.skipped.toNat
    ++ leBytes 4 v.held.toNat ++ (List.range 12).flatMap (fun g => leBytes 4 (v.sums.getD g 0).toNat)

/-- The sum of a group: its q in ascending block order, in W40, then A32 (R209). -/
def groupSum (c : Contribution) (g : Nat) : BitVec 32 :=
  let qs := c.sums.filter (fun x => x.1 / 2 ^ 28 = g)
  let t := qs.foldl (fun a x => w40 (a.add (Fmt.w40.decode x.2))) Num.zero
  BitVec.ofNat 32 (Fmt.a32.encode .nearestEven t)

/-- The contribution of this module. -/
def ownVerdict (c : Contribution) (stamp : BitVec 32) (early : BitVec 16) : Verdict :=
  { stamp, flags := c.flags ||| early, modules := 1, skipped := BitVec.ofNat 32 c.skipped,
    held := BitVec.ofNat 32 c.held, sums := (List.range 12).map (groupSum c) }

def addA32 (x y : BitVec 32) : BitVec 32 := BitVec.ofNat 32 (Fmt.a32.encode .nearestEven ((f32 x).add (f32 y)))

/-- R210: flags by OR, counts by integer addition, sums by A32 addition. -/
def combineVerdicts (a b : Verdict) : Verdict :=
  { stamp := a.stamp, flags := a.flags ||| b.flags, modules := a.modules + b.modules,
    skipped := a.skipped + b.skipped, held := a.held + b.held,
    sums := (List.range 12).map (fun g => addA32 (a.sums.getD g 0) (b.sums.getD g 0)) }

/-- The inputs of a node, in plan order; none: the own contribution. -/
def verdictInputs (j : JobPlan) : List (Option (PortId × SubId)) :=
  let kids : List (Option (PortId × SubId)) := j.vDown.map some
  kids.take j.vOwn ++ none :: kids.drop j.vOwn

/-- The record of an input for a step, if it has reported. -/
def Part.verdictFrom (x : Part) (stamp : BitVec 32) (i : Option (PortId × SubId)) : Option Verdict :=
  match i with
  | none => x.own.find? (fun v => v.stamp = stamp)
  | some y => (x.inputs.find? (fun z => z.input = y && z.v.stamp = stamp)).map (·.v)

/-- Plan entry of a job's verdict tree in link packets: the number after those of its blocks (R297; the model's choice, log
entry 36). -/
def verdictIndex (j : JobPlan) : BitVec 16 := BitVec.ofNat 16 j.blocks.length

/-- Send a record on a sub-port of the verdict tree, on layer 1 where a record it came from did or the plan's VC offset says
so, and poisoned where one was (R210, R294, R298); w: the way that it has come (R308). Its way between the edge units of the module takes no step (log entry 36). -/
def State.sendVerdict (s : State) (p : Nat) (x : PortId × SubId) (v : Verdict) (w : Way) (layer poison : Bool) :
    State :=
  let off := (s.job p).any (·.vOff)
  let plan := ((s.job p).map verdictIndex).getD 0
  (s.sendJob x [⟨{ s.jobHdr p 3 (layer || off) 5 plan 0x3FFF 64 with poison := poison, src := w.src, hops := w.hops }, [],
    Verdict.bytes v⟩]).bump 0x7500 3 x.1.val 1

/-! Applying a verdict (R211). -/

/-- R254–R256: the loss scale of the loss-scaled job. -/
def State.scaleUpdate (s : State) (v : Verdict) : State :=
  let k := s.obj 0x8100 1 0
  let c := s.obj 0x8100 4 0
  let left := s.obj 0x8100 5 0
  let g := if left = 0 then s.obj 0x8100 2 0 else s.obj 0x8100 6 0
  let s := if left = 0 then s else s.setObj 0x8100 5 0 (left - 1)
  let tell (s : State) (new cause : Nat) : State := s.raise 0x5050 srcModule v.stamp (leBytes 1 k ++ leBytes 1 new ++ leBytes 1 cause)
  let put (s : State) (new clean : Nat) : State := (s.setObj 0x8100 1 0 new).setObj 0x8100 4 0 clean
  if v.flags.getLsbD 0 then
    if k = 0 then tell (put s 0 0) 0 3 else tell (put s (k - 1) 0) (k - 1) 0
  else if c + 1 < g then put s k (c + 1)
  else if k < 24 then tell (put s (k + 1) 0) (k + 1) 1
  else put s k 0

/-- R231: the running mean of a group. A block count above 2^24, which A32 does not hold, divides exactly and is not rounded
first (the model's choice; log entry 34). -/
def State.meanUpdate (s : State) (g : Nat) (v : Verdict) : State :=
  let q := f32 (v.sums.getD g 0)
  let n := s.obj 0x8410 (0xD + g) 0
  let r (x : Num) : Num := Num.rne .a32 x
  if !q.isFinite then s
  else
    let qb := r (q.div (Num.ofNat (s.obj 0x8709 (g + 1) 0)))
    let mu := f32 (BitVec.ofNat 32 (s.obj 0x8410 (g + 1) 0))
    let al := f32 (BitVec.ofNat 32 (s.obj 0x8400 0xD 0))
    let m := if n = 0 then qb else r (mu.add (r (al.mul (r (qb.sub mu)))))
    (s.setObj 0x8410 (g + 1) 0 (Fmt.a32.encode .nearestEven m)).setObj 0x8410 (0xD + g) 0 ((n + 1) % 2 ^ 32)

/-- R266–R268: the silence count of a group. -/
def State.silenceUpdate (s : State) (g : Nat) (v : Verdict) : State :=
  let lim := s.obj 0x8200 1 0
  if lim = 0 || v.flags.getLsbD 0 then s
  else if v.sums.getD g 0 = 0 then
    let z := (s.obj 0x8210 (g + 1) 0 + 1) % 2 ^ 32
    let s := s.setObj 0x8210 (g + 1) 0 z
    if z % lim = 0 then s.raise 0x5030 srcModule v.stamp (leBytes 1 g ++ leBytes 4 z) else s
  else s.setObj 0x8210 (g + 1) 0 0

/-- R247: the steps whose copies are digested. -/
def State.noteDigested (s : State) (p : Nat) (stamp : BitVec 32) : State :=
  let i := s.obj 0x8300 1 0
  if i = 0 || stamp.toNat % i != 0 then s
  else s.modPart p (fun x => { x with digested := (stamp :: x.digested).take 16 })

/-- Port and sub-port fields of E6022; 0xFF: the wafer. -/
def inputBytes (i : Option (PortId × SubId)) : List Byte :=
  match i with
  | some x => leBytes 1 x.1.val ++ leBytes 1 x.2.val
  | none => leBytes 1 0xFF ++ leBytes 1 0

def State.verdictTicks (s : State) : Nat := s.obj 0x8610 1 0 * msTicks

/-- The final record of a step is applied, in the order of R211, when its module count is the job's. -/
def State.useVerdict (s : State) (p : Nat) (j : JobPlan) (v : Verdict) : State :=
  let x := s.part p
  if v.modules.toNat != j.modules then s
  else
    let s := if x.joined.any (fun n => n.1 = v.stamp && n.2 + s.verdictTicks = s.tick)
      then s.raise 0x6022 p v.stamp (inputBytes j.vUp ++ leBytes 1 1) else s
    let s := (s.setBlob 0x8620 (p + 1) 0 (Verdict.bytes v)).setObj 0x8600 (p + 1) 0 v.stamp.toNat
    let s := s.modPart p (fun x => { x with
      lastStamp := v.stamp, lastFlags := v.flags,
      own := x.own.filter (fun w => decide (0 < stampDiff w.stamp v.stamp)),
      joined := x.joined.filter (fun n => decide (0 < stampDiff n.1 v.stamp)),
      inputs := x.inputs.filter (fun i => decide (0 < stampDiff i.v.stamp v.stamp)),
      contribs := x.contribs.filter (fun c => decide (0 < stampDiff (BitVec.ofNat 32 c.1) v.stamp)) })
    let s := if v.flags.getLsbD 0 || v.flags.getLsbD 1
      then s.raise 0x6021 srcModule v.stamp (leBytes 4 v.skipped.toNat) else s
    let s := if s.obj 0x8100 8 0 = p then s.scaleUpdate v else s
    let s := j.groups.foldl (fun s g => (s.meanUpdate g.group.val v).silenceUpdate g.group.val v) s
    let s := s.noteDigested p (v.stamp + 1)
    if bitOf (s.obj 0x2300 6 0) p then s.notice 0x8003 p v.stamp.toNat else s

/-- The final record of a step: sent to the children with the way w, then applied (R210, R211). One that is not later than
the last applied changes nothing. -/
def State.applyVerdict (s : State) (p : Nat) (v : Verdict) (w : Way) (layer poison : Bool) : State :=
  match s.job p with
  | none => s
  | some j =>
    if !s.isLive p || stampDiff v.stamp (s.part p).lastStamp ≤ 0 then s
    else (j.vDown.foldl (fun s y => s.sendVerdict p y v w layer poison) s).useVerdict p j v

/-- R210: with every input of a step there, the node sends the sum toward the root; the root forms the final
record. -/
def State.verdictStep (s : State) (p : Nat) (stamp : BitVec 32) : State :=
  match s.job p with
  | none => s
  | some j =>
    match (verdictInputs j).mapM ((s.part p).verdictFrom stamp) with
    | some (v :: vs) =>
      let sum := vs.foldl combineVerdicts v
      let ins := (s.part p).inputs.filter (fun z => z.v.stamp = stamp)
      match j.vUp with
      | some up => s.sendVerdict p up sum s.ownWay (ins.any (·.layer)) (ins.any (·.poison))
      | none => s.applyVerdict p sum s.ownWay (ins.any (·.layer)) (ins.any (·.poison))
    | _ => s

/-- The step whose verdict the module joins next. -/
def Part.nextJoin (x : Part) : BitVec 32 := ((x.joined.getLast?.map (·.1)).getD x.lastStamp) + 1

/-- Owned blocks of a step that have begun and wait for the snapshot to ship them (R250): they are not applied yet. -/
def State.waitingFor (s : State) (p : Nat) (stamp : BitVec 32) : Nat :=
  (s.engines.map (fun e => (e.2.waiting.filter (fun w => w.part.val = p && w.stamp = stamp && w.kind = 1)).length)).sum

/-- R208: both conditions hold for the step that the module joins next. -/
def State.mayJoin (s : State) (p : Nat) (j : JobPlan) : Bool :=
  let x := s.part p
  let stamp := x.nextJoin
  let c := mget ({} : Contribution) x.contribs stamp.toNat
  let owned := (s.ownedHere j).length
  let begun : Bool := decide (0 ≤ stampDiff (BitVec.ofNat 32 (s.obj 0x8600 (0x11 + p) 0)) stamp)
  s.isLive p
    && (if j.contributes = 0 then begun else decide (j.contributes ≤ c.passed))
    && (if owned = 0 then begun else decide (owned + s.waitingFor p stamp ≤ c.handled))

/-- R208, R212. -/
def execVerdictJoin (p : PartId) (s : State) : Host.Outcome State Fault Refusal :=
  done (
    match s.job p.val with
    | none => s
    | some j =>
      if !s.mayJoin p.val j then s
      else
        let x := s.part p.val
        let stamp := x.nextJoin
        let v := ownVerdict (mget ({} : Contribution) x.contribs stamp.toNat) stamp x.early
        (s.setPart p.val { x with
          own := x.own ++ [v], early := 0, joined := x.joined ++ [(stamp, s.tick)] }).verdictStep p.val stamp)

/-- A record that comes by a link is not taken (R308, R312). -/
def State.verdictAway (s : State) (p : Nat) (x : PortId × SubId) (w : Way) : Option State :=
  (s.takeTail x.1.val x.2.val).1.turnAway x.1.val x.2.val 3 5 (s.jobOf p) w

/-- R210: a record arrives from a child of the verdict tree. -/
def execVerdictCombine (p : PartId) (input : PortId × SubId) (v : VerdictPkt) (s : State) :
    Host.Outcome State Fault Refusal :=
  done (
    let w := v.way
    let v := v.v
    let away := s.verdictAway p.val input w
    match s.job p.val with
    | none => s
    | some j =>
      if !j.vDown.contains input || !s.linkUp input.1.val input.2.val then s
      else if away.isSome then away.getD s
      else if !s.isLive p.val
          || stampDiff v.stamp (s.part p.val).lastStamp ≤ 0
          || ((s.part p.val).verdictFrom v.stamp (some input)).isSome then s
      else
        let r := s.takeTail input.1.val input.2.val
        (r.1.modPart p.val (fun x => { x with inputs := x.inputs ++ [⟨input, v, r.2.2, r.2.1⟩] })).verdictStep p.val v.stamp)

/-- R210, R211: the final record arrives from the root's side of the verdict tree. -/
def execVerdictApply (p : PartId) (v : VerdictPkt) (s : State) : Host.Outcome State Fault Refusal :=
  done (
    let w := v.way
    let v := v.v
    match (s.job p.val).bind (·.vUp) with
    | some up =>
      let away := s.verdictAway p.val up w
      let r := s.takeTail up.1.val up.2.val
      if !s.linkUp up.1.val up.2.val then s
      else if away.isSome then away.getD s
      else r.1.applyVerdict p.val v (Way.on w) r.2.2 r.2.1
    | none => s.applyVerdict p.val v s.ownWay false false)

/-- R212: the timer of a joined verdict has run for its period, and the tick of its expiry has passed: a record that arrives
in that tick is applied (log entry 2). A change of the period applies from the next tick. -/
def execVerdictTimeout (p : PartId) (s : State) : Host.Outcome State Fault Refusal :=
  done (
    match s.job p.val, (s.part p.val).joined with
    | some j, n :: _ =>
      if s.tick ≤ n.2 + s.verdictTicks then s
      else
        let missing := ((verdictInputs j).find? (fun i => ((s.part p.val).verdictFrom n.1 i).isNone)).getD j.vUp
        (s.raise 0x6022 p.val n.1 (inputBytes missing ++ leBytes 1 0)).stopJob (s.obj 0x2102 (p.val + 1) 0) 3
    | _, _ => s)

/-! Relays (R213–R215). -/

/-- 0x2130. -/
def Relay.shown (y : Relay) : Nat :=
  match y.teacher, y.student with
  | some t, some u =>
    if t.2 = u.1 && u.2 = t.1 then t.1.val + 16 * u.1.val + 2 * 256 else t.1.val + 16 * u.1.val + 256
  | some t, none => t.1.val + 256
  | none, some u => 16 * u.1.val + 256
  | none, none => 0

/-- R214, R215: the relay forwards its oldest transfer; it waits for a slot credit of the student's buffer. -/
def execRelayForward (r : RelayId) (s : State) : Host.Outcome State Fault Refusal :=
  done (
    let y := s.relay r.val
    match (if s.sideClocked (relaySide r.val) then y.held else []), y.student, y.plan with
    | x :: rest, some (p, _), some plan =>
      let p' : PartId := (y.teacher.map (·.1)).getD 0
      let took := (s.setRelay r.val { y with held := rest }).relayCredit r.val p' x.teacher.val x.gate.val
      if y.discards then took.bump 0x7430 (0x11 + r.val) 0 1
      else
        let vc : Fin 6 := if plan.classU then 4 else 1
        let d : Dest := ⟨Fin.ofNat 6912 x.tile, Fin.ofNat 16 x.buf, Fin.ofNat 64 x.slot, x.ctr⟩
        let side := relaySide r.val
        let g := s.sideGate side p.val plan.route.val vc.val
        match took.takeSlot d g true false with
        | none => s
        | some s =>
          let f : Flit :=
            { vc := vc, ty := .data, part := p, route := plan.route.val, dst := d.tile.val, src := g, head := true,
              tail := true, dests := [d], edge := 1 + r.val, poison := x.poison }
          (s.gatePush g side vc.val (flitsOf f (fun _ => x.poison) x.data)).bump 0x7430 (1 + r.val) 0 1
    | _, _, _ => s)

end Sys2Proof.Machine
end

