-- ==== Sys2Proof/Machine/Partition.lean ====
section
/-! DEFINITION. Partitions: admission (R16, R90, R167, R191, R213, R238, R254, R373), program start (R112, R122, R192,
R226, R259, R260), reset (R275), pause (R276), and the partition commands of the command ring (R385, R386). -/
namespace Sys2Proof.Machine

/-! Rectangles (R271). -/

def rectOk (v : Nat) : Bool :=
  v % 8 ≤ v / 64 % 8 && v / 8 % 8 ≤ v / 512 % 8 && v / 512 % 8 ≤ 5 && v / 4096 = 0

def rectFields (v : Nat) : List Nat := (List.range 48).filter (inRect v)

def rectsOverlap (a b : Nat) : Bool := (List.range 48).any (fun r => inRect a r && inRect b r)

/-- R272: a rectangle overlaps that of another partition that is not Undefined. -/
def State.rectTaken (s : State) (p rect : Nat) : Bool :=
  (List.range 16).any (fun q => q != p && s.pstate q != 0 && rectsOverlap rect (s.rect q))

/-! Admission. -/

/-- The roles break R90. -/
def rolesBad (training : Bool) (roles : List Role) : Bool :=
  let r (i : Nat) : Role := roles.getD i .idle
  if training then
    !(r 0 = .forward && (r 1 = .dataGrad || r 1 = .idle) && (r 2 = .weightGrad || r 2 = .idle))
  else (List.range 3).any (fun i => !(r i = .forward || r i = .idle))

/-- A relay is bound to a pair of partitions (R213). -/
def Relay.boundTo (y : Relay) : Option (PartId × PartId) :=
  match y.teacher, y.student with
  | some t, some u => if t.2 = u.1 && u.2 = t.1 then some (t.1, u.1) else none
  | _, _ => none

/-- Whole-binary rules: a refusal names tile 0. -/
def State.binaryBad (s : State) (p job : Nat) (b : Binary) : Bool :=
  let others := (List.range 16).filter (fun q => q != p && 2 ≤ s.pstate q)
  let ws := others.flatMap (fun q => match (s.part q).bin with
    | some c => c.windows
    | none => [])
  let winBad (w : Window) : Bool :=
    w.base % twoMiB != 0 || w.size % twoMiB != 0 || jobEnd < w.base + w.size || (s.engine w.stack.val).failed
      || ws.any (fun v => v.stack = w.stack && (v.write || w.write) && overlaps w.base w.size v.base v.size)
      || (s.obj 0x6860 3 w.stack.val = 1
          && overlaps w.base w.size (s.obj 0x6860 1 w.stack.val) (s.obj 0x6860 2 w.stack.val))
  let portBad (x : PortId × SubId) : Bool := (s.port x.1.val).failed
  let relayBad (teacher student : Nat) (r : RelayId) : Bool :=
    let y := s.relay r.val
    y.failed || match y.boundTo with
      | some (t, u) => !(t.val = teacher && u.val = student)
      | none => false
  let jobBad (j : JobPlan) : Bool :=
    let ids := j.groups.map (·.group)
    let hold (g : Nat) : Bool := j.groups.any (fun x => x.group.val = g && x.hold)
    ids.isEmpty || ids.eraseDups.length != ids.length
      || others.any (fun q => s.isTraining q && s.obj 0x2102 (q + 1) 0 = job)
      || (j.scaled && s.obj 0x8100 8 0 != 0xFF)
      || !s.holdFits j hold
      || j.areas.any (fun a => (s.engine a.stack.val).failed) || j.subports.any portBad
  s.floor.isNone || 16 < b.windows.length || b.windows.any winBad || b.ports.any portBad
    || 4 < b.exports.length || 4 < b.imports.length
    || b.exports.any (fun x => relayBad p x.other.val x.relay) || b.imports.any (fun x => relayBad x.other.val p x.relay)
    || b.job.any jobBad

/-- A region latched off, or off at T4, which is its like (R287, R356). -/
def Region.latchedOff (g : Region) : Bool := g.st = .latched || g.st = .dead || g.st = .offT4

/-- Tiles that break an admission rule; those of regions latched off count as well (R287, R385). -/
def State.offending (s : State) (rect : Nat) (b : Binary) : List Nat :=
  let off (t : Nat) : Bool := (s.region (regionOf t)).latchedOff
  b.tiles.flatMap (fun x =>
    let t := x.tile.val
    let f := s.floorOf t
    let bad : Bool :=
      if x.compute then
        (if x.vault then f != 0 || (s.tile t).vaultBad else 1 < f) || !inRect rect (regionOf t)
          || s.mcState t = 2 || rolesBad b.training x.roles || off t
      else f = 3 || off t
    let partner : List Nat := match x.partner with
      | some y => if s.floorOf y.val = 0 && inRect rect (regionOf y.val) then [] else [y.val]
      | none => []
    (if bad then [t] else []) ++ partner)
  ++ (b.routes.map (fun x => x.1.val)).filter (fun t => s.floorOf t = 3 || off t)

/-- R16: none where the binary is admitted, or the first offending tile. -/
def State.admission (s : State) (p rect job : Nat) (b : Binary) : Option Nat :=
  if s.binaryBad p job b then some 0 else (s.offending rect b).min?

/-- Relays follow the admitted exports and imports (R213): a bound pair stays; else the first pair that names each
other; else what is there. -/
def State.bindRelays (s : State) : State :=
  let bins : List (PartId × Binary) := (allFin 16).filterMap (fun p =>
    if 2 ≤ s.pstate p.val then (s.part p.val).bin.map (fun b => (p, b)) else none)
  (allFin 16).foldl (fun s r =>
    let ex := bins.flatMap (fun x => (x.2.exports.filter (fun e => e.relay = r)).map (fun e => (x.1, e.other)))
    let im := bins.flatMap (fun x => (x.2.imports.filter (fun e => e.relay = r)).map (fun e => (x.1, e)))
    let pairs := ex.flatMap (fun t => (im.filter (fun u => u.1 = t.2 && u.2.other = t.1)).map (fun u => (t, u)))
    let y := s.relay r.val
    if y.failed then s
    else
      let keep := pairs.find? (fun x => y.boundTo = some (x.1.1, x.2.1))
      match keep.or pairs.head? with
      | some (t, u) =>
        s.setRelay r.val { y with
          teacher := some t, student := some (u.1, u.2.other), plan := some u.2,
          discards := y.discards && y.student.any (fun x => x.1 = u.1) }
      | none =>
        s.setRelay r.val { y with
          teacher := ex.head?, student := im.head?.map (fun u => (u.1, u.2.other)), plan := im.head?.map (·.2),
          held := [], inflight := 0, discards := false }) s

/-- The engines forget the blocks of a partition. -/
def Engine.forget (x : Engine) (p : Nat) : Engine :=
  let other (k : Nat) : Bool := k / 2 ^ 32 != p
  { x with
    expected := x.expected.filter (fun c => other c.1), settled := x.settled.filter (fun c => other c.1),
    settling := x.settling.filter (fun y => y.part.val != p), deferred := x.deferred.filter (fun y => y.1.val != p),
    far := x.far.filter (fun y => y.part.val != p), ins := x.ins.filter (fun y => y.part.val != p),
    told := x.told.filter (fun y => y.1 != p), rollups := x.rollups.filter (fun y => y.part.val != p),
    waiting := x.waiting.filter (fun y => y.part.val != p), shipped := x.shipped.filter other,
    copies := x.copies.filter (fun c => other c.1), shipFar := x.shipFar.filter (fun c => other c.1) }

/-- Blocks of a partition that an engine has in hand: group, block, stamp. -/
def Engine.inHand (x : Engine) (p : Nat) : List (Nat × Nat × BitVec 32) :=
  let tail (h : TailHdr) : Nat × Nat × BitVec 32 := (h.group.toNat, h.block.toNat, h.stamp)
  ((x.ins.filter (fun y => y.part.val = p)).map (fun y => tail y.blk.hdr))
    ++ ((x.deferred.filter (fun y => y.1.val = p)).map (fun y => tail y.2.hdr))
    ++ ((x.settling.filter (fun y => y.part.val = p)).map (fun y => (y.group.val, y.block, y.stamp)))
    ++ ((x.far.filter (fun y => y.part.val = p)).map (fun y => (y.group.val, y.block, y.stamp)))
    ++ ((x.waiting.filter (fun y => y.part.val = p)).map (fun y => (y.group.val, y.block, y.stamp)))

/-- The engines and the reduction units forget the blocks of a partition, with the journal entries of those in hand; of the
blocks that repair marked lost they keep those before a step, whose packets may still come (R246). -/
def State.forgetJob (s : State) (p : Nat) (s0 : Option (BitVec 32)) : State :=
  let plans : List EnginePlan := match s.job p with
    | some j => j.engines
    | none => []
  let s := plans.foldl (fun s ep => ((s.engine ep.engine.val).inHand p).foldl (fun s b =>
    s.clearJournal ep b.1 b.2.1 b.2.2) s) s
  let keeps (c : Nat × BitVec 32) : Bool := c.1 / 2 ^ 32 != p || s0.any (fun n => decide (stampDiff c.2 n < 0))
  { s.dropInputs p with
    engines := s.engines.map (fun e => (e.1, { e.2.forget p with lost := e.2.lost.filter keeps })),
    ports := (s.dropInputs p).ports.map (fun e => (e.1, { e.2 with done := e.2.done.filter (fun c => c.part.val != p) })) }

/-- Parameter groups that the job of a partition declares. -/
def State.groupsOf (s : State) (p : Nat) : List Nat := ((s.job p).map (fun j => j.groups.map (·.group.val))).getD []

/-- A partition's binary is dropped; a group that the job of another partition declares too keeps its values (R287). -/
def State.dropBinary (s : State) (p : Nat) : State :=
  let gs := (s.groupsOf p).filter (fun g => (List.range 16).all (fun q => q = p || !(s.groupsOf q).contains g))
  let s := (s.forgetJob p none).modPart p (fun _ => {})
  let s := gs.foldl (fun s g => { (s.setObj 0x8708 (g + 1) 0 0).setObj 0x8709 (g + 1) 0 0 with acts := mdel g s.acts }) s
  let s := if s.obj 0x8100 8 0 = p then s.setObj 0x8100 8 0 0xFF else s
  let s : State := { s with tiles := s.tiles.map (fun e =>
    if e.2.part.any (fun q => q.val = p) then (e.1, { e.2 with part := none, code := [] }) else e) }
  (s.setObj 0x2102 (p + 1) 0 0).bindRelays

def GroupPlan.vals (g : GroupPlan) : Vals := ⟨g.eta, g.beta1, g.beta2, g.eps, g.lam, g.hold⟩

/-- Admission of a training job's groups (R226, R231, R252, R266). -/
def State.admitGroup (s : State) (g : GroupPlan) : State :=
  let k := g.group.val + 1
  let s := (((((s.setObj 0x8700 k 0 g.eta.toNat).setObj 0x8701 k 0 g.beta1.toNat).setObj 0x8702 k 0 g.beta2.toNat).setObj
    0x8703 k 0 g.eps.toNat).setObj 0x8704 k 0 g.lam.toNat).setObj 0x8705 k 0 (if g.hold then 1 else 0)
  let s := ((s.showVals g.group.val (GroupPlan.vals g)).setObj 0x8708 k 0 g.rule).setObj 0x8709 k 0 g.blocks
  let s := ((s.setObj 0x8410 k 0 0).setObj 0x8410 (0xC + k) 0 0).setObj 0x8210 k 0 0
  { s with acts := mset g.group.val [⟨0, GroupPlan.vals g, true⟩] s.acts }

/-- The routes of a binary replace the partition's route sets (R142, R145). -/
def State.writeRoutes (s : State) (p : Nat) (b : Binary) : State :=
  let s := { s with routers := s.routers.map (fun e => (e.1, { e.2 with sets := e.2.sets.filter (fun c => c.1 / 512 != p) })) }
  b.routes.foldl (fun s x => s.modRouter x.1.val (fun r => { r with sets := mset (p * 512 + x.2.1.val) x.2.2 r.sets })) s

/-- An admitted binary is placed: the partition is Loaded. -/
def State.placeBinary (s : State) (p job : Nat) (b : Binary) : State :=
  let s := s.dropBinary p
  let s := (s.setObj 0x2102 (p + 1) 0 job).modPart p (fun x => { x with bin := some b })
  let s := b.tiles.foldl (fun s x =>
    let t := x.tile.val
    if x.compute then
      (((s.modTile t (fun y => { y with part := some (Fin.ofNat 16 p), code := x.code })).setObj 0x5100 0x42 t x.overBase).setObj
        0x5100 0x43 t x.overSize).setObj 0x5100 0x44 t (match x.partner with
          | some y => y.val
          | none => 0xFFFF)
    else s) s
  let s := match b.job with
    | some j =>
      let s := j.groups.foldl State.admitGroup s
      if j.scaled then s.setObj 0x8100 8 0 p else s
    | none => s
  (s.toPstate p 2).bindRelays.refreshDigest

/-! Images (R377). -/

def programStore : Nat := 0x17C0000000

/-- One EA030 for each repeat of a load (R376, R377). -/
def State.tellRetry (s : State) (t image attempt p : Nat) : State :=
  s.raise 0xA030 t 0 (leBytes 1 image ++ leBytes 1 attempt ++ leBytes 1 p)

/-- The image is read and broadcast: every repeat is told; false where it failed after three repeats. A poisoned image
repeats to every compute tile of the binary. -/
def State.readImage (s : State) (p stack offset length : Nat) (img : LoadedImage) : State × Bool :=
  let u := MemUnit.stack (Fin.ofNat 32 stack)
  let s := s.touch u (programStore + offset) length 6
  let bad := if s.anyMarked u (programStore + offset) length
    then (img.bin.tiles.filter (·.compute)).map (·.tile.val) else img.bad.map (·.val)
  let s := img.tries.foldl (fun s x => (List.range (min x.2 3)).foldl (fun s i => s.tellRetry x.1.val 1 (i + 1) p) s) s
  let s := bad.foldl (fun s t => (List.range 3).foldl (fun s i => s.tellRetry t 1 (i + 1) p) s) s
  (s, bad = [])

/-- The image lies on a channel that retrains: its read waits (R184). -/
def State.imageWaits (s : State) (stack offset length : Nat) : Bool := s.chanBusy stack (programStore + offset) length

/-! Start. -/

/-- A context at its entry address; one past word 8,191 is stopped with fault code 0x04 (R112, R131). -/
def entryCtx (pc : Nat) : Ctx :=
  if pc < 8192 then { pc := pc, run := .ready } else { pc := pc, run := .stopped, fault := 4, faddr := pc }

/-- Program start of one tile (R73, R89, R112, R113, R122, R127, R192). -/
def State.programStart (s : State) (p : PartId) (s0 : BitVec 32) (x : TilePlan) : State :=
  let t := x.tile.val
  let s := s.bump 0x7200 0x11 t (x.entries.filter (fun e => 8192 ≤ e.2)).length
  let s := s.modTile t (fun y => { y with
    ctxs := (x.entries.map (fun e => (e.1.val, entryCtx e.2))).foldl (fun m e => mset e.1 e.2 m) [],
    last := 7, issued := none, incs := [], accs := [], vturn := false, spillIn := [],
    counters := [], sems := [], queues := [], ops := [], switching := [], slots := [], spilled := [], episodes := [],
    arrays := (List.range 3).map (fun a => (a, ({ role := x.roles.getD a .idle } : Arr))),
    landing := x.landing, stamp := s0, poison := false, guard := none, overflow := false, reported := [], part := some p, semq := [],
    hist := y.hist.map (fun h => (h.1, { h.2 with crushed := 0, elems := 0 })), inbox := [],
    holdT3 := y.holdT3 && (s.region (regionOf t)).st != .running })
  let s := s.reseed t s0
  (allFin 32).foldl (fun s q =>
    let lim := ((x.limits.find? (fun l => l.1 = q)).map (·.2)).getD 8
    (s.setObj 0x5100 (q.val + 1) t lim).setObj 0x5100 (q.val + 0x21) t (if x.classU.contains q then 1 else 0)) s

/-- The loss scale at a start (R259). -/
def State.startScale (s : State) (p : Nat) (s0 : BitVec 32) (flag : Nat) : State :=
  if s.obj 0x8100 8 0 != p then s
  else if flag != 2 then s.setObj 0x8100 5 0 0
  else
    let old := s.obj 0x8100 1 0
    let new := s.obj 0x8100 3 0
    (((s.setObj 0x8100 1 0 new).setObj 0x8100 4 0 0).setObj 0x8100 5 0 (s.obj 0x8100 7 0)).raise 0x5050 srcModule s0
      (leBytes 1 old ++ leBytes 1 new ++ [2])

/-- The engines expect the first step of a job (R192, R193, R207, R226). At a second start of a partition that is still
Loaded the values in force stay those that its last run reached, the latest activation holding from the start stamp on (the
model's choice: R226 does not say; log entry 34). -/
def State.startJob (s : State) (p : Nat) (j : JobPlan) (s0 : BitVec 32) : State :=
  let s := s.forgetJob p (some s0)
  let s := (s.ownedHere j).foldl (fun s b =>
    let k := ekey p b.group.val b.block
    s.modEngine b.engine.val (fun x => { x with
      expected := mset k s0 x.expected, settled := mset k (s0 - 1) x.settled })) s
  j.groups.foldl (fun s g =>
    let as := mget [] s.acts g.group.val
    let last : List Act := (as.getLast?.map (fun a => { a with stamp := s0 })).toList
    { s.setObj 0x8707 (g.group.val + 1) 0 s0.toNat with acts := mset g.group.val (as.dropLast ++ last) s.acts }) s

/-- The relays of a student that starts take transfers toward it again (R215). -/
def State.takeRelays (s : State) (p : Nat) : State :=
  { s with relays := s.relays.map (fun e =>
      (e.1, if e.2.student.any (fun x => x.1.val = p) then { e.2 with discards := false } else e.2)) }

/-- Start of a Loaded partition. -/
def State.startPart (s : State) (p : PartId) (s0 : BitVec 32) (flag : Nat) : State :=
  match (s.part p.val).bin with
  | none => s
  | some b =>
    let s := s.startScale p.val s0 flag
    let n := s.obj 0x8130 1 0
    let cold : Option (BitVec 32) := if flag = 2 then some (s0 + BitVec.ofNat 32 n) else none
    let s := s.setPart p.val { bin := some b, s0 := s0, cold := cold, lastStamp := s0 - 1 }
    let s := (s.setObj 0x8600 (0x11 + p.val) 0 s0.toNat).setObj 0x8130 (p.val + 2) 0 ((cold.map (·.toNat)).getD 0)
    let s := if flag = 2 then s.raise 0x5040 p.val 0 (leBytes 4 s0.toNat ++ leBytes 1 n ++ [0]) else s
    let s := match b.job with
      | some j => ((s.startJob p.val j s0).setObj 0x8600 (p.val + 1) 0 (s0 - 1).toNat).noteDigested p.val s0
      | none => s
    let s := (s.endFlush p.val).takeRelays p.val
    let s := (s.toPstate p.val 3).setObj 0x2103 (p.val + 1) 0 0
    let s := b.tiles.foldl (fun s x =>
      if x.compute && s.obj 0x5000 1 x.tile.val = 0 then s.programStart p s0 x else s) s
    if s.ringFull && b.training then s.askPause p.val .ring else s

/-- A vault clear that still runs holds a program start back (R182). -/
def State.clearRuns (s : State) (p : Nat) : Bool :=
  (s.part p).bin.any (fun b => b.tiles.any (fun x =>
    x.compute && s.vaultUsable x.tile.val && (s.region (regionOf x.tile.val)).clearing.isSome))

/-! Reset (R275, R380). -/

/-- Vault requests of a tile that is reset: its own interface completes the writes that it has accepted and discards reads;
its spilled transfers elsewhere are read no more (R381). -/
def State.cutVault (s : State) (t : Nat) : State :=
  let mine (r : VaultReq) : Bool := match r.use with
    | .refill u _ _ => u = t
    | _ => false
  (s.modTile t (fun x => { x with vreqs := x.vreqs.filter (fun r => !r.read) })).modTile (s.overVault t)
    (fun x => { x with vreqs := x.vreqs.filter (fun r => !mine r) })

/-- Contexts, registers, entries, blocks, generators and what waits at a tile are discarded; a drain is left partly written
(R103). -/
def State.discardTile (s : State) (t : Nat) : State :=
  let s := (List.range 8).foldl (fun s c => s.endRun t c) s
  (s.cutVault t).modTile t (fun y => { y with
    ctxs := [], last := 7, issued := none, incs := [], accs := [], spillIn := [],
    counters := [], sems := [], queues := [], ops := [], switching := [], slots := [], spilled := [], episodes := [],
    arrays := y.arrays.map (fun a => (a.1, ({ role := a.2.role } : Arr))), poison := false, guard := none, overflow := false, reported := [],
    semq := [], inbox := [] })

/-- Tile reset: everything but SRAM, vault, instruction store and microcode is discarded, 0x7200 cleared. -/
def State.resetTile (s : State) (t : Nat) : State := (s.discardTile t).clearCounters 0x7200 t

/-- Tiles of a partition's rectangle, and those that hold its program. -/
def State.partTiles (s : State) (p : Nat) : List Nat :=
  (s.tiles.filter (fun e => e.2.part.any (fun q => q.val = p) || inRect (s.rect p) (regionOf e.1))).map (·.1)

/-- A partition reset, outside turnover or in its stage 2. -/
def State.resetPart (s : State) (p status : Nat) : State :=
  let s := s.toPstate p 7
  let s := (s.partTiles p).foldl (fun s t =>
    (s.resetTile t).setObj 0x5000 1 t 0) s
  let s := (((s.dropHeldReads p).dropInputs p).releaseRelays p).setObj 0x8130 (p + 2) 0 0
  let s := s.answerAll p status
  (s.endPausing p).modPart p (fun x => { x with pauses := [], joined := [], cold := none })

/-- Loaded where a binary is held, Empty otherwise. -/
def State.afterReset (s : State) (p : Nat) : State := s.toPstate p (if (s.part p).bin.isSome then 2 else 1)

/-! Pause (R276). -/

/-- A tile is held at STEP. -/
def Tile.atStep (x : Tile) : Bool :=
  x.ctxs.any (fun c => match c.2.run with
    | .waiting .step _ => true
    | _ => false)

def State.pauseDone (s : State) (p : Nat) : Bool :=
  let x := s.part p
  let last := BitVec.ofNat 32 (s.obj 0x8600 (0x11 + p) 0)
  x.pauses != [] && (s.pstate p = 3 || s.pstate p = 4) && (s.tilesOf p).all (fun t => (s.tile t).atStep)
    && decide (0 ≤ stampDiff x.lastStamp last)
    && match s.job p with
      | some j => (s.ownedHere j).all (fun b =>
          match mfind (ekey p b.group.val b.block) (s.engine b.engine.val).settled with
          | some n => decide (0 ≤ stampDiff n last)
          | none => false)
      | none => true

/-! Commands (R385, R386). -/

/-- The command of an opcode that may start for a partition now: in M0 and M2 (in M1 every partition stays Resetting until it
is left, R363). -/
def State.nextTaken (s : State) (p op : Nat) : Option Taken :=
  if (s.core 1).down || s.mstate = 1 || 3 ≤ s.mstate then none
  else (s.taken.find? (fun c => c.part = p)).filter (fun c => c.op = op && !c.running)

/-- Run a command: one for a partition of a running turnover ends with code 2. -/
def State.runTaken (s : State) (p op : Nat) (f : State → Taken → State) : State :=
  match s.nextTaken p op with
  | none => s
  | some c =>
    let s := s.tracePoint 0 0 0
    if s.inTurnover p then s.finish c 2 0xFFFF else f s c

/-- The load command of a partition waits for its image (R184). -/
def State.loadWaits (s : State) (p : Nat) : Bool :=
  (s.nextTaken p 3).any (fun c => s.imageWaits (bytesAt c.params 0 1) (bytesAt c.params 4 4) (bytesAt c.params 8 4))

/-- Command 1 (R272). -/
def execDefinePartition (p : PartId) (s : State) : Host.Outcome State Fault Refusal :=
  done (s.runTaken p.val 1 (fun s c =>
    let v := bytesAt c.params 0 2
    if !rectOk v then s.finish c 3 0xFFFF
    else if 1 < s.pstate p.val || s.rectTaken p.val v then s.finish c 2 0xFFFF
    else ((s.setObj 0x2100 (p.val + 1) 0 v).toPstate p.val 1).finish c 0 0xFFFF))

/-- Command 2 (R273). -/
def execRemovePartition (p : PartId) (s : State) : Host.Outcome State Fault Refusal :=
  done (s.runTaken p.val 2 (fun s c =>
    if s.pstate p.val != 1 then s.finish c 2 0xFFFF
    else ((s.setObj 0x2100 (p.val + 1) 0 0).toPstate p.val 0).finish c 0 0xFFFF))

/-- Command 3 (R16, R377). -/
def execPartitionLoad (p : PartId) (img : LoadedImage) (s : State) : Host.Outcome State Fault Refusal :=
  done (if s.loadWaits p.val then s else s.runTaken p.val 3 (fun s c =>
    let stack := bytesAt c.params 0 1
    let off := bytesAt c.params 4 4
    let len := bytesAt c.params 8 4
    let job := bytesAt c.params 12 4
    if s.pstate p.val != 1 then s.finish c 2 0xFFFF
    else if 32 ≤ stack || off % 4096 != 0 || len = 0 || 768 * 2 ^ 20 < off + len then s.finish c 3 0xFFFF
    else
      let r := s.readImage p.val stack off len img
      let s := r.1
      if !r.2 then s.finish c 4 0xFFFF
      else match s.admission p.val (s.rect p.val) job img.bin with
        | some t => s.finish c 1 t
        | none => ((s.placeBinary p.val job img.bin).writeRoutes p.val img.bin).finish c 0 0xFFFF))

/-- A start that can act waits for a vault clear that still runs (R182). -/
def State.startWaits (s : State) (p : Nat) : Bool :=
  (s.nextTaken p 4).any (fun c => bytesAt c.params 4 1 ≤ 2) && !s.inTurnover p && s.pstate p = 2
    && (s.part p).barred.isNone && s.clearRuns p

/-- Command 4 (R162, R182, R192, R259). -/
def execPartitionStart (p : PartId) (s : State) : Host.Outcome State Fault Refusal :=
  done (
    if s.startWaits p.val then s
    else s.runTaken p.val 4 (fun s c =>
      let flag := bytesAt c.params 4 1
      if s.pstate p.val != 2 then s.finish c 2 0xFFFF
      else if 2 < flag then s.finish c 3 0xFFFF
      else match (s.part p.val).barred with
        | some r => s.finish c 1 (tileAt r 0)
        | none => (s.startPart p (BitVec.ofNat 32 (bytesAt c.params 0 4)) flag).finish c 0 0xFFFF))

/-- Command 5 (R274). -/
def execPartitionStop (p : PartId) (s : State) : Host.Outcome State Fault Refusal :=
  done (s.runTaken p.val 5 (fun s c =>
    if s.isLive p.val then (s.stopPart p.val 6 false).finish c 0 0xFFFF else s.finish c 2 0xFFFF))

/-- Command 6 (R275). -/
def execPartitionReset (p : PartId) (s : State) : Host.Outcome State Fault Refusal :=
  done (s.runTaken p.val 6 (fun s c =>
    if s.pstate p.val = 0 || s.pstate p.val = 7 then s.finish c 2 0xFFFF
    else ((s.resetPart p.val 4).afterReset p.val).finish c 0 0xFFFF))

/-- Command 7 (R276): it completes when the partition is Paused. -/
def execPartitionPause (p : PartId) (s : State) : Host.Outcome State Fault Refusal :=
  done (s.runTaken p.val 7 (fun s c =>
    let by' := (s.part p.val).pauses.contains .command
    if !s.isTraining p.val || by' then s.finish c 2 0xFFFF
    else if s.pstate p.val = 5 then (s.askPause p.val .command).finish c 0 0xFFFF
    else if s.pstate p.val = 3 then
      { s.askPause p.val .command with taken := s.taken.map (fun d => if d = c then { d with running := true } else d) }
    else s.finish c 2 0xFFFF))

/-- R276: the partition becomes Paused. -/
def State.becomePaused (s : State) (p : Nat) : State :=
  let s := s.toPstate p 5
  match s.pauseCmd p with
  | some c => s.endDispatched c 0
  | none => s

/-- R276. -/
def execPartitionPaused (p : PartId) (s : State) : Host.Outcome State Fault Refusal :=
  done (if s.pauseDone p.val then s.becomePaused p.val else s)

/-- Command 8 (R276, R388): a pause that another cause still holds goes on. -/
def execPartitionResume (p : PartId) (s : State) : Host.Outcome State Fault Refusal :=
  done (s.runTaken p.val 8 (fun s c =>
    if s.pstate p.val = 5 && (s.part p.val).pauses.contains .command then
      (s.unpause p.val .command).finish c 0 0xFFFF
    else s.finish c 2 0xFFFF))

/-- Command 9: every earlier command has completed; a partition of a running turnover ends it with code 2 (R386). -/
def execCommandFence (p : PartId) (s : State) : Host.Outcome State Fault Refusal :=
  done (
    match s.nextTaken p.val 9 with
    | some c =>
      if s.inTurnover p.val then (s.tracePoint 0 0 0).finish c 2 0xFFFF
      else if s.taken.head? = some c then (s.tracePoint 0 0 0).finish c 0 0xFFFF
      else s
    | none => s)

/-- The timeout of a pause or fence entry (R128, R385): a pause that ends so is withdrawn; a command that completes in
the tick of expiry completes late. SC1, which withdraws it, acts after its restart (R393). -/
def execCommandTimeout (p : PartId) (fence same : Bool) (s : State) : Host.Outcome State Fault Refusal :=
  done (
    let op := if fence then 9 else 7
    match s.taken.find? (fun c => c.part = p.val && c.op = op && c.due.any (fun d => d ≤ s.tick)) with
    | none => s
    | some c =>
      if (s.core 1).down then s
      else if c.due = some s.tick then
        if same && fence && s.taken.head? = some c then s.finish c 0 0xFFFF
        else if same && !fence && c.running && s.pauseDone p.val then s.becomePaused p.val
        else s
      else
        let s := if !fence && c.running then s.unpause p.val .command else s
        s.finish c 5 0xFFFF)

end Sys2Proof.Machine
end

