-- ==== Sys2Proof/Machine/Serving.lean ====
section
/-! DEFINITION. Serving: response rings (R279) and ring responses at the bridge (R280). -/
namespace Sys2Proof.Machine

/-- Send one response entry, or skip it (R279, R280). -/
def State.serveEntry (s : State) (p : Nat) (g : RingPlan) (i count : Nat) : State :=
  let u := MemUnit.stack g.stack
  let s := s.touch u (g.entries + 64 * (i % count)) 64 10
  let e := s.bytes u (g.entries + 64 * (i % count)) 64
  let id := BitVec.ofNat 64 (bytesAt e 0 8)
  let dst := BitVec.ofNat 14 (bytesAt e 8 2)
  let ring := bytesAt e 10 1
  let len := bytesAt e 12 4
  let addr := bytesAt e 16 8
  let s := match (s.part p).requests.find? (fun r => r.id = id && r.sender = dst && r.ring = ring) with
    | none => s.bump 0x7500 0xF g.port.val 1
    | some r =>
      let s := s.touch u addr len 10
      let bs := s.bytes u addr len
      let bad := s.anyMarked u addr len
      let n := max 1 ((len + 4095) / 4096)
      let s := (List.range n).foldl (fun (s : State) k =>
        let pk := s.ringPkt p r 0 len (4096 * k) ((bs.drop (4096 * k)).take 4096)
        s.sendLocal { pk with hdr := { pk.hdr with poison := bad } }) s
      (s.modPart p (fun x => { x with requests := x.requests.erase r })).bump 0x7500 0xE g.port.val 1
  s.store u (g.header + 4) (leBytes 4 ((i + 1) % 2 ^ 32))

/-- Byte ranges that the port reads to serve an entry: the entry, and its payload. -/
def State.entryRanges (s : State) (g : RingPlan) (i count : Nat) : List (Nat × Nat) :=
  let a := g.entries + 64 * (i % count)
  let e := s.bytes (.stack g.stack) a 64
  [(a, 64), (bytesAt e 16 8, bytesAt e 12 4)]

/-- The controller takes no access to a ring's header and byte ranges now: its stack is down, or a channel of theirs
retrains (R184). -/
def State.ringWaits (s : State) (g : RingPlan) (segs : List (Nat × Nat)) : Bool :=
  !s.stackUp g.stack.val || s.segsBusy g.stack.val ((g.header, 64) :: segs)

/-- Serve n entries of a response ring in index order, up to the first that waits on a retraining channel (R184). -/
def State.serveRing (s : State) (p : Nat) (g : RingPlan) (count : Nat) : Nat → Nat → State
  | 0, _ => s
  | n + 1, i =>
    if s.ringWaits g (s.entryRanges g i count) then s
    else (s.serveEntry p g i count).serveRing p g count n ((i + 1) % 2 ^ 32)

/-- The serving port of a response ring takes its entries, from the consumer index up to the producer index (R279). -/
def State.serveResponses (s : State) (p : Nat) (g : RingPlan) : State :=
  if s.ringWaits g [] then s
  else
    let s := (s.catchUp g.stack).touchHead g
    let h := s.ringHead g
    let n := idxDiff h.1 h.2.1
    if h.2.2 = 0 then s
    else
      let s := if h.2.2 < n then s.bump 0x7500 0x10 g.port.val 1 else s
      s.serveRing p g h.2.2 (min n h.2.2) h.2.1

/-- R279: a write to the producer index has reached the serving port. -/
def execResponseRingServe (p : PartId) (ring : Fin 4) (s : State) : Host.Outcome State Fault Refusal :=
  done (
    match (s.part p.val).bin.bind (fun b => b.rspRings[ring.val]?) with
    | none => s
    | some g => if s.isLive p.val then s.serveResponses p.val g else s)

/-- R280, R312: a ring response with the "to host" flag reaches its bridge; the host may send none. -/
def execRingResponseForward (link : PortId × SubId) (h : PktHdr) (xf data : List Byte) (s : State) :
    Host.Outcome State Fault Refusal :=
  done (
    let port := link.1
    let sub := link.2
    let r := s.takeRx port.val sub.val (linkChannel h.vc.val h.layer) 1
    if !s.linkUp port.val sub.val || h.ty != 11 || h.dst != s.moduleId then s
    else
      let s := r.1
      let h := { h with poison := h.poison || r.2 }
      if s.hostSub = some (port.val, sub.val) then
        s.rejectPkt port.val sub.val { h with fromHost := true, src := s.moduleId }
      else if !h.toHost then s
      else if 63 ≤ h.hops.toNat then s.refusePkt port.val 4 h
      else s.bridgeOut port.val ⟨h, xf, data⟩)

end Sys2Proof.Machine
end

