-- ==== Sys2Proof/Machine/Turnover.lean ====
section
/-! DEFINITION. Turnover (R281, R283–R287, R377). -/
namespace Sys2Proof.Machine

/-! The plan (R284). -/

def planEntry (bs : List Byte) : PlanEntry :=
  { part := Fin.ofNat 16 (bytesAt bs 0 1), action := bytesAt bs 1 1, rect := bytesAt bs 2 2, stack := bytesAt bs 4 1,
    flag := bytesAt bs 5 1, offset := bytesAt bs 8 4, length := bytesAt bs 12 4, job := BitVec.ofNat 32 (bytesAt bs 16 4),
    stamp := BitVec.ofNat 32 (bytesAt bs 20 4) }

def planBytes (bs : List Byte) (i : Nat) : List Byte := (bs.drop (16 + 32 * i)).take 32

def planEntries (bs : List Byte) : List PlanEntry :=
  (List.range (bytesAt bs 0 2)).map (fun i => planEntry (planBytes bs i))

/-- Form of the DOMAIN: counts, flags and reserved bytes. -/
def planFormOk (bs : List Byte) : Bool :=
  let n := bytesAt bs 0 2
  1 ≤ n && n ≤ 16 && bs.length = 16 + 32 * n && bytesAt bs 2 2 ≤ 1 && bytesAt bs 4 12 = 0
    && (List.range n).all (fun i =>
      let e := planBytes bs i
      bytesAt e 0 1 ≤ 15 && bytesAt e 6 2 = 0 && bytesAt e 24 8 = 0)

/-- Rectangles as they will stand after the removals and replacements. -/
def State.rectsAfter (s : State) (es : List PlanEntry) : List Nat :=
  ((List.range 16).filter (fun q => s.pstate q != 0 && es.all (fun e => e.part.val != q))).map s.rect
    ++ (es.filter (fun e => e.action != 2)).map (·.rect)

def distinctRects : List Nat → Bool
  | [] => true
  | r :: rs => rs.all (fun x => !rectsOverlap r x) && distinctRects rs

def State.planOk (s : State) (bs : List Byte) : Bool :=
  let es := planEntries bs
  planFormOk bs
    && (es.map (·.part)).eraseDups.length = es.length
    && es.all (fun e =>
      let st := s.pstate e.part.val
      1 ≤ e.action && e.action ≤ 3 && e.stack ≤ 31 && e.flag ≤ 2 && e.offset % 4096 = 0
        && e.offset + e.length ≤ 768 * 2 ^ 20
        && (e.action = 2 || (rectOk e.rect && e.length != 0))
        && (if e.action = 3 then st ≤ 1 else st != 0))
    && distinctRects (s.rectsAfter es)

/-! Draining (R285). -/

def State.setStage (s : State) (n : Nat) : State :=
  let s : State := { s with turn := s.turn.map (fun t => { t with stage := n }) }
  ((s.setObj 0x2110 4 0 n).tracePoint 0 0 0).tracePoint 1 srcModule 0

/-- A request that the program has not consumed. -/
def State.unconsumed (s : State) (b : Binary) (r : Request) : Bool :=
  match b.reqRings[r.ring]? with
  | some g => decide (idxDiff r.index (s.ringHead g).2.1 < 2 ^ 31)
  | none => true

/-- A named partition enters Draining; one that is Paused already stays so for the turnover. A withdrawn request is
outstanding no more when its answer leaves, so a stop that the answer causes does not answer it again (R278). -/
def State.drainPart (s : State) (p : Nat) : State :=
  if s.pstate p = 5 then s.askPause p .turnover
  else if s.pstate p != 3 then s
  else
    let s := s.toPstate p 4
    match (s.part p).bin with
    | none => s
    | some b =>
      if b.training then s.askPause p .turnover
      else
        let gone := (s.part p).requests.filter (s.unconsumed b)
        let s := (s.modPart p (fun x => { x with requests := x.requests.filter (fun r => !gone.contains r) })).setObj 0x2110 7 0
            (s.obj 0x2110 7 0 + gone.length)
        gone.foldl (fun s r => s.statusReply p r 1) s

/-- A named partition is Paused, has answered every consumed request, or does not run. -/
def State.drained (s : State) (p : Nat) : Bool :=
  if s.pstate p = 4 then !s.isTraining p && (s.part p).requests = [] else s.pstate p != 3

/-- A write to 0x2110:03 (R283, R287, R438). -/
def State.actTurnover (s : State) (v : Nat) : Attempt :=
  if v != 1 then .ok s
  else if s.turn.isSome then .error .stateConflict
  else
    let bs := s.blob 0x2110 1 0
    if !s.planOk bs then .error .valueRange
    else
      let es := planEntries bs
      let t : Turnover :=
        { stage := 1, entries := es, clear := bytesAt bs 2 2 = 1, start := s.tick, drain := s.tick }
      let s := { s with turn := some t }
      let s := (((s.setObj 0x2110 5 0 0).setObj 0x2110 7 0 0).setObj 0x2110 8 0 0).setStage 1
      .ok (es.foldl (fun s e => s.drainPart e.part.val) s)

/-! The end. -/

/-- 0x2110:04–06, E8050 and notice 0x8002, which names the lowest partition of the plan. -/
def State.endTurnover (s : State) (t : Turnover) (failed : Bool) (result : Nat) : State :=
  let d := s.tick - t.start
  let s := { s with turn := none }
  let s := ((s.setObj 0x2110 4 0 (if failed then 7 else 6)).setObj 0x2110 5 0 result).setObj 0x2110 6 0 (d * 2 / 235)
  let s := s.raise 0x8050 srcModule 0
    (leBytes 1 result ++ leBytes 4 d ++ leBytes 4 (s.obj 0x2110 7 0) ++ leBytes 4 (s.obj 0x2110 8 0))
  (s.tracePoint 1 srcModule 0).notice 0x8002 (((t.entries.map (·.part.val)).min?).getD 0) result

/-- A stage boundary: nothing proceeds while SC1 restarts (R393); an aborted turnover ends here (R407). -/
def State.atBoundary (s : State) (stage : Nat) (f : State → Turnover → State) : State :=
  match s.turn with
  | none => s
  | some t =>
    if t.stage != stage || (s.core 1).down then s
    else if t.aborted then s.endTurnover t true t.result
    else f s t

/-! Stages. -/

/-- A rectangle of the plan is written, or refused where it overlaps one that has been defined meanwhile (R272): its
partition stays Undefined and takes no part in the later stages (the model's choice; log entry 39). -/
def State.writeRect (s : State) (e : PlanEntry) : State :=
  let p := e.part.val
  if e.action = 2 then s
  else if s.rectTaken p e.rect then
    { s with turn := s.turn.map (fun t => { t with
      failed := t.failed ++ [e.part], result := if t.failed = [] then 2 else t.result }) }
  else (s.setObj 0x2100 (p + 1) 0 e.rect).toPstate p 1

/-- Stage 2 (R275, R281). The vaults cleared are those under the old rectangles and under the new ones that were written. -/
def State.stageReset (s : State) (t : Turnover) : State :=
  let old := t.entries.flatMap (fun e => if s.pstate e.part.val = 0 then [] else rectFields (s.rect e.part.val))
  let s := s.setStage 2
  let s := t.entries.foldl (fun s e =>
    let p := e.part.val
    let s := if s.pstate p = 0 then s else (s.resetPart p 2).dropBinary p
    (s.setObj 0x2100 (p + 1) 0 0).toPstate p 0) s
  let s := t.entries.foldl State.writeRect s
  let new := t.entries.flatMap (fun e => if s.pstate e.part.val = 1 then rectFields (s.rect e.part.val) else [])
  let s := if t.clear then (old ++ new).eraseDups.foldl State.zeroVaults s else s
  s.setStage 3

/-- R285. -/
def execTurnoverDrainComplete (s : State) : Host.Outcome State Fault Refusal :=
  done (s.atBoundary 1 (fun s t => if t.entries.all (fun e => s.drained e.part.val) then s.stageReset t else s))

/-- Responses that the program of a partition has written by now count as done (R278). -/
def State.serveAll (s : State) (p : Nat) : State :=
  match (s.part p).bin with
  | some b => b.rspRings.foldl (fun s g => s.serveResponses p g) s
  | none => s

/-- R285: the limit runs in a hardware timer; the tick in which it expires has passed (R278; log entry 2). -/
def execTurnoverDrainLimit (s : State) : Host.Outcome State Fault Refusal :=
  done (
    match s.turn with
    | none => s
    | some t =>
      if t.stage != 1 || s.tick ≤ t.drain + s.obj 0x2110 2 0 * msTicks || t.entries.all (fun e => s.drained e.part.val)
        then s
      else
        let s := t.entries.foldl (fun s e => s.serveAll e.part.val) s
        let late := t.entries.filter (fun e => !s.drained e.part.val)
        let s := late.foldl (fun s e => s.stopPart e.part.val 7 true) s
        if late = [] then s else { s with turn := some { t with result := 1 } })

/-- The load of one named partition; a failure leaves it Empty (R286). -/
def State.stageLoad (s : State) (images : List LoadedImage) (e : PlanEntry) : State :=
  let p := e.part.val
  let fail (s : State) (r : Nat) : State :=
    { s with turn := s.turn.map (fun t => { t with
      failed := t.failed ++ [e.part], result := if t.failed = [] then r else t.result }) }
  if e.action = 2 || s.turn.any (fun t => t.failed.contains e.part) then s
  else match images.find? (fun i => i.part = e.part) with
    | none => fail s 3
    | some img =>
      let r := s.readImage p e.stack e.offset e.length img
      let s := r.1
      if !r.2 then fail s 3
      else match s.admission p e.rect e.job.toNat img.bin with
        | some _ => fail s 2
        | none => s.placeBinary p e.job.toNat img.bin

/-- Stages 3–5 (R283, R286). -/
def execTurnoverStageDone (r : StageResult) (s : State) : Host.Outcome State Fault Refusal :=
  done (
    match r with
    | .loaded images => s.atBoundary 3 (fun s t =>
        if t.entries.any (fun e => e.action != 2 && s.imageWaits e.stack e.offset e.length) then s
        else (t.entries.foldl (fun s e => s.stageLoad images e) s).setStage 4)
    | .routed failed => s.atBoundary 4 (fun s t =>
        let s := t.entries.foldl (fun s e =>
          let p := e.part.val
          if e.action = 2 || s.pstate p != 2 then s
          else if failed.contains e.part then (s.dropBinary p).toPstate p 1
          else match (s.part p).bin with
            | some b => s.writeRoutes p b
            | none => s) s
        if t.failed != [] then s.endTurnover t true t.result
        else if t.entries.any (fun e => e.action != 2 && failed.contains e.part) then s.endTurnover t true 4
        else s.setStage 5)
    | .started => s.atBoundary 5 (fun s t =>
        let es := t.entries.filter (fun e => e.action != 2)
        if es.any (fun e => s.clearRuns e.part.val) then s
        else if es.any (fun e => (s.part e.part.val).barred.isSome) then s.endTurnover t true 2
        else (es.foldl (fun s e => s.startPart e.part e.stamp e.flag) s).endTurnover t false t.result))

end Sys2Proof.Machine
end

