-- ==== Sys2Proof/Machine/Link.lean ====
section
/-! DEFINITION. Ferat links: lanes and splits (R288–R292), frames and control frames (R293–R295), credits and replay
(R299–R302), training (R304), packets that arrive (R297, R305–R313), failures (R316–R319) and the digest comparison
(R315). -/
namespace Sys2Proof.Machine

/-! Sub-ports (R288, R289). -/

def State.split (s : State) (p : Nat) : Nat := s.obj 0x6000 3 p
def State.subCount (s : State) (p : Nat) : Nat := 2 ^ s.split p
/-- Lane groups of a sub-port of a split. -/
def subGroups (split b : Nat) : List Nat := (List.range (16 / 2 ^ split)).map (fun i => b * (16 / 2 ^ split) + i)
def minLanes : Nat → Nat
  | 0 => 112 | 1 => 56 | 2 => 32 | _ => 16

/-- The edge rail is up: ports and stacks are powered. -/
def State.edgeUp (s : State) : Bool := s.mstate < 3 || (s.boot.active && s.boot.precharged)

/-- Links train: in M0 to M2, and from the end of step 6 of the boot on (R366). -/
def State.linksOn (s : State) : Bool := s.mstate < 3 || (s.boot.active && s.boot.portTick.isSome)

/-- The port may train: enabled, in a class, good, powered, its side with a clock (R291, R304, R352, R373). -/
def State.portOn (s : State) (p : Nat) : Bool :=
  s.obj 0x6000 1 p = 1 && s.obj 0x6000 2 p != 0 && !(s.port p).failed && s.linksOn && s.sideClocked (portSide p)

/-- A sub-port changed its state from `was`, or replays (R411 kind 2). -/
def State.traceSub (s : State) (p b was : Nat) : State :=
  if (s.sub p b).st = was then s else s.tracePoint 2 (8 * p + b) 0

/-- Training starts; the module sends its identity (R304). While SC3 restarts it waits (R384, R393). -/
def State.train (s : State) (p b : Nat) : State :=
  let me : Identity :=
    { module := s.moduleId, cls := s.obj 0x6000 2 p, split := s.split p, host := false, port := Fin.ofNat 6 p,
      sub := Fin.ofNat 8 b }
  if (s.core 3).down then s.modSub p b (fun x => { x with waits := true })
  else
    (s.modSub p b (fun x => { x with st := 1, trained := s.tick, mine := some me, waits := false })).traceSub p b (s.sub p b).st

/-- A sub-port retrains: one that is up on all its lane groups, another trains. While SC3 restarts, the request waits. -/
def State.retrain (s : State) (p b : Nat) : State :=
  let x := s.sub p b
  if !s.portOn p || s.subCount p ≤ b then s.modSub p b (fun x => { x with waits := false })
  else if x.isUp && (s.core 3).down then s.modSub p b (fun x => { x with waits := true })
  else if x.isUp then
    (s.setSub p b { x with st := 4, groups := subGroups (s.split p) b, trained := s.tick, waits := false }).traceSub p b x.st
  else if x.st = 4 then s
  else s.train p b

/-- Trainings that waited for SC3 start (R393). -/
def State.trainWaiting (s : State) : State :=
  s.subs.foldl (fun s e => if e.2.waits then s.retrain (e.1 / 8) (e.1 % 8) else s) s

/-- Every port that may train does (R375). -/
def State.trainAll (s : State) : State :=
  (List.range 6).foldl (fun s p => (List.range 8).foldl (fun s b =>
    if s.portOn p && b < s.subCount p && (s.sub p b).st = 0 then s.train p b else s) s) s

/-! Control frames sent (R295). -/

/-- The path of a command that is a transaction. -/
def Instr.path : Instr → Option Path
  | .routeEntryWrite rq .. | .vaultClear rq .. | .vaultRetrainRequest rq .. | .channelRetrainRequest rq .. => some rq
  | .poolWindowWrite rq .. | .holdApplyStep rq | .holdDropStep rq | .heldNormMerge rq | .heldNormDrop rq => some rq
  | .activationStampWrite rq .. | .snapshotShipStart rq _ | .turnoverExecute rq _ | .portEnableWrite rq .. => some rq
  | .classSplitWrite rq .. | .portRetrainWrite rq .. | .portReset rq .. | .portQuiesceWrite rq .. => some rq
  | .tableEntryWrite rq .. | .inBandRead rq .. | .inBandWrite rq .. | .objectWrite rq .. | .queueLimitWrite rq .. => some rq
  | .histogramSlotClear rq .. | .snapshotStrobe rq _ | .storeAll rq _ | .storeLinkAndRoute rq _ | .restoreAll rq _ => some rq
  | .restoreLinkAndRoute rq _ | .regionRearm rq .. | .computeClockStopWrite rq .. | .thresholdWrite rq .. => some rq
  | .requestRun rq | .requestComputeReset rq | .requestComputeIdle rq | .requestServiceOnly rq | .moduleReset rq _ => some rq
  | .edgeReset rq _ | .tileResetWrite rq .. | .commandProducerWrite rq _ | .completionConsumerWrite rq _ => some rq
  | .leaseRenew rq _ | .leaseReclaim rq _ | .imageWrite rq _ | .enrolmentRecordWrite rq _ => some rq
  | .provisioningRecordWrite rq _ | .tokenUnlockObservation rq _ | .tokenRelock rq _ | .tokenQuarantine rq _ => some rq
  | .tokenReleaseQuarantine rq _ | .tokenRetire rq _ | .observationLockWrite rq _ | .attestationNonceWrite rq .. => some rq
  | .traceEnableWrite rq _ | .eventRingRead rq | .eventLogRead rq => some rq
  | _ => none

/-- The serialiser's queue of 256 in-band transactions is full, and one from an edge side waits beyond it (R327). -/
def State.serialiserFull (s : State) (side : Nat) : Bool :=
  ((s.pending.filterMap (fun c => match Sys2Proof.Machine.Instr.path c with
    | some (.inband _ _ p _ _ _) => some (portSide p.val)
    | _ => none)).drop 256).contains side

/-- Credits of a link channel are withheld: of VC0 from a side whose transactions find the serialiser full; of VC1–VC5 while the port quiesces (R310) and until the engines run after an edge
reset (R381); of the tailrace while the port's reduction unit cannot emit (R206). -/
def State.withholdsCredits (s : State) (p ch : Nat) : Bool :=
  (ch != 0 && (s.obj 0x6000 0xA p = 1 || s.obj 0x2003 3 0 != 0)) || ((ch = 5 || ch = 6) && s.portHolds p)
    || (ch = 0 && s.serialiserFull (portSide p))

/-- Cumulative credits released on each link channel. -/
def State.creditsNow (s : State) (p b : Nat) : List Nat :=
  let x := s.sub p b
  (List.range 11).map (fun ch => mget 0 (if s.withholdsCredits p ch then x.released else x.accepted) ch)

/-- Send a control frame; the 16 newest are kept. Of frames between two scheduled ones it counts as one (R295). -/
def State.sendControl (s : State) (p b ty : Nat) (withDigest : Bool) : State :=
  let x := s.sub p b
  let rel := s.creditsNow p b
  let d := s.ownDigest
  let f : CtlFrame :=
    { ty, ack := x.rxSeq, credits := rel, peer := s.moduleId, port := Fin.ofNat 6 p, sub := Fin.ofNat 8 b,
      digest := if withDigest then some d else none }
  s.setSub p b { x with
    ctl := (f :: x.ctl).take 16, released := (List.range 11).map (fun i => (i, rel.getD i 0)),
    sinceCtl := if ty = 0 then 0 else x.sinceCtl + 1, digestSent := if withDigest then d else x.digestSent }

/-- An up sub-port with no data to send sends an idle control frame (R295). How many fit a time is a matter of timing: the
model sends one in each mesh cycle (log entry 65). -/
def State.idleFrame (s : State) (p b : Nat) : State :=
  if s.linkUp p b && (s.sub p b).queue = [] then s.sendControl p b 1 false else s

def State.idleFrames (s : State) : State := s.subs.foldl (fun s e => s.idleFrame (e.1 / 8) (e.1 % 8)) s

/-- R295. -/
def execScheduledControlSend (port : PortId) (sub : SubId) (s : State) : Host.Outcome State Fault Refusal :=
  done (
    let x := s.sub port.val sub.val
    if !s.linkUp port.val sub.val || x.sinceCtl < 2048 then s
    else
      let dig := x.scheduled % 2048 = 0 || x.digestSent != s.ownDigest
      (s.setSub port.val sub.val { x with scheduled := x.scheduled + 1 }).sendControl port.val sub.val 0 dig)

/-! Going down (R316, R317). -/

/-- The far address of a block's record, if it lies in the far tier. -/
def BlockPlan.farState (bp : BlockPlan) : Option (BitVec 64) :=
  match bp.state with
  | .far a => some a
  | .stack _ => none

/-- Far requests in flight through a sub-port complete as failed: those of updates and of the snapshot (R188, R251). The
jobs of which it was one stop as on a link failure, each once (R317). told: those that the failure has stopped already. -/
def State.failFar (s : State) (p b cause : Nat) (told : List Nat) : State :=
  let via (q g k : Nat) : Bool := ((s.job q).bind (fun j => (planBlock j g k).bind BlockPlan.farState)).any (fun a =>
    s.farRoute a.toNat = some (p, b))
  let hit (f : FarOp) : Bool := (f.fetching || f.fetched) && via f.part.val f.group.val f.block
  let ships (k : Nat) : Bool := via (k / 2 ^ 32) (k / 2 ^ 28 % 16) (k % 2 ^ 28)
  let mine (e : Engine) : List Nat := (e.far.filter hit).map (·.part.val)
    ++ (e.shipFar.filter (fun y => y.2.isNone && ships y.1)).map (fun y => y.1 / 2 ^ 32)
  let jobs := ((s.engines.flatMap (fun e => mine e.2)).map (fun q => s.obj 0x2102 (q + 1) 0)).eraseDups
  let s : State := { s with engines := s.engines.map (fun e => (e.1, { e.2 with
    far := e.2.far.filter (fun f => !hit f), shipFar := e.2.shipFar.filter (fun y => !(y.2.isNone && ships y.1)) })) }
  let s := (jobs.filter (fun j => !told.contains j)).foldl (fun s j => s.linkFailure j p b cause) s
  if s.shipping.isSome && s.farRoute (s.obj 0x6900 2 0) = some (p, b) then s.endSnapshot 2 else s

/-- A sub-port goes down: E7020 where it was up or retraining, waiting packets discarded, and the link failure of every
job whose route plan names it. -/
def State.subDown (s : State) (p b cause st : Nat) : State :=
  let x := s.sub p b
  let was := x.takes
  let s := s.setSub p b { x with
    st, groups := [], unacked := [], queue := [], replays := 0, discarding := false, peer := none, peerDigest := [],
    mismatch := none, mismatchTold := false, rxLeft := 0, rxBad := false, rxDone := [] }
  let s := s.setBlob 0x6010 (0x18 + b) p []
  let s := (s.setObj 0x6010 (0x10 + b) p 0xFFFF).traceSub p b x.st
  if !was then s
  else
    let s := s.raise 0x7020 (8 * p + b) 0 (leBytes 1 cause)
    let why := if cause = 2 then 1 else 0
    let jobs := s.jobsOn p b
    (jobs.foldl (fun s j => s.linkFailure j p b why) s).failFar p b why jobs

/-- Every sub-port of a port goes down and, where the port may, trains again (R292, R319). -/
def State.portDown (s : State) (p cause : Nat) (again : Bool) : State :=
  (List.range 8).foldl (fun s b =>
    let s := s.subDown p b cause (if s.obj 0x6000 1 p = 1 then 0 else 6)
    if again && s.portOn p && b < s.subCount p then s.train p b else s) s

/-! Lanes (R290): a dropped group stays dropped until a retrain or a port reset, through a training too. -/

/-- Replay every frame not yet acknowledged, from the oldest (R300). -/
def State.replayAll (s : State) (p b : Nat) : State :=
  let x := s.sub p b
  let n := x.unacked.length
  (((s.setSub p b { x with
    ackWait := s.tick, sinceCtl := x.sinceCtl + n, wire := (x.unacked.getLast?.map (·.onLanes x.groups)).getD x.wire }).bump 0x7500 7 p n).bump 0x7500 4 p n).tracePoint 2 (8 * p + b) 0

def execLaneLoss (port : PortId) (sub : SubId) (group : Fin 16) (s : State) : Host.Outcome State Fault Refusal :=
  done (
    let p := port.val
    let b := sub.val
    let x := s.sub p b
    if !s.linkUp p b || !x.groups.contains group.val then s
    else
      let gs := x.groups.filter (· != group.val)
      let s := s.modPort p (fun y => { y with lost := group.val :: y.lost })
      if 8 * gs.length < minLanes (s.split p) then s.subDown p b 0 0
      else
        let s := (s.setSub p b { x with st := 3, groups := gs }).traceSub p b x.st
        (s.replayAll p b).raise 0x7010 (8 * p + b) 0 (leBytes 1 group.val ++ leBytes 1 (8 * gs.length)))

/-! Frames received (R293, R294, R300). -/

/-- A packet whose last slot has come is whole; VC0 carries no data to be poisoned. -/
def SubPort.endPkt (x : SubPort) : SubPort :=
  if x.rxLeft = 0 && x.rxChan != 0 then { x with rxDone := x.rxDone ++ [(x.rxChan, x.rxBad)] } else x

/-- Slots enter the receive buffer of their packet's link channel; a slot of zeros between packets is filler. One of a
poisoned frame poisons its packet (R294). -/
def SubPort.takeSlot (x : SubPort) (bad : Bool) (sl : List Byte) : SubPort :=
  if x.rxLeft = 0 then
    if sl.all (· = 0) then x
    else
      let ch := linkChannel (bytesAt sl 0 1 % 8) (bitOf (bytesAt sl 0 1) 3)
      { x with
        accepted := mset ch (mget 0 x.accepted ch + 1) x.accepted, rxChan := ch, rxLeft := bytesAt sl 1 1,
        rxBad := bad }.endPkt
  else { x with
    accepted := mset x.rxChan (mget 0 x.accepted x.rxChan + 1) x.accepted, rxLeft := x.rxLeft - 1,
    rxBad := x.rxBad || bad }.endPkt

/-- A frame of two slots, told by its CRC. -/
def State.frameIn (s : State) (p b : Nat) (slots : List Byte) (crc : BitVec 32) : State :=
  let x := s.sub p b
  if !s.linkUp p b then s
  else
    let want := dataCrc x.rxSeq slots
    if crc = want || crc = ~~~want then
      let bad : Bool := crc != want
      let x := (x.takeSlot bad (slots.take 128)).takeSlot bad (slots.drop 128)
      let s := (s.setSub p b { x with rxSeq := (x.rxSeq + 1) % 2 ^ 24, discarding := false, lastValid := s.tick }).bump
        0x7500 5 p 1
      if bad then s.bump 0x7500 8 p 1 else s
    else if crc = ctlCrc slots then s.setSub p b { x with lastValid := s.tick }
    else
      -- frames behind the first bad one are discarded until the replay arrives
      let s := (s.setSub p b { x with discarding := true }).bump 0x7500 6 p 1
      if x.discarding then s else s.sendControl p b 2 false

/-- What the KP4 decoders of a port in class RCK or OPT report is counted (R291, R322). -/
def State.countKp4 (s : State) (p b : Nat) (k : Kp4) : State :=
  if s.linkUp p b && 2 ≤ s.obj 0x6000 2 p then (s.bump 0x7500 9 p k.fixed).bump 0x7500 0xA p k.bad else s

def execDataFrameReceive (port : PortId) (sub : SubId) (slots : List Byte) (crc : FrameCheck) (s : State) :
    Host.Outcome State Fault Refusal :=
  done ((s.countKp4 port.val sub.val crc.kp4).frameIn port.val sub.val slots crc.crc)

def execBadFrameReceive (port : PortId) (sub : SubId) (slots : List Byte) (crc : FrameCheck) (s : State) :
    Host.Outcome State Fault Refusal :=
  done ((s.countKp4 port.val sub.val crc.kp4).frameIn port.val sub.val slots crc.crc)

/-! Acknowledgements and replay (R295, R300–R302). -/

/-- Frames up to an acknowledged number leave the replay buffer. -/
def SubPort.ackTo (x : SubPort) (ack : Nat) : SubPort :=
  -- the frames not yet acknowledged are consecutive: the number acknowledges none, some or all of them
  let n := match x.unacked with
    | [] => 0
    | f :: _ => (ack + 2 ^ 24 - f.seq) % 2 ^ 24
  if n = 0 || x.unacked.length < n then x else { x with unacked := x.unacked.drop n, replays := 0 }

/-- End of the replay timer of the oldest frame. -/
def State.replayDue (s : State) (p b : Nat) : Nat := (s.sub p b).ackWait + s.obj 0x6000 6 p

def State.acknowledge (s : State) (p b ack : Nat) : State :=
  let x := s.sub p b
  let y := x.ackTo ack
  if y.unacked.length = x.unacked.length then s
  else
    let s := if s.replayDue p b = s.tick then s.bump 0x7500 0xD p 1 else s
    s.setSub p b { y with ackWait := s.tick }

/-- Replay from the oldest frame; after 16 replays of it the sub-port retrains (R302). -/
def State.replay (s : State) (p b : Nat) : State :=
  let x := s.sub p b
  if x.unacked = [] then s
  else if 16 ≤ x.replays then (s.setSub p b { x with st := 4, trained := s.tick }).traceSub p b x.st
  else (s.setSub p b { x with replays := x.replays + 1 }).replayAll p b

/-- A replay request with the next number that the peer expects. -/
def State.replayFrom (s : State) (p b seq : Nat) : State := (s.acknowledge p b seq).replay p b

/-- R295: acknowledgements, credits, and the peer's digest. -/
def execControlFrameReceive (port : PortId) (sub : SubId) (f : CtlIn) (s : State) : Host.Outcome State Fault Refusal :=
  done (
    let p := port.val
    let b := sub.val
    let kp4 := f.kp4
    let f := f.frame
    if !s.linkUp p b then s
    else
      let s := (s.countKp4 p b kp4).modSub p b (fun x => { x with
        lastValid := s.tick, granted := if x.granted = [] then f.credits else x.granted.zipWith max f.credits })
      let s := s.acknowledge p b f.ack
      let s := match f.digest with
        | some d => ((s.modSub p b (fun x => { x with peerDigest := d })).setBlob 0x6010 (0x18 + b) p d).noteDigest p b
        | none => s
      let s := if f.ty = 2 then s.replay p b else s
      s.pump p b (s.sub p b).queue.length)

def execReplayRequestReceive (port : PortId) (sub : SubId) (seq : Nat) (s : State) : Host.Outcome State Fault Refusal :=
  done (
    if !s.linkUp port.val sub.val then s
    else (s.modSub port.val sub.val (fun x => { x with lastValid := s.tick })).replayFrom port.val sub.val seq)

/-- R300, R301, R335: the timer compares with the period as it is now; the tick in which it expires has passed (log entry
2). -/
def execReplayTimeout (port : PortId) (sub : SubId) (s : State) : Host.Outcome State Fault Refusal :=
  done (
    let x := s.sub port.val sub.val
    if !s.linkUp port.val sub.val || x.unacked = [] || s.tick ≤ s.replayDue port.val sub.val then s else s.replay port.val sub.val)

/-- R302, R290. -/
def execLinkRetrainEnd (port : PortId) (sub : SubId) (ok : Bool) (s : State) : Host.Outcome State Fault Refusal :=
  done (
    let p := port.val
    let b := sub.val
    let x := s.sub p b
    if x.st != 4 then s
    else
      let s := s.raise 0x7050 (8 * p + b) 0 (leBytes 1 (if ok then 0 else 1))
      if !ok then s.subDown p b 1 0
      else
        let full := x.groups.length = (subGroups (s.split p) b).length
        let s := (s.setSub p b { x with st := if full then 2 else 3, replays := 0, lastValid := s.tick }).traceSub p b x.st
        (s.replayAll p b).pump p b x.queue.length)

/-! Training (R304). -/

def execSubportTrainingAttempt (port : PortId) (sub : SubId) (s : State) : Host.Outcome State Fault Refusal :=
  done (
    let p := port.val
    let b := sub.val
    let x := s.sub p b
    if x.st != 0 || !s.portOn p || s.subCount p ≤ b || (s.core 3).down || s.tick < x.trained + 100 * msTicks then s
    else s.train p b)

/-- R290, R292, R299, R304, R311, R313. A sub-port that its dropped groups leave below the minimum of R288 stays down. -/
def execSubportTrainingDone (port : PortId) (sub : SubId) (peer : Identity) (s : State) :
    Host.Outcome State Fault Refusal :=
  done (
    let p := port.val
    let b := sub.val
    let x := s.sub p b
    let all := subGroups (s.split p) b
    let gs := all.filter (fun g => !(s.port p).lost.contains g)
    let hold (r : Nat) : State := ((s.setSub p b { x with st := 5 }).traceSub p b x.st).raise 0x7050 (8 * p + b) 0 (leBytes 1 r)
    if x.st != 1 then s
    else if peer.cls != s.obj 0x6000 2 p || peer.split != s.split p then hold 2
    else if peer.module = s.moduleId then hold 3
    else if peer.host && s.hostSub != some (p, b) then hold 4
    else if 8 * gs.length < minLanes (s.split p) then (s.setSub p b { x with st := 0 }).traceSub p b x.st
    else
      let s := s.setSub p b
        { st := if gs = all then 2 else 3, groups := gs, mine := x.mine, peer := some peer, lastValid := s.tick,
          trained := s.tick, queue := x.queue, ctl := x.ctl }
      let s := s.setObj 0x6010 (0x10 + b) p peer.module.toNat
      let s := if peer.host then s.setObj 0x6010 5 p peer.hostBytes else s
      ((s.sendControl p b 3 true).pump p b x.queue.length).traceSub p b x.st)

/-- R316. -/
def execPeerLossTimeout (port : PortId) (sub : SubId) (s : State) : Host.Outcome State Fault Refusal :=
  done (
    let x := s.sub port.val sub.val
    if !s.linkUp port.val sub.val || s.tick ≤ x.lastValid + s.obj 0x6000 7 port.val then s else s.subDown port.val sub.val 2 0)

/-! Packets that arrive (R297, R308, R309, R312). -/

/-- A packet of the host: its flag set and its source replaced by the bridge (R312). -/
def State.fromHostHdr (s : State) (p b : Nat) (h : PktHdr) : PktHdr :=
  if s.hostSub = some (p, b) then { h with fromHost := true, src := s.moduleId } else h

/-- The partition takes a packet of its job; a packet of a host is not permitted (R312). -/
def State.takesPkt (s : State) (h : PktHdr) (p : PartId) : Bool :=
  s.isLive p.val && s.obj 0x2102 (p.val + 1) 0 = h.job.toNat && !h.fromHost

/-! Stop frames (R318). -/

def execStopFrameReceive (port : PortId) (sub : SubId) (job : BitVec 32) (origin : StopOrigin) (cause : BitVec 8)
    (s : State) : Host.Outcome State Fault Refusal :=
  done (
    let w := origin.way
    let origin := origin.module
    let away := s.turnAway port.val sub.val 0 1 job.toNat w
    let seen := s.stops.any (fun x => x.1 = job && x.2.1 = origin && s.tick < x.2.2 + 10000 * msTicks)
    if !s.linkUp port.val sub.val then s
    else if away.isSome then away.getD s
    else if seen then s
    else
      let s := (s.rememberStop job.toNat origin).stopJob job.toNat 5
      let s := s.raise 0x7040 (8 * port.val + sub.val) 0 (leBytes 4 job.toNat ++ leBytes 1 4 ++ leBytes 2 origin.toNat)
      let outs := (upSubs s).filter (· != (port.val, sub.val))
      let s := outs.foldl (fun s x => s.bump 0x7500 0xC x.1 1) s
      s.floodStop (Way.on w) job.toNat origin.toNat cause.toNat (some (port.val, sub.val)))

/-- R297: it waits for the slot's credit. -/
def execLinkPutPacket (port : PortId) (sub : SubId) (h : PktHdr) (p : PartId) (dest : Dest) (data : List Byte)
    (s : State) : Host.Outcome State Fault Refusal :=
  done (
    let h := s.fromHostHdr port.val sub.val h
    if !s.linkUp port.val sub.val || h.dst != s.moduleId then s
    else
      let r := s.takeRx port.val sub.val (linkChannel h.vc.val h.layer) 1
      if 63 ≤ h.hops.toNat then r.1.refusePkt port.val 4 h
      else if !s.takesPkt h p || h.ty != 2 || !(h.vc = 1 || h.vc = 4) then r.1.rejectPkt port.val sub.val h
      else (r.1.portPut port.val sub.val p h.vc dest (h.poison || r.2) data).getD s)

/-- R297. -/
def execLinkCounterSignal (port : PortId) (sub : SubId) (h : PktHdr) (p : PartId) (dest : TileId) (ctr : Fin 64)
    (s : State) : Host.Outcome State Fault Refusal :=
  done (
    let h := s.fromHostHdr port.val sub.val h
    if !s.linkUp port.val sub.val || h.dst != s.moduleId then s
    else
      let r := s.takeRx port.val sub.val (linkChannel h.vc.val h.layer) 1
      if 63 ≤ h.hops.toNat then r.1.refusePkt port.val 4 h
      else if !s.takesPkt h p || h.ty != 3 || h.vc != 1 then r.1.rejectPkt port.val sub.val h
      else r.1.portSignal port.val sub.val p 1 dest ctr (h.poison || r.2))

/-- R308, R316, R317: codes 2 and 4 are a link failure of the packet's job. -/
def execLinkRefusalReceive (port : PortId) (sub : SubId) (h : PktHdr) (code : BitVec 8) (s : State) :
    Host.Outcome State Fault Refusal :=
  done (
    let h := s.fromHostHdr port.val sub.val h
    if !s.linkUp port.val sub.val || h.dst != s.moduleId then s
    else if s.hostSub = some (port.val, sub.val) then s.rejectPkt port.val sub.val { h with ty := 12 }
    else
      let s := ((s.takeRx port.val sub.val (linkChannel h.vc.val h.layer) 1).1).bump 0x7500 0xB port.val 1
      if 63 ≤ h.hops.toNat then s
      else if h.toHost then (if h.fromHost then s.bridgeOut port.val ⟨h, [code], []⟩ else s)
      else if h.job != 0 && (code = 2 || code = 4) then s.linkFailure h.job.toNat port.val sub.val 2
      else s)

/-- R297: counted with the packets refused. -/
def execReservedTypeDiscard (port : PortId) (sub : SubId) (h : PktHdr) (s : State) : Host.Outcome State Fault Refusal :=
  done (if s.linkUp port.val sub.val && 13 ≤ h.ty.toNat then
      ((s.takeRx port.val sub.val (linkChannel h.vc.val h.layer) 1).1).bump 0x7500 0xB port.val 1
    else s)

/-- Route a packet by the table of the port on which it arrived; a quiescing egress port holds it before the lookup (R310). -/
def State.transit (s : State) (p : Nat) (k : Pkt) : State :=
  if 13 ≤ k.hdr.ty.toNat then s.bump 0x7500 0xB p 1
  else if 63 ≤ k.hdr.hops.toNat then s.refusePkt p 4 k.hdr
  else match s.linkRoute p k.hdr with
    | .noRoute => s.refusePkt p 1 k.hdr
    | .self => if k.hdr.toHost then s.bridgeOut p k else s
    | .down q b =>
      let s := s.refusePkt p 2 k.hdr
      if k.hdr.job = 0 then s else s.linkFailure k.hdr.job.toNat q b 5
    | .out q b l => if s.holdsNew q k.hdr then s.holdPkt q p k else s.sendOn q b { k with hdr := { k.hdr with hops := k.hdr.hops + 1, layer := l } }

/-- R309, R310: a quiescing port holds its new packets of VC1–VC5 before the lookup. -/
def execPacketTransit (port : PortId) (sub : SubId) (h : PktHdr) (xf data : List Byte) (s : State) :
    Host.Outcome State Fault Refusal :=
  done (
    let h := s.fromHostHdr port.val sub.val h
    if !s.linkUp port.val sub.val then s
    else
      let r := s.takeRx port.val sub.val (linkChannel h.vc.val h.layer) 1
      let k : Pkt := ⟨{ h with poison := h.poison || r.2 }, xf, data⟩
      if s.holdsNew port.val h then r.1.holdPkt port.val port.val k else r.1.transit port.val k)

/-! Digest comparison (R315). -/

def execDigestSettleExpiry (port : PortId) (sub : SubId) (s : State) : Host.Outcome State Fault Refusal :=
  done (
    let p := port.val
    let b := sub.val
    let x := s.sub p b
    match x.mismatch with
    | none => s
    | some t =>
      if !x.isUp || x.mismatchTold || !bitOf (s.obj 0x6000 5 p) b || s.digestsMatch p b
          || s.tick ≤ t + s.obj 0x1F81 2 0 * msTicks then s
      else
        let peer := s.obj 0x6010 (0x10 + b) p
        let s := (s.setSub p b { x with mismatchTold := true }).raise 0x7030 (8 * p + b) 0
          (leBytes 2 peer ++ s.ownDigest.take 8 ++ x.peerDigest.take 8)
        if s.obj 0x1F81 1 0 = 1 then (s.jobsOn p b).foldl (fun s j => s.linkFailure j p b 3) s else s)

/-! Object writes (R292, R310, R319, R335). -/

def State.actPortEnable (s : State) (p v : Nat) : Attempt :=
  if 1 < v then .error .valueRange
  else if v = s.obj 0x6000 1 p then .ok s
  else .ok ((s.setObj 0x6000 1 p v).portDown p 3 (v = 1))

def State.actClassSplit (s : State) (p sub v : Nat) : Attempt :=
  if 3 < v then .error .valueRange else .ok ((s.setObj 0x6000 sub p v).portDown p 4 true)

/-- Selected sub-ports retrain and regain their dropped groups; a held or down one trains. -/
def State.actPortRetrain (s : State) (p v : Nat) : State :=
  (List.range 8).foldl (fun s b =>
    if !bitOf v b || !s.portOn p || s.subCount p ≤ b then s
    else
      let mine := subGroups (s.split p) b
      (s.modPort p (fun y => { y with lost := y.lost.filter (fun g => !mine.contains g) })).retrain p b) s

/-- R319. -/
def State.actPortReset (s : State) (p v : Nat) : State :=
  if v != 1 then s
  else (s.modPort p (fun x => { x with holdPkts := [], quiesced := false, lost := [] })).portDown p 3 true

/-- R310: at its end the packets held are looked up by their tables, or go where a plan names it. -/
def State.actQuiesce (s : State) (p v : Nat) : Attempt :=
  if 1 < v then .error .valueRange
  else
    let s := s.setObj 0x6000 0xA p v
    if v = 1 then .ok s
    else
      let ks := (s.port p).holdPkts
      let s := s.modPort p (fun x => { x with holdPkts := [], quiesced := false })
      .ok (ks.foldl (fun s k => if k.1 < 6 then s.transit k.1 k.2 else if k.1 = 6 then s.sendLocal k.2
        else s.sendOn p (k.1 - 8) k.2) s)

/-- R310: the port's buffers hold no packet of VC1–VC5. -/
def execPortQuiesced (port : PortId) (s : State) : Host.Outcome State Fault Refusal :=
  done (
    let p := port.val
    if s.obj 0x6000 0xA p != 1 || (List.range 8).any (fun b =>
        (s.sub p b).queue.any (fun k => k.hdr.vc.val != 0) || (s.sub p b).rxDone != []) then s
    else s.modPort p (fun x => { x with quiesced := true }))

/-- R305, R306, R310: the reserved and illegal values of an entry are stored as written. -/
def State.actTable (s : State) (inst v : Nat) : Attempt :=
  let ok := if inst < 6 then (s.port inst).quiesced else (List.range 6).all (fun p => (s.port p).quiesced)
  if !ok then .error .stateConflict
  else .ok { s with tables := mset (inst * 16384 + s.obj 0x6100 1 inst) (BitVec.ofNat 32 v) s.tables }

end Sys2Proof.Machine
end

