-- ==== Sys2Proof/Machine/Power.lean ====
section
/-! DEFINITION. Power, clocks and heat (R344–R359): the inlet, region power, clock stops, the mesh lock, thermal
thresholds, the power cap and half clock-down; changes of the floor plan (R23–R25, R372) and the entry to M3 (R364). -/
namespace Sys2Proof.Machine

/-! Signed 16-bit values. -/

def i16 (v : Nat) : Int := if v % 65536 < 32768 then (v % 65536 : Nat) else ((v % 65536 : Nat) : Int) - 65536
def i16Bytes (v : Int) : List Byte := leBytes 2 (twos 16 v)

/-! The floor plan (R22, R23, R25, R372). -/

/-- The 36 bytes of a region from the states of its tiles. -/
def stateBytes (f : Nat → Nat) (r : Nat) : List Byte :=
  (List.range 36).map (fun b => BitVec.ofNat 8
    (f (tileAt r (4 * b)) + 4 * f (tileAt r (4 * b + 1)) + 16 * f (tileAt r (4 * b + 2)) + 64 * f (tileAt r (4 * b + 3))))

/-- Tiles of the module in a state. -/
def State.floorCount (s : State) (st : Nat) : Nat :=
  match s.floor with
  | none => if st = 3 then 6912 else 0
  | some m => if st = 0 then 6912 - (m.filter (fun e => e.2 != 0)).length else (m.filter (fun e => e.2 = st)).length

/-- Minimum of GOOD tiles and maximum of holes of the ordering code (R3). -/
def State.gradeMin (s : State) : Nat := if s.w1s then 6768 else 6840
def State.gradeMax (s : State) : Nat := if s.w1s then 24 else 12

/-- Records, counts, digest and generation change together; EA020 where a limit is not met (R25, R372). -/
def State.publish (s : State) (m : Map Nat) : State :=
  let s : State := { s with floor := some m }
  let good := s.floorCount 0
  let holes := s.floorCount 3
  let met : Bool := s.gradeMin ≤ good && holes ≤ s.gradeMax
  let s := ((s.setObj 0x1030 1 0 good).setObj 0x1030 2 0 holes).setObj 0x1030 3 0 (s.obj 0x1030 3 0 + 1)
  let s := (s.setObj 0x1030 5 0 (if met then 1 else 0)).setBlob 0x1030 4 0
    (sha384 ((List.range 48).flatMap (stateBytes s.floorOf)))
  if met then s
  else s.raise 0xA020 srcModule 0 (leBytes 2 good ++ leBytes 2 holes ++ leBytes 2 s.gradeMin ++ leBytes 2 s.gradeMax)

/-- Links of some routers toward holes and toward regions that are off are dead (R20, R162). -/
def State.markHoles (s : State) (ts : List Nat) : State :=
  ts.foldl (fun s t =>
    let hole (d : Nat) : Bool := (neighbour t d).any (fun u => s.floorOf u = 3)
    let off (d : Nat) : Bool := (neighbour t d).any (fun u => (s.region (regionOf u)).isOff)
    let ds := (List.range 4).filter (fun d => hole d || off d)
    if ds = [] then s
    else s.modRouter t (fun x => ds.foldl (fun x d => if hole d then x.markDead d else x.markLost d) x)) s

/-- The four root regions (R17). -/
def rootRegions : List Nat := [19, 20, 27, 28]

/-! Clock stops (R103, R344, R355, R358, R335). -/

def State.stopClock (s : State) (r : Nat) (c : StopCause) : State :=
  s.modRegion r (fun g => { g with stops := if g.stops.contains c then g.stops else c :: g.stops })

def State.freeClock (s : State) (r : Nat) (c : StopCause) : State :=
  s.modRegion r (fun g => { g with stops := g.stops.filter (· != c) })

/-- Stop the compute clock of every powered region. -/
def State.stopClocks (s : State) (c : StopCause) : State :=
  (List.range 48).foldl (fun s r => if (s.region r).netUp then s.stopClock r c else s) s

def State.freeClocks (s : State) (c : StopCause) : State :=
  { s with regions := s.regions.map (fun e => (e.1, { e.2 with stops := e.2.stops.filter (· != c) })) }

/-! Half clock-down (R359). -/

/-- Powered regions of a half with a thermal index above 0. -/
def State.warmRegions (s : State) (h : Nat) : Nat :=
  ((List.range 48).filter (fun r => halfOf r = h && (s.region r).netUp && 0 < (s.region r).thermal)).length

/-- Cause bits that hold for a half. -/
def State.halfCauses (s : State) (h : Nat) : Nat :=
  (if bitOf (s.obj 0x2020 6 0) h then 1 else 0) + (if 1 ≤ s.power.escal then 2 else 0)
    + (if 8 ≤ s.warmRegions h then 4 else 0)

/-- Note since when no cause holds for a half clocked down. -/
def State.noteHalves (s : State) : State :=
  [0, 1].foldl (fun s h =>
    if s.power.halfDown.contains h && s.halfCauses h = 0 then
      if (mfind h s.power.clear).isSome then s
      else { s with power := { s.power with clear := mset h s.tick s.power.clear } }
    else { s with power := { s.power with clear := mdel h s.power.clear } }) s

/-- R359. -/
def execHalfClockDownEntry (east : Bool) (s : State) : Host.Outcome State Fault Refusal :=
  done (
    let h := if east then 1 else 0
    let c := s.halfCauses h
    if s.mstate = 4 || c = 0 || s.power.halfDown.contains h then s
    else
      let s : State := { s with power := { s.power with halfDown := h :: s.power.halfDown } }
      (s.raise 0x1050 h 0 (leBytes 1 1 ++ leBytes 1 c)).applyRegions)

/-- R359: 100 ms after the last cause. -/
def execHalfClockDownExit (east : Bool) (s : State) : Host.Outcome State Fault Refusal :=
  done (
    let h := if east then 1 else 0
    match mfind h s.power.clear with
    | some t =>
      if !s.power.halfDown.contains h || s.halfCauses h != 0 || s.tick < t + 100 * msTicks then s
      else
        let s : State := { s with power := { s.power with
          halfDown := s.power.halfDown.filter (· != h), clear := mdel h s.power.clear } }
        (s.raise 0x1050 h 0 (leBytes 1 0 ++ leBytes 1 0)).applyRegions
    | none => s)

/-! Power-up order (R368). -/

/-- Distance of a region from the root fields. -/
def rootDist (r : Nat) : Nat :=
  let fx := r % 8
  let fy := r / 8
  max (if fx < 3 then 3 - fx else fx - 4) (if fy < 2 then 2 - fy else fy - 3)

/-- Regions in slot order. -/
def bootOrder : List Nat := (List.range 4).flatMap (fun d => below 48 (fun r => rootDist r = d))

/-! Entry to M3 (R344, R353, R364, R380, R411). -/

/-- What a running turnover leaves when the wafer goes down: it fails with result 2 (R407). -/
def State.failTurnover (s : State) : State :=
  match s.turn with
  | some t => s.endTurnover t true 2
  | none => s

def livePart (s : State) : List Nat := (List.range 16).filter s.isLive

/-- Stop every live partition with a cause. -/
def State.stopAll (s : State) (cause : Nat) : State := (livePart s).foldl (fun s p => s.stopPart p cause true) s

/-- The rails of every region go off, in the reverse of the power-up order (R344, R364, R368). -/
def State.railsDown (s : State) : State :=
  (bootOrder.reverse.filter (fun r => (mfind r s.regions).isSome)).foldl (fun s r => s.modRegion r (fun g => { g with
    st := if g.st = .dead then .dead else .off, stops := [], level := 0, index := 0, retrain := .idle, clearing := none,
    vaultsUp := false, rearmed := none, firstReading := false, rising := none, micro := 0 })) s

/-- Every block of the wafer loses power, then the edge: partitions Undefined, with no job admitted (R252, R254, R363),
memories and units empty. -/
def State.wafersLost (s : State) : State :=
  let s := (List.range 16).foldl (fun s p =>
    if s.pstate p = 0 then s
    else ((s.toPstate p 0).setObj 0x2100 (p + 1) 0 0).setObj 0x2102 (p + 1) 0 0) s
  let s := (List.range 12).foldl (fun s g => (s.setObj 0x8708 (g + 1) 0 0).setObj 0x8709 (g + 1) 0 0) s
  let s := (s.setObj 0x8100 8 0 0xFF).railsDown
  let s : State := { s with
    mems := [], tiles := [], routers := [], avoid := [], tablesOn := false, passes := [], chPasses := [],
    engines := s.engines.map (fun e => (e.1, ({ failed := e.2.failed } : Engine))),
    acts := [], holdCmd := none, shipping := none, traceBufs := [], mirrored := s.obj 0x9000 1 0,
    ports := s.ports.map (fun e => (e.1, ({ failed := e.2.failed } : Port))), subs := [],
    relays := s.relays.map (fun e => (e.1, ({ failed := e.2.failed } : Relay))),
    parts := [], trace := 0, mc := none, dict := s.dict.filter (fun e => e.1 / 2 ^ 16 != 0x500001 && e.1 / 2 ^ 24 != 0x6010),
    blobs := s.blobs.filter (fun e => e.1 / 2 ^ 24 != 0x6010),
    boot := {}, power := { s.power with escal := 0, locked := false } }
  s.noteHalves

/-- The owner digests of a retired module are erased once the wafer is down (R407). -/
def State.eraseKeys (s : State) : State :=
  if s.obj 0x3100 1 0 = 4 then
    { (s.setObj 0x3100 3 0 0).setBlob 0x3100 4 0 [] with sec := { s.sec with retired := true } }
  else s

/-- The module is in M3. reason: the codes of 0x2000:03. -/
def State.enterM3 (s : State) (reason : Nat) : State :=
  let s := (s.stopAll 6).failTurnover.endSnapshot 3
  let s := (s.wafersLost.setObj 0x9100 1 0 0).setObj 0x9100 6 0 0
  let s := ((s.setObj 0x2000 1 0 3).setObj 0x2000 3 0 reason).setObj 0x2000 2 0 13
  { (s.setObj 0x2003 3 0 0).eraseKeys with move := none }

/-- At an inlet fault or a lost lock the module writes 3 into 0x2001:01 itself (R365). -/
def State.faultM3 (s : State) (reason : Nat) : State := (s.enterM3 reason).setObj 0x2001 1 0 3

/-! Regions off and on (R346–R348, R356). -/

/-- Tile state and SRAM are lost; the tile stays in tile reset (R356, R348). -/
def State.loseTile (s : State) (t : Nat) : State :=
  let s := (s.discardTile t).modTile t (fun y => { y with hist := [], holdT3 := true, stamp := 0 })
  s.zero (.sram (Fin.ofNat 6912 t))

/-- Both rails of a region go off: tiles, SRAM, vaults and routers lose their contents (R347, R181), and a partition whose
routes cross it starts again only after a new load (R162, R348). -/
def State.regionOff (s : State) (r : Nat) (st : RState) : State :=
  let s := s.abandonVaultPass r false
  let s := s.modRegion r (fun g => { g with
    st, offAt := s.tick, clearing := none, vaultsUp := false, rising := none, micro := 0 })
  let s := (regionTiles r).foldl (fun s t =>
    ((s.loseTile t).modTile t (fun y => { y with vreqs := [] })).zero (.vault (Fin.ofNat 6912 t))) s
  let s : State := { s with
    routers := s.routers.filter (fun e => regionOf e.1 != r),
    parts := s.parts.map (fun e =>
      if s.routesUse e.1 (fun t => regionOf t = r) then (e.1, { e.2 with barred := some r }) else e) }
  s.noteHalves

/-- Causes that hold the clock of a region that powers up. -/
def State.stopsNow (s : State) (r : Nat) : List StopCause :=
  (if s.power.stopped then [.inlet] else []) ++ (if s.power.escal = 2 then [.cap] else [])
    ++ (if s.obj 0x4000 4 r = 1 then [.request] else []) ++ (if s.mstate = 2 then [.m2] else [])

/-- A region powers up (R346): its network rail, and its oscillator nodes join the mesh. -/
def State.regionOn (s : State) (r : Nat) : State :=
  let s := s.modRegion r (fun g => { g with
    st := .powering, rising := some s.tick, stops := s.stopsNow r, step := 3, level := 0, index := 0, indexAt := s.tick })
  { s with power := { s.power with locked := s.power.locked || rootRegions.contains r } }.applyRegion r

/-- The microcode goes to a region whose compute rail has returned, before its tiles leave reset (R376): once SC1 runs. -/
def State.microAgain (s : State) (r : Nat) : State :=
  match s.mc with
  | none => s
  | some m =>
    let wait := (s.core 1).down
    let m := m.filter (fun e => regionOf e.1 != r)
    let tiles := if wait then (regionTiles r).filter (fun t => s.floorOf t ≤ 1) else []
    { s.modRegion r (fun g => { g with micro := if wait then 2 else 1 }) with
      mc := some (tiles.foldl (fun m t => mset t 0 m) m)
      boot := { s.boot with mcTries := s.boot.mcTries.filter (fun e => regionOf e.1 != r) } }

/-- The compute rail of a region comes up (R346): at the requested voltage, its step not above what that allows. -/
def State.computeOn (s : State) (r : Nat) : State :=
  let s := s.modRegion r (fun g => { g with
    st := .running, mv := s.fwMv r, step := 3, div := stepDiv 3, corePh := 0, rising := some s.tick })
  (s.microAgain r).applyRegion r

/-- A re-arm attempt fails (R348): the third leaves the region off until module reset and makes its tiles holes. -/
def State.rearmFailed (s : State) (r : Nat) : State :=
  let s := s.modRegion r (fun g => { g with failed := g.failed + 1, rearmed := none })
  if (s.region r).failed < 3 then s
  else
    let s := s.modRegion r (fun g => { g with st := .dead })
    match s.floor with
    | none => s
    | some m => s.publish ((regionTiles r).foldl (fun m t => mset t 3 m) m)

/-- A region trips or fails to sequence within 100 ms of its re-arm; after T4 this counts no attempt (R356). -/
def State.tripped (s : State) (r : Nat) (again : Bool) : State :=
  match again, (s.region r).hot with
  | true, false => s.rearmFailed r
  | true, true => s.modRegion r (fun g => { g with rearmed := none, firstReading := false })
  | false, _ => s

def Region.justRearmed (g : Region) (now : Nat) : Bool := g.rearmed.any (fun t => now < t + 100 * msTicks)

/-- The mesh is still unlocked after three attempts of every root region: the module stays in M3 (R369). -/
def State.bootLock (s : State) : State :=
  if rootRegions.all (fun r => (s.region r).st = .dead) then
    (s.raise 0x1030 srcModule 0 (List.replicate 6 0 ++ [1])).faultM3 3
  else s

/-- The slot that powers up next (R369): the four root slots, retried twice before any other where none of them joined at its
first attempt; then every slot once, then those that failed, in slot order, up to three attempts. -/
def State.nextSlot (s : State) : Option Nat :=
  let at' (k : Nat) : Region := s.region (bootOrder.getD k 0)
  let open' (k : Nat) : Bool := (at' k).st = .off && (at' k).attempts < 3
  let roots := List.range 4
  let first := roots.any (fun k => open' k && (at' k).attempts = 0)
  let joined := roots.any (fun k => (at' k).netUp && (at' k).attempts = 1)
  let only : Bool := first || (!joined && roots.any open') || !roots.any (fun k => (at' k).netUp)
  let cand := (if only then roots else List.range 48).filter open'
  let least := (cand.map (fun k => (at' k).attempts)).min?
  least.bind (fun n => cand.find? (fun k => (at' k).attempts = n))

/-- Step 6 has ended: no slot is open and no region is powering. -/
def State.slotsDone (s : State) : Bool := s.nextSlot.isNone && !s.regions.any (fun e => e.2.st = .powering)

/-- Step 8 begins when step 6 has ended, and the links train (R366, R375). -/
def State.noteSlots (s : State) : State :=
  if s.boot.active && s.boot.precharged && s.boot.portTick.isNone && s.slotsDone then
    { s.setObj 0x2000 2 0 8 with boot := { s.boot with portTick := some s.tick } }.trainAll
  else s

/-- Compute rails come up 1 ms after their network rails (R346). -/
def State.railsDue (s : State) : State :=
  ((s.regions.filter (fun e => e.2.st = .powering && e.2.rising.any (fun t => t + msTicks ≤ s.tick))).foldl
    (fun s e => s.computeOn e.1) s).noteSlots

/-- A rail of a region came up lately, or was to: it has 2 ms to reach regulation (R346; log entry 41 for the third). -/
def Region.comingUp (g : Region) (now : Nat) : Bool :=
  g.st = .powering || (g.netUp && g.rising.any (fun t => now < t + 3 * msTicks))

/-- R346, R369: during boot the retries are those of the power slots; later, a rail that fails after a re-arm or at its return
after T3 counts as a failed re-arm (R348). -/
def execRailSequenceTimeout (r : Fin 49) (rail : Fin 3) (s : State) : Host.Outcome State Fault Refusal :=
  done (
    let g := s.region r.val
    let again := g.netUp && (g.justRearmed s.tick || g.comingUp s.tick)
    if r.val = 48 then
      -- the edge rail, in step 5 (R366)
      if s.boot.active && s.boot.precharged && rail.val = 2 && !(s.regions.any (fun e => e.2.netUp || e.2.st = .powering))
      then (s.raise 0x1010 48 0 [2, 1]).enterM3 (s.obj 0x2000 3 0)
      else s
    else if rail.val = 2 || !(g.comingUp s.tick || again) then s
    else
      let n := if s.boot.active then g.attempts else g.failed + 1
      let s := (s.raise 0x1010 r.val 0 (leBytes 1 rail.val ++ leBytes 1 n)).bump 0x7600 8 r.val 1
      if s.boot.active then ((s.regionOff r.val (if 3 ≤ g.attempts then .dead else .off)).bootLock).noteSlots
      else (s.regionOff r.val (if g.hot then .offT4 else .latched)).tripped r.val again)

/-- R347: a short on a region that is off changes nothing. -/
def execRegionShortCircuit (r : RegionId) (rail : Fin 3) (s : State) : Host.Outcome State Fault Refusal :=
  done (
    let g := s.region r.val
    if g.isOff then s
    else
      let s := (s.raise 0x1020 r.val 0 (leBytes 1 rail.val)).bump 0x7600 8 r.val 1
      (s.regionOff r.val .latched).tripped r.val (g.justRearmed s.tick))

/-- A partition holds a region: it lies in its rectangle (R28), or routes of its binary cross it. -/
def State.holdsRegion (s : State) (p r : Nat) : Bool :=
  (s.pstate p != 0 && inRect (s.rect p) r) || s.routesUse p (fun t => regionOf t = r)

/-- A latched region powers up again; the partitions that hold it start again only after a new load. -/
def State.rearm (s : State) (r : Nat) (hot : Bool) : State :=
  let s := (s.regionOn r).markHoles (regionTiles r)
  let s := s.modRegion r (fun g => { g with rearmed := some s.tick, hot := hot, firstReading := hot, vaultsUp := true })
  { s with parts := s.parts.map (fun e => if s.holdsRegion e.1 r then (e.1, { e.2 with barred := some r }) else e) }

/-- A write of 1 to 0x4000:01 (R348, R356). -/
def State.actRegionRearm (s : State) (r v : Nat) : Attempt :=
  let g := s.region r
  if v != 1 then .ok s
  else match g.st with
    | .dead => .error .stateConflict
    | .latched => .ok (s.rearm r false)
    | .offT4 => if s.tick < g.offAt + 10000 * msTicks then .error .stateConflict else .ok (s.rearm r true)
    | _ => .ok s

/-- R348: 10 s after a re-arm without a trip. -/
def execRearmCountClear (r : RegionId) (s : State) : Host.Outcome State Fault Refusal :=
  done (
    let g := s.region r.val
    if g.netUp && g.rearmed.any (fun t => t + 10000 * msTicks ≤ s.tick) then
      s.modRegion r.val (fun g => { g with failed := 0, rearmed := none })
    else s)

/-! The inlet (R344). -/

/-- Precharge runs while the inlet stays within 38–46 V; out of it, it starts again at 38.5–45.5 V (R367). -/
def Boot.measure (b : Boot) (mV tick : Nat) : Boot :=
  if !b.active || b.precharged then b
  else if mV < 38000 || 46000 < mV then { b with charging := none }
  else if b.charging.isNone && 38500 ≤ mV && mV ≤ 45500 then { b with charging := some tick }
  else b

/-- One measurement of the inlet. -/
def State.inletMv (s : State) (mV : Nat) : State :=
  { s.setObj 0x2020 1 0 (mV / 10) with power := { s.power with mV }, boot := s.boot.measure mV s.tick }

/-- Regions may be powered: M0 to M2, or a boot. -/
def State.waferOn (s : State) : Bool := s.mstate < 3 || s.boot.active

/-- E1060 at entry (1) or exit (0). -/
def State.tellInlet (s : State) (cause entry mV : Nat) : State :=
  s.raise 0x1060 srcModule 0 (leBytes 1 cause ++ leBytes 1 entry ++ leBytes 2 (mV / 10))

/-- R344, 1 ms out of 38–46 V. -/
def execInletUndervoltStop (mV : Nat) (s : State) : Host.Outcome State Fault Refusal :=
  done (
    let low : Bool := 36000 ≤ mV && mV < 38000
    let high : Bool := 46000 < mV && mV ≤ 47000
    if s.mstate = 4 || !(low || high) then s
    else
      let s := s.inletMv mV
      if s.power.stopped then s
      else
        let s : State := { s with power := { s.power with stopped := true } }
        (s.stopClocks .inlet).tellInlet 0 1 mV)

/-- R344, 10 ms back within 38.5–45.5 V. -/
def execInletRecovery (mV : Nat) (s : State) : Host.Outcome State Fault Refusal :=
  done (
    if s.mstate = 4 || mV < 38500 || 45500 < mV then s
    else
      let s := s.inletMv mV
      if !s.power.stopped then s
      else
        let s : State := { s with power := { s.power with stopped := false } }
        (s.freeClocks .inlet).tellInlet 0 0 mV)

/-- R344, R365: 100 µs out of 36–47 V. In M3 with nothing powered the event is all there is. -/
def execInletFaultPowerdown (mV : Nat) (s : State) : Host.Outcome State Fault Refusal :=
  done (
    if s.mstate = 4 || (36000 ≤ mV && mV ≤ 47000) then s
    else
      let on := s.waferOn
      let s := (s.inletMv mV).tellInlet 1 1 mV
      if on then s.faultM3 2 else s)

/-! Restart of the service die (R379, R380, R405, R420). -/

/-- Object values kept in fuses and flash: security state and cause, enrolment, owner digests, token counter, preferred
slot, log length. -/
def keptKeys : List Nat :=
  [okey 0x3100 1 0, okey 0x3100 2 0, okey 0x3100 3 0, okey 0x3100 5 0, okey 0x1012 2 0, okey 0x9000 6 0]

/-- A flash operation that loses power leaves what it wrote invalid (R338, R339). -/
def State.flashLost (s : State) : State :=
  match s.flash with
  | some (.store _) => { s with flash := none, saved := { crcBad := true } }
  | some (.image slot _) =>
    if slot.val = 0 then { s with flash := none, slotA := { s.slotA with valid := false } }
    else { s with flash := none, slotB := { s.slotB with valid := false } }
  | _ => { s with flash := none }

/-- The service die starts afresh: what is in fuses and flash is kept, every other value is that after reset. -/
def State.restart (s : State) : State :=
  let s := s.flashLost
  { State.reset with
    pending := s.pending, now := s.now, free := s.free, replies := s.replies, log := s.log, slotA := s.slotA,
    slotB := s.slotB, saved := s.saved, sec := { s.sec with signing := none, verifyAt := none }, fuses := s.fuses, w1s := s.w1s,
    dict := s.dict.filter (fun e => keptKeys.contains e.1),
    blobs := s.blobs.filter (fun e => e.1 = okey 0x3100 4 0) }

/-- R344: the module is in M4. -/
def execServicePowerLoss (mV : Nat) (s : State) : Host.Outcome State Fault Refusal :=
  done (if 30000 ≤ mV || s.mstate = 4 then s else s.restart.setObj 0x2000 1 0 4)

/-! The mesh lock (R353). -/

def bits48 (p : Nat → Bool) : Nat := ((below 48 p).map (2 ^ ·)).sum

def State.lockHeld (s : State) : Bool := rootRegions.any (fun r => (s.region r).netUp)

/-- R353; during boot no E1030 is raised (R369). -/
def execMeshRelock (regions : BitVec 48) (s : State) : Host.Outcome State Fault Refusal :=
  done (
    if s.boot.active || 3 ≤ s.mstate || regions = 0 || !s.lockHeld then s
    else s.raise 0x1030 srcModule 0 (leBytes 6 regions.toNat ++ [0]))

/-- R353: no root region is powered, or the reference has stopped. -/
def execMeshLockLoss (s : State) : Host.Outcome State Fault Refusal :=
  done (
    if !s.power.locked then s
    else
      let on := bits48 (fun r => (s.region r).netUp)
      ((s.stopClocks .lock).raise 0x1030 srcModule 0 (leBytes 6 on ++ [1])).faultM3 3)

/-! Heat (R354–R357). -/

def State.threshold (s : State) (r k : Nat) : Int := i16 (s.obj 0x4020 (0x11 + k) r)

/-- A sensor that reads outside −40 to 150 °C has failed. -/
def sensorOk (v : Int) : Bool := -400 ≤ v && v ≤ 1500

/-- The highest threshold in force, with a hysteresis of 5 °C. -/
def State.levelAt (s : State) (r old : Nat) (temp : Int) : Nat :=
  ((List.range 4).filter (fun i =>
    s.threshold r (i + 1) ≤ temp || (i < old && s.threshold r (i + 1) - 50 ≤ temp))).foldl (fun m i => max m (i + 1)) 0

/-- Partitions with a tile in a region. -/
def State.partsIn (s : State) (r : Nat) : List Nat :=
  (List.range 16).filter (fun p => s.pstate p != 0 && inRect (s.rect p) r)

/-- Entry of a threshold. -/
def State.enterLevel (s : State) (r : Nat) (temp : Int) (k : Nat) : State :=
  match k with
  | 1 =>
    let s := s.modRegion r (fun g => { g with index := min 3 (g.index + 1), indexAt := s.tick })
    (s.bump 0x7600 7 r 1).raise 0x2010 r 0 ([0] ++ i16Bytes temp ++ leBytes 1 (s.region r).bad)
  | 2 => (s.stopClock r .thermal).raise 0x2020 r 0 ([1] ++ i16Bytes temp)
  | 3 =>
    let s := (s.abandonVaultPass r true).modRegion r (fun g => { g with st := .railOff, rising := none })
    let s := (regionTiles r).foldl State.loseTile s
    let s := s.raise 0x2030 r 0 ([1] ++ i16Bytes temp)
    (s.partsIn r).foldl (fun s p => s.stopPart p 2 true) s
  | _ => (s.regionOff r .offT4).raise 0x2040 r 0 ([0] ++ i16Bytes temp)

/-- A threshold is left. -/
def State.leaveLevel (s : State) (r : Nat) (temp : Int) (k : Nat) : State :=
  match k with
  | 1 => s.modRegion r (fun g => { g with indexAt := s.tick })
  | 2 => (s.freeClock r .thermal).raise 0x2020 r 0 ([0] ++ i16Bytes temp)
  | _ =>
    let s := s.modRegion r (fun g => { g with hot := false })
    (s.computeOn r).raise 0x2030 r 0 ([0] ++ i16Bytes temp)

/-- R354, R355. -/
def execThermalSample (r : RegionId) (temps : List Int) (s : State) : Host.Outcome State Fault Refusal :=
  done (
    let g := s.region r.val
    if !g.netUp then s
    else
      let xs := (List.range 16).map (fun i => temps.getD i (-32768))
      let good := xs.filter sensorOk
      let bad := 16 - good.length
      let temp := (good.max?).getD g.temp
      let s := s.modRegion r.val (fun g => { g with sensors := xs, bad, temp, firstReading := false })
      let s := if 4 < bad && g.bad ≤ 4 then s.raise 0x2010 r.val 0 ([2] ++ i16Bytes temp ++ leBytes 1 bad) else s
      if g.firstReading && 1050 ≤ temp then (s.regionOff r.val .offT4).raise 0x2040 r.val 0 ([1] ++ i16Bytes temp)
      else
        let new := s.levelAt r.val g.level temp
        let s := s.modRegion r.val (fun g => { g with level := new })
        let s := ((List.range 4).filter (fun i => g.level ≤ i && i < new)).foldl (fun s i => s.enterLevel r.val temp (i + 1)) s
        let s := ((List.range 3).reverse.filter (fun i => new ≤ i && i < g.level)).foldl
          (fun s i => s.leaveLevel r.val temp (i + 1)) s
        (s.applyRegion r.val).noteHalves)

/-- R355: the index steps 1 ms, or 10 ms, after its last step or the crossing of T1. -/
def execThermalIndexStep (r : RegionId) (s : State) : Host.Outcome State Fault Refusal :=
  done (
    let g := s.region r.val
    if !g.netUp then s
    else if 1 ≤ g.level then
      if 3 ≤ g.index || s.tick < g.indexAt + msTicks then s
      else ((s.modRegion r.val (fun g => { g with index := g.index + 1, indexAt := s.tick })).applyRegion r.val).noteHalves
    else if g.index = 0 || s.tick < g.indexAt + 10 * msTicks then s
    else
      let s := ((s.modRegion r.val (fun g => { g with index := g.index - 1, indexAt := s.tick })).applyRegion r.val).noteHalves
      if g.index = 1 then s.raise 0x2010 r.val 0 ([1] ++ i16Bytes g.temp ++ leBytes 1 g.bad) else s)

/-- Hardware value of threshold k, 0–3. -/
def hwThreshold (k : Nat) : Int := (objDefault 0x4020 (0x12 + k) : Nat)

/-- A write to 0x4020:12–15 (R357): k is 0–3. -/
def State.actThreshold (s : State) (r k v : Nat) : Attempt :=
  let t (i : Nat) : Int := if i = k then i16 v else s.threshold r (i + 1)
  if hwThreshold k < i16 v || i16 v < hwThreshold k - 250 then .error .valueRange
  else if (List.range 3).any (fun i => t (i + 1) < t i + 50) then .error .valueRange
  else .ok (s.setObj 0x4020 (0x12 + k) r v)

/-! The power cap (R358). -/

def State.powerLimit (s : State) : Nat := min 30000 (10 * s.obj 0x2020 5 0)

def State.tellCap (s : State) (entry : Nat) : State :=
  s.raise 0x2050 srcModule 0 (leBytes 1 entry ++ leBytes 1 s.power.capCause ++ leBytes 1 s.power.capPeak
    ++ leBytes 4 (if entry = 0 then s.tick - s.power.capStart else 0))

/-- The cap index takes a value; E2050 when it leaves 0 and when it returns. -/
def State.setCap (s : State) (n cause : Nat) : State :=
  let p := s.power
  let s : State := { s with power :=
    if p.cap = 0 && n != 0 then { p with cap := n, capPeak := n, capStart := s.tick, capCause := cause, at3 := 0 }
    else { p with cap := n, capPeak := max p.capPeak n, at3 := if n = 3 && p.cap = 3 then p.at3 else 0 } }
  let s := if p.cap = 0 && n != 0 then s.tellCap 1 else if p.cap != 0 && n = 0 then s.tellCap 0 else s
  s.applyRegions

/-- The inlet still exceeds the limit at index 3: after 1 ms both halves clock down, 10 ms later every compute clock
stops. -/
def State.escalate (s : State) : State :=
  if s.power.escal = 0 && 100 ≤ s.power.at3 then
    { s with power := { s.power with escal := 1, at3 := 0 } }.noteHalves
  else if s.power.escal = 1 && 1000 ≤ s.power.at3 then
    let s : State := { s with power := { s.power with escal := 2, at3 := 0 } }
    s.stopClocks .cap
  else s

/-- One step back, in reverse order: the half clock-down, then the index. -/
def State.capDown (s : State) : State :=
  if s.power.escal = 2 then s
  else if s.power.escal = 1 then { s with power := { s.power with escal := 0, at3 := 0 } }.noteHalves
  else if s.power.cap != 0 then s.setCap (s.power.cap - 1) s.power.capCause
  else s

/-- R358: one measurement, every 10 µs. -/
def execPowerCapTick (watts : Nat) (s : State) : Host.Outcome State Fault Refusal :=
  done (
    if s.mstate = 4 then s
    else
      let lim := s.powerLimit
      let p := s.power
      let s : State := { s.setObj 0x2020 2 0 (watts / 10) with power := { p with
        above := if lim < watts then p.above + 1 else 0,
        under := if watts + 1000 ≤ lim then p.under + 1 else 0,
        below := if watts < lim then p.below + 1 else 0,
        at3 := if p.cap = 3 then p.at3 + 1 else 0 } }
      let s := if 100 ≤ s.power.below && s.power.escal = 2 then
          { s with power := { s.power with escal := 1, at3 := 0, under := 0 } }.freeClocks .cap
        else s
      if lim < watts then
        let s := if s.power.cap = 3 then s.escalate else s
        if s.power.above < 10 then s
        else
          let s : State := { s with power := { s.power with above := 0 } }
          if s.power.cap < 3 then s.setCap (s.power.cap + 1) 0 else s
      else if s.power.under < 100 then s
      else
        let s : State := { s with power := { s.power with under := 0 } }
        s.capDown)

/-- R358: inlet current above 850 A for 20 µs. -/
def execOvercurrentTrip (deciA : Nat) (s : State) : Host.Outcome State Fault Refusal :=
  done (
    if s.mstate = 4 then s
    else
      let s : State := s.setObj 0x2020 9 0 deciA
      if deciA ≤ 8500 then s
      else
        let was := s.power.cap
        let s : State := { s with power := { s.power with capCause := 1 } }
        let s := s.setCap 3 1
        if was = 0 then s else s.tellCap 1)

end Sys2Proof.Machine
end

