-- ==== Sys2Proof/Machine/Boot.lean ====
section
/-! DEFINITION. Bring-up (R366–R378): verification and the provisioning record (R396, R401–R405), the store area (R338),
precharge, region power, self-test, floor plan, training, microcode and the entry to M2; the module's transitions
(R364, R365). -/
namespace Sys2Proof.Machine

/-! Transitions (R364, R365). -/

/-- Precharge, then steps 5–11; edge units that an earlier boot found failed are judged again. -/
def State.startBoot (s : State) : State :=
  let s := (List.range 48).foldl (fun s r => s.modRegion r (fun g => { g with attempts := 0 })) s
  let s : State := { s with
    engines := s.engines.map (fun e => (e.1, { e.2 with failed := false })),
    ports := s.ports.map (fun e => (e.1, { e.2 with failed := false })),
    relays := s.relays.map (fun e => (e.1, { e.2 with failed := false })) }
  let ok : Bool := 38000 ≤ s.power.mV && s.power.mV ≤ 46000
  { s.setObj 0x2000 2 0 4 with boot := { active := true, charging := if ok then some s.tick else none } }

/-- Compute reset (R379, R380): every tile is reset, every partition Resetting and flushed. -/
def State.computeReset (s : State) : State :=
  let s := s.tiles.foldl (fun s e => (s.resetTile e.1).setObj 0x5000 1 e.1 0) s
  (List.range 16).foldl (fun s p =>
    if s.pstate p = 0 then s else (s.resetPart p 4).sendFlush p) s

/-- Start the transition to a state; reason: the code of 0x2000:03 for M3. -/
def State.beginMove (s : State) (target reason : Nat) : State :=
  if s.mstate = target || 4 ≤ s.mstate then s
  else if s.mstate = 3 then (if target ≤ 2 && !s.boot.active then s.startBoot else s)
  else
    let s : State := { s with move := some { target, cause := reason, since := s.tick } }
    if target = 3 then s.stopAll 6
    else if target = 1 then s.computeReset
    else if target = 2 && s.mstate = 0 then s.stopClocks .m2
    else s

/-- Every tile is released from reset; partitions become Loaded or Empty. -/
def State.releaseTiles (s : State) : State :=
  let s : State := { s with
    tiles := s.tiles.map (fun e => (e.1, { e.2 with holdT3 := e.2.holdT3 && (s.region (regionOf e.1)).st != .running })),
    dict := s.dict.filter (fun e => e.1 / 2 ^ 16 != 0x500001) }
  (List.range 16).foldl (fun s p => if s.pstate p = 7 then s.afterReset p else s) s

/-- 0x2000:01 takes a value (R411 kind 1). -/
def State.setMstate (s : State) (m : Nat) : State := (s.setObj 0x2000 1 0 m).tracePoint 1 srcModule 0

/-- A running transition ends. -/
def State.endMove (s : State) (m : Transition) : State :=
  if m.target = 3 then s.enterM3 m.cause
  else
    let s := if s.mstate = 1 then s.releaseTiles else s
    let s := if m.target = 2 then s.stopClocks .m2 else s.freeClocks .m2
    { s with move := none }.setMstate m.target

/-- The target written meanwhile is carried out (R365). -/
def State.nextMove (s : State) : State := if 3 ≤ s.obj 0x3100 1 0 then s else s.beginMove (s.obj 0x2001 1 0) 5

/-- A move to M3 switches the regions off in the reverse of the power-up order, 1 ms apart (R364, R368). -/
def State.downDue (s : State) : State :=
  match s.move with
  | some m =>
    if m.target = 3 then
      (bootOrder.reverse.take ((s.tick - m.since) / msTicks)).foldl
        (fun s r => if (s.region r).isOff then s else s.regionOff r .off) s
    else s
  | none => s

/-- R365: a move to M3 completes once every region is off; then the edge rail goes off. -/
def execRunningTransitionComplete (s : State) : Host.Outcome State Fault Refusal :=
  done (
    match s.move with
    | some m =>
      if m.target = 3 && !s.regions.all (fun e => e.2.isOff) then s
      else if m.asked then (s.endMove m).nextMove
      else s.endMove m
    | none => s)

/-! Security states at boot (R404, R405). -/

def State.security (s : State) : Nat := s.obj 0x3100 1 0

/-- The security state changes: E9020; out of OBSERVED, and into QUARANTINE or RETIRED, the trace enable falls (R407, R414). cause: 0xFF outside
QUARANTINE. -/
def State.setSecurity (s : State) (new cause trigger : Nat) : State :=
  let old := s.security
  let s := (s.setObj 0x3100 1 0 new).setObj 0x3100 2 0 cause
  let s := if old = 2 || 3 ≤ new then s.setObj 0x9100 1 0 0 else s
  s.raise 0x9020 srcModule 0 (leBytes 1 old ++ leBytes 1 new ++ leBytes 1 trigger)

/-- QUARANTINE of cause 0 or 1 at boot. -/
def State.bootQuarantine (s : State) (cause trigger : Nat) : State :=
  if s.security = 4 || (s.security = 3 && (cause = 0 || s.obj 0x3100 2 0 = 1)) then s
  else s.setSecurity 3 cause trigger

/-! Verification (R366 steps 2–4, R396, R403). -/

/-- Slots that boot tries, in order. -/
def State.bootSlots (s : State) : List Nat :=
  let p := s.obj 0x1012 2 0
  let first := if s.otherSlot && (s.slot (1 - p)).valid then 1 - p else p
  [first, 1 - first].filter (fun k => (s.slot k).valid)

/-- Failure bits of E9010: RSA, SLH-DSA, below floor. -/
def failBits (g : Sigs) (below : Bool) : Nat :=
  (if g.rsa then 0 else 1) + (if g.slh then 0 else 2) + (if below then 4 else 0)

/-- The images of a slot that fail, from image code `first` on, with their bits. A manifest below the floor fails each of
them; where their signatures are good it is told once, for the first (log entry 48). -/
def imageFails (first : Nat) (gs : List Sigs) (below : Bool) : List (Nat × Nat) :=
  let bad := gs.zipIdx.filter (fun x => failBits x.1 false != 0)
  if bad = [] then (if below then [(first, 4)] else []) else bad.map (fun x => (first + x.2, failBits x.1 below))

/-- E9010 for each image of a slot that failed (R422). -/
def State.tellImages (s : State) (slot : Nat) (fails : List (Nat × Nat)) : State :=
  fails.foldl (fun s f => s.raise 0x9010 srcModule 0 (leBytes 1 f.1 ++ leBytes 1 slot ++ leBytes 1 f.2)) s

/-- The first slot whose images verify; every failure before it is told. -/
def State.verifySlots (s : State) (image floor : Nat) (sigs : Nat → List Sigs) : List Nat → State × Option Nat
  | [] => (s, none)
  | k :: ks =>
    match imageFails image (sigs k) (decide ((s.slot k).version.toNat < floor)) with
    | [] => (s, some k)
    | fs => (s.tellImages k fs).verifySlots image floor sigs ks

/-- The owner's public keys that travel in a signed object hash to the fused digests (R400). -/
def State.ownerKeys (s : State) (rsa slh : List Byte) : Bool :=
  s.obj 0x3100 3 0 = 1 && sha384 rsa ++ sha384 slh = s.blob 0x3100 4 0

/-- Step 3: the provisioning record sets the BW objects and the lock (R401–R403). Without one, the defaults stand. -/
def State.applyRecord (s : State) (rec : Option ProvRecord) : State :=
  let s := match rec with
    | some r =>
      let s := ((s.setObj 0x3010 1 0 r.hostSub.toNat).setObj 0x3010 2 0 r.traceSub.toNat).setObj 0x3020 1 0 r.writePerm.toNat
      let s := (s.setObj 0x3030 1 0 (r.obsPerm ||| 0x80).toNat).setObj 0x3030 2 0 (if r.unlock then 1 else 0)
      let s : State := { s with sec := { s.sec with
        fusedFloor := if s.sec.fusedFloor.toNat < r.floor.toNat then r.floor else s.sec.fusedFloor } }
      s.setBlob 0x3050 1 0 (sha384 r.bytes)
    | none => s.setBlob 0x3050 1 0 (List.replicate 48 0)
  (s.setObj 0x3040 1 0 s.sec.fusedFloor.toNat).setObj 0x3000 1 0 1

/-- Whether a key of the store area lies in the link and route subset. -/
def linkKey (k : Nat) : Bool := isStored false (k / 2 ^ 24) (k / 2 ^ 16 % 256)

/-- A stored value that its object would now refuse. -/
def refusedNow (e : Nat × Nat) : Bool :=
  !valueOk (e.1 / 2 ^ 24) (e.1 / 2 ^ 16 % 256) e.2
    || (e.1 / 2 ^ 24 = 0x4020 && (let k := e.1 / 2 ^ 16 % 256 - 0x12
        hwThreshold k < i16 e.2 || i16 e.2 < hwThreshold k - 250))

/-- The store area loads (R338, R339): E1040 for a wrong CRC, or for values replaced by their defaults. -/
def State.loadStore (s : State) (crcOk : Bool) : State :=
  let tell (s : State) (cause n key : Nat) : State :=
    s.raise 0x1040 srcModule 0 (leBytes 1 cause ++ leBytes 2 n ++ leBytes 2 (key / 2 ^ 24) ++ leBytes 1 (key / 2 ^ 16 % 256)
      ++ leBytes 2 (key % 2 ^ 16))
  let a := s.saved
  if !crcOk || a.crcBad then
    tell { s.setObj 0x1010 4 0 0 with saved := {} } 0 0 0
  else
    let use (k : Nat) : Bool := if linkKey k then a.link else a.all
    let vs := a.values.filter (fun e => use e.1)
    let bad := vs.filter refusedNow
    let s := s.setObj 0x1010 4 0 (if a.all || a.link then 1 else 0)
    let s : State := (vs.filter (fun e => !refusedNow e)).foldl (fun s e => { s with dict := mset e.1 e.2 s.dict }) s
    let s : State := (a.blobs.filter (fun e => use e.1)).foldl (fun s e => { s with blobs := mset e.1 e.2 s.blobs }) s
    let s : State := if a.link then { s with tables := a.tables } else s
    match bad with
    | [] => s
    | e :: _ => tell s 1 bad.length e.1

/-- Steps 1–4 (R366): stage-1, the record, the store area and the images. The floor meets a slot in step 4 only (R403); SX
checks its keys as it starts, whatever else fails (R400). A module that retired as its power went erases its keys now (R407). -/
def State.bootStart (s : State) (mV : Nat) (stage1 : Nat → Sigs) (images : Nat → List Sigs) (keysOk : Bool) (recSigs : Sigs)
    (crcOk : Bool) : State :=
  let step (s : State) (n : Nat) : State := s.setObj 0x2000 2 0 n
  let halt (s : State) : State := step s 13
  let s := (step (s.setObj 0x2000 1 0 3) 1).inletMv mV
  let s : State := { s with onTick := s.tick }
  let s := if s.sec.retired then s else s.eraseKeys
  let s := if s.security = 2 then s.setSecurity 1 0xFF 8 else s
  let s := if !keysOk && s.security != 4 then s.bootQuarantine 1 7 else s
  let v := (step s 2).verifySlots 0 0 (fun k => [stage1 k]) s.bootSlots
  match v.2 with
  | none => halt ({ v.1 with sec := { v.1.sec with stage1 := false }, otherSlot := false }.bootQuarantine 0 6)
  | some k =>
    let s : State := { step v.1 3 with sec := { v.1.sec with stage1 := true }, otherSlot := false }
    -- the record
    let keys := s.sec.record.all (fun r => s.ownerKeys r.rsaKey r.slhKey)
    let recOk := keys && failBits recSigs false = 0
    let s := match s.sec.record with
      | some _ => if recOk then s else s.tellImages k [(7, failBits recSigs false)]
      | none => s
    let use := if recOk then s.sec.record else none
    let s := (s.applyRecord use).loadStore crcOk
    let enrolled := s.obj 0x3100 3 0 = 1
    let s := if enrolled && use.isNone then s.bootQuarantine 0 6
      else if s.security = 3 && s.obj 0x3100 2 0 = 0 then s.setSecurity (if enrolled then 1 else 0) 0xFF 6
      else s
    -- the images of the running slot, else those of the other
    let w := (step s 4).verifySlots 1 (s.obj 0x3040 1 0) images
      (k :: s.bootSlots.filter (fun j => j != k && failBits (stage1 j) false = 0))
    match w.2 with
    | none => halt w.1
    | some j =>
      let s := (w.1.setObj 0x1012 1 0 j).refreshDigest
      if s.obj 0x2001 1 0 ≤ 2 && s.security < 3 then s.startBoot else halt s

/-! Steps 5–11. -/

/-- R367: 800 ms within 38–46 V; the edge rail comes up in step 5. -/
def execPrechargeComplete (mV : Nat) (s : State) : Host.Outcome State Fault Refusal :=
  done (
    if s.mstate = 4 then s
    else
      let s := s.inletMv mV
      if !s.boot.active || s.boot.precharged || !s.boot.charging.any (fun t => t + 800 * msTicks ≤ s.tick) then s
      else { s.setObj 0x2000 2 0 5 with boot := { s.boot with precharged := true } }.bootLock)

/-- R346, R368, R369: one attempt of the next slot in step 6, and the mesh locks in step 7, from the first root region that
joins to the next slot (log entry 41); a region whose network rail does not regulate is left to its sequence timeout. -/
def execRegionPowerSlot (slot : Fin 48) (ok : Bool) (s : State) : Host.Outcome State Fault Refusal :=
  done (
    if !s.boot.active || !s.boot.precharged || s.nextSlot != some slot.val then s
    else
      let r := bootOrder.getD slot.val 0
      let s := (s.modRegion r (fun g => { g with attempts := g.attempts + 1, failed := 0, rearmed := none })).setObj 0x2000 2 0 6
      if !ok then s.modRegion r (fun g => { g with st := .powering, rising := none })
      else if s.power.locked || !rootRegions.contains r then s.regionOn r
      else (s.regionOn r).setObj 0x2000 2 0 7)

/-- Step 8 (R370, R371, R373): the findings of units that could be tested. Bits: 0 router, 1 compute, 2 vault. -/
def testTile (fuse found : Nat) : Nat × Nat :=
  let bad (i : Nat) : Bool := bitOf fuse i || bitOf found i
  let t0 := !bitOf fuse 0
  let t1 := !bad 0 && !bitOf fuse 1
  let t2 := !bad 0 && !bad 1 && !bitOf fuse 2
  ((if t0 && bitOf found 0 then 1 else 0) + (if t1 && bitOf found 1 then 2 else 0) + (if t2 && bitOf found 2 then 4 else 0),
   (if t0 then 0 else 1) + (if t1 then 0 else 2) + (if t2 then 0 else 4))

/-- State of a tile from its bad units (R370). -/
def unitState (bad : Nat) : Nat := if bitOf bad 0 then 3 else if bitOf bad 1 then 2 else if bitOf bad 2 then 1 else 0

def State.fuse (s : State) (t : Nat) : Nat := mget 0 s.fuses t
/-- Units the self-test found bad. -/
def State.found (s : State) (t : Nat) : Nat := match s.findings with
  | some m => mget 0 m t % 8
  | none => 0

def State.selfTest (s : State) (bad : List (TileId × BitVec 3)) (engines : List EngineId) (ports : List PortId)
    (relays : List RelayId) : State :=
  let tested (t : Nat) : Bool := (s.region (regionOf t)).netUp
  let m : Map Nat := ((s.fuses.map (·.1)) ++ bad.map (fun x => x.1.val)).foldl (fun m t =>
    let b := ((bad.filter (fun x => x.1.val = t)).map (fun x => x.2.toNat)).foldl Nat.lor 0
    let r := if tested t then testTile (s.fuse t) b else (0, 7)
    if r = (0, 0) then m else mset t (r.1 + 8 * r.2) m) []
  let drift := m.flatMap (fun e => List.replicate (((List.range 3).filter (bitOf e.2)).length) e.1)
  let s : State := { s with findings := some m, boot := { s.boot with tested := true, drift } }
  let s : State := { s with mems := s.mems.filter (fun e => !(e.1 < 6912 && tested e.1)) }
  let s := engines.foldl (fun s e => s.modEngine e.val (fun x => { x with failed := true })) s
  let s := ports.foldl (fun s p => (s.modPort p.val (fun x => { x with failed := true })).portDown p.val 3 false) s
  let s := relays.foldl (fun s r => s.setRelay r.val { s.relay r.val with failed := true }) s
  s.setObj 0x2000 2 0 9

/-- Floor plan from the fuse map, the findings and the regions that stay off under R369 or R348 (R25, R370). -/
def State.floorNow (s : State) : Map Nat :=
  let ts := (s.fuses.map (·.1) ++ ((s.findings.getD []).map (·.1))).eraseDups
  let m := ts.foldl (fun m t =>
    let u := unitState (Nat.lor (s.fuse t) (s.found t))
    if u = 0 then m else mset t u m) []
  ((List.range 48).filter (fun r => (s.region r).st = .dead)).foldl (fun m r =>
    (regionTiles r).foldl (fun m t => mset t 3 m) m) m

/-- Step 9 (R371, R372, R374). -/
def State.publishBoot (s : State) : State :=
  let drift := s.boot.drift
  let s := (s.setObj 0x1030 6 0 drift.length).publish s.floorNow
  let s := match drift with
    | [] => s
    | t :: _ => s.raise 0x4040 srcModule 0 (leBytes 2 drift.length ++ leBytes 2 t)
  let mask := ((List.range 32).filter (fun e => (s.engine e).failed)).foldl (fun m e => m + 2 ^ e) 0
    + ((List.range 6).filter (fun p => (s.port p).failed)).foldl (fun m p => m + 2 ^ (32 + p)) 0
    + ((List.range 16).filter (fun r => (s.relay r).failed)).foldl (fun m r => m + 2 ^ (38 + r)) 0
  let s := s.raise 0xA010 srcModule 0 ((List.range 4).flatMap (fun k => leBytes 2 (s.floorCount k))
    ++ leBytes 2 drift.length ++ leBytes 7 mask ++ leBytes 4 ((s.tick - s.onTick) / msTicks))
  let holes := ((s.floor.getD []).filter (fun e => e.2 = 3)).map (·.1)
  let near := (holes.flatMap (fun t => (List.range 4).filterMap (neighbour t))).eraseDups.filter (fun t => s.floorOf t != 3)
  { (s.markHoles near).setObj 0x2000 2 0 10 with boot := { s.boot with published := true } }

/-- Step 10: one stack trains its channels and is zeroed (R375). -/
def State.trainStack (s : State) (e : EngineId) (ok : Bool) : State :=
  if (s.engine e.val).trained || (s.engine e.val).failed then s
  else if ok then (s.modEngine e.val (fun x => { x with trained := true, st := 2 })).zero (.stack e)
  else s.modEngine e.val (fun x => { x with failed := true })

/-- Step 10: the vaults of a region train and are zeroed; E4030 for each that fails. -/
def State.trainVaults (s : State) (r : RegionId) (failed : List TileId) : State :=
  let g := s.region r.val
  if g.vaultsUp || !g.netUp then s
  else
    let bad := failed.filter (fun t => regionOf t.val = r.val && s.floorOf t.val = 0)
    let s := s.modRegion r.val (fun g => { g with vaultsUp := true, passTemp := g.temp })
    let s := (regionTiles r.val).foldl (fun s t => s.zero (.vault (Fin.ofNat 6912 t))) s
    bad.foldl (fun s t =>
      (s.modTile t.val (fun x => { x with vaultBad := true })).raise 0x4030 r.val 0 ([1, 0xFF] ++ leBytes 4 0)) s

/-- Tiles that wait for a microcode retry are there: step 11 runs. -/
def State.microRuns (s : State) : Bool := s.mc.any (fun m => m.any (fun e => e.2 = 0))

/-- When step 11 has ended firmware writes every entry of route set 0 back to 0 (R376). -/
def State.endMicro (s : State) : State :=
  if s.microRuns || !s.boot.active then s
  else { s with routers := s.routers.map (fun e => (e.1, { e.2 with sets := e.2.sets.filter (fun c => c.1 / 512 != 0) })) }

/-- Step 11 (R376): tiles whose digest matched hold the microcode; the others receive it again. -/
def State.sendMicrocode (s : State) (bad : List TileId) : State :=
  let s : State := { s.setObj 0x2000 2 0 11 with
    mc := some ((bad.filter (fun t => s.floorOf t.val ≤ 1)).foldl (fun m t => mset t.val 0 m) []) }
  s.endMicro

/-- R366. -/
def execPowerOn (st : BootStep) (s : State) : Host.Outcome State Fault Refusal :=
  done (
    match st with
    | .start mV sA sB iA iB keysOk recSigs crcOk =>
      if mV < 38000 || !(s.mstate = 4 || (s.mstate = 3 && s.obj 0x2000 2 0 = 0)) then s
      else s.bootStart mV (fun k => if k = 0 then sA else sB) (fun k => if k = 0 then iA else iB) keysOk recSigs crcOk
    | .selfTest bad es ps rs =>
      if s.boot.active && s.boot.precharged && !s.boot.tested && s.slotsDone then s.selfTest bad es ps rs else s
    | .publish => if s.boot.active && s.boot.tested && !s.boot.published then s.publishBoot else s
    | .trainStack e ok => if s.boot.active && s.boot.precharged && s.slotsDone then s.trainStack e ok else s
    | .trainVaults r failed => if s.boot.active && s.boot.published then s.trainVaults r failed else s
    | .microcode bad => if s.boot.active && s.boot.published && s.mc.isNone && !(s.core 1).down then s.sendMicrocode bad else s)

/-- A tile that has not taken the microcode: its retries run, or its region has it again and the tile is still in reset. -/
def State.retriesMicro (s : State) (t : Nat) (m : Map Nat) : Bool :=
  mfind t m = some 0 || ((mfind t m).isNone && (s.region (regionOf t)).micro = 1 && (s.tile t).holdT3 && s.floorOf t ≤ 1)

/-- R376: unicast to one tile; after its third retry it has failed. -/
def execMicrocodeRetry (t : TileId) (ok : Bool) (s : State) : Host.Outcome State Fault Refusal :=
  done (
    match s.mc with
    | some m =>
      if !s.retriesMicro t.val m || (s.core 1).down then s
      else
        let n := mget 0 s.boot.mcTries t.val + 1
        let s := s.tellRetry t.val 0 n 0
        let s : State := { s with
          boot := { s.boot with mcTries := mset t.val n s.boot.mcTries },
          mc := some (if ok then mdel t.val m else mset t.val (if 3 ≤ n then 2 else 0) m) }
        s.endMicro
    | none => s)

/-- Every enabled port is up, or has trained for 2 s. -/
def State.portsSettled (s : State) : Bool :=
  (List.range 6).all (fun p => !s.portOn p || s.boot.portTick.any (fun t => t + 2000 * msTicks ≤ s.tick)
    || (List.range (s.subCount p)).all (fun b => (s.sub p b).isUp))

/-- R378. -/
def State.bootDone (s : State) : Bool :=
  s.boot.active && s.boot.published
    && (List.range 32).all (fun e => (s.engine e).trained || (s.engine e).failed)
    && (List.range 48).all (fun r => (s.region r).vaultsUp || !(s.region r).netUp)
    && s.mc.any (fun m => m.all (fun e => e.2 != 0)) && s.portsSettled

/-- R378, R396, R411. -/
def execBootM2Entry (s : State) : Host.Outcome State Fault Refusal :=
  done (
    if !s.bootDone then s
    else
      let s : State := { s with boot := {}, trace := 0 }
      let s := ((s.setObj 0x9100 6 0 0).setObj 0x2000 2 0 12).setObj 0x2000 4 0 ((s.tick - s.onTick) / msTicks)
      let s := (s.stopClocks .m2).setObj 0x1012 2 0 (s.obj 0x1012 1 0)
      (s.setMstate 2).nextMove)

end Sys2Proof.Machine
end

