-- ==== Sys2Proof/Machine/ObjNames.lean ====
section
/-! DEFINITION. The names that the object tables of every chapter give their objects (R331: object and entry descriptions), in
ASCII (R325): a dash or a Greek letter is spelled (log entry 13). -/
namespace Sys2Proof.Machine

/-- Index, first and last sub-index, name. -/
def objNames0 : List (Nat × Nat × Nat × String) :=
  [(0x1008, 0, 0, "Device name"), (0x1009, 0, 0, "Hardware version"), (0x100A, 0, 0, "Firmware release"),
   (0x1010, 1, 1, "Store all"), (0x1010, 2, 2, "Store link and route"), (0x1010, 3, 3, "Store state"),
   (0x1010, 4, 4, "Store area valid"), (0x1011, 1, 1, "Restore all"), (0x1011, 2, 2, "Restore link and route"),
   (0x1012, 1, 1, "Running slot"), (0x1012, 2, 2, "Preferred slot"), (0x1012, 3, 4, "Slot A, B version"),
   (0x1012, 5, 5, "Slots valid"), (0x1012, 6, 6, "Image write"), (0x1018, 1, 1, "Vendor ID"),
   (0x1018, 2, 2, "Product code"), (0x1018, 3, 3, "Revision"), (0x1018, 4, 4, "Serial number"),
   (0x1020, 1, 4, "Versions"), (0x1030, 1, 1, "Good tiles"), (0x1030, 2, 2, "Router holes"),
   (0x1030, 3, 3, "Floor plan generation"), (0x1030, 4, 4, "Floor plan digest"), (0x1030, 5, 5, "Grade limits met"),
   (0x1030, 6, 6, "Drift count"), (0x1050, 1, 1, "Module ID"), (0x1A00, 1, 14, "TxPDO mapping"),
   (0x1C12, 0, 0, "RxPDO assignment"), (0x1C13, 0, 0, "TxPDO assignment count"), (0x1C13, 1, 1, "Assigned TxPDO"),
   (0x1F80, 1, 1, "Configuration digest"), (0x1F80, 2, 2, "Digest generation"), (0x1F81, 1, 1, "Digest policy"),
   (0x1F81, 2, 2, "Settle time"), (0x1F82, 1, 1, "Routing digest"), (0x2000, 1, 1, "Module state"),
   (0x2000, 2, 2, "Boot step"), (0x2000, 3, 3, "Last entry to M3"), (0x2000, 4, 4, "Boot duration"),
   (0x2000, 5, 5, "Service core states"), (0x2000, 6, 6, "Service core restarts"), (0x2001, 1, 1, "Requested state"),
   (0x2003, 1, 1, "Module reset"), (0x2003, 2, 2, "Edge reset"), (0x2003, 3, 3, "Edge reset state"),
   (0x2010, 1, 1, "TxPDO flags"), (0x2010, 2, 2, "Events recorded, low half"), (0x2010, 3, 3, "Last event code"),
   (0x2010, 4, 4, "Partition states"), (0x2020, 1, 1, "Inlet voltage"), (0x2020, 2, 2, "Inlet power"),
   (0x2020, 3, 3, "Hottest region temperature"), (0x2020, 4, 4, "Hottest region"), (0x2020, 5, 5, "Power limit"),
   (0x2020, 6, 6, "Half clock-down request"), (0x2020, 7, 7, "Half clock-down state"), (0x2020, 8, 8, "Cap index"),
   (0x2020, 9, 9, "Inlet current"), (0x2100, 1, 16, "Rectangle, partition 0-15"), (0x2101, 1, 16, "Partition state")]

/-- Index, first and last sub-index, name. -/
def objNames1 : List (Nat × Nat × Nat × String) :=
  [(0x2102, 1, 16, "Job ID"), (0x2103, 1, 16, "Stop cause"), (0x2110, 1, 1, "Turnover plan"),
   (0x2110, 2, 2, "Drain limit"), (0x2110, 3, 3, "Execute"), (0x2110, 4, 4, "Turnover state"), (0x2110, 5, 5, "Result"),
   (0x2110, 6, 6, "Last duration"), (0x2110, 7, 7, "Requests withdrawn"), (0x2110, 8, 8, "Requests abandoned"),
   (0x2130, 1, 16, "Relay 0-15 state"), (0x2200, 1, 1, "Lease renew"), (0x2200, 2, 2, "Lease period"),
   (0x2200, 3, 3, "Lease reclaim"), (0x2200, 4, 4, "Session"), (0x2200, 5, 5, "Lease state"),
   (0x2200, 6, 6, "Late renewals"), (0x2300, 1, 1, "Command producer"), (0x2300, 2, 2, "Command consumer"),
   (0x2300, 3, 3, "Completion producer"), (0x2300, 4, 4, "Completion consumer"),
   (0x2300, 5, 5, "Completion entries free"), (0x2300, 6, 6, "Verdict notice mask"), (0x2F00, 1, 1, "Instance window"),
   (0x2F10, 1, 1, "Transaction timeout"), (0x2F10, 2, 2, "Broadcast refusals"), (0x2F10, 3, 3, "Late completions"),
   (0x3000, 1, 1, "Lock"), (0x3010, 1, 1, "Host sub-port"), (0x3010, 2, 2, "Trace stream sub-port"),
   (0x3020, 1, 1, "In-band write permissions"), (0x3030, 1, 1, "Observation permissions"),
   (0x3030, 2, 2, "Observation unlock permitted"), (0x3040, 1, 1, "Anti-rollback floor"),
   (0x3050, 1, 1, "Applied record digest"), (0x3100, 1, 1, "Security state"), (0x3100, 2, 2, "Quarantine cause"),
   (0x3100, 3, 3, "Enrolled"), (0x3100, 4, 4, "Owner key digests"), (0x3100, 5, 5, "Owner token counter"),
   (0x3100, 6, 6, "Last token result"), (0x3100, 16, 16, "Enrolment record"), (0x3100, 17, 17, "Provisioning record"),
   (0x3100, 18, 18, "Owner token"), (0x3100, 19, 19, "Observation lock"), (0x3200, 1, 1, "Nonce"),
   (0x3200, 2, 2, "Report"), (0x3200, 3, 3, "Report state"), (0x3200, 4, 4, "Identity RSA modulus"),
   (0x3200, 5, 5, "Identity SLH-DSA key"), (0x3200, 6, 6, "Identity certificate"), (0x4000, 1, 1, "Re-arm"),
   (0x4000, 2, 2, "Compute rail request"), (0x4000, 3, 3, "CORE step request"), (0x4000, 4, 4, "Compute clock stop"),
   (0x4010, 1, 1, "Region state"), (0x4010, 2, 2, "Failed re-arms"), (0x4010, 3, 3, "Step in force"),
   (0x4010, 4, 4, "Compute rail voltage"), (0x4010, 5, 5, "Region power")]

/-- Index, first and last sub-index, name. -/
def objNames2 : List (Nat × Nat × Nat × String) :=
  [(0x4010, 6, 6, "Thermal level"), (0x4020, 1, 16, "Sensor 0-15"), (0x4020, 17, 17, "Region temperature"),
   (0x4020, 18, 21, "T1-T4 threshold"), (0x4030, 1, 1, "NET divider"), (0x4030, 2, 2, "CORE divider"),
   (0x4040, 1, 1, "Vault retrain request"), (0x4040, 2, 2, "Vault retrain state"), (0x4040, 3, 3, "Vault auto retrain"),
   (0x4040, 4, 4, "Vault clear"), (0x4040, 5, 5, "Vault clear state"), (0x4040, 6, 6, "Last vault pass"),
   (0x4800, 1, 1, "Tile states"), (0x4800, 2, 2, "Good tiles in region"), (0x4800, 3, 3, "Vault-out tiles in region"),
   (0x4800, 4, 4, "Compute-out tiles in region"), (0x4800, 5, 5, "Router holes in region"), (0x4800, 6, 6, "Fuse map"),
   (0x4800, 7, 7, "Self-test findings"), (0x4800, 8, 8, "Boot attempts"), (0x5000, 1, 1, "Tile reset"),
   (0x5000, 16, 16, "Array roles"), (0x5010, 1, 1, "Context states"), (0x5010, 2, 2, "Fault codes"),
   (0x5010, 3, 3, "Fault addresses"), (0x5010, 16, 16, "Engine activity"), (0x5010, 17, 17, "Vault interface state"),
   (0x5010, 18, 18, "Poison latch"), (0x5010, 19, 19, "Guard state"), (0x5010, 20, 20, "Microcode state"),
   (0x5100, 1, 32, "Queue 0-31 limit"), (0x5100, 33, 64, "Queue 0-31 class"), (0x5100, 65, 65, "Spill threshold"),
   (0x5100, 66, 66, "Overflow area base"), (0x5100, 67, 67, "Overflow area size"), (0x5100, 68, 68, "Spill partner"),
   (0x5200, 1, 4, "Slot 0-3 tag"), (0x5200, 8, 8, "Clear policy"), (0x5200, 9, 9, "Clear slots"),
   (0x5200, 17, 20, "Slot 0-3 counts"), (0x5200, 32, 32, "Crush threshold"), (0x5300, 1, 1, "Route window set"),
   (0x5300, 2, 2, "Route window index"), (0x5300, 3, 3, "Route entry"), (0x5300, 4, 4, "Dead links"),
   (0x5300, 5, 5, "Route watchdog"), (0x5300, 6, 6, "Fork stall threshold"), (0x5300, 7, 7, "Router state"),
   (0x5300, 8, 8, "Last refusal"), (0x6000, 1, 1, "Enable"), (0x6000, 2, 2, "Reach class"), (0x6000, 3, 3, "Split"),
   (0x6000, 4, 4, "FEC in use"), (0x6000, 5, 5, "Digest compare"), (0x6000, 6, 6, "Replay timeout"),
   (0x6000, 7, 7, "Peer-loss time"), (0x6000, 8, 8, "Retrain"), (0x6000, 9, 9, "Port reset"),
   (0x6000, 10, 10, "Quiesce"), (0x6010, 1, 1, "Sub-port states")]

/-- Index, first and last sub-index, name. -/
def objNames3 : List (Nat × Nat × Nat × String) :=
  [(0x6010, 2, 2, "Active lanes"), (0x6010, 3, 3, "Quiesced"), (0x6010, 4, 4, "Digest match"),
   (0x6010, 5, 5, "Host window size"), (0x6010, 6, 6, "Sub-ports in route plans"),
   (0x6010, 16, 23, "Peer module ID, sub-port 0-7"), (0x6010, 24, 31, "Peer digest, sub-port 0-7"),
   (0x6100, 1, 1, "Table index"), (0x6100, 2, 2, "Table entry"), (0x6800, 1, 1, "Far fetch limit"),
   (0x6800, 2, 2, "Sluice base"), (0x6800, 3, 3, "Journal address"), (0x6810, 1, 1, "Engine state"),
   (0x6810, 2, 2, "Blocks owned"), (0x6810, 3, 3, "Blocks in progress"), (0x6830, 1, 1, "Channel retrain request"),
   (0x6830, 2, 2, "Channel retrain state"), (0x6830, 3, 3, "Channel auto retrain"), (0x6840, 1, 1, "Sluice size"),
   (0x6840, 2, 2, "Sluice entries free"), (0x6840, 3, 3, "Entries by kind"), (0x6840, 4, 4, "Held-on-norm list"),
   (0x6860, 1, 1, "Pool window base"), (0x6860, 2, 2, "Pool window size"), (0x6860, 3, 3, "Pool window enable"),
   (0x6900, 1, 1, "Snapshot step"), (0x6900, 2, 2, "Snapshot destination"), (0x6900, 3, 3, "Destination size"),
   (0x6900, 4, 4, "Snapshot content"), (0x6900, 5, 5, "Snapshot start"), (0x6900, 6, 6, "Snapshot state"),
   (0x6900, 7, 7, "Blocks shipped"), (0x6900, 8, 8, "Image size"), (0x7000, 1, 1, "Snapshot strobe"),
   (0x7000, 2, 2, "Snapshot sequence"), (0x7000, 3, 3, "Snapshot reference tick"), (0x7000, 4, 4, "Snapshot state"),
   (0x7200, 1, 8, "Stall cause 1-8"), (0x7200, 16, 16, "Context switches"), (0x7200, 17, 17, "Context faults"),
   (0x7200, 18, 18, "Saturated posts"), (0x7200, 19, 19, "Layer repeats"), (0x7200, 20, 20, "Guard poison paths"),
   (0x7200, 21, 21, "Empty frees"), (0x7300, 1, 5, "Flits out N, E, S, W, local"), (0x7300, 6, 6, "Hop replays"),
   (0x7300, 7, 7, "Resetting refusals sent"), (0x7300, 8, 8, "Unreachable refusals sent"),
   (0x7300, 9, 9, "No-route refusals sent"), (0x7300, 10, 10, "Flushed flits"), (0x7300, 11, 11, "Fork hold cycles"),
   (0x7300, 12, 12, "Merge wait cycles"), (0x7300, 13, 13, "Seam FIFO full cycles"),
   (0x7300, 14, 14, "Merge length mismatches"), (0x7300, 15, 15, "Refusals received"), (0x7400, 1, 1, "SRAM corrected"),
   (0x7400, 2, 2, "SRAM uncorrectable"), (0x7400, 3, 3, "Vault corrected"), (0x7400, 4, 4, "Vault uncorrectable"),
   (0x7400, 5, 5, "Poisoned reads")]

/-- Index, first and last sub-index, name. -/
def objNames4 : List (Nat × Nat × Nat × String) :=
  [(0x7400, 6, 6, "Vault retrain wait cycles"), (0x7410, 1, 1, "Stack corrected"),
   (0x7410, 2, 2, "Stack uncorrectable"), (0x7410, 3, 3, "Stack poisoned reads"),
   (0x7410, 4, 4, "Channel retrain wait cycles"), (0x7410, 5, 5, "Far refusals served"),
   (0x7420, 1, 1, "Millrace bytes read"), (0x7420, 2, 2, "Gate hold cycles"), (0x7420, 3, 3, "Stamps ahead"),
   (0x7420, 4, 4, "Gather blocks written"), (0x7420, 5, 5, "Tailrace blocks rejected"),
   (0x7430, 1, 16, "Relay 0-15 transfers forwarded"), (0x7430, 17, 32, "Relay 0-15 transfers discarded"),
   (0x7440, 1, 1, "Blocks applied"), (0x7440, 2, 2, "Blocks skipped as poisoned"),
   (0x7440, 3, 3, "Blocks held on norm"), (0x7440, 4, 4, "Hold-mode blocks written"), (0x7440, 5, 5, "Far updates"),
   (0x7440, 6, 6, "Updates lost"), (0x7440, 7, 7, "Updates repaired"), (0x7440, 8, 8, "Sluice full cycles"),
   (0x7440, 9, 9, "Digests computed"), (0x7440, 10, 10, "Digest mismatches"),
   (0x7440, 11, 11, "Snapshot blocks shipped"), (0x7440, 12, 12, "Hold blocks dropped"),
   (0x7440, 13, 13, "Packets discarded after repair"), (0x7500, 1, 1, "Tailrace blocks reduced"),
   (0x7500, 2, 2, "Tailrace header mismatches"), (0x7500, 3, 3, "Verdict records forwarded"),
   (0x7500, 4, 4, "Data frames sent"), (0x7500, 5, 5, "Data frames received"), (0x7500, 6, 6, "Bad frames"),
   (0x7500, 7, 7, "Frames replayed"), (0x7500, 8, 8, "Poisoned frames received"),
   (0x7500, 9, 9, "KP4 symbols corrected"), (0x7500, 10, 10, "KP4 codewords uncorrectable"),
   (0x7500, 11, 11, "Packets refused"), (0x7500, 12, 12, "Stop frames forwarded"),
   (0x7500, 13, 13, "Late acknowledgements"), (0x7500, 14, 14, "Ring responses sent"),
   (0x7500, 15, 15, "Unmatched responses"), (0x7500, 16, 16, "Response ring overruns"),
   (0x7500, 17, 17, "Status-only responses"), (0x7600, 1, 4, "Time at step 0-3"), (0x7600, 5, 5, "Clock stopped"),
   (0x7600, 6, 6, "Compute rail off"), (0x7600, 7, 7, "T1 entries"), (0x7600, 8, 8, "Trips"),
   (0x8000, 1, 1, "Job seed"), (0x8010, 1, 1, "Long-sum threshold"), (0x8100, 1, 1, "Loss-scale exponent"),
   (0x8100, 2, 2, "Growth interval"), (0x8100, 3, 3, "Restart exponent"), (0x8100, 4, 4, "Clean verdict count"),
   (0x8100, 5, 5, "Short growth remaining"), (0x8100, 6, 6, "Restart growth interval"), (0x8100, 7, 7, "Restart span"),
   (0x8100, 8, 8, "Loss-scaled partition"), (0x8130, 1, 1, "Cold-scale window"),
   (0x8130, 2, 17, "Cold-scale end, partition 0-15")]

/-- Index, first and last sub-index, name. -/
def objNames5 : List (Nat × Nat × Nat × String) :=
  [(0x8140, 1, 1, "Guard all layers"), (0x8200, 1, 1, "Silence threshold"),
   (0x8210, 1, 12, "Silence count, group 0-11"), (0x8300, 1, 1, "Digest interval"), (0x8300, 2, 2, "Digest policy"),
   (0x8400, 1, 12, "Ceiling factor"), (0x8400, 13, 13, "Mean weight"), (0x8400, 14, 14, "Warm-up verdicts"),
   (0x8410, 1, 12, "Running mean"), (0x8410, 13, 24, "Mean verdict count"),
   (0x8600, 1, 16, "Last verdict step, partition 0-15"), (0x8600, 17, 32, "Step begun, partition 0-15"),
   (0x8610, 1, 1, "Verdict timeout"), (0x8620, 1, 16, "Last verdict record, partition 0-15"),
   (0x8700, 1, 12, "Learning rate eta, group 0-11, pending"), (0x8701, 1, 12, "beta1, pending"),
   (0x8702, 1, 12, "beta2, pending"), (0x8703, 1, 12, "eps, pending"), (0x8704, 1, 12, "lambda, pending"),
   (0x8705, 1, 12, "Hold mode, pending"), (0x8706, 1, 12, "Activation stamp"), (0x8707, 1, 12, "In-force stamp"),
   (0x8708, 1, 12, "Rule"), (0x8709, 1, 12, "Blocks in group"), (0x8710, 1, 12, "In-force values"),
   (0x8711, 1, 12, "In-force values"), (0x8712, 1, 12, "In-force values"), (0x8713, 1, 12, "In-force values"),
   (0x8714, 1, 12, "In-force values"), (0x8715, 1, 12, "In-force values"), (0x8720, 1, 1, "Command action"),
   (0x8720, 2, 2, "Command group"), (0x8720, 3, 3, "Command step"), (0x8720, 4, 4, "Command factor"),
   (0x8720, 5, 5, "Merge target step"), (0x8720, 6, 6, "Command execute"), (0x8720, 7, 7, "Command result"),
   (0x9000, 1, 1, "Records written"), (0x9000, 2, 2, "Ring read index"), (0x9000, 3, 3, "Ring read"),
   (0x9000, 4, 4, "Log read index"), (0x9000, 5, 5, "Log read"), (0x9000, 6, 6, "Log records written"),
   (0x9000, 7, 7, "Events not recorded"), (0x9100, 1, 1, "Trace enable"), (0x9100, 2, 2, "Trace kinds"),
   (0x9100, 3, 3, "Ring size"), (0x9100, 4, 4, "Ring mode"), (0x9100, 5, 5, "Stream destination"),
   (0x9100, 6, 6, "Records written"), (0x9100, 7, 7, "Records dropped"), (0x9100, 16, 16, "Ring read")]

def objNames : List (Nat × Nat × Nat × String) := objNames0 ++ objNames1 ++ objNames2 ++ objNames3 ++ objNames4 ++ objNames5

/-- The name of an object; that of a counter stands for its live value too (R336). -/
def objName (idx sub : Nat) : List Byte :=
  let b := if isCounter idx && 0x80 ≤ sub then sub - 0x80 else sub
  let n : String := match objNames.find? (fun r => r.1 = idx && r.2.1 ≤ b && b ≤ r.2.2.1) with
    | some r => r.2.2.2
    | none => if sub = 0 then "Highest sub-index" else if sub = 0x7F then "Latch count" else ""
  n.toList.map (fun c => BitVec.ofNat 8 c.toNat)

end Sys2Proof.Machine
end

