-- ==== Sys2Proof/Machine/Reset.lean ====
section
/-! DEFINITION. Resets (R379–R382) and requests of a module state (R364, R365). -/
namespace Sys2Proof.Machine

/-- A write to 0x2001:01 (R364, R365): while a transition or the boot runs it waits. -/
def State.actRequest (s : State) (v : Nat) : Attempt :=
  if 3 < v then .error .valueRange
  else if (v = 1 || v = 3) && s.turn.isSome then .error .stateConflict
  else if v ≤ 2 && 3 ≤ s.security then .error .stateConflict
  else
    let s := s.setObj 0x2001 1 0 v
    .ok (match s.move with
      | some m => { s with move := some { m with asked := true } }
      | none => if s.boot.active then s else s.nextMove)

/-- One engine at an edge reset: commit groups that it holds whole are in DRAM, all else in flight is discarded, with the
packets inside the engine (R243, R246, R381). What repair marked lost stays, and so does an episode of R236, which only a
freed entry ends. -/
def Engine.resetEdge (x : Engine) : Engine :=
  { x with
    st := 0, reads := [], heldReads := [], reqs := [], commits := [], ins := [], settling := [], deferred := [], far := [],
    waiting := [], rollups := [] }

/-- A write to 0x2003:02 (R379–R381). -/
def State.actEdgeReset (s : State) (v : Nat) : Attempt :=
  if v != 1 then .ok s
  else if s.turn.isSome || s.move.isSome || s.boot.active then .error .stateConflict
  else if 3 ≤ s.mstate then .ok s
  else
    let s := s.stopAll 6
    let s : State := { s with engines := s.engines.map (fun e => (e.1, { e.2 with waiting := [], shipFar := [] })) }
    let s := (List.range 32).foldl (fun s e => s.endChannelPass e 2) s
    let s := s.endSnapshot 3
    let s : State := { s with holdCmd := none, engines := s.engines.map (fun e => (e.1, e.2.resetEdge)) }
    -- the result of the command of R239 that has been discarded is reset with it (R380)
    .ok ((s.setObj 0x8720 7 0 0).setObj 0x2003 3 0 1)

/-- Out of OBSERVED at a module reset or power cycle (R405). -/
def State.leaveObserved (s : State) (trigger : Nat) : State :=
  if s.security = 2 then s.setSecurity 1 0xFF trigger else s

/-- The wafer goes down and the service die restarts from its boot ROM (R379, R380). -/
def State.resetModule (s : State) (reason : Nat) : State :=
  let down := if s.mstate < 3 || s.boot.active then s.enterM3 reason else s
  (((down.restart.setObj 0x2000 1 0 3).setObj 0x2000 3 0 reason).leaveObserved 8)

/-- A write to 0x2003:01. -/
def State.actModuleReset (s : State) (sig : Nat) : Attempt :=
  if sig != 0x74657372 then .error .badSignature
  else if s.flash.isSome then .error .stateConflict
  else .ok (s.resetModule 1)

/-- A write to 0x5000:01 (R379, R382). -/
def State.actTileReset (s : State) (t v : Nat) : Attempt :=
  if 1 < v then .error .valueRange
  else if v = 0 then .ok (s.setObj 0x5000 1 t 0)
  else match s.partOf t with
    | some p => if s.isLive p.val || s.pstate p.val = 7 then .error .stateConflict
        else .ok ((s.resetTile t).setObj 0x5000 1 t 1)
    | none => .ok ((s.resetTile t).setObj 0x5000 1 t 1)

end Sys2Proof.Machine
end

