-- ==== Sys2Proof/Machine/Service.lean ====
section
/-! DEFINITION. Service firmware (R384–R397): the command and completion rings, the host lease, core restarts, firmware
images, and the flash operations of stores, restores and images (R338–R340, R395). -/
namespace Sys2Proof.Machine

/-! Command intake (R385, R386). -/

def commandRing : Nat := 0x17F8000000

def u32Diff (a b : Nat) : Nat := (a + 2 ^ 32 - b % 2 ^ 32) % 2 ^ 32

/-- An entry of 64 bytes. -/
def takenOf (bs : List Byte) (tick index : Nat) : Taken :=
  { index, op := bytesAt bs 0 2, tag := bytesAt bs 4 4, part := bytesAt bs 8 1, timeout := bytesAt bs 12 4,
    params := (bs.drop 16).take 48, tick }

/-- SC0 takes entries that the producer index covers, in ring order, and hands them to SC1: none while the completion ring
is full, while either core restarts, while the entry's channel retrains (R184), or in M3. An opcode or partition
that does not exist is a bad parameter, told in its turn. -/
def State.intake (s : State) : Nat → State
  | 0 => s
  | n + 1 =>
    let i := s.obj 0x2300 2 0
    let a := commandRing + i % 16384 * 64
    if s.ringFull || (s.core 0).down || (s.core 1).down || 3 ≤ s.mstate || u32Diff (s.obj 0x2300 1 0) i = 0
        || s.chanBusy 0 a 64 then s
    else
      let s := s.touch (.stack 0) a 64 7
      let c := takenOf (s.bytes (.stack 0) a 64) s.tick i
      let s := (s.setObj 0x2300 2 0 ((i + 1) % 2 ^ 32)).tracePoint 0 0 0
      ({ s with taken := s.taken ++ [c] }.endBad c.part).intake n

def State.takeCommands (s : State) : State := s.intake (u32Diff (s.obj 0x2300 1 0) (s.obj 0x2300 2 0))

/-- A write to 0x2300:01. -/
def State.actProducer (s : State) (v : Nat) : Attempt :=
  if 16384 < u32Diff v (s.obj 0x2300 2 0) then .error .valueRange
  else .ok ((s.setObj 0x2300 1 0 v).takeCommands)

/-- The ring is no longer full (R388): partitions paused under it resume, and commands are taken again. -/
def State.endFull (s : State) : State :=
  if s.ringFull && 256 < s.ringFree then
    let s : State := { s with ringFull := false }
    ((List.range 16).foldl (fun s p => if (s.part p).pauses.contains .ring then s.unpause p .ring else s) s).takeCommands
  else s

/-- A write to 0x2300:04. -/
def State.actConsumer (s : State) (v : Nat) : Attempt :=
  let old := s.obj 0x2300 4 0
  if u32Diff (s.obj 0x2300 3 0) old < u32Diff v old then .error .valueRange
  else
    let s := s.setObj 0x2300 4 0 v
    .ok ((s.flushCompletions s.waiting.length).endFull)

/-! The host lease (R389–R391). -/

def State.leaseEnd (s : State) : Nat := s.lease + s.obj 0x2200 2 0 * msTicks

/-- A write to 0x2200:01. -/
def State.actLeaseRenew (s : State) (v : Nat) : Attempt :=
  if v = 0 then .error .valueRange
  else if v != s.obj 0x2200 4 0 then .error .stateConflict
  else
    let s := if s.obj 0x2200 5 0 = 1 && s.tick = s.leaseEnd then s.setObj 0x2200 6 0 (s.obj 0x2200 6 0 + 1) else s
    let s : State := { s with lease := s.tick }
    .ok ((s.setObj 0x2200 5 0 1).tracePoint 0 0 0)

/-- A write to 0x2200:03. -/
def State.actLeaseReclaim (s : State) (v : Nat) : Attempt :=
  if v = 0 then .error .valueRange
  else if s.obj 0x2200 5 0 = 1 then .error .stateConflict
  else
    let old := s.obj 0x2200 4 0
    let expired := s.obj 0x2200 5 0 = 2
    let s : State := { s with lease := s.tick }
    let s := (s.setObj 0x2200 4 0 v).setObj 0x2200 5 0 1
    let s := if expired then s.raise 0x8040 srcModule 0 (leBytes 4 old ++ leBytes 4 v) else s
    .ok (s.tracePoint 0 0 0)

/-- R390: a renewal in the tick of the lease's end still renews it (R128, R389). -/
def execLeaseExpiry (s : State) : Host.Outcome State Fault Refusal :=
  done (
    if s.obj 0x2200 5 0 != 1 || s.tick ≤ s.leaseEnd then s
    else ((s.setObj 0x2200 5 0 2).raise 0x8020 srcModule 0 (leBytes 4 (s.obj 0x2200 4 0))).tracePoint 0 0 0)

/-! Transactions in flight (R327, R330). -/

/-- Abort codes (R330). -/
def Abort.code : Abort → Nat
  | .noObject => 0x06020000
  | .noSub => 0x06090011
  | .badInstance => 0x0A7D0004
  | .writeOnly => 0x06010001
  | .readOnly => 0x06010002
  | .length => 0x06070010
  | .valueRange => 0x06090030
  | .stateConflict => 0x08000022
  | .hardware => 0x06060000
  | .timeout => 0x05040000
  | .serviceRestart => 0x0A7D0001
  | .protectedWrite => 0x0A7D0002
  | .observation => 0x0A7D0005
  | .storeCondition => 0x0A7D0003
  | .badSignature => 0x08000020

/-- Transfer fields of an in-band response (R333). -/
def Reply.fields (r : Reply) (tag : BitVec 16) : List Byte :=
  leBytes 1 (if r.write then 0x82 else 0x81) ++ leBytes 1 (if r.final then 1 else 0) ++ leBytes 2 tag.toNat
    ++ leBytes 2 r.idx ++ leBytes 1 r.sub
    ++ leBytes 1 ((if r.abort.isSome then 1 else 0) + (if r.late then 0x80 else 0)) ++ leBytes 2 r.inst ++ leBytes 2 0
    ++ leBytes 4 r.off ++ leBytes 4 r.data.length ++ leBytes 4 ((r.abort.map Abort.code).getD 0) ++ leBytes 4 r.total

/-- A response goes back by the path of its request; in-band, to the source module as a type-0 packet (R327, R333). -/
def State.answer (s : State) (r : Reply) : State :=
  let s := s.reply r
  match r.path with
  | .coe => s
  | .inband src tag _ _ fromHost _ =>
    s.sendLocal ⟨{ vc := 0, layer := false, ty := 0, slots := if r.data.length ≤ 64 then 0 else (r.data.length + 127) / 128,
                   dst := src, src := s.moduleId, job := 0,
                   fromHost := fromHost, toHost := fromHost }, r.fields tag, r.data⟩

/-- The responses of open transactions that p names are sent with an abort; an open segmented transfer is told at its next
segment (R330). -/
def State.abortOpens (s : State) (p : Path → Bool) (a : Abort) : State :=
  let s : State := (s.opens.filter (fun o => p o.path)).foldl (fun s o =>
    s.answer { path := o.path, write := o.read.isNone, idx := o.idx, sub := o.sub, inst := o.inst, abort := some a }) s
  let die (g : Segment) : Segment := if p g.path then { g with dead := true } else g
  { s with opens := s.opens.filter (fun o => !p o.path), segments := s.segments.map die, reads := s.reads.map die }

def isCoe (p : Path) : Bool := p = .coe

/-- The responses of the open transactions of an object are sent. -/
def State.closeOpens (s : State) (idx sub : Nat) (a : Option Abort) : State :=
  let mine (o : Open) : Bool := o.idx = idx && o.sub = sub
  let s : State := (s.opens.filter mine).foldl (fun s o =>
    s.answer { path := o.path, write := true, idx := o.idx, sub := o.sub, inst := o.inst, abort := a }) s
  { s with opens := s.opens.filter (fun o => !mine o) }

/-! Core restarts (R392–R394). -/

/-- A core runs again. -/
def State.coreUp (s : State) (c : Nat) : State :=
  let x := s.core c
  let s := s.setCore c { x with down := false, restarts := s.tick :: x.restarts }
  let s : State := if c = 0 then { s.records s.hwbuf with hwbuf := [] } else s
  let s := (s.raise 0x8010 c 0 (leBytes 1 x.cause ++ leBytes 4 x.took)).tracePoint 0 c 0
  if c = 0 then ((s.flushCompletions s.waiting.length)).endFull.takeCommands
  else if c = 1 then
    -- commands that hardware completed meanwhile (R393)
    let s := (s.taken.filter (fun t => t.ended.isSome)).foldl (fun s t => s.finish t (t.ended.getD 0) 0xFFFF) s
    -- and microcode that waited for it (R376)
    let rs := (s.regions.filter (fun e => e.2.micro = 2)).map (·.1)
    (rs.foldl State.microAgain s).takeCommands
  else if c = 2 then s.applyRegions
  else if c = 3 then s.trainWaiting
  else s

/-- Cores whose restart time has passed run again. -/
def State.coresDue (s : State) : State :=
  (List.range 4).foldl (fun s c => if (s.core c).down && (s.core c).upAt ≤ s.tick then s.coreUp c else s) s

/-- What restarts with a core (R384, R393). -/
def State.coreDown (s : State) (c : Nat) : State :=
  if c = 0 then s.abortOpens (fun _ => true) .serviceRestart
  else if c = 2 then s.applyRegions
  else if c = 3 then s.abortOpens isCoe .serviceRestart
  else s

/-- Ticks of 40 ms. -/
def restartLimit : Nat := 40 * msTicks

/-- R392, R394. -/
def execCoreWatchdogExpiry (core : Fin 4) (exception imageOk : Bool) (ticks : BitVec 32) (s : State) :
    Host.Outcome State Fault Refusal :=
  done (
    let c := core.val
    let x := s.core c
    if s.mstate = 4 || x.down then s
    else if 4 ≤ (x.restarts.filter (fun t => s.tick < t + 60000 * msTicks)).length then
      let other := s.obj 0x1012 1 0 = s.obj 0x1012 2 0
      let s := s.raise 0x8010 c 0 (leBytes 1 3 ++ leBytes 4 0)
      { s.resetModule 4 with otherSlot := other }
    else
      let took := min ticks.toNat restartLimit
      let y : Core :=
        { x with down := true, upAt := s.tick + took, took, cause := if !imageOk then 2 else if exception then 1 else 0 }
      ((s.setCore c y).coreDown c).coresDue)

/-- One cycle of the mesh and what falls due in it: idle frames, and by the reference tick rails that come up or go down, cores
that run again and commands that waited (R184, R295, R346, R364, R392). -/
def State.cycle (s : State) : State :=
  let s := s.meshCycle.idleFrames
  if s.now % 32 = 0 then s.railsDue.downDue.coresDue.takeCommands else s

/-! The flash (R338–R340, R395). -/

/-- The boot ROM's recovery profile (R414). -/
def State.recovery (s : State) : Bool := s.security = 3 && !s.sec.stage1

/-- Start condition of R339: no region power transition runs, or is requested behind a move that does. -/
def State.storeReady (s : State) : Bool :=
  40000 ≤ s.power.mV && s.power.mV ≤ 44000 && !s.boot.active
    && !s.move.any (fun m => m.target = 3 || s.obj 0x2001 1 0 = 3)
    && !s.regions.any (fun e => e.2.st = .powering)

/-- A write that hands an operation to the flash: the next state, or the abort. -/
def State.startFlash (s : State) (needsReady : Bool) (op : FlashOp) : Attempt :=
  if s.flash.isSome then .error .stateConflict
  else if needsReady && !s.storeReady then .error .storeCondition
  else
    let st := match op with
      | .store _ => 1
      | .restore _ => 2
      | .image _ _ => 0
    .ok { s.setObj 0x1010 3 0 st with flash := some op }

def storeSig : Nat := 0x7065656B
def loadSig : Nat := 0x64616F6C

/-- A write to 0x1010:01–02. -/
def State.actStore (s : State) (all : Bool) (sig : Nat) : Attempt :=
  if sig != storeSig then .error .badSignature else s.startFlash true (.store all)

/-- A write to 0x1011:01–02. -/
def State.actRestore (s : State) (all : Bool) (sig : Nat) : Attempt :=
  if sig != loadSig then .error .badSignature else s.startFlash false (.restore all)

/-- The slot that an image is written to: the one not running (R395), or in the recovery profile, where none runs, the one that
it names (R414). It is invalid from the first byte on. -/
def State.actImage (s : State) (img : Image) : Attempt :=
  let other := 1 - s.obj 0x1012 1 0
  let k := if s.recovery then (img.slot.map (·.val)).getD other else other
  match s.startFlash true (.image (Fin.ofNat 2 k) img) with
  | .error a => .error a
  | .ok s =>
    .ok (if k = 0 then { s with slotA := { s.slotA with valid := false } } else { s with slotB := { s.slotB with valid := false } })

/-- Values of a scope are saved. -/
def State.save (s : State) (all : Bool) : StoreArea :=
  let mine (k : Nat) : Bool := isStored all (k / 2 ^ 24) (k / 2 ^ 16 % 256)
  let a := s.saved
  { a with
    values := (a.values.filter (fun e => !mine e.1)) ++ s.dict.filter (fun e => mine e.1),
    blobs := (a.blobs.filter (fun e => !mine e.1)) ++ s.blobs.filter (fun e => mine e.1),
    tables := s.tables, all := all || a.all, link := true, crcBad := false }

/-- A written image is verified against both signatures and the floor (R395). -/
def State.imageDone (s : State) (slot : Nat) (img : Image) : State × Option Abort :=
  match imageFails 0 (img.sigs :: img.more) (decide (img.version.toNat < s.obj 0x3040 1 0)) with
  | [] =>
    let x : FwSlot := { valid := true, version := img.version, parts := img.parts, measures := img.measures }
    (if slot = 0 then { s with slotA := x } else { s with slotB := x }, none)
  | fs => (s.tellImages slot fs, some .badSignature)

/-- R338–R340, R395: the operation ends and its response is sent. -/
def execStoreComplete (s : State) : Host.Outcome State Fault Refusal :=
  done (
    let s' : State := { s.setObj 0x1010 3 0 0 with flash := none }
    match s.flash with
    | none => s
    | some (.store all) => { s' with saved := s.save all }.closeOpens 0x1010 (if all then 1 else 2) none
    | some (.restore all) =>
      { s' with saved := { s.saved with all := s.saved.all && !all, link := false } }.closeOpens 0x1011 (if all then 1 else 2) none
    | some (.image slot img) =>
      let r := s'.imageDone slot.val img
      r.1.closeOpens 0x1012 6 r.2)

end Sys2Proof.Machine
end

