-- ==== Sys2Proof/Machine/Security.lean ====
section
/-! DEFINITION. Security (R399–R409, R411, R414): provisioning and enrolment records, owner tokens, the observation lock,
attestation, the trace enable and trace ring. Results of verifications are operands of the typed commands. -/
namespace Sys2Proof.Machine

/-- Outcome of a write whose refusal leaves traces: the next state and the abort. -/
abbrev Result := State × Option Abort

def State.serial (s : State) : Nat := s.obj 0x1018 4 0

/-- Source of E9040: the sub-port on which the request came, or the module. -/
def pathSrc : Path → Nat
  | .coe => srcModule
  | .inband _ _ p b _ _ => 8 * p.val + b.val

/-- E9040 (R422). -/
def State.tellRefused (s : State) (rq : Path) (cause idx sub inst : Nat) : State :=
  s.raise 0x9040 (pathSrc rq) 0 (leBytes 1 cause ++ leBytes 2 idx ++ leBytes 1 sub ++ leBytes 2 inst ++ [0])

/-! Into QUARANTINE and RETIRED (R407). -/

/-- The wafer goes down: from M0–M2 through the transition of R364, a running turnover failing at its next boundary. -/
def State.securityDown (s : State) : State :=
  if s.boot.active then s.enterM3 4
  else if s.mstate < 3 then
    let s : State := { s with
      move := some { target := 3, cause := 4, since := s.tick }, turn := s.turn.map (fun t => { t with aborted := true, result := 2 }) }
    s.stopAll 6
  else s.eraseKeys

/-! Records (R402, R405). -/

/-- SX takes a token or record to verify. It has ended by the next reference tick (R406 gives it 40 ms); one that comes
before ends with the state-conflict abort (R407; log entry 47). -/
def State.verifying (s : State) (f : State → Result) : Result :=
  if s.sec.verifyAt = some s.tick then (s, some .stateConflict)
  else f { s with sec := { s.sec with verifyAt := some s.tick } }

/-- A provisioning record. -/
def State.actRecord (s : State) (rq : Path) (r : ProvRecord) : Result :=
  s.verifying (fun s =>
    let newer : Bool := match s.sec.record with
      | some old => old.version.toNat < r.version.toNat
      | none => true
    if !(s.ownerKeys r.rsaKey r.slhKey && r.sigs.rsa && r.sigs.slh)
        || !(r.serial = 0 || r.serial.toNat = s.serial) || !newer then
      (s.tellRefused rq 2 0x3100 0x11 0, some .badSignature)
    else if s.flash.isSome then (s, some .stateConflict)
    else if !s.storeReady then (s, some .storeCondition)
    else ({ s with sec := { s.sec with record := some r } }, none))

/-- An enrolment record, or the vendor's retire record, in MFG and M3. -/
def State.actEnrol (s : State) (r : EnrolRecord) : Result :=
  if s.mstate != 3 || s.security != 0 then (s, some .stateConflict)
  else s.verifying (fun s =>
    if !(r.sigs.rsa && r.sigs.slh) || r.serial.toNat != s.serial then (s, some .badSignature)
    else if r.retire then ((s.setSecurity 4 0xFF 5).securityDown, none)
    else (((s.setObj 0x3100 3 0 1).setBlob 0x3100 4 0 (r.digests.take 96)).setSecurity 1 0xFF 0, none))

/-! Owner tokens (R406). -/

/-- Kinds allowed from the present state (R405). -/
def State.kindAllowed (s : State) (kind : Nat) : Bool :=
  let st := s.security
  match kind with
  | 1 => st = 1 && s.obj 0x3030 2 0 = 1
  | 2 => st = 2
  | 3 => st = 1 || st = 2
  | 4 => st = 3 && s.obj 0x3100 2 0 = 2
  | _ => st != 4

/-- The first check that fails: codes of 0x3100:06, 0 for none. -/
def State.tokenResult (s : State) (kind : Nat) (k : Token) : Nat :=
  if !s.ownerKeys k.rsaKey k.slhKey then 1
  else if !(k.sigs.rsa && k.sigs.slh) then 2
  else if k.serial.toNat != s.serial then 3
  else if k.counter.toNat != (s.obj 0x3100 5 0 + 1) % 2 ^ 32 then 4
  else if !s.kindAllowed kind then 5
  else 0

/-- A token is refused, or its transition follows. -/
def State.actToken (s : State) (rq : Path) (kind : Nat) (k : Token) : Result :=
  s.verifying (fun s =>
    let r := s.tokenResult kind k
    let s := s.setObj 0x3100 6 0 r
    if r != 0 then (s.tellRefused rq 3 0x3100 0x12 0, some (if r = 5 then .stateConflict else .badSignature))
    else
      let s := s.setObj 0x3100 5 0 k.counter.toNat
      (match kind with
        | 1 => (s.setSecurity 2 0xFF 1).raise 0x9030 srcModule 0 (leBytes 4 k.counter.toNat)
        | 2 => s.setSecurity 1 0xFF 2
        | 3 => (s.setSecurity 3 2 3).securityDown
        | 4 => s.setSecurity 1 0xFF 4
        | _ => (s.setSecurity 4 0xFF 5).securityDown, none))

/-- A write of 1 to 0x3100:13 (R405). -/
def State.actObservationLock (s : State) (v : Nat) : Attempt := .ok (if v = 1 then s.leaveObserved 2 else s)

/-! Attestation (R408, R409). -/

/-- The 576 bytes of the report body, captured now. -/
def State.reportBody (s : State) (nonce : List Byte) : List Byte :=
  let fit (n : Nat) (b : List Byte) : List Byte := b.take n ++ List.replicate (n - b.length) 0
  leBytes 4 1 ++ leBytes 4 s.serial ++ leBytes 4 (if s.w1s then 0x102 else 0x101) ++ leBytes 1 s.security
    ++ leBytes 1 (s.obj 0x9100 1 0) ++ leBytes 1 s.mstate ++ leBytes 1 (s.obj 0x1012 1 0) ++ fit 32 nonce
    ++ leBytes 4 (s.obj 0x3040 1 0) ++ leBytes 4 (s.obj 0x1030 3 0) ++ leBytes 4 (s.obj 0x1F80 2 0) ++ leBytes 4 0
    ++ fit 336 s.running.measures ++ fit 48 (s.blob 0x1030 4 0) ++ fit 48 (s.blob 0x1F80 1 0)
    ++ fit 48 (s.blob 0x3050 1 0) ++ leBytes 8 s.tick ++ List.replicate 24 0

/-- A nonce write. keysOk: the identity keys pass SX's check (R400). -/
def State.actNonce (s : State) (nonce : List Byte) (keysOk : Bool) : Attempt :=
  if nonce.length != 32 then .error .length
  else if s.obj 0x3200 3 0 = 1 || s.security = 4
      || (s.security = 3 && (s.obj 0x3100 2 0 = 1 || !s.sec.stage1)) then .error .stateConflict
  else if !keysOk then
    .ok (s.bootQuarantine 1 7).securityDown
  else
    .ok { (s.setBlob 0x3200 1 0 nonce).setObj 0x3200 3 0 1 with sec := { s.sec with signing := some (s.reportBody nonce) } }

/-- R408: both signatures are free bytes (log entry 5). -/
def execAttestationSigned (s : State) : Host.Outcome State Fault Refusal :=
  done (
    match s.sec.signing with
    | none => s
    | some body =>
      let d := s.drawBytes (384 + 16224)
      { (d.2.setBlob 0x3200 2 0 (body ++ d.1)).setObj 0x3200 3 0 2 with sec := { s.sec with signing := none } })

/-! Trace (R411). -/

/-- A write to 0x9100:01. -/
def State.actTrace (s : State) (v : Nat) : Attempt :=
  if 1 < v then .error .valueRange
  else if v = 1 && (s.security = 1 || 3 ≤ s.security || 3 ≤ s.mstate) then .error .stateConflict
  else .ok (s.setObj 0x9100 1 0 v)

/-- Records of the ring up to the first that still waits in a buffer (R412). -/
def State.traceDone (s : State) : Nat :=
  (s.traceBufs.flatMap (fun b => b.2.map (·.1))).foldl min s.trace

/-- The trace ring in record order, from its oldest record. -/
def State.traceRing (s : State) : List Byte :=
  let n := min s.traceDone (s.traceBytes / 64)
  (List.range n).flatMap (fun k => let i := s.traceDone - n + k; s.bytes (.stack (Fin.ofNat 32 i)) (s.traceAt i) 64)

/-! The event ring and the log (R421). -/

/-- A continuation at the start is skipped, unless its first record is there too: then both are returned. -/
def startAt (all : List Record) (i : Nat) : Nat :=
  if (all[i]?).any (·.cont) then (if i = 0 then 1 else i - 1) else i

/-- The records of a ring, newest first, of which `total` have been written, from a read index. -/
def eventRead (newest : List Record) (total idx : Nat) : List Byte :=
  let all := newest.reverse
  let oldest := total - all.length
  if total ≤ idx then leBytes 8 idx
  else
    let i := startAt all (max idx oldest - oldest)
    leBytes 8 (oldest + i) ++ ((all.drop i).take 4096).flatMap Record.bytes

end Sys2Proof.Machine
end

