-- ==== Sys2Proof/Machine/Objects.lean ====
section
/-! DEFINITION. What a read of each object returns (R323–R326, R329, R332, R336, R437, and the object tables of every
chapter): held values, and values that follow from the condition of a block. -/
namespace Sys2Proof.Machine

/-! The module (0x1000–0x3FFF). -/

/-- The TxPDO mapping (R437). -/
def txMap : List Nat :=
  [0x20000108, 0x31000108, 0x20100110, 0x10300110, 0x20200110, 0x20200210, 0x20200310, 0x20200408, 0x00000008,
   0x20100210, 0x20100310, 0x00000010, 0x20100440, 0x70000220]

/-- Powered regions. -/
def State.poweredRegions (s : State) : List Nat := (List.range 48).filter (fun r => (s.region r).netUp)

/-- The hottest powered region, the lowest among equals; region 0 where none is powered. -/
def State.hottest (s : State) : Nat :=
  match s.poweredRegions with
  | [] => 0
  | r :: rs => rs.foldl (fun a b => if (s.region a).temp < (s.region b).temp then b else a) r

def bitIf (b : Bool) (i : Nat) : Nat := if b then 2 ^ i else 0

/-- TxPDO flags (R332). -/
def State.txFlags (s : State) : Nat :=
  bitIf (0 < s.power.cap) 0 + bitIf (s.power.halfDown.contains 0) 1 + bitIf (s.power.halfDown.contains 1) 2
    + bitIf (s.obj 0x2200 5 0 = 1) 3 + bitIf (s.poweredRegions.any (fun r => 1 ≤ (s.region r).level)) 4
    + bitIf (s.obj 0x1010 3 0 = 1) 5 + bitIf s.turn.isSome 6 + bitIf (s.security = 0 || s.security = 2) 7

/-- State of partition n at [4n + 3 : 4n]. -/
def State.partStates (s : State) : Nat := ((List.range 16).map (fun p => s.pstate p % 16 * 16 ^ p)).sum

/-- 0x2020:07 (R359). -/
def State.halfState (s : State) : Nat :=
  bitIf (s.power.halfDown.contains 0) 0 + bitIf (s.power.halfDown.contains 1) 1 + s.halfCauses 0 * 4 + s.halfCauses 1 * 32

/-- Version of a slot; 0 while invalid. -/
def FwSlot.shown (x : FwSlot) : Nat := if x.valid then x.version.toNat else 0

def State.readModule (s : State) (idx sub : Nat) : Nat :=
  if idx = 0x1012 && (sub = 3 || sub = 4) then (s.slot (sub - 3)).shown
  else if idx = 0x1012 && sub = 5 then bitIf s.slotA.valid 0 + bitIf s.slotB.valid 1
  else if idx = 0x1018 && sub = 2 then (if s.w1s then 0x102 else 0x101)
  else if idx = 0x1018 && sub = 3 then 0x00B00000 + s.running.version.toNat / 2 ^ 24
  else if idx = 0x1020 then s.partVersion (sub - 1)
  else if idx = 0x1A00 then txMap.getD (sub - 1) 0
  else if idx = 0x2010 then
    (if sub = 1 then s.txFlags else if sub = 2 then s.obj 0x9000 1 0 % 65536
     else if sub = 3 then (s.ring.head?.map (·.code)).getD 0 else s.partStates)
  else if idx = 0x2020 && sub = 3 then twos 16 (s.region s.hottest).temp
  else if idx = 0x2020 && sub = 4 then s.hottest
  else if idx = 0x2020 && sub = 7 then s.halfState
  else if idx = 0x2020 && sub = 8 then s.power.cap
  else if idx = 0x2130 then (s.relay (sub - 1)).shown
  else if idx = 0x2300 && sub = 5 then s.ringFree
  else if idx = 0x6900 && sub = 6 then s.snapshotState
  else if idx = 0x6900 && sub = 8 then s.imageSize (s.obj 0x6900 4 0)
  else s.obj idx sub 0

/-! Regions (R22, R183, R345–R360, R369, R371). -/

def Region.code (g : Region) : Nat :=
  match g.st with
  | .off => 0
  | .powering => 1
  | .running => if g.stops = [] then 2 else 3
  | .railOff => 4
  | .offT4 => 5
  | .latched => 6
  | .dead => 7

def Pass.code : Pass → Nat
  | .idle => 0
  | .pending => 1
  | .running _ => 2

def Region.sensor (g : Region) (i : Nat) : Nat :=
  match g.sensors[i]? with
  | some v => if sensorOk v then twos 16 v else 0x8000
  | none => 0

def State.countIn (s : State) (r st : Nat) : Nat := ((regionTiles r).filter (fun t => s.floorOf t = st)).length

def State.readRegion (s : State) (idx sub r : Nat) : Nat :=
  let g := s.region r
  if idx = 0x4010 then
    (if sub = 1 then g.code
     else if sub = 2 then g.failed
     else if sub = 3 then (if g.isOff then 0 else s.stepShown r)
     else if sub = 4 then (if g.st = .running then g.mv else 0)
     else if sub = 5 then (if !g.netUp then 0 else (Config.regionPower r s.now).toNat)
     else if sub = 6 then g.level + g.thermal * 8
     else s.obj idx sub r)
  else if idx = 0x4020 && 1 ≤ sub && sub ≤ 0x11 then
    (if !g.netUp then 0x8000 else if sub = 0x11 then twos 16 g.temp else g.sensor (sub - 1))
  else if idx = 0x4030 then (if !g.netUp then 0 else if sub = 1 then g.netDiv else g.div)
  else if idx = 0x4040 && sub = 2 then g.retrain.code + bitIf g.retrainBad 7
  else if idx = 0x4040 && sub = 5 then bitIf g.clearing.isSome 0
  else if idx = 0x4800 && 2 ≤ sub && sub ≤ 5 then s.countIn r (sub - 2)
  else if idx = 0x4800 && sub = 8 then g.attempts
  else s.obj idx sub r

/-! Tiles (R82, R89, R111, R132, R164, R205, R262, R376). -/

/-- 0x5010:10 (R89): a pass or operation that has halted keeps its engine, one that is suspended has given it up (R123). -/
def Tile.activity (x : Tile) : Nat :=
  let ops := x.ops.filter (fun o => match o.late with
    | .suspended _ => false
    | _ => true)
  let arrayBusy (a : Nat) : Bool := ops.any (fun o => match o.kind with
    | .stream b .. => b.val = a
    | .drain b .. => b.val = a
    | _ => false)
  let vectorBusy : Bool := ops.any (fun o => o.kind.isVector)
  ((List.range 3).map (fun a => bitIf (arrayBusy a) a + bitIf ((x.array a).shadow.isSome && !(x.array a).loading) (a + 4))).sum
    + bitIf vectorBusy 3

/-- 0x5010:11. -/
def State.vaultState (s : State) (t : Nat) : Nat :=
  let g := s.region (regionOf t)
  if g.computeOff && g.netUp then 3
  else if !s.vaultUsable t || !g.vaultsUp || s.inReset t then 1
  else if g.retraining then 2
  else 0

/-- 0x5010:13. -/
def State.guardState (s : State) (t : Nat) : Nat :=
  (match (s.tile t).guard with
    | some g => bitIf g.on 0 + (if g.on then g.level % 4 * 2 else 0)
    | none => 0) + bitIf (s.tile t).overflow 3 + bitIf (s.cold t) 4

def roleCode : Role → Nat
  | .idle => 0
  | .forward => 1
  | .dataGrad => 2
  | .weightGrad => 3

def State.readTile (s : State) (idx sub t : Nat) : Nat :=
  let x := s.tile t
  if idx = 0x5000 && sub = 0x10 then ((List.range 3).map (fun a => roleCode (x.array a).role * 4 ^ a)).sum
  else if idx = 0x5010 then
    (if sub = 1 then ((List.range 8).map (fun c => x.ctxCode c * 4 ^ c)).sum
     else if sub = 0x10 then x.activity
     else if sub = 0x11 then s.vaultState t
     else if sub = 0x12 then bitIf x.poison 0
     else if sub = 0x13 then s.guardState t
     else s.mcState t)
  else if idx = 0x5300 && sub = 3 then
    (let p := s.obj 0x5300 1 t
     let n := s.obj 0x5300 2 t
     let e := ((s.router t).entry p n).toNat
     -- the tree of step 11 (R376)
     if e = 0 && p = 0 && n = 0 && s.boot.active && s.microRuns then (s.treeEntry t).toNat else e)
  else if idx = 0x5300 && sub = 4 then ((s.router t).dead.eraseDups.map (2 ^ ·)).sum
  else if idx = 0x5300 && sub = 7 then
    (let g := s.region (regionOf t)
     if g.netUp then 0 else if g.st = .latched then 2 else 1)
  else s.obj idx sub t

/-! Ports (R288–R310). -/

def State.readPort (s : State) (idx sub p : Nat) : Nat :=
  if idx = 0x6000 && sub = 4 then bitIf (2 ≤ s.obj 0x6000 2 p) 0
  else if idx = 0x6010 && sub = 1 then
    ((List.range (s.subCount p)).map (fun b => (if s.obj 0x6000 1 p = 1 then (s.sub p b).st % 16 else 6) * 16 ^ b)).sum
  else if idx = 0x6010 && sub = 3 then bitIf (s.port p).quiesced 0
  else if idx = 0x6010 && sub = 4 then
    ((List.range 8).map (fun b => bitIf ((s.sub p b).isUp && s.digestsMatch p b) b)).sum
  else if idx = 0x6010 && sub = 6 then ((List.range 8).map (fun b => bitIf (s.jobsOn p b != []) b)).sum
  else if idx = 0x6100 && sub = 2 then (s.tableEntry p (s.obj 0x6100 1 p)).toNat
  else s.obj idx sub p

/-! Engines (R184, R218, R221, R235, R244). -/

/-- The admitted job that gives an engine its sluice and journal. -/
def State.engineJob (s : State) (e : Nat) : Option EnginePlan :=
  s.admittedJobs.findSome? (fun x => planEngine x.2 e)

/-- 0x6830:02: the channel last named, and its pass. -/
def Engine.passShown (x : Engine) : Nat :=
  x.retrainCh % 16 + (x.pass x.retrainCh).code * 16 + bitIf x.retrainBad 7

def State.readEngine (s : State) (idx sub e : Nat) : Nat :=
  let x := s.engine e
  let plan (f : EnginePlan → Nat) : Nat := ((s.engineJob e).map f).getD 0
  if idx = 0x6800 && sub = 2 then plan (·.sluice)
  else if idx = 0x6800 && sub = 3 then plan (·.journal)
  else if idx = 0x6810 then
    (if sub = 1 then (if x.failed then 3 else x.st)
     else if sub = 2 then (s.admittedJobs.map (fun j => (s.ownedBy j.2 e).length)).sum
     else x.busy)
  else if idx = 0x6830 && sub = 2 then x.passShown
  else if idx = 0x6840 && sub = 1 then plan (·.size)
  else if idx = 0x6840 && sub = 2 then plan s.sluiceFree
  else s.obj idx sub e

/-! Counters (R336, R337). -/

/-- The region of a tile counter block, or 48 for a block of the edge; none for the region power counters. -/
def counterPlace (idx inst : Nat) : Option Nat :=
  if idx = 0x7600 then none
  else if idx = 0x7200 || idx = 0x7300 || idx = 0x7400 then some (regionOf inst)
  else some 48

def counterBlock (idx inst : Nat) : CounterBlock :=
  if idx = 0x7600 then .region (Fin.ofNat 48 inst)
  else if idx = 0x7500 then .port (Fin.ofNat 6 inst)
  else if idx = 0x7430 then .relays
  else if kindOf idx = .tile then .tile (Fin.ofNat 6912 inst)
  else .engine (Fin.ofNat 32 inst)

/-- Sub-index n reads the holding value, n + 0x80 the live value, 0x7F the latch count: all ones for a block that the
last snapshot found unpowered. -/
def State.readCounter (s : State) (idx sub inst : Nat) : Nat :=
  if 0x80 ≤ sub then s.count idx (sub - 0x80) inst
  else if sub = 0x7F && (counterPlace idx inst).any s.missed.contains
      && !(s.obj 0x7000 4 0 = 1 && s.latching.contains (counterBlock idx inst)) then 2 ^ 64 - 1
  else mget 0 s.latched (okey idx sub inst)

/-! Every value of up to 8 bytes. -/

def State.readNum (s : State) (idx sub inst : Nat) : Nat :=
  if sub = 0 then (if (rowOf idx 0).isSome then s.obj idx 0 0 else highestSub idx)
  else if isCounter idx then s.readCounter idx sub inst
  else match kindOf idx with
    | .none => s.readModule idx sub
    | .region => s.readRegion idx sub inst
    | .tile => s.readTile idx sub inst
    | .port => s.readPort idx sub inst
    | .portOrLocal => s.readPort idx sub inst
    | .engine => s.readEngine idx sub inst

/-! Longer values. -/

def fit (n : Nat) (b : List Byte) : List Byte := b.take n ++ List.replicate (n - b.length) 0

/-- Self-test findings of a region: all ones before the self-test. -/
def State.foundBytes (s : State) (r : Nat) : List Byte :=
  match s.findings with
  | none => List.replicate 36 0xFF
  | some m => stateBytes (fun t => unitState (mget 0 m t % 8)) r

def State.lanes (s : State) (p : Nat) : List Byte :=
  (List.range 16).map (fun g =>
    if (List.range 8).any (fun b => (s.sub p b).isUp && (s.sub p b).groups.contains g) then 0xFF else 0)

/-- The held-on-norm list: 32 bytes for each entry (R240). -/
def State.normList (s : State) (e : Nat) : List Byte :=
  match s.engineJob e with
  | none => []
  | some ep => (s.entriesOf ep 2).flatMap (fun x =>
      fit 32 (leBytes 4 x.2.stamp.toNat ++ leBytes 4 (blockIdent x.2.group x.2.block) ++ leBytes 5 x.2.q ++ [0, 0, 0]
        ++ leBytes 4 x.1))

def State.readLong (s : State) (idx sub inst : Nat) : List Byte :=
  if idx = 0x1008 then asciiBytes ['P', 'e', 'r', 'u', 'n', 'e', ' ', 'W', '1']
  else if idx = 0x1009 then asciiBytes ['B', '0']
  else if idx = 0x100A then s.release
  else if idx = 0x1F80 then s.ownDigest
  else if idx = 0x2000 && sub = 5 then
    (List.range 4).map (fun c => if (s.core c).down then 1 else 0) ++ [0]
  else if idx = 0x2000 && sub = 6 then (List.range 4).flatMap (fun c => leBytes 4 (s.core c).restarts.length)
  else if idx = 0x4800 && sub = 1 then stateBytes s.floorOf inst
  else if idx = 0x4800 && sub = 6 then stateBytes (fun t => unitState (s.fuse t)) inst
  else if idx = 0x4800 then s.foundBytes inst
  else if idx = 0x5010 && sub = 2 then (List.range 8).map (fun c => BitVec.ofNat 8 ((s.tile inst).ctx c).fault)
  else if idx = 0x5010 then (List.range 8).flatMap (fun c => leBytes 4 ((s.tile inst).ctx c).faddr)
  else if idx = 0x5200 then
    (let h := mget {} (s.tile inst).hist (sub - 0x11)
     (List.range 70).flatMap (fun b => leBytes 4 (mget 0 h.counts b)))
  else if idx = 0x6010 && sub = 2 then s.lanes inst
  else if idx = 0x6840 && sub = 3 then
    (match s.engineJob inst with
      | none => []
      | some ep => [1, 2, 3, 4].flatMap (fun k => leBytes 4 ((s.sluiceUsed ep).filter (fun x => x.2 = k)).length))
  else if idx = 0x6840 then s.normList inst
  else if idx = 0x9000 && sub = 3 then eventRead s.ring (s.obj 0x9000 1 0) (s.obj 0x9000 2 0)
  else if idx = 0x9000 then eventRead s.log (s.obj 0x9000 6 0) (s.obj 0x9000 4 0)
  else if idx = 0x9100 then s.traceRing
  else s.blob idx sub inst

/-- The bytes that a read returns, in the form of the object's type (R325). -/
def State.readBytes (s : State) (ty : OTy) (idx sub inst : Nat) : List Byte :=
  match ty with
  | .str => s.readLong idx sub inst
  | .domain => s.readLong idx sub inst
  | .oct n => fit n (s.readLong idx sub inst)
  | .bool => leBytes 1 (s.readNum idx sub inst)
  | .u n => leBytes n (s.readNum idx sub inst)
  | .i16 => leBytes 2 (s.readNum idx sub inst)
  | .f32 => leBytes 4 (s.readNum idx sub inst)

/-- Stack bytes that the service side reads for a DOMAIN value. -/
def State.domainRange (s : State) (idx sub inst : Nat) : List (EngineId × Nat × Nat) :=
  if idx = 0x9100 && sub = 0x10 then (allFin 32).map (fun e => (e, 0x17F0000000, s.traceBytes / 32))
  else if idx = 0x6840 && sub = 4 then
    (match s.engineJob inst with
      | none => []
      | some ep => [(ep.engine, headAddr ep 0, 64 * sluiceEntries ep)])
  else []

/-- A DOMAIN value lies in stack words behind a channel that retrains: its read waits (R184). -/
def State.domainWaits (s : State) (idx sub inst : Nat) : Bool :=
  (s.domainRange idx sub inst).any (fun x => s.chanBusy x.1.val x.2.1 x.2.2)

/-- A read: the words behind a DOMAIN value are checked, and poisoned data ends it (R179, R330). -/
def State.readObject (s : State) (ty : OTy) (idx sub inst : Nat) : State × Except Abort (List Byte) :=
  let rs := s.domainRange idx sub inst
  let s := rs.foldl (fun s x => s.touch (.stack x.1) x.2.1 x.2.2 7) s
  if idx = 0x3200 && sub = 2 && s.obj 0x3200 3 0 = 1 then (s, .error .stateConflict)
  else if rs.any (fun x => s.anyMarked (.stack x.1) x.2.1 x.2.2) then (s, .error .hardware)
  else (s, .ok (s.readBytes ty idx sub inst))

end Sys2Proof.Machine
end

