-- ==== Sys2Proof/Machine/Signature.lean ====
section
/-! DEFINITION. The two signature checks of R399: RSASSA-PSS with a 3,072-bit modulus, and SLH-DSA-SHA2-192s. The schemes are
those of RFC 8017 and FIPS 205, which R399 names (log entry 7). -/
namespace Sys2Proof.Machine

/-! SHA-512 shares its rounds with SHA-384; SHA-256 takes the upper halves of its constants. -/

def sha512Init : List (BitVec 64) :=
  [0x6A09E667F3BCC908, 0xBB67AE8584CAA73B, 0x3C6EF372FE94F82B, 0xA54FF53A5F1D36F1, 0x510E527FADE682D1,
   0x9B05688C2B3E6C1F, 0x1F83D9ABFB41BD6B, 0x5BE0CD19137E2179]

def sha512 (bs : List Byte) : List Byte := (shaWords sha512Init bs).flatMap (fun w => beBytes 8 w.toNat)

def upper (w : BitVec 64) : BitVec 32 := BitVec.ofNat 32 (w.toNat / 2 ^ 32)

/-- The 64 words of the schedule, newest first, from the 16 of a block. -/
def sha256Schedule : Nat → List (BitVec 32) → List (BitVec 32)
  | 0, ws => ws
  | n + 1, ws =>
    let w (i : Nat) : BitVec 32 := ws.getD (i - 1) 0
    let s0 := (w 15).rotateRight 7 ^^^ (w 15).rotateRight 18 ^^^ (w 15 >>> 3)
    let s1 := (w 2).rotateRight 17 ^^^ (w 2).rotateRight 19 ^^^ (w 2 >>> 10)
    sha256Schedule n ((w 16 + s0 + w 7 + s1) :: ws)

def sha256Round (v : List (BitVec 32)) (kw : BitVec 32 × BitVec 32) : List (BitVec 32) :=
  match v with
  | [a, b, c, d, e, f, g, h] =>
    let s1 := e.rotateRight 6 ^^^ e.rotateRight 11 ^^^ e.rotateRight 25
    let t1 := h + s1 + ((e &&& f) ^^^ (~~~e &&& g)) + kw.1 + kw.2
    let s0 := a.rotateRight 2 ^^^ a.rotateRight 13 ^^^ a.rotateRight 22
    [t1 + (s0 + ((a &&& b) ^^^ (a &&& c) ^^^ (b &&& c))), a, b, c, d + t1, e, f, g]
  | v => v

def sha256Block (h : List (BitVec 32)) (bs : List Byte) : List (BitVec 32) :=
  let ws := (List.range 16).map (fun i => BitVec.ofNat 32 (beVal ((bs.drop (4 * i)).take 4)))
  let v := ((shaK.take 64).map upper |>.zip (sha256Schedule 48 ws.reverse).reverse).foldl sha256Round h
  (h.zip v).map (fun p => p.1 + p.2)

def sha256 (bs : List Byte) : List Byte :=
  let m := bs ++ [0x80] ++ List.replicate ((55 + 64 - bs.length % 64) % 64) (0 : Byte) ++ beBytes 8 (8 * bs.length)
  let h := (List.range (m.length / 64)).foldl (fun h i => sha256Block h ((m.drop (64 * i)).take 64)) (sha512Init.map upper)
  h.flatMap (fun w => beBytes 4 w.toNat)

/-- The mask generation function of RFC 8017 over a digest. -/
def mgf1 (hash : List Byte → List Byte) (seed : List Byte) (n : Nat) : List Byte :=
  ((List.range n).flatMap (fun i => if i * 32 < n then hash (seed ++ beBytes 4 i) else [])).take n

/-! RSASSA-PSS: SHA-384, MGF1 with SHA-384, a 48-byte salt, exponent 65,537. -/

/-- x^65537 mod n. -/
def rsaPower (n x : Nat) : Nat := ((List.range 16).foldl (fun y _ => y * y % n) (x % n)) * x % n

def rsaVerify (modulus msg sig : List Byte) : Bool :=
  let n := beVal modulus
  let x := beVal sig
  let em := beBytes 384 (rsaPower n x)
  let masked := em.take 335
  let h := (em.drop 335).take 48
  let db := masked.zipWith (· ^^^ ·) (mgf1 sha384 h 335)
  let top : Byte := db.headD 0 &&& 0x7F
  modulus.length = 384 && sig.length = 384 && 2 ^ 3071 ≤ n && x < n
    && em.getLast? = some 0xBC && (masked.headD 0).toNat < 0x80
    && top = 0 && (db.tail.take 285).all (· = 0) && db.getD 286 0 = 1
    && sha384 (List.replicate 8 0 ++ sha384 msg ++ db.drop 287) = h

/-! SLH-DSA-SHA2-192s: n 24, h 63, d 7, h' 9, a 14, k 17, w 16, m 39. -/

/-- A compressed address: layer, tree, type, and three words. -/
def adrs (layer tree ty a b c : Nat) : List Byte :=
  beBytes 1 layer ++ beBytes 8 tree ++ beBytes 1 ty ++ beBytes 4 a ++ beBytes 4 b ++ beBytes 4 c

def slhF (seed ad m : List Byte) : List Byte := (sha256 (seed ++ List.replicate 40 0 ++ ad ++ m)).take 24
/-- H and T. -/
def slhH (seed ad m : List Byte) : List Byte := (sha512 (seed ++ List.replicate 104 0 ++ ad ++ m)).take 24

/-- n digits of b bits, most significant first. -/
def digits (b n : Nat) (bs : List Byte) : List Nat :=
  let v := beVal bs
  (List.range n).map (fun i => v / 2 ^ (8 * bs.length - b * (i + 1)) % 2 ^ b)

def part (n i : Nat) (bs : List Byte) : List Byte := (bs.drop (n * i)).take n

/-- Climb from a node along an authentication path: `ad` gives the address of a height and index. -/
def slhClimb (seed : List Byte) (ad : Nat → Nat → List Byte) (auth : List Byte) (idx : Nat) (node : List Byte) (height : Nat) :
    List Byte :=
  (List.range height).foldl (fun node j =>
    let sib := part 24 j auth
    slhH seed (ad (j + 1) (idx / 2 ^ (j + 1))) (if idx / 2 ^ j % 2 = 0 then node ++ sib else sib ++ node)) node

/-- The WOTS+ public key that a signature leads to. -/
def slhWots (seed : List Byte) (layer tree key : Nat) (sig m : List Byte) : List Byte :=
  let msg := digits 4 48 m
  let sum := (msg.map (15 - ·)).sum * 16
  let ds := msg ++ digits 4 3 (beBytes 2 sum)
  let ends := ds.zipIdx.flatMap (fun x =>
    (List.range (15 - x.1)).foldl (fun v j => slhF seed (adrs layer tree 0 key x.2 (x.1 + j)) v) (part 24 x.2 sig))
  slhH seed (adrs layer tree 1 key 0 0) ends

/-- The root of one tree of the hypertree. -/
def slhTree (seed : List Byte) (layer tree leaf : Nat) (sig m : List Byte) : List Byte :=
  slhClimb seed (adrs layer tree 2 0) (sig.drop 1224) leaf (slhWots seed layer tree leaf sig m) 9

/-- The FORS public key that a signature leads to. -/
def slhFors (seed : List Byte) (tree leaf : Nat) (sig md : List Byte) : List Byte :=
  let roots := ((digits 14 17 md).zipIdx).flatMap (fun x =>
    let s := part 360 x.2 sig
    let i := x.2 * 2 ^ 14 + x.1
    slhClimb seed (adrs 0 tree 3 leaf) (s.drop 24) i (slhF seed (adrs 0 tree 3 leaf 0 i) (s.take 24)) 14)
  slhH seed (adrs 0 tree 4 leaf 0 0) roots

def slhVerify (key msg sig : List Byte) : Bool :=
  let seed := key.take 24
  let root := key.drop 24
  let r := sig.take 24
  let inner := sha512 (r ++ seed ++ root ++ [0, 0] ++ msg)
  let dg := mgf1 sha512 (r ++ seed ++ inner) 39
  let tree := beVal ((dg.drop 30).take 7) % 2 ^ 54
  let leaf := beVal ((dg.drop 37).take 2) % 2 ^ 9
  let fors := slhFors seed tree leaf ((sig.drop 24).take 6120) (dg.take 30)
  let top := (List.range 7).foldl (fun (x : List Byte × Nat × Nat) j =>
    (slhTree seed j x.2.1 x.2.2 (part 1440 j (sig.drop 6144)) x.1, x.2.1 / 2 ^ 9, x.2.1 % 2 ^ 9)) (fors, tree, leaf)
  key.length = 48 && sig.length = 16224 && top.1 = root

end Sys2Proof.Machine
end

