-- ==== Sys2Proof/Machine/Trans.lean ====
section
/-! DEFINITION. Transactions (R323–R335): who may reach an object, what a write to each object does, segments,
broadcasts and responses; and the counter snapshot (R336, R337). -/
namespace Sys2Proof.Machine

/-! The counter snapshot (R336, R337). -/

/-- A write to 0x7000:01. -/
def State.actStrobe (s : State) (v : Nat) : Attempt :=
  if v != 1 then .ok s
  else if s.obj 0x7000 4 0 = 1 then .error .stateConflict
  else .ok { (s.setObj 0x7000 3 0 s.tick).setObj 0x7000 4 0 1 with latching := [] }

/-- A block that takes part: its rail is on, and its tile is on the floor plan. -/
def State.latches (s : State) : CounterBlock → Bool
  | .tile t => (s.region (regionOf t.val)).netUp && s.floorOf t.val != 3
  | .region _ => true
  | _ => s.edgeUp

/-- EDGE cycles of a side (R352). -/
def State.edgeOf (s : State) (side : Nat) : Nat := mget 0 s.edges side

/-- Counter indexes and instances of a block, and the clock that it counts; the relays, four on each side, count the clock of
the side that has run longest (log entry 64). -/
def State.blockCounters (s : State) : CounterBlock → List (Nat × Nat × Nat)
  | .tile t => [(0x7200, t.val, s.coreOf t.val), (0x7300, t.val, s.netOf t.val), (0x7400, t.val, s.coreOf t.val)]
  | .engine e => [0x7410, 0x7420, 0x7440].map (fun i => (i, e.val, s.edgeOf (engineSide e.val)))
  | .port p => [(0x7500, p.val, s.edgeOf (portSide p.val))]
  | .relays => [(0x7430, 0, (List.range 4).foldl (fun m d => max m (s.edgeOf d)) 0)]
  | .region r => [(0x7600, r.val, s.tick)]

/-- Copy every live counter of an index and instance into its holding value, with the latch count. -/
def State.latchOne (s : State) (x : Nat × Nat × Nat) : State :=
  let subs := (List.range 0x7F).filter (fun b => b != 0 && (rowOf x.1 b).isSome)
  let m := subs.foldl (fun m b => mset (okey x.1 b x.2.1) (s.count x.1 b x.2.1) m) s.latched
  { s with latched := mset (okey x.1 0x7F x.2.1) x.2.2 m }

def execCounterLatch (b : CounterBlock) (s : State) : Host.Outcome State Fault Refusal :=
  done (
    if s.obj 0x7000 4 0 = 1 && s.latches b && !s.latching.contains b then
      { (s.blockCounters b).foldl State.latchOne s with latching := b :: s.latching }
    else s)

/-- Every block that takes part has latched. -/
def State.allLatched (s : State) : Bool :=
  let has (b : CounterBlock) : Bool := !s.latches b || s.latching.contains b
  (allFin 48).all (fun r => has (.region r) &&
    (!(s.region r.val).netUp || (regionTiles r.val).all (fun t => has (.tile (Fin.ofNat 6912 t)))))
  && (allFin 32).all (fun e => has (.engine e)) && (allFin 6).all (fun p => has (.port p)) && has .relays

def execSnapshotComplete (s : State) : Host.Outcome State Fault Refusal :=
  done (
    if s.obj 0x7000 4 0 = 1 && s.allLatched then
      { (s.setObj 0x7000 4 0 0).setObj 0x7000 2 0 (s.obj 0x7000 2 0 + 1) with
        latching := [],
        missed := (List.range 48).filter (fun r => !(s.region r).netUp) ++ (if s.edgeUp then [] else [48]) }
    else s)

/-! What a write does once its value has been accepted. -/

inductive Ending where
  | done
  | later                                     -- the response is sent when the operation ends (R327)
  | silent                                    -- the service die restarts
  | abort (a : Abort)
  deriving DecidableEq, Repr

abbrev Written := State × Ending

def attempt (s : State) : Attempt → Written
  | .ok t => (t, .done)
  | .error a => (s, .abort a)

def attemptLater (s : State) : Attempt → Written
  | .ok t => (t, .later)
  | .error a => (s, .abort a)

def fromResult (r : Result) : Written :=
  match r.2 with
  | none => (r.1, .done)
  | some a => (r.1, .abort a)

/-- Store a value as written. -/
def State.setValue (s : State) (ty : OTy) (idx sub inst : Nat) (data : List Byte) : State :=
  if ty.isNum then s.setObj idx sub inst (leVal data) else s.setBlob idx sub inst data

/-! Signed objects written as raw bytes. The token's layout is the spec's; those of the records and of an image are not
given (log entry 7). -/

/-- The owner token in 17,104 bytes, its signatures checked (R399, R406). -/
def tokenOf (bs : List Byte) : Token :=
  let rsaKey := (bs.drop 64).take 384
  let slhKey := (bs.drop 448).take 48
  let body := bs.take 496
  { rsaKey, slhKey, sigs := ⟨rsaVerify rsaKey body ((bs.drop 496).take 384), slhVerify slhKey body (bs.drop 880)⟩,
    serial := BitVec.ofNat 32 (bytesAt bs 4 4), counter := BitVec.ofNat 32 (bytesAt bs 8 4) }

/-- A write of a whole token; a reserved byte that is set, or a kind that the table does not give, is a value it does not
accept (R325). -/
def State.rawToken (s : State) (rq : Path) (bs : List Byte) : Written :=
  let kind := bytesAt bs 0 4
  if bs.length != 17104 then (s, .abort .length)
  else if kind = 0 || 5 < kind || !((bs.drop 12).take 52).all (· = 0) then (s, .abort .valueRange)
  else fromResult (s.actToken rq kind (tokenOf bs))

def State.rawRecord (s : State) (rq : Path) (bs : List Byte) : Written :=
  match Config.recordOf bs with
  | some r => fromResult (s.actRecord rq { r with bytes := bs })
  | none => (s.tellRefused rq 2 0x3100 0x11 0, .abort .badSignature)

def State.rawEnrol (s : State) (bs : List Byte) : Written :=
  match Config.enrolOf bs with
  | some r => fromResult (s.actEnrol r)
  | none => (s, .abort (if s.mstate != 3 || s.security != 0 then .stateConflict else .badSignature))

def State.rawImage (s : State) (bs : List Byte) : Written :=
  attemptLater s (s.actImage ((Config.imageOf bs).getD { version := 0, sigs := ⟨false, false⟩ }))

/-- A nonce with no word of how SX's check of its keys ends (R400). -/
def State.rawNonce (s : State) (bs : List Byte) : Written :=
  attempt s ({ s with free := s.free + 1 }.actNonce bs (Config.keyCheck s.free))

/-- Objects of the module. -/
def State.writeModule (s : State) (rq : Path) (ty : OTy) (idx sub : Nat) (data : List Byte) : Written :=
  let v := leVal data
  let keep := s.setValue ty idx sub 0 data
  if idx = 0x1010 then attemptLater s (s.actStore (sub = 1) v)
  else if idx = 0x1011 then attemptLater s (s.actRestore (sub = 1) v)
  else if idx = 0x1012 && sub = 2 then (if s.storeReady then (keep, .done) else (s, .abort .storeCondition))
  else if idx = 0x1012 then s.rawImage data
  else if idx = 0x1050 then
    (if (List.range 16).any (fun p => 2 ≤ s.pstate p) then (s, .abort .stateConflict) else (keep, .done))
  else if idx = 0x8010 then (s.setNext idx sub 0 v, .done)
  else if idx = 0x1F82 then (keep.refreshDigest, .done)
  else if idx = 0x2001 then attempt s (s.actRequest v)
  else if idx = 0x2003 && sub = 1 then
    (match s.actModuleReset v with
      | .ok t => (t, .silent)
      | .error a => (s, .abort a))
  else if idx = 0x2003 then attempt s (s.actEdgeReset v)
  else if idx = 0x2020 then (keep.noteHalves, .done)
  else if idx = 0x2110 && sub = 1 && s.turn.isSome then (s, .abort .stateConflict)
  else if idx = 0x2110 && sub = 3 then attempt s (s.actTurnover v)
  else if idx = 0x2200 && sub = 1 then attempt s (s.actLeaseRenew v)
  else if idx = 0x2200 && sub = 3 then attempt s (s.actLeaseReclaim v)
  else if idx = 0x2300 && sub = 1 then attempt s (s.actProducer v)
  else if idx = 0x2300 && sub = 4 then attempt s (s.actConsumer v)
  else if idx = 0x3100 && sub = 0x10 then s.rawEnrol data
  else if idx = 0x3100 && sub = 0x11 then s.rawRecord rq data
  else if idx = 0x3100 && sub = 0x12 then s.rawToken rq data
  else if idx = 0x3100 then attempt s (s.actObservationLock v)
  else if idx = 0x3200 then s.rawNonce data
  else if idx = 0x6900 && sub = 5 then attempt s (s.actSnapshotStart v)
  else if idx = 0x7000 then attempt s (s.actStrobe v)
  else if idx = 0x8200 && v = 0 then
    (((List.range 12).foldl (fun s g => s.setObj 0x8210 (g + 1) 0 0) keep).refreshDigest, .done)
  else if idx = 0x8706 then attempt s (s.actActivate (sub - 1) (BitVec.ofNat 32 v))
  else if idx = 0x8720 && sub = 6 then attempt s (s.actHoldCommand v)
  else if idx = 0x9100 && sub = 1 then attempt s (s.actTrace v)
  else if idx = 0x9100 && sub = 3 && s.obj 0x9100 1 0 = 1 then (s, .abort .stateConflict)
  else if isJobClass idx sub then (keep.refreshDigest, .done)
  else (keep, .done)

/-- Objects of a region (R348–R350, R357, R182, R183). -/
def State.writeRegion (s : State) (ty : OTy) (idx sub r : Nat) (data : List Byte) : Written :=
  let v := leVal data
  let keep := s.setValue ty idx sub r data
  if idx = 0x4000 && sub = 1 then attempt s (s.actRegionRearm r v)
  else if idx = 0x4000 && sub = 4 then
    (if v = 1 then (if (s.region r).netUp then keep.stopClock r .request else keep) else keep.freeClock r .request, .done)
  else if idx = 0x4000 then (keep.applyRegion r, .done)
  else if idx = 0x4020 then attempt s (s.actThreshold r (sub - 0x12) v)
  else if idx = 0x4040 && sub = 1 then attempt s (s.actVaultRetrain r v)
  else if idx = 0x4040 && sub = 4 then attempt s (s.actVaultClear r v)
  else (keep, .done)

/-- Clear the counts of the slots named in v [3:0] (R82). -/
def State.clearSlots (s : State) (t v : Nat) : State :=
  let clear (h : Map Hist) (i : Nat) : Map Hist := mset i { mget ({} : Hist) h i with counts := [] } h
  s.modTile t (fun x => { x with hist := (below 4 (bitOf v)).foldl clear x.hist })

/-- Objects of a tile. -/
def State.writeTile (s : State) (ty : OTy) (idx sub t : Nat) (data : List Byte) : Written :=
  let v := leVal data
  let keep := s.setValue ty idx sub t data
  if idx = 0x5000 then attempt s (s.actTileReset t v)
  else if (idx = 0x5100 && (sub ≤ 0x20 || sub = 0x41)) || (idx = 0x5200 && sub ≤ 4) then (s.setNext idx sub t v, .done)
  else if idx = 0x5200 && sub = 9 then (s.clearSlots t v, .done)
  else if idx = 0x5300 && sub = 3 then
    (let k := s.obj 0x5300 1 t * 512 + s.obj 0x5300 2 t
     (s.modRouter t (fun x => { x with sets := mset k (BitVec.ofNat 32 v) x.sets }), .done))
  else (keep, .done)

/-- Objects of a port. -/
def State.writePort (s : State) (ty : OTy) (idx sub p : Nat) (data : List Byte) : Written :=
  let v := leVal data
  let keep := s.setValue ty idx sub p data
  if idx = 0x6100 && sub = 2 then attempt s (s.actTable p v)
  else if idx = 0x6100 then (keep, .done)
  else if sub = 1 then attempt s (s.actPortEnable p v)
  else if sub = 2 || sub = 3 then attempt s (s.actClassSplit p sub v)
  else if sub = 5 then (keep.noteDigests, .done)
  else if sub = 8 then (s.actPortRetrain p v, .done)
  else if sub = 9 then (s.actPortReset p v, .done)
  else if sub = 0xA then attempt s (s.actQuiesce p v)
  else (keep, .done)

/-- Objects of an engine. -/
def State.writeEngine (s : State) (ty : OTy) (idx sub e : Nat) (data : List Byte) : Written :=
  let v := leVal data
  if idx = 0x6830 && sub = 1 then attempt s (s.actChannelRetrain e v)
  else if idx = 0x6860 then attempt s (s.actPool e sub v)
  else (s.setValue ty idx sub e data, .done)

def State.writeValue (s : State) (rq : Path) (ty : OTy) (idx sub inst : Nat) (data : List Byte) : Written :=
  match kindOf idx with
  | .none => s.writeModule rq ty idx sub data
  | .region => s.writeRegion ty idx sub inst data
  | .tile => s.writeTile ty idx sub inst data
  | .port => s.writePort ty idx sub inst data
  | .portOrLocal => s.writePort ty idx sub inst data
  | .engine => s.writeEngine ty idx sub inst data

/-! Who reaches an object. -/

/-- Whether a request reaches the module: its service die runs, and CoE is past Init with the instance in its window, or
the sub-port carries frames. -/
def State.arrives (s : State) (rq : Path) (idx inst : Nat) : Bool :=
  s.mstate != 4 && match rq with
  | .coe => s.ecat != .init && (kindOf idx = .none || inst = s.obj 0x2F00 1 0)
  | .inband _ _ p b _ _ => s.edgeUp && s.linkUp p.val b.val

def isFromHost : Path → Bool
  | .coe => false
  | .inband _ _ _ _ h _ => h

/-- A request on the host sub-port is marked by the bridge: from the host, with this module as its source (R312). -/
def State.fromPath (s : State) : Path → Path
  | .coe => .coe
  | .inband src tag p b h hops =>
    if s.hostSub = some (p.val, b.val) then .inband s.moduleId tag p b true hops else .inband src tag p b h hops

/-- A request that has passed 63 modules is refused with code 4 (R308). -/
def State.tooFar (s : State) : Path → Option State
  | .coe => none
  | .inband src _ p _ h hops =>
    if hops.toNat < 63 then none
    else some (s.refusePkt p.val 4
      { vc := 0, layer := false, ty := 0, slots := 0, dst := s.moduleId, src, job := 0, fromHost := h, hops })

/-- What RETIRED and the recovery profile leave open (R414). -/
def State.closed (s : State) (write : Bool) (idx : Nat) : Bool :=
  if s.security = 4 then (if write then idx != 0x2F00 else !(idx = 0x1018 || idx = 0x3100))
  else s.recovery && (write || !(idx = 0x1012 || idx = 0x1018 || idx = 0x3100))

/-- Checks before the object: permissions of the host with E9040 (R334), a restarting core (R330), the security state. -/
def State.blocked (s : State) (rq : Path) (write : Bool) (idx sub inst : Nat) : Option (State × Abort) :=
  let perm := s.obj (if write then 0x3020 else 0x3030) 1 0
  if isFromHost rq && !bitOf perm (idx / 0x1000) then
    some (s.tellRefused rq 1 idx sub inst, if write then .protectedWrite else .observation)
  else if (s.core 0).down || (isCoe rq && (s.core 3).down) then some (s, .serviceRestart)
  else if s.closed write idx then some (s, .stateConflict)
  else none

/-- Instance of an object: 0 for one without (R323). -/
def objInst (idx inst : Nat) : Nat := if kindOf idx = .none then 0 else inst

/-- A write to every instance (R324). -/
def toAll (rq : Path) (idx inst : Nat) : Bool := kindOf idx != .none && inst = 0xFFFF && !isCoe rq

/-- Existence, instance and access class (R323, R326, R330). -/
def accessOf (rq : Path) (write : Bool) (idx sub inst : Nat) : Except Abort OTy :=
  if !knownIndex idx then .error .noObject
  else match objType idx sub with
    | none => .error .noSub
    | some (ty, acc) =>
      if (kindOf idx).count ≤ objInst idx inst && !(write && toAll rq idx inst) then .error .badInstance
      else if write && (acc = .ro || acc = .const || acc = .bw) then .error .readOnly
      else if !write && acc = .wo then .error .writeOnly
      else .ok ty

def isBW (idx sub : Nat) : Bool := (objType idx sub).any (fun t => t.2 = .bw)

/-- The object is held in a block whose rail is off (R329). -/
def State.unpowered (s : State) (idx sub inst : Nat) : Bool :=
  let g := s.region (regionOf inst)
  match kindOf idx with
  | .tile =>
    !g.netUp || (g.computeOff && !(idx = 0x5300 || isCounter idx || (idx = 0x5000 && sub = 1) || (idx = 0x5010 && sub = 0x11)))
  | .port => !s.edgeUp
  | .engine => !s.edgeUp
  | .portOrLocal => !s.edgeUp && inst < 6
  | .region => false
  | .none => idx = 0x7430 && !s.edgeUp

/-! Writes. -/

def OTy.fits (ty : OTy) (n : Nat) : Bool :=
  match ty.len with
  | some m => n = m
  | none => true

/-- The value is one that the type and the object's table accept (R325). -/
def accepted (ty : OTy) (idx sub : Nat) (data : List Byte) : Bool :=
  !ty.isNum || ((ty != .bool || leVal data ≤ 1) && valueOk idx sub (leVal data))

/-- k and C of a loss-scaled job that is admitted take no write, whatever the value (R258). -/
def State.scaleHeld (s : State) (idx sub : Nat) : Bool :=
  idx = 0x8100 && (sub = 1 || sub = 4) && s.obj 0x8100 8 0 != 0xFF

/-- One instance takes a value or refuses it. -/
def State.applyOne (s : State) (rq : Path) (ty : OTy) (idx sub inst : Nat) (data : List Byte) : Written :=
  if s.unpowered idx sub inst then (s, .abort .hardware)
  else if s.scaleHeld idx sub then (s, .abort .stateConflict)
  else if !accepted ty idx sub data then (s, .abort .valueRange)
  else s.writeValue rq ty idx sub inst data

/-- Every instance takes it or refuses it; the abort is that of the lowest (R324). -/
def State.applyAll (s : State) (rq : Path) (ty : OTy) (idx sub : Nat) (data : List Byte) : Written :=
  let r := (List.range (kindOf idx).count).foldl (fun (x : State × Nat × Ending) i =>
    let w := x.1.applyOne rq ty idx sub i data
    match w.2 with
    | .abort a => (w.1, x.2.1 + 1, if x.2.1 = 0 then .abort a else x.2.2)
    | _ => (w.1, x.2.1, x.2.2)) (s, 0, .done)
  (r.1.setObj 0x2F10 2 0 r.2.1, r.2.2)

/-- The response to a write. -/
def writeReply (rq : Path) (idx sub inst off : Nat) (final late : Bool) (a : Option Abort) : Reply :=
  { path := rq, write := true, idx, sub, inst, off, final, late := late && !isCoe rq, abort := a }

def State.finishWrite (s : State) (rq : Path) (idx sub inst off : Nat) (late : Bool) (w : Written) : State :=
  match w.2 with
  | .done => w.1.answer (writeReply rq idx sub inst off true late none)
  | .abort a => w.1.answer (writeReply rq idx sub inst off true late (some a))
  | .later => { w.1 with opens := { path := rq, idx, sub, inst, since := s.now } :: w.1.opens }
  | .silent => w.1

/-- Segments of one requester. -/
def samePeer : Path → Path → Bool
  | .coe, .coe => true
  | .inband a _ _ _ h _, .inband b _ _ _ k _ => a = b && h = k
  | _, _ => false

def Segment.isOf (g : Segment) (idx sub inst : Nat) : Bool := g.idx = idx && g.sub = sub && g.inst = inst

/-- A segment arrives (R333): none while more are to come, or the whole value, or an abort. A transfer that a restart of SC0
has ended is told so, and a new one may begin (R330). -/
def State.takeSegment (s : State) (rq : Path) (ty : OTy) (idx sub inst off : Nat) (final : Bool) (data : List Byte) :
    State × Option (Except Abort (List Byte)) :=
  let mine (g : Segment) : Bool := g.isOf idx sub inst && samePeer g.path rq
  let rest := s.segments.filter (fun g => !mine g)
  if off = 0 && final then (s, some (.ok data))
  else if ty != .domain then (s, some (.error .length))
  else if off = 0 then
    if s.segments.any (fun g => g.isOf idx sub inst && !g.dead) then (s, some (.error .stateConflict))
    else ({ s with segments := { path := rq, idx, sub, inst, data, last := s.now } :: rest }, none)
  else match s.segments.find? mine with
    | none => (s, some (.error .length))
    | some g =>
      if g.dead then ({ s with segments := rest }, some (.error .serviceRestart))
      else if off != g.data.length then ({ s with segments := rest }, some (.error .length))
      else if final then ({ s with segments := rest }, some (.ok (g.data ++ data)))
      else ({ s with segments := { g with data := g.data ++ data, last := s.now } :: rest }, none)

/-- The checks of a request: it goes on with the object's type, or ends. -/
def State.checked (s : State) (rq : Path) (write : Bool) (idx sub inst off : Nat) (late : Bool) : Except State OTy :=
  let r (a : Abort) : Reply :=
    { path := rq, write, idx, sub, inst, off, late := late && !isCoe rq, abort := some a }
  if !s.arrives rq idx inst then .error s
  else match s.tooFar rq with
    | some t => .error t
    | none =>
      match s.blocked rq write idx sub inst with
      | some (t, a) => .error (t.answer (r a))
      | none =>
        match accessOf rq write idx sub inst with
        | .ok ty => .ok ty
        | .error a =>
          .error ((if write && a = .readOnly && isBW idx sub then s.tellRefused rq 0 idx sub inst else s).answer (r a))

/-- A write, or one segment of it. -/
def State.writeObject (s : State) (rq : Path) (idx sub inst off : Nat) (final late : Bool) (data : List Byte) : State :=
  let rq := s.fromPath rq
  match s.checked rq true idx sub inst off late with
  | .error t => t
  | .ok ty =>
    let g := s.takeSegment rq ty idx sub (objInst idx inst) off final data
    match g.2 with
    | none => g.1.answer (writeReply rq idx sub inst off false late none)
    | some (.error a) => g.1.answer (writeReply rq idx sub inst off true late (some a))
    | some (.ok bs) =>
      g.1.finishWrite rq idx sub inst off late (
        if !ty.fits bs.length then (g.1, .abort .length)
        else if toAll rq idx inst then g.1.applyAll rq ty idx sub bs
        else g.1.applyOne rq ty idx sub (objInst idx inst) bs)

/-- A whole write of a value at its type's length. -/
def State.put (s : State) (rq : Path) (idx sub inst n v : Nat) : State :=
  s.writeObject rq idx sub inst 0 true false (leBytes n v)

/-- A whole write whose content is given decoded (log entry 7). -/
def State.putTyped (s : State) (rq : Path) (idx sub : Nat) (f : State → Path → Written) : State :=
  let rq := s.fromPath rq
  match s.checked rq true idx sub 0 0 false with
  | .error t => t
  | .ok _ => s.finishWrite rq idx sub 0 0 false (f s rq)

/-! Reads. -/

/-- A read, or one segment of it, past its checks (R333): the value is captured at offset 0; the report under signature is not
given out, whatever part of it was captured before (R408). -/
def State.readNow (s : State) (rq : Path) (ty : OTy) (idx sub inst off : Nat) (late : Bool) : State :=
  let i := objInst idx inst
  let mine (g : Segment) : Bool := g.isOf idx sub i && samePeer g.path rq
  let rest := s.reads.filter (fun x => !mine x)
  let r (a : Option Abort) : Reply :=
    { path := rq, write := false, idx, sub, inst, off, late := late && !isCoe rq, abort := a }
  if s.unpowered idx sub i then s.answer (r (some .hardware))
  else
    let g := match (if off = 0 then none else s.reads.find? mine) with
      | some g =>
        if g.dead then ({ s with reads := rest }, Except.error Abort.serviceRestart)
        else if idx = 0x3200 && sub = 2 && s.obj 0x3200 3 0 = 1 then (s, .error .stateConflict)
        else (s, .ok g.data)
      | none => s.readObject ty idx sub i
    match g.2 with
    | .error a => g.1.answer (r (some a))
    | .ok bs =>
      let part := if isCoe rq then bs else (bs.drop off).take 4096
      let final : Bool := isCoe rq || bs.length ≤ off + part.length
      let rest := g.1.reads.filter (fun x => !mine x)
      let t : State := { g.1 with
        reads := if final then rest else { path := rq, idx, sub, inst := i, data := bs, last := g.1.now } :: rest }
      t.answer { r none with final, total := bs.length, data := part }

/-- A read that finds its stack words behind a retraining channel waits for it (R184). -/
def State.readAt (s : State) (rq : Path) (idx sub inst off : Nat) (late : Bool) : State :=
  let rq := s.fromPath rq
  match s.checked rq false idx sub inst off late with
  | .error t => t
  | .ok ty =>
    let i := objInst idx inst
    let has : Bool := off != 0 && s.reads.any (fun g => g.isOf idx sub i && samePeer g.path rq)
    if !has && !s.unpowered idx sub i && s.domainWaits idx sub i then
      { s with opens := { path := rq, idx, sub, inst, since := s.now, read := some (off, false) } :: s.opens }
    else s.readNow rq ty idx sub inst off late

end Sys2Proof.Machine
end

