-- ==== Sys2Proof/Machine/ObjectRows.lean ====
section
/-! DEFINITION. The object dictionary's own commands (R324–R337, R395, R421): in-band service frames, the CoE mailbox,
EtherCAT states and the TxPDO, timeouts, and the reads and writes that have no chapter of their own. -/
namespace Sys2Proof.Machine

/-! In-band service frames (R333). -/

/-- R333. -/
def execInBandRead (rq : Path) (idx : BitVec 16) (sub : BitVec 8) (inst : BitVec 16) (off : BitVec 32) (s : State) :
    Host.Outcome State Fault Refusal :=
  done (if isCoe rq then s else s.readAt rq idx.toNat sub.toNat inst.toNat off.toNat false)

/-- R324, R333: a packet carries at most 4 KiB. -/
def execInBandWrite (rq : Path) (idx : BitVec 16) (sub : BitVec 8) (inst : BitVec 16) (off : BitVec 32) (final : Bool)
    (data : List Byte) (s : State) : Host.Outcome State Fault Refusal :=
  done (
    if isCoe rq || 4096 < data.length then s
    else s.writeObject rq idx.toNat sub.toNat inst.toNat off.toNat final false data)

/-! The CoE mailbox (R331, R332). -/

/-- The instance that the window gives an object. -/
def State.window (s : State) (idx : Nat) : Nat := if kindOf idx = .none then 0 else s.obj 0x2F00 1 0

/-- Complete access: sub-indexes from the first on, in ascending order, that exist and may be read. Sub-index 0 takes two
bytes (log entry 13). -/
def State.readAll (s : State) (idx inst : Nat) (subs : List Nat) : State × Except Abort (List Byte) :=
  subs.foldl (fun (x : State × Except Abort (List Byte)) sub =>
    match x.2, accessOf .coe false idx sub inst with
    | .ok bs, .ok ty =>
      if x.1.unpowered idx sub inst then (x.1, .error .hardware)
      else
        let r := x.1.readObject ty idx sub inst
        (r.1, r.2.map (fun d => bs ++ d ++ (if sub = 0 then [0] else [])))
    | .error a, _ => (x.1, .error a)
    | .ok bs, .error _ => (x.1, .ok bs)) (s, .ok [])

/-- Sub-indexes of an index from a first one. -/
def subsFrom (idx first : Nat) : List Nat :=
  (List.range 256).filter (fun b => first ≤ b && (objType idx b).isSome)

/-- The response of a complete access past its checks. -/
def State.uploadAll (s : State) (idx sub inst : Nat) : State :=
  let r : Reply := { path := .coe, write := false, idx, sub, inst }
  let x := s.readAll idx inst (subsFrom idx sub)
  match x.2 with
  | .ok bs => x.1.answer { r with total := bs.length, data := bs }
  | .error a => x.1.answer { r with abort := some a }

/-- Stack words that a read needs lie behind a retraining channel (R184). -/
def State.readWaits (s : State) (idx sub inst : Nat) (all : Bool) : Bool :=
  if all then (subsFrom idx sub).any (fun b => s.domainWaits idx b inst) else s.domainWaits idx sub inst

/-- R331. -/
def execSdoUpload (idx : BitVec 16) (sub : BitVec 8) (complete : Bool) (s : State) : Host.Outcome State Fault Refusal :=
  done (
    let i := idx.toNat
    let b := sub.toNat
    if !complete then s.readAt .coe i b (s.window i) 0 false
    else
      let r : Reply := { path := .coe, write := false, idx := i, sub := b, inst := s.window i }
      if !s.arrives .coe i (s.window i) then s
      else match s.blocked .coe false i b (s.window i) with
        | some (t, a) => t.answer { r with abort := some a }
        | none =>
          if !knownIndex i then s.answer { r with abort := some .noObject }
          else if 1 < b then s.answer { r with abort := some .noSub }
          else if (kindOf i).count ≤ s.window i then s.answer { r with abort := some .badInstance }
          else if s.readWaits i b (s.window i) true then
            { s with opens := { path := .coe, idx := i, sub := b, inst := s.window i, since := s.now, read := some (0, true) }
                :: s.opens }
          else s.uploadAll i b (s.window i))

/-- Reads that waited for a channel, oldest first (R184). -/
def State.lateReads (s : State) : State :=
  (s.opens.filter (fun o => o.read.isSome)).reverse.foldl (fun s o =>
    match o.read with
    | none => s
    | some (off, all) =>
      if s.readWaits o.idx o.sub (objInst o.idx o.inst) all then s
      else
        let s : State := { s with opens := s.opens.erase o }
        match all, objType o.idx o.sub with
        | false, some (ty, _) => s.readNow o.path ty o.idx o.sub o.inst off false
        | _, _ => s.uploadAll o.idx o.sub o.inst) s

/-- What happens in a mesh cycle in which no command waits (log entry 2). -/
def State.idle (s : State) : State := s.cycle.lateReads

/-- Complete access writes each sub-index from 1 on in ascending order; it ends at the first abort, or when its data end. -/
def State.putAll (s : State) (idx inst : Nat) : List Nat → List Byte → Written
  | [], [] => (s, .done)
  | [], _ :: _ => (s, .abort .length)
  | sub :: rest, data =>
    match accessOf .coe true idx sub inst with
    | .error a => (s, .abort a)
    | .ok ty =>
      let n := (ty.len).getD data.length
      if data.length < n then (s, .abort .length)
      else
        let w := s.applyOne .coe ty idx sub inst (data.take n)
        match w.2 with
        | .done => w.1.putAll idx inst rest (data.drop n)
        | e => (w.1, e)

/-- R331; a write that ends with an abort changes nothing (R330). -/
def execSdoDownload (idx : BitVec 16) (sub : BitVec 8) (complete : Bool) (data : List Byte) (s : State) :
    Host.Outcome State Fault Refusal :=
  done (
    let i := idx.toNat
    let b := sub.toNat
    let inst := s.window i
    if !complete then s.writeObject .coe i b inst 0 true false data
    else
      let r (a : Abort) : Reply := writeReply .coe i b inst 0 true false (some a)
      if !s.arrives .coe i inst then s
      else match s.blocked .coe true i b inst with
        | some (t, a) => t.answer (r a)
        | none =>
          if !knownIndex i then s.answer (r .noObject)
          else if 1 < b then s.answer (r .noSub)
          else if (kindOf i).count ≤ inst then s.answer (r .badInstance)
          else
            let w := s.putAll i inst (subsFrom i 1) (if b = 0 then data.drop 2 else data)
            match w.2 with
            | .abort a =>
              -- the first sub-index that takes no write ends it: E9040 for one of class BW (R326)
              let ro := (subsFrom i 1).find? (fun c => match accessOf .coe true i c inst with
                | .ok _ => false
                | .error _ => true)
              (if a = .readOnly && ro.any (isBW i) then s.tellRefused .coe 0 i (ro.getD 0) inst else s).answer (r a)
            | e => s.finishWrite .coe i b inst 0 false (w.1, e))

/-- CoE data type codes, bits and access bits (log entry 13). -/
def coeType : OTy → Nat
  | .bool => 0x01
  | .i16 => 0x03
  | .u n => if n = 1 then 0x05 else if n = 2 then 0x06 else if n = 4 then 0x07 else 0x1B
  | .f32 => 0x08
  | .str => 0x09
  | .oct _ => 0x0A
  | .domain => 0x0F
def coeBits : OTy → Nat
  | .bool => 1
  | t => 8 * (t.len).getD 0
def coeAccess : Acc → Nat
  | .wo => 0x38
  | .rw => 0x3F
  | .rws => 0x3F
  | _ => 0x07

/-- Every index, ascending. -/
def indexList : List Nat := ((objRows.map (·.idx)).eraseDups)

/-- Object code of an index: a variable where its one value stands at sub-index 0, else a record. -/
def objectCode (idx : Nat) : Nat := if highestSub idx = 0 then 7 else 9

/-- A name with its length before it. -/
def named (bs : List Byte) : List Byte := leBytes 1 bs.length ++ bs

/-- Object description of an index, and the entry description of each sub-index. -/
def describe (idx : Nat) : List Byte :=
  let subs := subsFrom idx 0
  leBytes 2 idx ++ leBytes 1 (objectCode idx) ++ leBytes 1 (highestSub idx)
    ++ named (objName idx (if highestSub idx = 0 then 0 else subs.getD 1 0))
    ++ subs.flatMap (fun b =>
      match objType idx b with
      | some (ty, acc) =>
        leBytes 1 b ++ leBytes 2 (coeType ty) ++ leBytes 2 (coeBits ty) ++ leBytes 2 (coeAccess acc) ++ named (objName idx b)
      | none => [])

/-- The identity that the SII presents (R331): vendor ID, product code, revision. A MainDevice reads it over EtherCAT itself; no
command of the table is that read. -/
def State.siiIdentity (s : State) : List Byte :=
  leBytes 4 0x0A7D ++ leBytes 4 (s.readModule 0x1018 2) ++ leBytes 4 (s.readModule 0x1018 3)

/-- R331. -/
def execSdoInformation (idx : Option (BitVec 16)) (s : State) : Host.Outcome State Fault Refusal :=
  done (
    let i := (idx.map (·.toNat)).getD 0x1018
    let r : Reply := { path := .coe, write := false, idx := i, sub := 0, inst := 0 }
    if s.mstate = 4 || s.ecat = .init then s
    else if (s.core 0).down || (s.core 3).down then s.answer { r with abort := some .serviceRestart }
    else match idx with
      | none =>
        let bs := indexList.flatMap (leBytes 2)
        s.answer { r with idx := 0, total := bs.length, data := bs }
      | some _ =>
        if !knownIndex i then s.answer { r with abort := some .noObject }
        else if s.closed false i then s.answer { r with abort := some .stateConflict }
        else s.answer { r with total := (describe i).length, data := describe i })

/-- R331, R395: FoE in Pre-Operational and above; the recovery profile takes it too (R414). -/
def execFoeWrite (img : Image) (s : State) : Host.Outcome State Fault Refusal :=
  done (
    if s.mstate = 4 || s.ecat = .init then s
    else if (s.core 0).down || (s.core 3).down then s.answer (writeReply .coe 0x1012 6 0 0 true false (some .serviceRestart))
    else if s.security = 4 then s.answer (writeReply .coe 0x1012 6 0 0 true false (some .stateConflict))
    else s.finishWrite .coe 0x1012 6 0 0 false (attemptLater s (s.actImage img)))

/-- The order of the EtherCAT states. -/
def ecatRank : EcatState → Nat
  | .init => 0 | .preOp => 1 | .safeOp => 2 | .op => 3

/-- A request that the module does not carry out: AL status code of EtherCAT (log entry 13). -/
def State.refuseAl (s : State) (code : Nat) : State := { s with alCode := code }

/-- R331, R332: one state up, or any state down; the recovery profile ends at Pre-Operational (R414). What the module does not
support is refused as the EtherCAT standard has it. -/
def execEthercatStateRequest (rq : EcatRequest) (s : State) : Host.Outcome State Fault Refusal :=
  done (
    if s.mstate = 4 || (s.core 3).down then s
    else match rq with
      | .bootstrap => s.refuseAl 0x13
      | .rxPdo => s.refuseAl 0x1D
      | .clocks => s.refuseAl 0x30
      | .mailbox ty =>
        if s.ecat = .init || ty = 3 || ty = 4 then s else { s with mbxErrors := 2 :: s.mbxErrors }
      | .state st =>
        if ecatRank s.ecat + 1 < ecatRank st || (s.recovery && 1 < ecatRank st) then s.refuseAl 0x11
        else
          let s : State := { s with ecat := st, alCode := 0 }
          if st = .init then s.setObj 0x2F00 1 0 0 else s)

/-- The 32 bytes of the TxPDO (R332). -/
def State.txBytes (s : State) : List Byte :=
  leBytes 1 s.mstate ++ leBytes 1 s.security ++ leBytes 2 s.txFlags ++ leBytes 2 (s.obj 0x1030 1 0)
    ++ leBytes 2 (s.obj 0x2020 1 0) ++ leBytes 2 (s.obj 0x2020 2 0) ++ leBytes 2 (s.readModule 0x2020 3)
    ++ leBytes 1 s.hottest ++ [0] ++ leBytes 2 (s.readModule 0x2010 2) ++ leBytes 2 (s.readModule 0x2010 3) ++ [0, 0]
    ++ leBytes 8 s.partStates ++ leBytes 4 (s.obj 0x7000 2 0)

/-- R331, R332; it holds its last sample while SC3 restarts (R384). -/
def execTxpdoSample (s : State) : Host.Outcome State Fault Refusal :=
  done (
    if s.mstate = 4 || ecatRank s.ecat < 2 || (s.core 3).down then s
    else { s with txpdo := s.txBytes })

/-! Timeouts (R329, R330). -/

/-- Objects whose writes the transaction timeout does not cover. -/
def noTimeout (idx sub : Nat) : Bool := ((idx = 0x1010 || idx = 0x1011) && (sub = 1 || sub = 2)) || (idx = 0x1012 && sub = 6)

/-- R329: a transaction that its block has not completed in time; `same`: it completes in the service cycle of the
expiry, and wins. -/
def execTransactionTimeout (rq : Path) (idx : BitVec 16) (sub : BitVec 8) (inst : BitVec 16) (write : Option (List Byte))
    (same : Bool) (s : State) : Host.Outcome State Fault Refusal :=
  done (
    let i := idx.toNat
    let b := sub.toNat
    let rq := s.fromPath rq
    let waits (o : Open) : Bool := o.path = rq && o.idx = i && o.sub = b && o.inst = inst.toNat && o.read.isSome
    if write.isSome && noTimeout i b then s
    else match s.checked rq write.isSome i b inst.toNat 0 same with
      | .error t => t
      | .ok _ =>
        if !same then
          let a : Abort := if inst.toNat != 0xFFFF && s.unpowered i b (objInst i inst.toNat) then .hardware else .timeout
          { s with opens := s.opens.filter (fun o => write.isSome || !waits o) }.answer
            { path := rq, write := write.isSome, idx := i, sub := b, inst := inst.toNat, abort := some a }
        else
          let s := s.setObj 0x2F10 3 0 (s.obj 0x2F10 3 0 + 1)
          match write with
          | some data => s.writeObject rq i b inst.toNat 0 true true data
          | none => s.readAt rq i b inst.toNat 0 true)

/-- Mesh cycles of a second. -/
def secondMesh : Nat := 1000 * msMesh

/-- R330: a segmented transfer idle for 1 s ends with the timeout abort. -/
def execSegmentIdleTimeout (rq : Path) (idx : BitVec 16) (sub : BitVec 8) (inst : BitVec 16) (s : State) :
    Host.Outcome State Fault Refusal :=
  done (
    let i := idx.toNat
    let b := sub.toNat
    let n := objInst i inst.toNat
    let rq := s.fromPath rq
    let old (g : Segment) : Bool := g.isOf i b n && samePeer g.path rq && g.last + secondMesh < s.now
    -- one that a restart has ended is told so (R330)
    let r (w : Bool) (gs : List Segment) : Reply :=
      { path := rq, write := w, idx := i, sub := b, inst := inst.toNat,
        abort := some (if gs.any (fun g => old g && g.dead) then .serviceRestart else .timeout) }
    if s.segments.any old then
      { s with segments := s.segments.filter (fun g => !old g) }.answer (r true s.segments)
    else if s.reads.any old then
      { s with reads := s.reads.filter (fun g => !old g) }.answer (r false s.reads)
    else s)

/-! Writes and reads of objects. -/

/-- R328: a write to an object without its own row. -/
def execObjectWrite (rq : Path) (idx : BitVec 16) (sub : BitVec 8) (inst : BitVec 16) (data : List Byte) (s : State) :
    Host.Outcome State Fault Refusal :=
  done (s.writeObject rq idx.toNat sub.toNat inst.toNat 0 true false data)

/-- R122. -/
def execQueueLimitWrite (rq : Path) (t : TileId) (q : Fin 32) (v : BitVec 8) (s : State) : Host.Outcome State Fault Refusal :=
  done (s.put rq 0x5100 (q.val + 1) t.val 1 v.toNat)

/-- R82. -/
def execHistogramSlotClear (rq : Path) (t : TileId) (v : BitVec 8) (s : State) : Host.Outcome State Fault Refusal :=
  done (s.put rq 0x5200 9 t.val 1 v.toNat)

/-- R337. -/
def execSnapshotStrobe (rq : Path) (v : BitVec 8) (s : State) : Host.Outcome State Fault Refusal :=
  done (s.put rq 0x7000 1 0 1 v.toNat)

/-- R338. -/
def execStoreAll (rq : Path) (sig : BitVec 32) (s : State) : Host.Outcome State Fault Refusal :=
  done (s.put rq 0x1010 1 0 4 sig.toNat)
def execStoreLinkAndRoute (rq : Path) (sig : BitVec 32) (s : State) : Host.Outcome State Fault Refusal :=
  done (s.put rq 0x1010 2 0 4 sig.toNat)
def execRestoreAll (rq : Path) (sig : BitVec 32) (s : State) : Host.Outcome State Fault Refusal :=
  done (s.put rq 0x1011 1 0 4 sig.toNat)
def execRestoreLinkAndRoute (rq : Path) (sig : BitVec 32) (s : State) : Host.Outcome State Fault Refusal :=
  done (s.put rq 0x1011 2 0 4 sig.toNat)

/-- R421. -/
def execEventRingRead (rq : Path) (s : State) : Host.Outcome State Fault Refusal := done (s.readAt rq 0x9000 3 0 0 false)
def execEventLogRead (rq : Path) (s : State) : Host.Outcome State Fault Refusal := done (s.readAt rq 0x9000 5 0 0 false)

end Sys2Proof.Machine
end

