-- ==== Sys2Proof/Machine/Requests.lean ====
section
/-! DEFINITION. The commands that are a write to one object of a chapter (R145–R412): each is that write, with the checks
of every transaction. -/
namespace Sys2Proof.Machine

/-! Network and memory. -/

/-- R145: the entry at the window of 0x5300:01–02. -/
def execRouteEntryWrite (rq : Path) (t : TileId) (v : BitVec 32) (s : State) : Host.Outcome State Fault Refusal :=
  done (s.put rq 0x5300 3 t.val 4 v.toNat)

/-- R182. -/
def execVaultClear (rq : Path) (r : RegionId) (v : BitVec 8) (s : State) : Host.Outcome State Fault Refusal :=
  done (s.put rq 0x4040 4 r.val 1 v.toNat)

/-- R183. -/
def execVaultRetrainRequest (rq : Path) (r : RegionId) (v : BitVec 8) (s : State) : Host.Outcome State Fault Refusal :=
  done (s.put rq 0x4040 1 r.val 1 v.toNat)

/-- R184. -/
def execChannelRetrainRequest (rq : Path) (e : EngineId) (v : BitVec 8) (s : State) : Host.Outcome State Fault Refusal :=
  done (s.put rq 0x6830 1 e.val 1 v.toNat)

/-- R187: 0x6860:01–02 are U64, :03 is BOOL. -/
def execPoolWindowWrite (rq : Path) (e : EngineId) (sub : Fin 3) (v : BitVec 64) (s : State) :
    Host.Outcome State Fault Refusal :=
  done (
    if sub.val < 2 then s.put rq 0x6860 (sub.val + 1) e.val 8 v.toNat
    else if v.toNat < 256 then s.put rq 0x6860 3 e.val 1 v.toNat
    else s)

/-! Update engines. -/

/-- A write of 1 to 0x8720:06 while 0x8720:01 holds the action (R239). -/
def State.putCommand (s : State) (rq : Path) (action : Nat) : State :=
  if s.obj 0x8720 1 0 = action then s.put rq 0x8720 6 0 1 1 else s

/-- R239, actions 1–4. -/
def execHoldApplyStep (rq : Path) (s : State) : Host.Outcome State Fault Refusal := done (s.putCommand rq 1)
def execHoldDropStep (rq : Path) (s : State) : Host.Outcome State Fault Refusal := done (s.putCommand rq 2)
/-- R239, R240. -/
def execHeldNormMerge (rq : Path) (s : State) : Host.Outcome State Fault Refusal := done (s.putCommand rq 3)
def execHeldNormDrop (rq : Path) (s : State) : Host.Outcome State Fault Refusal := done (s.putCommand rq 4)

/-- R226. -/
def execActivationStampWrite (rq : Path) (g : GroupId) (v : BitVec 32) (s : State) : Host.Outcome State Fault Refusal :=
  done (s.put rq 0x8706 (g.val + 1) 0 4 v.toNat)

/-- R249. -/
def execSnapshotShipStart (rq : Path) (v : BitVec 8) (s : State) : Host.Outcome State Fault Refusal :=
  done (s.put rq 0x6900 5 0 1 v.toNat)

/-- R283, R284. -/
def execTurnoverExecute (rq : Path) (v : BitVec 8) (s : State) : Host.Outcome State Fault Refusal :=
  done (s.put rq 0x2110 3 0 1 v.toNat)

/-! Ports. -/

/-- R335. -/
def execPortEnableWrite (rq : Path) (port : PortId) (v : BitVec 8) (s : State) : Host.Outcome State Fault Refusal :=
  done (s.put rq 0x6000 1 port.val 1 v.toNat)

/-- R292: 0x6000:02 the reach class, :03 the split. -/
def execClassSplitWrite (rq : Path) (port : PortId) (split : Bool) (v : BitVec 8) (s : State) :
    Host.Outcome State Fault Refusal :=
  done (s.put rq 0x6000 (if split then 3 else 2) port.val 1 v.toNat)

/-- R290, R304. -/
def execPortRetrainWrite (rq : Path) (port : PortId) (v : BitVec 8) (s : State) : Host.Outcome State Fault Refusal :=
  done (s.put rq 0x6000 8 port.val 1 v.toNat)

/-- R319. -/
def execPortReset (rq : Path) (port : PortId) (v : BitVec 8) (s : State) : Host.Outcome State Fault Refusal :=
  done (s.put rq 0x6000 9 port.val 1 v.toNat)

/-- R310. -/
def execPortQuiesceWrite (rq : Path) (port : PortId) (v : BitVec 8) (s : State) : Host.Outcome State Fault Refusal :=
  done (s.put rq 0x6000 0xA port.val 1 v.toNat)

/-- R305, R306, R310: the entry at the index of 0x6100:01. -/
def execTableEntryWrite (rq : Path) (inst : Fin 7) (v : BitVec 32) (s : State) : Host.Outcome State Fault Refusal :=
  done (s.put rq 0x6100 2 inst.val 4 v.toNat)

/-! Power. -/

/-- R348, R356. -/
def execRegionRearm (rq : Path) (r : RegionId) (v : BitVec 8) (s : State) : Host.Outcome State Fault Refusal :=
  done (s.put rq 0x4000 1 r.val 1 v.toNat)

/-- R103, R335. -/
def execComputeClockStopWrite (rq : Path) (r : RegionId) (v : BitVec 8) (s : State) : Host.Outcome State Fault Refusal :=
  done (s.put rq 0x4000 4 r.val 1 v.toNat)

/-- R357. -/
def execThresholdWrite (rq : Path) (r : RegionId) (k : Fin 4) (v : BitVec 16) (s : State) : Host.Outcome State Fault Refusal :=
  done (s.put rq 0x4020 (0x12 + k.val) r.val 2 v.toNat)

/-! Module states and resets. -/

/-- R364, R365. -/
def execRequestRun (rq : Path) (s : State) : Host.Outcome State Fault Refusal := done (s.put rq 0x2001 1 0 1 0)
def execRequestComputeReset (rq : Path) (s : State) : Host.Outcome State Fault Refusal := done (s.put rq 0x2001 1 0 1 1)
def execRequestComputeIdle (rq : Path) (s : State) : Host.Outcome State Fault Refusal := done (s.put rq 0x2001 1 0 1 2)
def execRequestServiceOnly (rq : Path) (s : State) : Host.Outcome State Fault Refusal := done (s.put rq 0x2001 1 0 1 3)

/-- R379. -/
def execModuleReset (rq : Path) (sig : BitVec 32) (s : State) : Host.Outcome State Fault Refusal :=
  done (s.put rq 0x2003 1 0 4 sig.toNat)
def execEdgeReset (rq : Path) (v : BitVec 8) (s : State) : Host.Outcome State Fault Refusal :=
  done (s.put rq 0x2003 2 0 1 v.toNat)
/-- R379, R382. -/
def execTileResetWrite (rq : Path) (t : TileId) (v : BitVec 8) (s : State) : Host.Outcome State Fault Refusal :=
  done (s.put rq 0x5000 1 t.val 1 v.toNat)

/-! Service firmware. -/

/-- R385. -/
def execCommandProducerWrite (rq : Path) (v : BitVec 32) (s : State) : Host.Outcome State Fault Refusal :=
  done (s.put rq 0x2300 1 0 4 v.toNat)
/-- R385, R388. -/
def execCompletionConsumerWrite (rq : Path) (v : BitVec 32) (s : State) : Host.Outcome State Fault Refusal :=
  done (s.put rq 0x2300 4 0 4 v.toNat)
/-- R389. -/
def execLeaseRenew (rq : Path) (v : BitVec 32) (s : State) : Host.Outcome State Fault Refusal :=
  done (s.put rq 0x2200 1 0 4 v.toNat)
/-- R389, R391. -/
def execLeaseReclaim (rq : Path) (v : BitVec 32) (s : State) : Host.Outcome State Fault Refusal :=
  done (s.put rq 0x2200 3 0 4 v.toNat)
/-- R395. -/
def execImageWrite (rq : Path) (img : Image) (s : State) : Host.Outcome State Fault Refusal :=
  done (s.putTyped rq 0x1012 6 (fun s _ => attemptLater s (s.actImage img)))

/-! Security. -/

/-- R405. -/
def execEnrolmentRecordWrite (rq : Path) (rec : EnrolRecord) (s : State) : Host.Outcome State Fault Refusal :=
  done (s.putTyped rq 0x3100 0x10 (fun s _ => fromResult (s.actEnrol rec)))
/-- R402. -/
def execProvisioningRecordWrite (rq : Path) (rec : ProvRecord) (s : State) : Host.Outcome State Fault Refusal :=
  done (s.putTyped rq 0x3100 0x11 (fun s rq => fromResult (s.actRecord rq rec)))

/-- R406: an owner token of a kind. -/
def State.putToken (s : State) (rq : Path) (kind : Nat) (tok : Token) : State :=
  s.putTyped rq 0x3100 0x12 (fun s rq => fromResult (s.actToken rq kind tok))

/-- R405–R407, kinds 1–5. -/
def execTokenUnlockObservation (rq : Path) (tok : Token) (s : State) : Host.Outcome State Fault Refusal := done (s.putToken rq 1 tok)
def execTokenRelock (rq : Path) (tok : Token) (s : State) : Host.Outcome State Fault Refusal := done (s.putToken rq 2 tok)
def execTokenQuarantine (rq : Path) (tok : Token) (s : State) : Host.Outcome State Fault Refusal := done (s.putToken rq 3 tok)
def execTokenReleaseQuarantine (rq : Path) (tok : Token) (s : State) : Host.Outcome State Fault Refusal := done (s.putToken rq 4 tok)
def execTokenRetire (rq : Path) (tok : Token) (s : State) : Host.Outcome State Fault Refusal := done (s.putToken rq 5 tok)

/-- R405. -/
def execObservationLockWrite (rq : Path) (v : BitVec 8) (s : State) : Host.Outcome State Fault Refusal :=
  done (s.put rq 0x3100 0x13 0 1 v.toNat)

/-- R400, R408: the identity keys pass their check or not. -/
def execAttestationNonceWrite (rq : Path) (nonce : List Byte) (keysOk : Bool) (s : State) : Host.Outcome State Fault Refusal :=
  done (s.putTyped rq 0x3200 1 (fun s _ => attempt s (s.actNonce nonce keysOk)))

/-- R411. -/
def execTraceEnableWrite (rq : Path) (v : BitVec 8) (s : State) : Host.Outcome State Fault Refusal :=
  done (s.put rq 0x9100 1 0 1 v.toNat)

end Sys2Proof.Machine
end

