-- ==== Sys2Proof/Machine/Dispatch.lean ====
section
/-! DEFINITION. The meaning of every command: one arm per constructor. -/
namespace Sys2Proof.Machine

def exec (i : Instr) (s : State) : Host.Outcome State Fault Refusal :=
  match i with
  | .tensorLoad t c h o role desc => Sys2Proof.Machine.execTensorLoad t c h o role desc s
  | .tensorStream t c h o role cont desc ups => Sys2Proof.Machine.execTensorStream t c h o role cont desc ups s
  | .tensorDrain t c h role trails desc => Sys2Proof.Machine.execTensorDrain t c h role trails desc s
  | .vectorLd t c h v desc => Sys2Proof.Machine.execVectorLd t c h v desc s
  | .vectorSt t c h v desc => Sys2Proof.Machine.execVectorSt t c h v desc s
  | .vectorAdd t c h d a b => Sys2Proof.Machine.execVectorAdd t c h d a b s
  | .vectorSub t c h d a b => Sys2Proof.Machine.execVectorSub t c h d a b s
  | .vectorMul t c h d a b => Sys2Proof.Machine.execVectorMul t c h d a b s
  | .vectorFma t c h d a b e => Sys2Proof.Machine.execVectorFma t c h d a b e s
  | .vectorMax t c h d a b => Sys2Proof.Machine.execVectorMax t c h d a b s
  | .vectorMin t c h d a b => Sys2Proof.Machine.execVectorMin t c h d a b s
  | .vectorCmp t c h cond d a b => Sys2Proof.Machine.execVectorCmp t c h cond d a b s
  | .vectorExp2 t c h d a => Sys2Proof.Machine.execVectorExp2 t c h d a s
  | .vectorLog2 t c h d a => Sys2Proof.Machine.execVectorLog2 t c h d a s
  | .vectorRsqrt t c h d a => Sys2Proof.Machine.execVectorRsqrt t c h d a s
  | .vectorRcp t c h d a => Sys2Proof.Machine.execVectorRcp t c h d a s
  | .vectorRsum t c h d first n => Sys2Proof.Machine.execVectorRsum t c h d first n s
  | .vectorRmax t c h d first n => Sys2Proof.Machine.execVectorRmax t c h d first n s
  | .vectorRmin t c h d first n => Sys2Proof.Machine.execVectorRmin t c h d first n s
  | .vectorNstat t c h rms desc => Sys2Proof.Machine.execVectorNstat t c h rms desc s
  | .vectorNapply t c h desc => Sys2Proof.Machine.execVectorNapply t c h desc s
  | .vectorSmax t c h desc => Sys2Proof.Machine.execVectorSmax t c h desc s
  | .moveCopy t c h src dst ups => Sys2Proof.Machine.execMoveCopy t c h src dst ups s
  | .netPut t c h src route dest => Sys2Proof.Machine.execNetPut t c h src route dest s
  | .netMcast t c h src route dests => Sys2Proof.Machine.execNetMcast t c h src route dests s
  | .netReduce t c h src route dest tail => Sys2Proof.Machine.execNetReduce t c h src route dest tail s
  | .netSignal t c h route dest ctr => Sys2Proof.Machine.execNetSignal t c h route dest ctr s
  | .syncWait t c h ctr v => Sys2Proof.Machine.execSyncWait t c h ctr v s
  | .syncSemw t c h m => Sys2Proof.Machine.execSyncSemw t c h m s
  | .syncSemp t c h m => Sys2Proof.Machine.execSyncSemp t c h m s
  | .syncCset t c h ctr v => Sys2Proof.Machine.execSyncCset t c h ctr v s
  | .syncCadd t c h ctr v => Sys2Proof.Machine.execSyncCadd t c h ctr v s
  | .syncTmo t c h v => Sys2Proof.Machine.execSyncTmo t c h v s
  | .syncFence t c h => Sys2Proof.Machine.execSyncFence t c h s
  | .syncFree t c h buf slot => Sys2Proof.Machine.execSyncFree t c h buf slot s
  | .syncVwait t c h stamp => Sys2Proof.Machine.execSyncVwait t c h stamp s
  | .ctrlJmp t c h target => Sys2Proof.Machine.execCtrlJmp t c h target s
  | .ctrlBr t c h src cond op target => Sys2Proof.Machine.execCtrlBr t c h src cond op target s
  | .ctrlSset t c h d v => Sys2Proof.Machine.execCtrlSset t c h d v s
  | .ctrlSadd t c h d op => Sys2Proof.Machine.execCtrlSadd t c h d op s
  | .ctrlScmp t c h d a cond op => Sys2Proof.Machine.execCtrlScmp t c h d a cond op s
  | .ctrlYield t c h => Sys2Proof.Machine.execCtrlYield t c h s
  | .ctrlStep t c h => Sys2Proof.Machine.execCtrlStep t c h s
  | .guardOpen t c h compiled rsvd route layer => Sys2Proof.Machine.execGuardOpen t c h compiled rsvd route layer s
  | .guardClose t c h compiled rsvd route layer => Sys2Proof.Machine.execGuardClose t c h compiled rsvd route layer s
  | .guardVoteSend t => Sys2Proof.Machine.execGuardVoteSend t s
  | .guardVoteResult t sum => Sys2Proof.Machine.execGuardVoteResult t sum s
  | .ctrlEnd t c h => Sys2Proof.Machine.execCtrlEnd t c h s
  | .operationComplete t id => Sys2Proof.Machine.execOperationComplete t id s
  | .suspendedContextResume t c => Sys2Proof.Machine.execSuspendedContextResume t c s
  | .counterIncrementArrival t ctr n => Sys2Proof.Machine.execCounterIncrementArrival t ctr n s
  | .syncTimeout t c => Sys2Proof.Machine.execSyncTimeout t c s
  | .queueTransferStart t q => Sys2Proof.Machine.execQueueTransferStart t q s
  | .landingDelivery t buf slot => Sys2Proof.Machine.execLandingDelivery t buf slot s
  | .slotCreditArrival t buf slot => Sys2Proof.Machine.execSlotCreditArrival t buf slot s
  | .spillRequest t q => Sys2Proof.Machine.execSpillRequest t q s
  | .spillGrant t buf src => Sys2Proof.Machine.execSpillGrant t buf src s
  | .spilledTransferArrival t src q => Sys2Proof.Machine.execSpilledTransferArrival t src q s
  | .remoteReadRequest src id => Sys2Proof.Machine.execRemoteReadRequest src id s
  | .flitReceive t port vc crcOk => Sys2Proof.Machine.execFlitReceive t port vc crcOk s
  | .hopReplayRequest t dir vc => Sys2Proof.Machine.execHopReplayRequest t dir vc s
  | .refusalResponseReceive t => Sys2Proof.Machine.execRefusalResponseReceive t s
  | .routeWatchdogExpiry t port vc => Sys2Proof.Machine.execRouteWatchdogExpiry t port vc s
  | .forkStallExpiry t port => Sys2Proof.Machine.execForkStallExpiry t port s
  | .mergeEmit t p route => Sys2Proof.Machine.execMergeEmit t p route s
  | .partitionFlush p => Sys2Proof.Machine.execPartitionFlush p s
  | .neighbourLinkLoss r => Sys2Proof.Machine.execNeighbourLinkLoss r s
  | .directionTableRewrite => Sys2Proof.Machine.execDirectionTableRewrite s
  | .routeEntryWrite rq t v => Sys2Proof.Machine.execRouteEntryWrite rq t v s
  | .vaultRefresh t bank => Sys2Proof.Machine.execVaultRefresh t bank s
  | .scrubRead u word ups => Sys2Proof.Machine.execScrubRead u word ups s
  | .vaultClear rq r v => Sys2Proof.Machine.execVaultClear rq r v s
  | .vaultClearDone r => Sys2Proof.Machine.execVaultClearDone r s
  | .vaultRetrainRequest rq r v => Sys2Proof.Machine.execVaultRetrainRequest rq r v s
  | .retrainPolicyTrigger u => Sys2Proof.Machine.execRetrainPolicyTrigger u s
  | .vaultRetrainStart r => Sys2Proof.Machine.execVaultRetrainStart r s
  | .vaultRetrainEnd r ok => Sys2Proof.Machine.execVaultRetrainEnd r ok s
  | .channelRetrainRequest rq e v => Sys2Proof.Machine.execChannelRetrainRequest rq e v s
  | .channelRetrainStart e => Sys2Proof.Machine.execChannelRetrainStart e s
  | .channelRetrainEnd e ok => Sys2Proof.Machine.execChannelRetrainEnd e ok s
  | .poolWindowWrite rq e sub v => Sys2Proof.Machine.execPoolWindowWrite rq e sub v s
  | .farReadRequest fr => Sys2Proof.Machine.execFarReadRequest fr s
  | .farWriteRequest fr data => Sys2Proof.Machine.execFarWriteRequest fr data s
  | .stackMcastRead t id => Sys2Proof.Machine.execStackMcastRead t id s
  | .workingCopySettle e g b => Sys2Proof.Machine.execWorkingCopySettle e g b s
  | .allgatherArrival port sub p f => Sys2Proof.Machine.execAllgatherArrival port sub p f s
  | .tailracePartReceive port p input blk => Sys2Proof.Machine.execTailracePartReceive port p input blk s
  | .portReductionEmit port p g b => Sys2Proof.Machine.execPortReductionEmit port p g b s
  | .tailraceBlockArrival e p blk => Sys2Proof.Machine.execTailraceBlockArrival e p blk s
  | .deferredBlockCheck e p g b => Sys2Proof.Machine.execDeferredBlockCheck e p g b s
  | .farFetchResponse e g b ans => Sys2Proof.Machine.execFarFetchResponse e g b ans s
  | .farWritebackDone e g b ok => Sys2Proof.Machine.execFarWritebackDone e g b ok s
  | .verdictJoin p => Sys2Proof.Machine.execVerdictJoin p s
  | .verdictCombine p input v => Sys2Proof.Machine.execVerdictCombine p input v s
  | .verdictApply p v => Sys2Proof.Machine.execVerdictApply p v s
  | .verdictTimeout p => Sys2Proof.Machine.execVerdictTimeout p s
  | .relayForward r => Sys2Proof.Machine.execRelayForward r s
  | .holdApplyStep rq => Sys2Proof.Machine.execHoldApplyStep rq s
  | .holdDropStep rq => Sys2Proof.Machine.execHoldDropStep rq s
  | .heldNormMerge rq => Sys2Proof.Machine.execHeldNormMerge rq s
  | .heldNormDrop rq => Sys2Proof.Machine.execHeldNormDrop rq s
  | .holdCommandDone => Sys2Proof.Machine.execHoldCommandDone s
  | .activationStampWrite rq g v => Sys2Proof.Machine.execActivationStampWrite rq g v s
  | .repairPass e => Sys2Proof.Machine.execRepairPass e s
  | .digestRollupSend e p => Sys2Proof.Machine.execDigestRollupSend e p s
  | .digestRecordReceive link p stamp owner engine rollup => Sys2Proof.Machine.execDigestRecordReceive link p stamp owner engine rollup s
  | .snapshotShipStart rq v => Sys2Proof.Machine.execSnapshotShipStart rq v s
  | .snapshotShipEnd result => Sys2Proof.Machine.execSnapshotShipEnd result s
  | .definePartition p => Sys2Proof.Machine.execDefinePartition p s
  | .removePartition p => Sys2Proof.Machine.execRemovePartition p s
  | .partitionLoad p img => Sys2Proof.Machine.execPartitionLoad p img s
  | .partitionStart p => Sys2Proof.Machine.execPartitionStart p s
  | .partitionStop p => Sys2Proof.Machine.execPartitionStop p s
  | .partitionReset p => Sys2Proof.Machine.execPartitionReset p s
  | .partitionPause p => Sys2Proof.Machine.execPartitionPause p s
  | .partitionPaused p => Sys2Proof.Machine.execPartitionPaused p s
  | .partitionResume p => Sys2Proof.Machine.execPartitionResume p s
  | .commandFence p => Sys2Proof.Machine.execCommandFence p s
  | .ringRequestArrival r => Sys2Proof.Machine.execRingRequestArrival r s
  | .responseRingServe p ring => Sys2Proof.Machine.execResponseRingServe p ring s
  | .ringResponseForward link h xf data => Sys2Proof.Machine.execRingResponseForward link h xf data s
  | .turnoverExecute rq v => Sys2Proof.Machine.execTurnoverExecute rq v s
  | .turnoverDrainComplete => Sys2Proof.Machine.execTurnoverDrainComplete s
  | .turnoverDrainLimit => Sys2Proof.Machine.execTurnoverDrainLimit s
  | .turnoverStageDone r => Sys2Proof.Machine.execTurnoverStageDone r s
  | .laneLoss port sub group => Sys2Proof.Machine.execLaneLoss port sub group s
  | .dataFrameReceive port sub slots crc => Sys2Proof.Machine.execDataFrameReceive port sub slots crc s
  | .controlFrameReceive port sub f => Sys2Proof.Machine.execControlFrameReceive port sub f s
  | .badFrameReceive port sub slots crc => Sys2Proof.Machine.execBadFrameReceive port sub slots crc s
  | .scheduledControlSend port sub => Sys2Proof.Machine.execScheduledControlSend port sub s
  | .replayRequestReceive port sub seq => Sys2Proof.Machine.execReplayRequestReceive port sub seq s
  | .replayTimeout port sub => Sys2Proof.Machine.execReplayTimeout port sub s
  | .linkRetrainEnd port sub ok => Sys2Proof.Machine.execLinkRetrainEnd port sub ok s
  | .subportTrainingAttempt port sub => Sys2Proof.Machine.execSubportTrainingAttempt port sub s
  | .subportTrainingDone port sub peer => Sys2Proof.Machine.execSubportTrainingDone port sub peer s
  | .peerLossTimeout port sub => Sys2Proof.Machine.execPeerLossTimeout port sub s
  | .stopFrameReceive port sub job origin cause => Sys2Proof.Machine.execStopFrameReceive port sub job origin cause s
  | .linkPutPacket port sub h p dest data => Sys2Proof.Machine.execLinkPutPacket port sub h p dest data s
  | .linkCounterSignal port sub h p dest ctr => Sys2Proof.Machine.execLinkCounterSignal port sub h p dest ctr s
  | .linkRefusalReceive port sub h code => Sys2Proof.Machine.execLinkRefusalReceive port sub h code s
  | .reservedTypeDiscard port sub h => Sys2Proof.Machine.execReservedTypeDiscard port sub h s
  | .packetTransit port sub h xf data => Sys2Proof.Machine.execPacketTransit port sub h xf data s
  | .digestSettleExpiry port sub => Sys2Proof.Machine.execDigestSettleExpiry port sub s
  | .portEnableWrite rq port v => Sys2Proof.Machine.execPortEnableWrite rq port v s
  | .classSplitWrite rq port split v => Sys2Proof.Machine.execClassSplitWrite rq port split v s
  | .portRetrainWrite rq port v => Sys2Proof.Machine.execPortRetrainWrite rq port v s
  | .portReset rq port v => Sys2Proof.Machine.execPortReset rq port v s
  | .portQuiesceWrite rq port v => Sys2Proof.Machine.execPortQuiesceWrite rq port v s
  | .portQuiesced port => Sys2Proof.Machine.execPortQuiesced port s
  | .tableEntryWrite rq inst v => Sys2Proof.Machine.execTableEntryWrite rq inst v s
  | .inBandRead rq idx sub inst off => Sys2Proof.Machine.execInBandRead rq idx sub inst off s
  | .inBandWrite rq idx sub inst off final data => Sys2Proof.Machine.execInBandWrite rq idx sub inst off final data s
  | .sdoUpload idx sub complete => Sys2Proof.Machine.execSdoUpload idx sub complete s
  | .sdoDownload idx sub complete data => Sys2Proof.Machine.execSdoDownload idx sub complete data s
  | .sdoInformation idx => Sys2Proof.Machine.execSdoInformation idx s
  | .foeWrite img => Sys2Proof.Machine.execFoeWrite img s
  | .ethercatStateRequest rq => Sys2Proof.Machine.execEthercatStateRequest rq s
  | .txpdoSample => Sys2Proof.Machine.execTxpdoSample s
  | .transactionTimeout rq idx sub inst write same => Sys2Proof.Machine.execTransactionTimeout rq idx sub inst write same s
  | .segmentIdleTimeout rq idx sub inst => Sys2Proof.Machine.execSegmentIdleTimeout rq idx sub inst s
  | .objectWrite rq idx sub inst data => Sys2Proof.Machine.execObjectWrite rq idx sub inst data s
  | .queueLimitWrite rq t q v => Sys2Proof.Machine.execQueueLimitWrite rq t q v s
  | .histogramSlotClear rq t v => Sys2Proof.Machine.execHistogramSlotClear rq t v s
  | .snapshotStrobe rq v => Sys2Proof.Machine.execSnapshotStrobe rq v s
  | .counterLatch b => Sys2Proof.Machine.execCounterLatch b s
  | .snapshotComplete => Sys2Proof.Machine.execSnapshotComplete s
  | .storeAll rq sig => Sys2Proof.Machine.execStoreAll rq sig s
  | .storeLinkAndRoute rq sig => Sys2Proof.Machine.execStoreLinkAndRoute rq sig s
  | .restoreAll rq sig => Sys2Proof.Machine.execRestoreAll rq sig s
  | .restoreLinkAndRoute rq sig => Sys2Proof.Machine.execRestoreLinkAndRoute rq sig s
  | .storeComplete => Sys2Proof.Machine.execStoreComplete s
  | .inletUndervoltStop mV => Sys2Proof.Machine.execInletUndervoltStop mV s
  | .inletRecovery mV => Sys2Proof.Machine.execInletRecovery mV s
  | .inletFaultPowerdown mV => Sys2Proof.Machine.execInletFaultPowerdown mV s
  | .servicePowerLoss mV => Sys2Proof.Machine.execServicePowerLoss mV s
  | .railSequenceTimeout r rail => Sys2Proof.Machine.execRailSequenceTimeout r rail s
  | .regionShortCircuit r rail => Sys2Proof.Machine.execRegionShortCircuit r rail s
  | .regionRearm rq r v => Sys2Proof.Machine.execRegionRearm rq r v s
  | .rearmCountClear r => Sys2Proof.Machine.execRearmCountClear r s
  | .computeClockStopWrite rq r v => Sys2Proof.Machine.execComputeClockStopWrite rq r v s
  | .meshRelock regions => Sys2Proof.Machine.execMeshRelock regions s
  | .meshLockLoss => Sys2Proof.Machine.execMeshLockLoss s
  | .thermalSample r temps => Sys2Proof.Machine.execThermalSample r temps s
  | .thermalIndexStep r => Sys2Proof.Machine.execThermalIndexStep r s
  | .thresholdWrite rq r k v => Sys2Proof.Machine.execThresholdWrite rq r k v s
  | .powerCapTick watts => Sys2Proof.Machine.execPowerCapTick watts s
  | .overcurrentTrip deciA => Sys2Proof.Machine.execOvercurrentTrip deciA s
  | .halfClockDownEntry east => Sys2Proof.Machine.execHalfClockDownEntry east s
  | .halfClockDownExit east => Sys2Proof.Machine.execHalfClockDownExit east s
  | .powerOn st => Sys2Proof.Machine.execPowerOn st s
  | .prechargeComplete mV => Sys2Proof.Machine.execPrechargeComplete mV s
  | .regionPowerSlot slot ok => Sys2Proof.Machine.execRegionPowerSlot slot ok s
  | .microcodeRetry t ok => Sys2Proof.Machine.execMicrocodeRetry t ok s
  | .bootM2Entry => Sys2Proof.Machine.execBootM2Entry s
  | .requestRun rq => Sys2Proof.Machine.execRequestRun rq s
  | .requestComputeReset rq => Sys2Proof.Machine.execRequestComputeReset rq s
  | .requestComputeIdle rq => Sys2Proof.Machine.execRequestComputeIdle rq s
  | .requestServiceOnly rq => Sys2Proof.Machine.execRequestServiceOnly rq s
  | .moduleReset rq sig => Sys2Proof.Machine.execModuleReset rq sig s
  | .edgeReset rq v => Sys2Proof.Machine.execEdgeReset rq v s
  | .tileResetWrite rq t v => Sys2Proof.Machine.execTileResetWrite rq t v s
  | .commandProducerWrite rq v => Sys2Proof.Machine.execCommandProducerWrite rq v s
  | .completionConsumerWrite rq v => Sys2Proof.Machine.execCompletionConsumerWrite rq v s
  | .leaseRenew rq v => Sys2Proof.Machine.execLeaseRenew rq v s
  | .leaseReclaim rq v => Sys2Proof.Machine.execLeaseReclaim rq v s
  | .leaseExpiry => Sys2Proof.Machine.execLeaseExpiry s
  | .coreWatchdogExpiry core exception imageOk ticks => Sys2Proof.Machine.execCoreWatchdogExpiry core exception imageOk ticks s
  | .imageWrite rq img => Sys2Proof.Machine.execImageWrite rq img s
  | .enrolmentRecordWrite rq rec => Sys2Proof.Machine.execEnrolmentRecordWrite rq rec s
  | .provisioningRecordWrite rq rec => Sys2Proof.Machine.execProvisioningRecordWrite rq rec s
  | .tokenUnlockObservation rq tok => Sys2Proof.Machine.execTokenUnlockObservation rq tok s
  | .tokenRelock rq tok => Sys2Proof.Machine.execTokenRelock rq tok s
  | .tokenQuarantine rq tok => Sys2Proof.Machine.execTokenQuarantine rq tok s
  | .tokenReleaseQuarantine rq tok => Sys2Proof.Machine.execTokenReleaseQuarantine rq tok s
  | .tokenRetire rq tok => Sys2Proof.Machine.execTokenRetire rq tok s
  | .observationLockWrite rq v => Sys2Proof.Machine.execObservationLockWrite rq v s
  | .attestationNonceWrite rq nonce keysOk => Sys2Proof.Machine.execAttestationNonceWrite rq nonce keysOk s
  | .attestationSigned => Sys2Proof.Machine.execAttestationSigned s
  | .traceEnableWrite rq v => Sys2Proof.Machine.execTraceEnableWrite rq v s
  | .eventRingRead rq => Sys2Proof.Machine.execEventRingRead rq s
  | .eventLogRead rq => Sys2Proof.Machine.execEventLogRead rq s
  | .commandTimeout p fence same => Sys2Proof.Machine.execCommandTimeout p fence same s
  | .directShipmentComplete e g b => Sys2Proof.Machine.execDirectShipmentComplete e g b s
  | .runningTransitionComplete => Sys2Proof.Machine.execRunningTransitionComplete s

end Sys2Proof.Machine
end

