-- ==== Sys2Proof/Safety.lean ====
section
/-! DEFINITION. The words in which claims are stated: bounds and forms that hold in every state a run reaches, when a
command is carried out, and what stays unchanged. -/
namespace Sys2Proof.Machine

/-! Forms of the state. -/

/-- The event ring holds at most 4,096 records and the persistent log at most 65,536 (R418, R420). -/
abbrev State.bounded (s : State) : Prop := s.ring.length ≤ 4096 ∧ s.log.length ≤ 65536

/-- Every memory is in its canonical form. -/
def State.memsOk (s : State) : Prop := ∀ k : Nat, (mget ({} : Mem) s.mems k).wf = true

/-! Outcomes. -/

/-- A command is carried out: it answers a next state, of which P holds. -/
def Gives (i : Instr) (s : State) (P : State → Prop) : Prop := ∃ u, exec i s = .next u ∧ P u

/-! Frames. -/

/-- Every byte of every memory reads as before, and no stored word has changed its symbols. -/
def SameMem (s u : State) : Prop := ∀ (m : MemUnit) (a : Nat), u.peek m a = s.peek m a ∧ (u.mem m).errs = (s.mem m).errs

/-- Nothing outside one tile has changed. -/
def OnlyTile (t : TileId) (s u : State) : Prop :=
  u = { s with tiles := u.tiles } ∧ ∀ j, j ≠ t.val → u.tile j = s.tile j

/-! Instructions of a tile. -/

/-- A context issues an instruction now: its tile executes its program (R273, R363) and it is its turn (R114); the fields of
the word are legal (R115, R440), the word that the instruction store holds at its address, if it holds one, spells the
instruction, operand bits included, and the next instruction address exists (R112). -/
abbrev State.issues (s : State) (t : TileId) (c : CtxId) (k : OpCode) (h : Hdr) (m : Low) : Prop :=
  s.mayIssue t.val c.val = true ∧ k.2 < opcodesOf k.1 ∧ hdrOk k h = true
    ∧ (∀ w, (s.tile t.val).code[((s.tile t.val).ctx c.val).pc]? = some w → wordNames w k h m = true)
    ∧ ((s.tile t.val).ctx c.val).pc < 8191

/-- An instruction whose context issues it now is carried out: it answers a next state, of which P holds. -/
def Issued (s : State) (t : TileId) (c : CtxId) (k : OpCode) (h : Hdr) (m : Low) (i : Instr) (P : State → Prop) : Prop :=
  s.issues t c k h m → Gives i s P

/-- The issuing context as it issues: ready. -/
def State.asIssued (s : State) (t : TileId) (c : CtxId) : Ctx := { (s.tile t.val).ctx c.val with run := .ready }

/-- The tile after an issue: which context issued last, and when (R114). -/
def State.issuedTile (s : State) (t : TileId) (c : CtxId) : Tile :=
  { s.tile t.val with last := c.val, issued := some (s.coreOf t.val) }

/-- The increment that a completion owes its counter: 1, in the next core cycle (R116). -/
def State.owed (s : State) (t : TileId) (sig : Option (Fin 64)) : List (Fin 64 × BitVec 32 × Nat) :=
  match sig with
  | some k => [(k, 1, s.coreOf t.val + 1)]
  | none => []

/-- The other contexts of the tile keep what they hold; the YIELD of one whose turn came before that of context c has had
its effect (R117). -/
def OthersKeep (t : TileId) (c : CtxId) (s u : State) : Prop :=
  ∀ j, j ≠ c.val → (u.tile t.val).ctx j = { (s.tile t.val).ctx j with
    yielded := ((s.tile t.val).ctx j).yielded && !((s.tile t.val).turns.takeWhile (· != c.val)).contains j }

/-- The tile once an operation with a possibly bound operand of n vectors has taken its transfers (R119, R123). -/
def Tile.bindTo (x : Tile) (d : Desc) (n : Nat) : Tile := if d.bound then x.take d.boundQ (d.transfers n) else x

/-- An operation as it is issued: number, context and signal, and the transfers of its bound queue that serve others. -/
def State.opIssued (s : State) (t : TileId) (c : CtxId) (h : Hdr) (k : OpKind) (d : Desc) : Op :=
  { id := (s.tile t.val).nextId, ctx := c, kind := k, sig := sigOf h,
    from' := if d.bound then ((s.tile t.val).queue d.boundQ).taken else 0 }

/-- An operation has been issued: it joins those in progress on the tile, which is x otherwise, the next instruction follows,
the context holds y otherwise, and nothing else has changed. -/
def OpBegun (s u : State) (t : TileId) (c : CtxId) (o : Op) (x : Tile) (y : Ctx) : Prop :=
  OnlyTile t s u ∧ OthersKeep t c s u
    ∧ u.tile t.val = { x with ctxs := (u.tile t.val).ctxs, ops := (s.tile t.val).ops ++ [o], nextId := (s.tile t.val).nextId + 1 }
    ∧ (u.tile t.val).ctx c.val = { y with pc := ((s.tile t.val).ctx c.val).pc + 1, run := .ready }

/-- A vector operation has run: one more operation of the vector unit awaits completion with the signal that the word
names, the next instruction follows, the context holds y otherwise, and nothing else has changed. -/
def VectorRan (s u : State) (t : TileId) (c : CtxId) (h : Hdr) (y : Ctx) : Prop :=
  OpBegun s u t c { id := (s.tile t.val).nextId, ctx := c, kind := .vector, sig := sigOf h } (s.issuedTile t c) y

/-- A step of an operation has run: it has done one more, has become k, and nothing but the engines and memory of its tile
has changed. -/
def Stepped (s u : State) (t : TileId) (o : Op) (k : OpKind) : Prop :=
  (∀ j, j ≠ t.val → u.tile j = s.tile j) ∧ u.dict = s.dict ∧ (∀ m, m ≠ .sram t → u.mem m = s.mem m)
    ∧ (u.tile t.val).queues = (s.tile t.val).queues ∧ (u.tile t.val).ops.map (·.id) = (s.tile t.val).ops.map (·.id)
    ∧ ((∀ p ∈ (s.tile t.val).ops, p.id = o.id → p = o) →
        ∀ p ∈ (u.tile t.val).ops, p.id = o.id → p.pos = o.pos + 1 ∧ p.kind = k)

/-- A vector operation has written g to the 64 lanes of register d, and to no other register. -/
def WroteLanes (s u : State) (t : TileId) (c : CtxId) (h : Hdr) (d : Fin 32) (g : Nat → Num) : Prop :=
  VectorRan s u t c h { (s.tile t.val).ctx c.val with v := ((u.tile t.val).ctx c.val).v }
    ∧ (∀ l, l < 64 → ((u.tile t.val).ctx c.val).lane d.val l = Fmt.w40.encode .nearestEven (g l))
    ∧ ∀ v l, v ≠ d.val → l < 64 → ((u.tile t.val).ctx c.val).lane v l = ((s.tile t.val).ctx c.val).lane v l

/-- The instruction could not issue and costs no issue cycle: its context waits for w, and nothing else has changed (R114). -/
def Waits (s u : State) (t : TileId) (c : CtxId) (w : Wait) : Prop :=
  OnlyTile t s u ∧ OthersKeep t c s u ∧ u.tile t.val = { s.tile t.val with ctxs := (u.tile t.val).ctxs }
    ∧ (u.tile t.val).ctx c.val = { (s.tile t.val).ctx c.val with run := .waiting w (s.coreOf t.val) }

/-- A context has stopped with a fault: code and instruction address are recorded and the fault is counted (R131). -/
def Faulted (s u : State) (t : TileId) (c : CtxId) (code : Nat) : Prop :=
  ((u.tile t.val).ctx c.val).run = .stopped ∧ ((u.tile t.val).ctx c.val).fault = code
    ∧ ((u.tile t.val).ctx c.val).faddr = ((s.tile t.val).ctx c.val).pc
    ∧ u.count 0x7200 0x11 t.val = s.count 0x7200 0x11 t.val + 1

/-- The descriptor at an address is read at issue and is free of changed symbols (R119, R178). -/
abbrev State.hasDesc (s : State) (t : TileId) (a : Nat) (d : Desc) : Prop :=
  descAddrOk a = true ∧ (s.mem (.sram t)).errs = [] ∧ s.readDesc t a (s.cold t.val) = some d

/-- A transfer has been appended to a queue of the issuing context (R121), and the next instruction follows. -/
def Appended (s u : State) (t : TileId) (c : CtxId) (h : Hdr) (k : XKind) (len route : Nat) : Prop :=
  OnlyTile t s u ∧ OthersKeep t c s u
    ∧ u.tile t.val = { s.issuedTile t c with
        ctxs := (u.tile t.val).ctxs, queues := (u.tile t.val).queues, nextId := (s.tile t.val).nextId + 1 }
    ∧ (u.tile t.val).ctx c.val = { (s.tile t.val).ctx c.val with pc := ((s.tile t.val).ctx c.val).pc + 1, run := .ready }
    ∧ (let q := 4 * c.val + h.unit.toNat % 4
       (u.tile t.val).queue q = { (s.tile t.val).queue q with
          xfers := ((s.tile t.val).queue q).xfers ++
            [{ id := (s.tile t.val).nextId, ctx := c, q := q, kind := k, len := len, sig := sigOf h, route := route }] }
       ∧ ∀ j, j ≠ q → (u.tile t.val).queue j = (s.tile t.val).queue j)

/-- Fewer than 64 transfers of the queue that a word names have not started (R121). -/
abbrev State.queueRoom (s : State) (t : TileId) (c : CtxId) (h : Hdr) : Prop :=
  ((s.tile t.val).queue (4 * c.val + h.unit.toNat % 4)).notStarted < 64

/-- After a SYNC or CTRL operation that completes at issue: the context is y but for the next instruction address, the
counters are g, the counter that the word names is owed one (R116), and nothing else has changed. -/
def SyncRan (s u : State) (t : TileId) (c : CtxId) (h : Hdr) (y : Ctx) (g : Nat → BitVec 32) : Prop :=
  OnlyTile t s u ∧ OthersKeep t c s u
    ∧ u.tile t.val = { s.issuedTile t c with
        ctxs := (u.tile t.val).ctxs, counters := (u.tile t.val).counters,
        incs := (s.tile t.val).incs ++ s.owed t (sigOf h) }
    ∧ (u.tile t.val).ctx c.val = { y with pc := ((s.tile t.val).ctx c.val).pc + 1 }
    ∧ ∀ k : Fin 64, (u.tile t.val).counter k.val = g k.val

/-! The service plane. -/

/-- The newest record of the event ring has a code and a source, where no word of the stack that holds the ring's mirror had
changed symbols before: else what the mirror's write finds is recorded after it (R180). -/
abbrev Told (s u : State) (code src : Nat) : Prop :=
  (s.mem (.stack 0)).errs = [] → u.ring.head?.map (fun r => (r.code, r.src)) = some (code, src)

/-- The one command that has been taken, for a partition p and with an opcode, may run: service core 1 runs, the module
is in M0 or M2, and no turnover names the partition. -/
abbrev State.onlyTaken (s : State) (c : Taken) (p : PartId) (op : Nat) : Prop :=
  s.taken = [c] ∧ c.part = p.val ∧ c.op = op ∧ c.running = false ∧ (s.core 1).down = false
    ∧ (s.mstate = 0 ∨ s.mstate = 2) ∧ s.inTurnover p.val = false

/-- No operation is under way that fails with a sub-port: no far request, no snapshot shipment, and no job whose route
plan names the sub-port (R188, R316). -/
abbrev State.unusedSub (s : State) (p b : Nat) : Prop :=
  s.engines = [] ∧ s.shipping = none ∧ s.jobsOn p b = []

/-- A packet that a sub-port brings is taken as far as its way goes: the sub-port is not the host's, and the packet has passed
fewer than 63 modules (R308, R312). -/
def State.wayOpen (s : State) (x : PortId × SubId) (w : Way) : Bool :=
  s.hostSub != some (x.1.val, x.2.val) && decide (w.hops.toNat < 63)

/-! Transactions. -/

/-- A request for an object is taken: it reaches the module and has not come too far; as the bridge marks it, no permission,
restart or security state is in its way (R308, R312, R330, R334, R384, R414). -/
abbrev State.takes (s : State) (rq : Path) (write : Bool) (idx sub inst : Nat) : Prop :=
  s.arrives (s.fromPath rq) idx inst = true ∧ s.tooFar (s.fromPath rq) = none
    ∧ s.blocked (s.fromPath rq) write idx sub inst = none

/-- A write of an object is taken, and the object's block is powered (R329). -/
abbrev State.takesWrite (s : State) (rq : Path) (idx sub inst : Nat) : Prop :=
  s.takes rq true idx sub inst ∧ s.unpowered idx sub inst = false

/-- A write ends without abort: its effect gives w, of which P holds, and w answers. -/
def Wrote (i : Instr) (s : State) (rq : Path) (idx sub inst : Nat) (P : State → Prop) : Prop :=
  Gives i s (fun u => ∃ w, P w ∧ u = w.answer (writeReply (s.fromPath rq) idx sub inst 0 true false none))

/-- A write is answered with an abort and changes nothing else. -/
def Aborted (i : Instr) (s : State) (rq : Path) (idx sub inst : Nat) (a : Abort) : Prop :=
  exec i s = .next (s.answer (writeReply (s.fromPath rq) idx sub inst 0 true false (some a)))

/-- A write is taken and stays open: its effect gives w, of which P holds, and the response comes later (R327). -/
def Opened (i : Instr) (s : State) (rq : Path) (idx sub : Nat) (P : State → Prop) : Prop :=
  Gives i s (fun u => ∃ w, P w
    ∧ u = { w with opens := { path := s.fromPath rq, idx, sub, inst := 0, since := w.now } :: w.opens })

/-- A read answers with a value, in parts of at most 4,096 bytes in-band (R331, R333), and changes no object or memory. -/
def ReadBack (i : Instr) (s : State) (rq : Path) (bs : List Byte) : Prop :=
  Gives i s (fun u => u.dict = s.dict ∧ SameMem s u
    ∧ u.replies.head?.map (fun r => (r.path, r.abort, r.total, r.data))
        = some (s.fromPath rq, none, bs.length, if isCoe rq then bs else bs.take 4096))

end Sys2Proof.Machine
end

