-- ==== Sys2Proof/Certificates/Slice0/Obligations.lean ====
section
/-! DEFINITION. The statements about the module, one definition each. -/
open Sys2Proof Sys2Proof.Machine

/-! The queue and the outcomes. -/

/-- A step takes the oldest command and carries it out on the state with the queue's rest. -/
def Obligations.StepRunsFrontCommand : Prop :=
  ∀ (c : Instr) (r : List Instr) (s : State), s.pending = c :: r → step s = exec c { s with pending := r }

/-- With no command waiting, one mesh cycle passes (the model's choice, log entry 2): the mesh counter advances by 1. Where no
tile, router or engine holds anything, no sub-port is up, every service core runs and no command waits in the ring, the
objects, memories, events and responses are as before; a tick of the reference advances the counter of each region's
state (R362), but in M4. -/
def Obligations.IdleStepAdvancesTheClock : Prop :=
  ∀ (s : State) (r : RegionId), s.bounded → s.pending = [] → ∃ u, step s = .next u ∧ u.now = s.now + 1 ∧ u.pending = []
    ∧ (s.tiles = [] → s.routers = [] → s.engines = [] → s.subs = [] → (∀ c, c < 4 → (s.core c).down = false) →
        u32Diff (s.obj 0x2300 1 0) (s.obj 0x2300 2 0) = 0 →
        u.dict = s.dict ∧ u.mems = s.mems ∧ u.ring = s.ring ∧ u.replies = s.replies
        ∧ (s.mstate ≠ 4 → (s.region r.val).st ≠ .running → u.count 0x7600 6 r.val
            = s.count 0x7600 6 r.val + (if (s.now + 1) % 32 = 0 then 1 else 0)))

/-- Every step and every command answers a next state, and keeps the event ring within its 4,096 records and the persistent
log within its 65,536 (R418, R420). -/
def Obligations.EveryStepKeepsTheLogBounds : Prop :=
  ∀ s : State, (∃ u, step s = .next u ∧ u.bounded) ∧ ∀ i : Instr, ∃ u, exec i s = .next u ∧ u.bounded

/-! The vector unit. -/

/-- Elementwise operations write their rounded result to the 64 lanes of the destination, and nothing else but the
operation's record and the next instruction address changes; while a halted load or store keeps the vector unit, or one of
their context has not run, they wait. -/
def Obligations.VectorElementwiseWritesLanes : Prop :=
  ∀ (s : State) (t : TileId) (c : CtxId) (h : Hdr) (d a b e : Fin 32) (k : CmpCond), s.bounded →
    let x := (s.tile t.val).ctx c.val
    let r (v : Machine.Num) : Machine.Num := Num.rne (prec h) v
    let ran (op : Nat) (i : Instr) (g : Nat → Machine.Num) : Prop :=
      Issued s t c (1, op) h noLow i (fun u => if (s.tile t.val).engaged c.val .vector then Waits s u t c (.swap .vector)
        else WroteLanes s u t c h d g)
    ran 2 (.vectorAdd t c h d a b) (fun l => r ((x.val a l).add (x.val b l)))
    ∧ ran 3 (.vectorSub t c h d a b) (fun l => r ((x.val a l).sub (x.val b l)))
    ∧ ran 4 (.vectorMul t c h d a b) (fun l => r ((x.val a l).mul (x.val b l)))
    ∧ ran 5 (.vectorFma t c h d a b e) (fun l => r (Num.fma (x.val a l) (x.val b l) (x.val e l)))
    ∧ ran 6 (.vectorMax t c h d a b) (fun l => (x.val a l).max2 (x.val b l))
    ∧ ran 7 (.vectorMin t c h d a b) (fun l => (x.val a l).min2 (x.val b l))
    ∧ ran 8 (.vectorCmp t c h k d a b) (fun l => if cmpHolds k (x.val a l) (x.val b l) then .one else .zero)
    ∧ ran 9 (.vectorExp2 t c h d a) (fun l => r ((x.val a l).exp2 (prec h)))
    ∧ ran 10 (.vectorLog2 t c h d a) (fun l => r ((x.val a l).log2 (prec h)))
    ∧ ran 11 (.vectorRsqrt t c h d a) (fun l => r (x.val a l).rsqrt)
    ∧ ran 12 (.vectorRcp t c h d a) (fun l => r (x.val a l).rcp)

/-- A reduction over N elements, N from 1 to 2,048 and laid out within v0–v31, writes its result to all 64 lanes of the
destination; any other N, or range, stops the context with fault code 0x01. -/
def Obligations.VectorReductionsWriteOneValue : Prop :=
  ∀ (s : State) (t : TileId) (c : CtxId) (h : Hdr) (d first : Fin 32) (n : BitVec 16), s.bounded →
    let x := (s.tile t.val).ctx c.val
    let xs := x.run64 first n.toNat
    let all (P : State → Prop) (Q : Machine.Num → State → Prop) : Prop :=
      Issued s t c (1, 13) h noLow (.vectorRsum t c h d first n) (fun u => P u ∧ Q (rsum (prec h) xs) u)
      ∧ Issued s t c (1, 14) h noLow (.vectorRmax t c h d first n) (fun u => P u ∧ Q (rext Num.max2 xs) u)
      ∧ Issued s t c (1, 15) h noLow (.vectorRmin t c h d first n) (fun u => P u ∧ Q (rext Num.min2 xs) u)
    (1 ≤ n.toNat → n.toNat ≤ 2048 → first.val + (n.toNat + 63) / 64 ≤ 32 →
      ((s.tile t.val).engaged c.val .vector = false → all (fun _ => True) (fun v u => WroteLanes s u t c h d (fun _ => v)))
      ∧ ((s.tile t.val).engaged c.val .vector = true → all (fun u => Waits s u t c (.swap .vector)) (fun _ _ => True)))
    ∧ (n.toNat = 0 ∨ 2048 < n.toNat ∨ 32 < first.val + (n.toNat + 63) / 64 →
      all (fun u => Faulted s u t c 1) (fun _ _ => True))

/-- The helpers work as their descriptor says: NSTAT writes the mean and the reciprocal deviation to two registers,
NAPPLY and SMAX write N elements from a first register on; every other lane keeps its value. -/
def Obligations.VectorHelpersFollowTheirDescriptor : Prop :=
  ∀ (s : State) (t : TileId) (c : CtxId) (h : Hdr) (rms : Bool) (desc : BitVec 32) (d : Helper),
    s.bounded → descAddrOk desc.toNat = true → (s.mem (.sram t)).errs = [] →
    (s.tile t.val).engaged c.val .vector = false →
    let x := (s.tile t.val).ctx c.val
    let bs := s.bytes (.sram t) desc.toNat 32
    let lane (u : State) (v l : Nat) : Nat := ((u.tile t.val).ctx c.val).lane v l
    let code (v : Machine.Num) : Nat := Fmt.w40.encode .nearestEven v
    let ran (u : State) : Prop := VectorRan s u t c h { x with v := ((u.tile t.val).ctx c.val).v }
    let wrote (u : State) (ys : List Machine.Num) : Prop :=
      (∀ i, i < d.n → lane u (d.y + i / 64) (i % 64) = code (ys.getD i .zero))
        ∧ ∀ v l, l < 64 → ¬(d.y ≤ v ∧ (v - d.y) * 64 + l < d.n) → lane u v l = x.lane v l
    (helperOf ⟨false, true, false⟩ bs = some d →
      Issued s t c (1, 16) h (lowMod 1 (if rms then 1 else 0) desc) (.vectorNstat t c h rms desc) (fun u => ran u
        ∧ (let r := nstat (prec h) rms (Fmt.a32.decode d.eps) (x.run64 d.x d.n)
           ∀ v l, l < 64 → lane u v l = if v = d.mu then code r.1 else if v = d.mu + 1 then code r.2 else x.lane v l)))
    ∧ (helperOf ⟨true, true, true⟩ bs = some d →
      Issued s t c (1, 17) h (lowOp desc) (.vectorNapply t c h desc) (fun u => ran u
        ∧ wrote u (napply (prec h) (x.val d.mu) (x.val (d.mu + 1)) (x.run64 d.x d.n) (x.run64 d.gamma d.n)
            (x.run64 d.beta d.n))))
    ∧ (helperOf ⟨true, false, false⟩ bs = some d →
      Issued s t c (1, 18) h (lowOp desc) (.vectorSmax t c h desc) (fun u => ran u ∧ wrote u (smax (prec h) (x.run64 d.x d.n))))

/-- LD and ST join the operations in progress, and wait while the vector unit is not ready. With its last step an LD writes
the 64 decoded elements of its group, times the tensor scale where one is present, and 0 past the row's end; an untagged ST
has the bytes that it makes written to the tile's SRAM, and to no other memory. -/
def Obligations.VectorLoadsAndStoresMoveElements : Prop :=
  ∀ (s : State) (t : TileId) (c : CtxId) (h : Hdr) (v : Fin 32) (desc : BitVec 32) (d : Desc) (f : Fmt) (o : Op),
    s.bounded → s.hasDesc t desc.toNat d → d.vecFault = false →
    let x := s.tile t.val
    let y := s.asIssued t c
    let xs := storeVals y (prec h) d v
    let r := formReady f d y.asm xs
    let ld : OpKind := .vectorLd v (bitOf h.unit.toNat 2) d
    let st : OpKind := if d.bs then .vectorSt d r.1 [] none else .vectorSt d [] (formDirect f xs) none
    let places := d.groupLanes.map (fun j => (d.first, 64 * d.second + j))
    (x.engaged c.val .vector = false →
      Issued s t c (1, 0) h (lowOp desc) (.vectorLd t c h v desc) (fun u =>
        OpBegun s u t c (s.opIssued t c h ld d) ((s.issuedTile t c).bindTo d 1) y)
      ∧ (d.tag = 0 → y.store = none → Fmt.ofCode d.fmt = some f → x.asmFull c.val d places = false →
          Issued s t c (1, 1) h (lowOp desc) (.vectorSt t c h v desc) (fun u =>
            OpBegun s u t c (s.opIssued t c h st d) ((s.issuedTile t c).bindTo d 1)
              (if d.bs then { y with asm := keepOpen d r.2.1 r.2.2 } else y))))
    ∧ (x.engaged c.val .vector = true →
        Issued s t c (1, 0) h (lowOp desc) (.vectorLd t c h v desc) (fun u => Waits s u t c (.swap .vector))
        ∧ Issued s t c (1, 1) h (lowOp desc) (.vectorSt t c h v desc) (fun u => Waits s u t c (.swap .vector)))
    ∧ (let u := s.opStep t o
       let old := x.ctx o.ctx.val
       let new := (u.tile t.val).ctx o.ctx.val
       (∀ w40, o.kind = .vectorLd v w40 d → Stepped s u t o o.kind ∧ u.mems = s.mems
          ∧ ∀ w l, l < 64 → new.lane w l = if w = v.val ∧ o.kind.steps ≤ o.pos + 1 then
              Fmt.w40.encode .nearestEven (s.loadLane t d (if w40 then .w40 else .a32) l) else old.lane w l)
       ∧ (∀ bs ms run, o.kind = .vectorSt d bs ms run → Stepped s u t o o.kind
          ∧ u.mems = if o.kind.steps ≤ o.pos + 1 then (s.writeMade t d bs ms).mems else s.mems))

/-! The arrays. -/

/-- A LOAD keeps the shadow block of its array until it has run, and waits while another load, or a block not yet active,
has it. Each of its 32 steps reads one row of cells, G elements for each output or one output whole, and the last leaves the
block in the shadow block. -/
def Obligations.TensorLoadFillsTheShadowBlock : Prop :=
  ∀ (s : State) (t : TileId) (c : CtxId) (h : Hdr) (o : Orient) (role : Role) (desc : BitVec 32) (d : Desc) (a : Fin 3)
    (p : Op) (b : Block), s.bounded → s.hasDesc t desc.toNat d → h.unit.toNat = a.val →
    let x := (s.tile t.val).array a.val
    let load (P : State → Prop) : Prop := Issued s t c (0, 0) h (lowOp desc) (.tensorLoad t c h o role desc) P
    (x.wrongRole role = false → d.loadFault o role = false → (x.loading = true ∨ x.shadow ≠ none) →
      load (fun u => Waits s u t c (.swap (.load a))))
    ∧ (x.wrongRole role = false → d.loadFault o role = false → x.loading = false → x.shadow = none →
      load (fun u => OpBegun s u t c (s.opIssued t c h (.load a d (emptyBlock d o)) d)
        (((s.issuedTile t c).setArray a.val { x with loading := true, loadedEver := true }).bindTo d 32) (s.asIssued t c)))
    ∧ (p.kind = .load a d b → p.pos < 32 →
      (let u := s.opStep t p
       let g := loadGroup d.fmt
       ∃ b' : Block, Stepped s u t p (.load a d b') ∧ u.mems = s.mems
        ∧ b'.orient = b.orient ∧ b'.fmt = b.fmt ∧ b'.scale = b.scale
        ∧ (b.orient = .b → b'.outs = b.outs ++ [(List.range (32 * g)).map (fun e =>
            s.operand t d (32 * d.first + p.pos) (32 * g * d.second + e))])
        ∧ (b.orient = .a → b.outs.length = 32 → ∀ j, j < 32 → b'.outs.getD j [] = b.outs.getD j [] ++
            (List.range g).map (fun e => s.operand t d (32 * d.first + j) (32 * g * d.second + g * p.pos + e)))
        ∧ (u.tile t.val).array a.val = (if p.pos = 31 then { x with shadow := some b', loading := false } else x)
        ∧ ∀ j, j ≠ a.val → (u.tile t.val).array j = (s.tile t.val).array j))

/-- A STREAM takes the block in the shadow block, or else the active one, and waits while a load runs. Its first step on a
newly loaded block makes it active; each step adds one vector to the next accumulator entry, under the threshold in force in
that core cycle, and other entries keep their value. -/
def Obligations.TensorStreamAddsItsVectors : Prop :=
  ∀ (s : State) (t : TileId) (c : CtxId) (h : Hdr) (o : Orient) (role : Role) (cont : Bool) (desc : BitVec 32) (d : Desc)
    (n base : Nat) (a : Fin 3) (b : Block) (k : PClass) (q : Op) (p : PassCfg) (swap : Bool),
    s.bounded → s.hasDesc t desc.toNat d → descAddrOk (desc.toNat + 32) = true → h.unit.toNat = a.val →
    let x := (s.tile t.val).array a.val
    let stream (P : State → Prop) : Prop :=
      Issued s t c (0, 1) h (lowOp desc) (.tensorStream t c h o role cont desc []) P
    (ctlOf (s.bytes (.sram t) (desc.toNat + 32) 32) = some (n, base) →
      x.wrongRole role = false → d.streamFault o n = false → x.loadedEver = true →
      (x.loading = true → stream (fun u => Waits s u t c (.swap (.stream a))))
      ∧ (x.loading = false → (if x.shadow.isSome then x.shadow else x.active) = some b → b.passClass d.fmt o role = some k →
          stream (fun u => OpBegun s u t c
            (s.opIssued t c h (.stream a d
              { cls := k, window := k.window d.fmt, orient := o, clear := !cont, sx := if d.ts then some d.scale else none }
              base n (x.shadow.isSome && !(s.tile t.val).swapPends a.val) b) d)
            ((s.issuedTile t c).bindTo d n) (s.asIssued t c))))
    ∧ (q.kind = .stream a d p base n swap b → q.pos < n →
      (let u := s.opStep t q
       let y := (u.tile t.val).array a.val
       let z : Arr := if swap && q.pos = 0 then { x with active := some b, shadow := none } else x
       let len := 32 * p.cls.group
       Stepped s u t q q.kind ∧ u.mems = s.mems ∧ y.active = z.active ∧ y.shadow = z.shadow ∧ y.role = x.role
        ∧ (q.pepper = none → y = z.addVector (s.inForce 0x8010 1 0 (regionOf t.val)) p b
            ((List.range len).map (fun e => s.operand t d (d.first + q.pos) (len * d.second + e))) (base + q.pos))
        ∧ (∀ ps, q.pepper = some ps → y.pepper = x.pepper)
        ∧ (∀ j e, j < 32 → e < 1024 → e ≠ base + q.pos →
            mget ({} : Entry) y.entries (j * 1024 + e) = mget {} x.entries (j * 1024 + e))
        ∧ ∀ j, j ≠ a.val → (u.tile t.val).array j = (s.tile t.val).array j))

/-- A DRAIN joins the operations in progress, after the pass that it trails. Each step hands one entry to the producer, which
writes the tile's SRAM and no other memory; the accumulator entries stay as they are. A clearing pass waits for the drains
issued before it that have not read the entry, a trailing drain for its pass (R101). -/
def Obligations.TensorDrainWritesEntries : Prop :=
  ∀ (s : State) (t : TileId) (c : CtxId) (h : Hdr) (role : Role) (trails : Bool) (desc : BitVec 32) (d : Desc) (a : Fin 3)
    (o q : Op) (pass : Option Nat) (part : List ((Nat × Nat) × Machine.Num)) (f : Fmt),
    s.bounded → s.hasDesc t desc.toNat d → h.unit.toNat = a.val →
    let x := s.tile t.val
    let y := x.array a.val
    let places := (List.range d.count).flatMap (fun i => d.drainLanes.map (d.place i))
    (y.wrongRole role = false → d.drainFault = false →
      (x.drainsLegacy a.val d && !(d.fmt = 6 || d.fmt = 7)) = false → x.asmFull c.val d places = false →
      Issued s t c (0, 2) h (lowOp desc) (.tensorDrain t c h role trails desc) (fun u => ∃ pass,
        OpBegun s u t c { id := x.nextId, ctx := c, kind := .drain a d pass [], sig := sigOf h } (s.issuedTile t c)
          (s.asIssued t c)
        ∧ (trails = false → pass = none)
        ∧ (trails = true → pass = (x.ops.filter (fun o => o.kind.engine = some (3 + a.val))).getLast?.map (·.id))))
    ∧ (o.kind = .drain a d pass part → o.pos < d.count → d.tag = 0 → Fmt.ofCode d.fmt = some f →
      (let u := s.opStep t o
       let vals := y.drainVals d o.pos
       let r := formReady f d (x.ctx o.ctx.val).asm (part ++ vals)
       (u.tile t.val).arrays = x.arrays
        ∧ (d.bs = false → Stepped s u t o (.drain a d pass [])
            ∧ u.mems = (s.writeMade t d [] (formDirect f vals)).mems)
        ∧ (d.bs = true → Stepped s u t o (.drain a d pass (if o.pos + 1 = d.count then [] else r.2.2))
            ∧ u.mems = (s.writeMade t d r.1 []).mems
            ∧ ((u.tile t.val).ctx o.ctx.val).asm = if o.pos + 1 = d.count then keepOpen d r.2.1 r.2.2 else r.2.1)))
    ∧ (o.kind = .drain a d pass part → q ∈ x.ops →
        (∀ e p base n swap b, q.kind = .stream a e p base n swap b → o ∈ x.ops → o.id < q.id → p.clear = true →
          d.base + o.pos ≤ base + q.pos → base + q.pos < d.base + d.count → x.heldBack q = true)
        ∧ (∀ e p base n swap b, q.kind = .stream a e p base n swap b → pass = some q.id →
          base + q.pos ≤ d.base + o.pos → d.base + o.pos < base + n → x.heldBack o = true))

/-! Transfers. -/

/-- MOVE and NET operations append one transfer to the named queue of their context, read nothing else and write no
memory; a queue with 64 transfers not yet started holds the context instead, and a MOVE whose bound data has not arrived
waits for it; a MOVE of a W40 tensor to or from anywhere
outside tile SRAM is a descriptor fault (R52). -/
def Obligations.TransfersAreAppendedInOrder : Prop :=
  ∀ (s : State) (t : TileId) (c : CtxId) (h : Hdr) (src dst : BitVec 32) (a b : Desc) (route : Fin 512) (dest : Dest)
    (dests : List Dest) (od : Option Dest) (tail : Option TailHdr) (far : TileId) (ctr : Fin 64), s.bounded →
    let p := (s.tilePart t.val).getD 0
    let q := 4 * c.val + h.unit.toNat % 4
    let space (u : State) : Prop := Waits s u t c (.space q)
    let put (op : Nat) (i : Instr) (k : XKind) (len : Nat) : Prop :=
      Issued s t c (3, op) h noLow i (fun u => (s.queueRoom t c h → Appended s u t c h k len route.val)
        ∧ (¬s.queueRoom t c h → space u))
    put 3 (.netSignal t c h route far ctr) (.signal route.val far ctr) 0
    ∧ (s.hasDesc t src.toNat a → s.hasDesc t dst.toNat b → a.bound = false → b.bound = false →
        s.moveFault t.val a false = false → s.moveFault t.val b true = false → moveW40 a b = false →
        Issued s t c (2, 0) h noLow (.moveCopy t c h src ⟨dst, route⟩ []) (fun u =>
          (s.queueRoom t c h → Appended s u t c h (.move a b) a.length route.val) ∧ (¬s.queueRoom t c h → space u)))
    ∧ (s.hasDesc t src.toNat a → s.hasDesc t dst.toNat b → (a.bound = true ∧ (s.tile t.val).ready a.boundQ = 0) →
        s.moveFault t.val a false = false → s.moveFault t.val b true = false → moveW40 a b = false → s.queueRoom t c h →
        Issued s t c (2, 0) h noLow (.moveCopy t c h src ⟨dst, route⟩ []) (fun u => OpBegun s u t c
          { id := (s.tile t.val).nextId, ctx := c, kind := .move a b route.val q, sig := sigOf h } (s.issuedTile t c)
          (s.asIssued t c)))
    ∧ (s.hasDesc t src.toNat a → s.netFault t.val a false = false →
        ((s.gateEnd p route.val (s.putVc t.val q).val t.val = none → s.destFault t.val dest a.length = false →
            put 0 (.netPut t c h src route dest) (.put a route.val dest) a.length)
          ∧ (∀ g d : Nat, s.gateEnd p route.val (s.putVc t.val q).val t.val = some (g, d) →
            s.relayFault t.val d a.length = false →
            put 0 (.netPut t c h src route dest) (.put a route.val dest) a.length))
        ∧ ((a.fmt = 5 ∨ a.fmt = 7) → a.bs = false → (s.tile t.val).guarded = false →
          put 2 (.netReduce t c h src route od tail) (.reduce a route.val od tail) a.length))
    ∧ (s.hasDesc t src.toNat a → s.netFault t.val a true = false → (∀ x ∈ dests, s.destFault t.val x a.length = false) →
        put 1 (.netMcast t c h src route dests) (.mcast a route.val dests (s.tile t.val).stamp) a.length)
    ∧ (s.hasDesc t src.toNat a → s.hasDesc t dst.toNat b → (a.fmt = 8 ∨ b.fmt = 8) → (a.space ≠ 0 ∨ b.space ≠ 0) →
        Issued s t c (2, 0) h noLow (.moveCopy t c h src ⟨dst, route⟩ []) (fun u =>
          Faulted s u t c 1 ∧ (u.tile t.val).queues = (s.tile t.val).queues))

/-! SYNC and CTRL. -/

/-- CSET and CADD set and add to a counter, modulo 2^32; TMO sets the timeout; SSET, SADD and SCMP write one scalar
register and keep the others; the next instruction follows. -/
def Obligations.CountersAndScalarsAreWritten : Prop :=
  ∀ (s : State) (t : TileId) (c : CtxId) (h : Hdr) (ctr : Fin 64) (v : BitVec 32) (d a : Fin 16) (op : Opnd)
    (cond : BrCond), s.bounded →
    let x := s.tile t.val
    let y := s.asIssued t c
    Issued s t c (4, 3) h (lowOp v) (.syncCset t c h ctr v) (fun u =>
      SyncRan s u t c h y (fun k => if k = ctr.val then v else x.counter k))
    ∧ Issued s t c (4, 4) h (lowOp v) (.syncCadd t c h ctr v) (fun u =>
        SyncRan s u t c h y (fun k => if k = ctr.val then x.counter k + v else x.counter k))
    ∧ Issued s t c (4, 5) h (lowOp v) (.syncTmo t c h v) (fun u => SyncRan s u t c h { y with tmo := v } x.counter)
    ∧ Issued s t c (5, 2) h noLow (.ctrlSset t c h d v) (fun u => SyncRan s u t c h (y.setScalar d v) x.counter)
    ∧ Issued s t c (5, 3) h noLow (.ctrlSadd t c h d op) (fun u =>
        SyncRan s u t c h (y.setScalar d (y.scalar d + opndVal y op)) x.counter)
    ∧ Issued s t c (5, 4) h noLow (.ctrlScmp t c h d a cond op) (fun u =>
        SyncRan s u t c h (y.setScalar d (if brHolds cond (y.scalar a) (opndVal y op) then 1 else 0)) x.counter)

/-- WAIT, FENCE and VWAIT begin to wait from the present core cycle. At the end of a core cycle every increment due in it is
applied before any condition is evaluated (R125); a wait whose condition then holds ends with result 0, or 0x80 in the
cycle in which its timeout expires (R128), and VWAIT delivers k into s15 and the verdict's flags into s14; one whose
condition does not hold goes on. -/
def Obligations.WaitsEndWhenTheirConditionHolds : Prop :=
  ∀ (s : State) (t : TileId) (c : CtxId) (h : Hdr) (ctr : Fin 64) (v : BitVec 32) (p : PartId) (q since : Nat), s.bounded →
    let x := s.tile t.val
    let y := s.asIssued t c
    let now := s.coreOf t.val
    let waits (k : OpCode) (m : Low) (i : Instr) (w : Wait) : Prop :=
      Issued s t c k h m i (fun u => SyncRan s u t c h { y with run := .waiting w now } x.counter)
    waits (4, 0) (lowMod 6 ctr.val v) (.syncWait t c h ctr v) (.counter ctr v)
    ∧ waits (4, 8) (lowOp v) (.syncVwait t c h v) (.verdict v)
    ∧ waits (4, 6) noLow (.syncFence t c h) (.fence (4 * c.val + h.unit.toNat % 4))
    ∧ (∀ k : Fin 64, (x.applyIncs now).counter k =
        (x.incs.filter (fun i => i.1 = k && i.2.2 ≤ now)).foldl (fun a i => a + i.2.1) (x.counter k))
    ∧ (let z := x.ctx c.val
       let u := s.settleWaits t.val
       let ended (w : Wait) (y : Ctx) : Prop := z.run = .waiting w since →
         (z.tmo = 0 ∨ now ≤ since + z.tmo.toNat) → since ≤ now →
         (u.tile t.val).ctx c.val = { y with
           run := .ready, res := if z.tmo ≠ 0 ∧ now = since + z.tmo.toNat then 0x80 else 0 }
       let goesOn (w : Wait) : Prop := z.run = .waiting w since → (u.tile t.val).ctx c.val = z
       x.semq = [] →
       (let n := (x.applyIncs now).counter ctr
        (0 ≤ (n - v).toInt → ended (.counter ctr v) z) ∧ ((n - v).toInt < 0 → goesOn (.counter ctr v)))
       ∧ ((x.queue q).xfers = [] → ended (.fence q) z) ∧ ((x.queue q).xfers ≠ [] → goesOn (.fence q))
       ∧ (x.part = some p →
          (0 ≤ ((s.part p.val).lastStamp - v).toInt → ended (.verdict v)
            ((z.setScalar 15 (BitVec.ofNat 32 (s.lossK p.val))).setScalar 14 ((s.part p.val).lastFlags.zeroExtend 32)))
          ∧ (((s.part p.val).lastStamp - v).toInt < 0 → goesOn (.verdict v))))

/-- SEMP adds one to a semaphore, and at its maximum counts instead; SEMW begins to wait. At the end of a core cycle a
context takes one where there is one: the one that has waited longest, and of several that began together the lowest number
(R126). FREE of a filled slot with no spilled transfer returns its credit to the holder. -/
def Obligations.SemaphoresAndSlotsAreTakenAndReturned : Prop :=
  ∀ (s : State) (t : TileId) (c : CtxId) (h : Hdr) (m : Fin 16) (buf : Fin 16) (slot : Fin 64) (l : Landing),
    s.bounded → h.sig = false →
    let x := s.tile t.val
    let y := s.asIssued t c
    let pc' (y : Ctx) : Ctx := { y with pc := y.pc + 1 }
    (x.sem m < 0xFFFF → Issued s t c (4, 2) h noLow (.syncSemp t c h m) (fun u => OnlyTile t s u ∧ OthersKeep t c s u
        ∧ (u.tile t.val).ctx c.val = pc' y
        ∧ ∀ j, (u.tile t.val).sem j = if j = m.val then x.sem j + 1 else x.sem j))
    ∧ (x.sem m = 0xFFFF → Issued s t c (4, 2) h noLow (.syncSemp t c h m) (fun u =>
        (u.tile t.val).sems = x.sems ∧ (u.tile t.val).ctx c.val = pc' y
          ∧ u.count 0x7200 0x12 t.val = s.count 0x7200 0x12 t.val + 1))
    ∧ Issued s t c (4, 1) h noLow (.syncSemw t c h m) (fun u => OnlyTile t s u ∧ OthersKeep t c s u
        ∧ (u.tile t.val).ctx c.val = pc' { y with run := .waiting (.sem m) (s.coreOf t.val) }
        ∧ (u.tile t.val).semq = x.semq ++ [(m.val, c.val)] ∧ (u.tile t.val).sems = x.sems)
    ∧ (∀ d since : Nat, (m.val, d) ∈ x.semq →
        (x.ctx d).run = .waiting (.sem m) since → x.sem m = 1 →
        (∀ w ∈ x.semq, w.1 = m.val → (x.ctx w.2).tmo = 0
          ∧ ∃ n, (x.ctx w.2).run = .waiting (.sem m) n ∧ (since < n ∨ (since = n ∧ d ≤ w.2))) →
        (let u := s.serveSem t.val m.val 8
         ((u.tile t.val).ctx d).run = .ready ∧ ((u.tile t.val).ctx d).res = 0 ∧ (u.tile t.val).sem m = 0
          ∧ ∀ e, e ≠ d → (u.tile t.val).ctx e = x.ctx e))
    ∧ (x.landingOf buf = some l → slot.val < l.slots → (x.slot buf slot).st = .filled →
        (∀ p ∈ x.spilled, p.buf ≠ buf.val) →
        (∀ d, (x.slot buf slot).holder = some d → Issued s t c (4, 7) h (lowFree buf slot) (.syncFree t c h buf slot) (fun u =>
          (u.tile t.val).ctx c.val = pc' y ∧ (u.tile t.val).slot buf slot = { st := .returning, holder := some d }
          ∧ (∀ b i, i < 64 → ¬(b = buf.val ∧ i = slot.val) → (u.tile t.val).slot b i = x.slot b i)
          ∧ ∃ f : Flit, (u.router t.val).buf 4 5 = (s.router t.val).buf 4 5 ++ [f] ∧ f.ty = .credit ∧ f.dst = d
              ∧ f.dests.map (fun d => (d.tile, d.buf, d.slot)) = [(t, buf, slot)]))
        ∧ ((x.slot buf slot).holder = none → Issued s t c (4, 7) h (lowFree buf slot) (.syncFree t c h buf slot) (fun u =>
          (u.tile t.val).ctx c.val = pc' y ∧ ((u.tile t.val).slot buf slot).st = .avail)))
    ∧ (x.landingOf buf = some l → l.slots ≤ slot.val → Issued s t c (4, 7) h (lowFree buf slot) (.syncFree t c h buf slot) (fun u =>
        Faulted s u t c 2))

/-- JMP goes to its target; BR goes there when its condition holds and to the next instruction otherwise; a target past
8,191 stops the context with fault code 0x04; SCMP writes 1 or 0; the six conditions and the operands are those of R441. -/
def Obligations.JumpsSetTheProgramCounter : Prop :=
  ∀ (s : State) (t : TileId) (c : CtxId) (h : Hdr) (src : BrSrc) (cond : BrCond) (op : Opnd) (target : BitVec 32)
    (d a : Fin 16), s.bounded →
    let x := s.tile t.val
    let y := s.asIssued t c
    let jmp (P : State → Prop) : Prop := Issued s t c (5, 0) h noLow (.ctrlJmp t c h target) P
    let br (P : State → Prop) : Prop := Issued s t c (5, 1) h noLow (.ctrlBr t c h src cond op target) P
    let goes (a : Nat) (u : State) : Prop := OnlyTile t s u ∧ OthersKeep t c s u
      ∧ u.tile t.val = { s.issuedTile t c with ctxs := (u.tile t.val).ctxs, incs := x.incs ++ s.owed t (sigOf h) }
      ∧ (u.tile t.val).ctx c.val = { y with pc := a }
    let holds := brHolds cond (brSrcVal y src) (opndVal y op)
    (target.toNat < 8192 → jmp (goes target.toNat) ∧ (holds = true → br (goes target.toNat)))
    ∧ (8192 ≤ target.toNat → jmp (fun u => Faulted s u t c 4) ∧ (holds = true → br (fun u => Faulted s u t c 4)))
    ∧ (holds = false → br (goes (y.pc + 1)))
    ∧ Issued s t c (5, 4) h noLow (.ctrlScmp t c h d a cond op) (fun u =>
        SyncRan s u t c h (y.setScalar d (if brHolds cond (y.scalar a) (opndVal y op) then 1 else 0)) x.counter)
    ∧ (∀ v w : BitVec 32, (brHolds .eq v w ↔ v = w) ∧ (brHolds .ne v w ↔ v ≠ w)
        ∧ (brHolds .lt v w ↔ v.toInt < w.toInt) ∧ (brHolds .ge v w ↔ w.toInt ≤ v.toInt)
        ∧ (brHolds .ltu v w ↔ v.toNat < w.toNat) ∧ (brHolds .geu v w ↔ w.toNat ≤ v.toNat))
    ∧ (∀ i, brSrcVal y (.scalar i) = y.scalar i ∧ opndVal y (.scalar i) = y.scalar i)
    ∧ (brSrcVal y .waitResult).toNat = y.res.toNat ∧ ∀ v : BitVec 16, (opndVal y (.imm v)).toInt = v.toInt

/-- YIELD marks its context; END makes it idle; a STEP marker raises the tile's stamp by 1, seeds the 96 generators with
the new stamp and clears the poison latch, holds at a pause, and stops the context inside a guard. -/
def Obligations.YieldEndAndStepMarkers : Prop :=
  ∀ (s : State) (t : TileId) (c : CtxId) (h : Hdr) (p : PartId), s.bounded →
    let x := s.tile t.val
    let y := s.asIssued t c
    let n := x.stamp + 1
    let step (P : State → Prop) : Prop := Issued s t c (5, 6) h noLow (.ctrlStep t c h) P
    Issued s t c (5, 5) h noLow (.ctrlYield t c h) (fun u => SyncRan s u t c h { y with yielded := true } x.counter)
    ∧ (y.store = none → Issued s t c (5, 8) h noLow (.ctrlEnd t c h) (fun u => OnlyTile t s u ∧ OthersKeep t c s u
        ∧ u.tile t.val = { s.issuedTile t c with ctxs := (u.tile t.val).ctxs, incs := x.incs ++ s.owed t (sigOf h) }
        ∧ (u.tile t.val).ctx c.val = { y with run := .idle, asm := [] }))
    ∧ (x.guarded = false → x.part = some p → (s.part p.val).pauses = [] → step (fun u =>
        (u.tile t.val).stamp = n ∧ (u.tile t.val).poison = false
        ∧ (∀ a j, a < 3 → j < 32 → mget 0 ((u.tile t.val).array a).pepper j =
            pepperSeed (BitVec.ofNat 64 (s.obj 0x8000 1 0)) n t.val a j)
        ∧ ((u.tile t.val).ctx c.val).pc = y.pc + 1
        ∧ (0 < stampDiff n (BitVec.ofNat 32 (s.obj 0x8600 (0x11 + p.val) 0)) → u.obj 0x8600 (0x11 + p.val) 0 = n.toNat)))
    ∧ (x.guarded = false → x.part = some p → (s.part p.val).pauses ≠ [] → step (fun u => Waits s u t c .step))
    ∧ (x.guarded = true → step (fun u => Faulted s u t c 1))

/-- A guard opens at level 0 with s13 = 0 and remembers the counters and semaphores; its close holds the context, sends one
vote, and a sum of 0 ends the guard, any other repeats the layer one level up, and after level 2 poisons the tile. -/
def Obligations.GuardRepeatsTheLayer : Prop :=
  ∀ (s : State) (t : TileId) (c : CtxId) (h : Hdr) (compiled : Bool) (route : Fin 512) (layer : BitVec 16) (g : Guard)
    (p : PartId) (sum : BitVec 32), s.bounded →
    let x := s.tile t.val
    let y := s.asIssued t c
    (h.sig = false → route.val ≠ 511 →
      (x.guard = none → Issued s t c (5, 7) h (lowGuard true compiled 0 route layer) (.guardOpen t c h compiled 0 route layer) (fun u => OnlyTile t s u
        ∧ (u.tile t.val).ctx c.val = { y.setScalar 13 0 with pc := y.pc + 1 }
        ∧ (u.tile t.val).guard = some
            { ctx := c, level := 0, on := compiled || s.cold t.val || decide (s.obj 0x8140 1 0 = 1),
              counters := x.counters, sems := x.sems, resume := y.pc + 1, route := route.val, layer := layer.toNat,
              mark := x.nextId }))
      ∧ (x.guard = some g → g.ctx = c → g.on = true →
          Issued s t c (5, 7) h (lowGuard false compiled 0 route layer) (.guardClose t c h compiled 0 route layer) (fun u =>
            OnlyTile t s u ∧ (u.tile t.val).guard = some { g with closing := true, route := route.val }
            ∧ (u.tile t.val).ctx c.val = { y with pc := y.pc + 1, run := .waiting .guard (s.coreOf t.val) }))
      ∧ (x.guard = some g → g.ctx = c → g.on = false →
          Issued s t c (5, 7) h (lowGuard false compiled 0 route layer) (.guardClose t c h compiled 0 route layer) (fun u =>
            OnlyTile t s u ∧ (u.tile t.val).guard = none ∧ (u.tile t.val).ctx c.val = { y with pc := y.pc + 1 })))
    ∧ (s.executes t.val = true → x.part = some p → x.guard = some g → g.closing = true →
      (g.voted = false → (∀ q ∈ x.queues, ∀ z ∈ q.2.xfers, z.id < g.mark) → Gives (.guardVoteSend t) s (fun u =>
        (u.tile t.val).guard = some { g with voted := true }
        ∧ ∃ f : Flit, (u.router t.val).buf 4 3 = (s.router t.val).buf 4 3 ++ [f] ∧ f.ty = .reduce ∧ f.route = g.route
            ∧ f.data.take 4 = leBytes 4 (if x.overflow then 0x3F800000 else 0)))
      ∧ (g.voted = true → x.inbox.contains (.vote sum) = false → exec (.guardVoteResult t sum) s = .next s)
      ∧ (g.voted = true → x.inbox.contains (.vote sum) = true →
          ((Fmt.a32.decode sum.toNat).isZero = true → Gives (.guardVoteResult t sum) s (fun u => OnlyTile t s u
            ∧ (u.tile t.val).guard = none ∧ ((u.tile t.val).ctx g.ctx.val).run = .ready))
          ∧ ((Fmt.a32.decode sum.toNat).isZero = false → g.level < 2 → Gives (.guardVoteResult t sum) s (fun u =>
              (u.tile t.val).guard = some { g with level := g.level + 1, closing := false, voted := false }
              ∧ (u.tile t.val).counters = g.counters ∧ (u.tile t.val).sems = g.sems ∧ (u.tile t.val).overflow = false
              ∧ ((u.tile t.val).ctx g.ctx.val).pc = g.resume
              ∧ ((u.tile t.val).ctx g.ctx.val).scalar 13 = BitVec.ofNat 32 (g.level + 1)
              ∧ u.count 0x7200 0x13 t.val = s.count 0x7200 0x13 t.val + 1))
          ∧ ((Fmt.a32.decode sum.toNat).isZero = false → 2 ≤ g.level → Gives (.guardVoteResult t sum) s (fun u =>
              (u.tile t.val).guard = none ∧ (u.tile t.val).poison = true
              ∧ u.count 0x7200 0x14 t.val = s.count 0x7200 0x14 t.val + 1))))

/-- An instruction of a context that cannot issue changes nothing; one with a reserved bit set, or whose stored word is of a
reserved class, an unlisted opcode or a reserved bit, stops its context with fault code 0x02 and writes no register; where
the stored word spells another operation, the command changes nothing.
A row whose condition does not hold changes nothing: the model's choice, log entries 7 and 8. -/
def Obligations.OnlyReadyContextsIssue : Prop :=
  ∀ (s : State) (t : TileId) (c : CtxId) (h : Hdr) (d a b : Fin 32) (e : Fin 16) (ctr : Fin 64) (v : BitVec 32)
    (route : Fin 512) (far : TileId), s.bounded →
    let is : List Instr :=
      [.vectorAdd t c h d a b, .vectorSub t c h d a b, .vectorMul t c h d a b, .vectorMax t c h d a b,
       .vectorMin t c h d a b, .netSignal t c h route far ctr, .syncCset t c h ctr v, .syncCadd t c h ctr v,
       .syncTmo t c h v, .syncFence t c h, .syncWait t c h ctr v, .syncSemp t c h e, .syncSemw t c h e,
       .ctrlSset t c h e v, .ctrlJmp t c h v, .ctrlYield t c h, .ctrlStep t c h, .ctrlEnd t c h]
    let word := (s.tile t.val).code[((s.tile t.val).ctx c.val).pc]?
    let illegal (u : State) : Prop := Faulted s u t c 2 ∧ ((u.tile t.val).ctx c.val).v = ((s.tile t.val).ctx c.val).v
          ∧ ((u.tile t.val).ctx c.val).s = ((s.tile t.val).ctx c.val).s
    (s.mayIssue t.val c.val = false → ∀ i ∈ is, exec i s = .next s)
    ∧ (s.mayIssue t.val c.val = true →
        (word = none → h.rsvd ≠ 0 → ∀ i ∈ is, Gives i s illegal)
        ∧ (∀ w, word = some w → wordOk w = false → ∀ i ∈ is, Gives i s illegal)
        ∧ (∀ w, word = some w → wordOk w = true → (wordOp w).1 = 0 → ∀ i ∈ is, exec i s = .next s))

/-! Events of a tile. -/

/-- Operations and transfers complete at their moment, the operations of a context on the vector unit in program order, and
their signal reaches the counter in the next core cycle; counter increments cross into CORE; waits time out with result 1
after the deadline. An operation whose next data has not arrived halts (class D) or is suspended, which counts (class U);
its context issues nothing, and goes on when the data is there (R105, R116, R123, R125, R128).
A row whose condition does not hold changes nothing: the model's choice, log entry 8. -/
def Obligations.CompletionsAndWakeups : Prop :=
  ∀ (s : State) (t : TileId) (c : CtxId) (o : Op) (n : BitVec 32) (ctr : Fin 64) (q : Nat) (z : Xfer) (w : Wait)
    (since : Nat), s.bounded → (s.region (regionOf t.val)).clocked = true → s.inReset t.val = false →
    let x := s.tile t.val
    let y := x.ctx c.val
    let isMove : Prop := ∃ a b r k, o.kind = .move a b r k
    (x.opDone o = true ↔ o.kind.steps ≤ o.pos ∧ ¬isMove
      ∧ (o.kind.isVector = true → ∀ p ∈ x.ops, p.id < o.id → p.ctx = o.ctx → p.kind.isVector = false))
    ∧ (x.ops.find? (fun p => p.id = o.id) = some o →
      (x.opDone o = true → (∀ a d pass part, o.kind = .drain a d pass part → d.tag = 0) →
        (∀ d bs ms r, o.kind = .vectorSt d bs ms (some r) → r.tag = 0) →
        Gives (.operationComplete t o.id) s (fun u => OnlyTile t s u
          ∧ u.tile t.val = { x with ops := x.ops.filter (fun p => p.id != o.id), incs := x.incs ++ s.owed t o.sig }))
      ∧ (x.opDone o = false → exec (.operationComplete t o.id) s = .next s))
    ∧ (x.ops.find? (fun p => p.id = z.id) = none →
        x.heads.find? (fun w => w.2.id = z.id && w.2.phase != .waiting) = some (q, z) →
        (s.xferDone t.val z = true → Gives (.operationComplete t z.id) s (fun u => OnlyTile t s u
          ∧ u.tile t.val = { x with
              queues := (u.tile t.val).queues, incs := if z.refused then x.incs else x.incs ++ s.owed t z.sig }
          ∧ (u.tile t.val).queue q = { x.queue q with
              xfers := (x.queue q).xfers.filter (fun w => w.id != z.id), done := (x.queue q).done + 1 }
          ∧ ∀ j, j ≠ q → (u.tile t.val).queue j = x.queue j))
        ∧ (s.xferDone t.val z = false → exec (.operationComplete t z.id) s = .next s))
    ∧ Gives (.counterIncrementArrival t ctr n) s (fun u => OnlyTile t s u
        ∧ u.tile t.val = { x with
            inbox := dropCounterMsgs ctr n.toNat x.inbox, incs := x.incs ++ [(ctr, n, s.coreOf t.val + 1)] })
    ∧ (y.run = .waiting w since → (w = .counter ctr n ∨ w = .sem 3 ∨ w = .fence q ∨ w = .verdict n) → y.tmo ≠ 0 →
        (since + y.tmo.toNat < s.coreOf t.val → Gives (.syncTimeout t c) s (fun u => OnlyTile t s u
          ∧ u.tile t.val = { x with ctxs := (u.tile t.val).ctxs, semq := x.semq.filter (fun e => e.2 != c.val) }
          ∧ (u.tile t.val).ctx c.val = { y with run := .ready, res := 1 }
          ∧ ∀ j, j ≠ c.val → (u.tile t.val).ctx j = x.ctx j))
        ∧ (s.coreOf t.val ≤ since + y.tmo.toNat → exec (.syncTimeout t c) s = .next s))
    ∧ (let late (u : State) (l : Late) : Prop := (∀ p ∈ x.ops, p.id = o.id → p = o) →
         let kept := ((u.tile t.val).ops.find? (fun p => p.id = o.id)).bind (·.pepper)
         (u.tile t.val).ops = x.ops.map (fun p => if p.id = o.id then { p with late := l, pepper := kept } else p)
       o.late = .no → x.lateOn o = some q → x.atHead o = true → o ∈ x.ops → (o.ran = false ∨ isMove) →
        (let u := s.checkOp t o
         (s.obj 0x5100 (0x21 + q) t.val = 1 → late u (.suspended q) ∧ u.count 0x7200 0x10 t.val = s.count 0x7200 0x10 t.val + 1)
         ∧ (s.obj 0x5100 (0x21 + q) t.val ≠ 1 → late u (.halted q) ∧ OnlyTile t s u ∧ (u.tile t.val).arrays = x.arrays)))
    ∧ (x.lateOp c.val ≠ none → s.ready t.val c.val = false)
    ∧ (s.executes t.val = true → x.lateOp c.val = some o → o.late = .suspended q →
        (x.lateOn o = none → ¬isMove → Gives (.suspendedContextResume t c) s (fun u => OnlyTile t s u
          ∧ u.tile t.val = { x with
              ops := x.ops.map (fun p => if p.id = o.id then { p with late := .no } else p),
              switching := mset o.kind.seat (s.coreOf t.val + 2) x.switching }))
        ∧ (x.lateOn o ≠ none → exec (.suspendedContextResume t c) s = .next s))

/-- A waiting transfer starts within its queue's limit: a signal and the request of a remote read as one flit on VC1, a MOVE
from the vault as a request to its interface, a source in SRAM by the 128 bytes that its banks serve next: a reduce-put sends
them on VC3, a MOVE within SRAM writes them in its turn, and they count at its completion. A transfer wholly in its slot fills
it and increments its counter; a credit that has come back to its holder, a tile or a router, opens the slot; a refusal
response is counted and recorded, and its bytes count as refused (R107, R110, R116, R117, R121, R127, R137, R146, R153).
A row whose condition does not hold changes nothing: the model's choice, log entry 8. -/
def Obligations.TransfersStartAndLand : Prop :=
  ∀ (s : State) (t : TileId) (q : Fin 32) (z : Xfer) (p : PartId) (route : Nat) (dest : TileId) (ctr : Fin 64)
    (src dst : Desc) (buf : Fin 16) (slot : Fin 64) (code by' part n : Nat), s.bounded →
    let x := s.tile t.val
    let xs := (x.queue q).xfers
    let y := x.slot buf slot
    let started (u : State) : Prop := (u.tile t.val).queue q = { x.queue q with
      xfers := xs.map (fun w => if w.id = z.id then { w with phase := .started } else w) }
    let sends (u : State) (P : Flit → Prop) : Prop := ∃ f : Flit,
      (u.router t.val).buf 4 1 = (s.router t.val).buf 4 1 ++ [f] ∧ f.vc = 1 ∧ f.head = true ∧ f.tail = true ∧ f.part = p
        ∧ f.src = t.val ∧ f.xid = z.id ∧ P f
    (s.executes t.val = true → x.part = some p → xs.find? (fun w => w.phase = .waiting) = some z →
      (x.ctx z.ctx.val).isStopped = false →
      (xs.filter (fun w => w.phase != .waiting)).length < s.tileObj 0x5100 (q.val + 1) t.val →
      (z.kind = .signal route dest ctr → Gives (.queueTransferStart t q) s (fun u => started u
          ∧ sends u (fun f => f.ty = .signal ∧ f.route = route ∧ f.dst = dest.val ∧ f.dests = [⟨dest, 0, 0, some ctr⟩])))
      ∧ (z.kind = .move src dst → 0 < z.len → z.len ≤ 4096 →
          (2 ≤ src.space → Gives (.queueTransferStart t q) s (fun u => started u
            ∧ sends u (fun f => f.ty = .readReq ∧ f.route = z.route ∧ f.dst = src.first ∧ f.len = z.len
                ∧ f.addr = some (src.where', piecesOf src.segments 0 z.len))))
          ∧ (src.space = 1 → Gives (.queueTransferStart t q) s (fun u => OnlyTile t s u ∧ started u
              ∧ (u.tile t.val).vreqs =
                  x.vreqs ++ [⟨true, true, .move t z.id, 0, z.len, piecesOf src.segments 0 z.len, 0, [], []⟩])))
      ∧ (z.kind = .move src dst → src.space = 0 → Gives (.queueTransferStart t q) s (fun u => OnlyTile t s u ∧ started u))
      ∧ (∀ od tail, z.kind = .reduce src route od tail → Gives (.queueTransferStart t q) s (fun u => OnlyTile t s u
          ∧ (u.tile t.val).queue q = { x.queue q with
              xfers := xs.map (fun w => if w.id = z.id then { w with vc := 3, phase := .started } else w) })))
    ∧ ((s.mem (.sram t)).errs = [] → src.space = 0 → x.queues = [(q.val, { xfers := [z] })] →
      let bs := s.gather (.sram t) (z.nextSegs src)
      let sent : Xfer := { z with sent := z.sent + bs.length }
      let u := s.sendStep t q z src
      (z.kind = .move src dst → dst.space = 0 →
        (let segs := piecesOf dst.segments z.sent bs.length
         OnlyTile t s u ∧ u.tile t.val = { x with
            queues := [(q.val, { xfers := [sent] })],
            accs := x.accs ++ [⟨.write false segs bs [] (.ack t.val z.id), banksOf true segs, 0⟩] }))
      ∧ (∀ d, z.kind = .put src route d → u.tile t.val = { x with queues := [(q.val, { xfers := [sent] })] } ∧ u.mems = s.mems
          ∧ ∃ fs : List Flit, (u.router t.val).buf 4 z.vc.val = (s.router t.val).buf 4 z.vc.val ++ fs
            ∧ fs.flatMap (·.data) = bs ∧ ∀ f ∈ fs, f.vc = z.vc ∧ f.dst = d.tile.val ∧ f.route = z.route ∧ f.xid = z.id
                ∧ f.data.length ≤ 128)
      ∧ (∀ (segs : List (Nat × Nat)) (bs : List Byte) (a : Access), a.use = .write false segs bs [] (.ack t.val z.id) →
          z.isMove = true →
          (let u := s.serveAccess t a
           u.mems = (s.scatter (.sram t) segs bs []).mems ∧ (∀ m, m ≠ .sram t → u.mem m = s.mem m)
            ∧ ((u.tile t.val).queue q).xfers = [{ z with acked := z.acked + bs.length }])))
    ∧ (s.tileObj 0x5100 (q.val + 1) t.val ≤ (xs.filter (fun w => w.phase != .waiting)).length →
        exec (.queueTransferStart t q) s = .next s)
    ∧ (y.st ≠ .filled → y.len ≠ 0 → y.len ≤ y.got → Gives (.landingDelivery t buf slot) s (fun u => OnlyTile t s u
        ∧ u.tile t.val = { x with slots := (u.tile t.val).slots, incs := x.incs ++ s.owed t y.ctr }
        ∧ (u.tile t.val).slot buf slot = { y with st := .filled }
        ∧ ∀ b i, i < 64 → ¬(b = buf.val ∧ i = slot.val) → (u.tile t.val).slot b i = x.slot b i))
    ∧ (∀ h, y.st = .returning → y.holder = some h → y.beyond = true →
        ((s.router h).credits.contains (t, buf.val, slot.val) = true → Gives (.slotCreditArrival t buf slot) s (fun u =>
          u = { s with tiles := u.tiles, routers := u.routers } ∧ (u.tile t.val).slot buf slot = {}
          ∧ (u.router h).credits = (s.router h).credits.erase (t, buf.val, slot.val)
          ∧ (∀ j, j ≠ t.val → u.tile j = s.tile j) ∧ ∀ j, j ≠ h → u.router j = s.router j))
        ∧ ((s.router h).credits.contains (t, buf.val, slot.val) = false → exec (.slotCreditArrival t buf slot) s = .next s))
    ∧ (∀ h, y.st = .returning → y.holder = some h → y.beyond = false →
        ((s.tile h).inbox.contains (.credit t buf slot) = true → Gives (.slotCreditArrival t buf slot) s (fun u =>
          u = { s with tiles := u.tiles } ∧ (u.tile t.val).slot buf slot = {}
          ∧ (u.tile h).inbox = (s.tile h).inbox.erase (.credit t buf slot)
          ∧ ∀ j, j ≠ t.val → j ≠ h → u.tile j = s.tile j))
        ∧ ((s.tile h).inbox.contains (.credit t buf slot) = false → exec (.slotCreditArrival t buf slot) s = .next s))
    ∧ (code < 16 → x.inbox = [.refusal code route by' part z.id n] → Gives (.refusalResponseReceive t) s (fun u =>
        u.count 0x7300 0xF t.val = s.count 0x7300 0xF t.val + 1 ∧ (u.tile t.val).inbox = []
        ∧ u.obj 0x5300 8 t.val = code + route * 2 ^ 4 + by' * 2 ^ 13 + part * 2 ^ 26
        ∧ (x.queues = [(q.val, { xfers := [z] })] → z.isMove = true →
            ((u.tile t.val).queue q).xfers = [{ z with acked := z.acked + n, refused := true }])))

/-- A PUT that has waited longer than the spill threshold asks its receiver once, on VC0; the receiver grants on VC0, with
E3020 at the start of an episode; the spilled transfer that has come in is recorded in the overflow area, and is written
there as a request from the network: to the tile's own vault, or on VC5 to that of its partner. A remote read of SRAM waits
for its banks, and each 128 bytes are answered on VC5; one of a vault goes to its interface (R107, R110, R129, R130, R137).
A row whose condition does not hold changes nothing: the model's choice, log entry 8. -/
def Obligations.SpillsAndRemoteReads : Prop :=
  ∀ (s : State) (t r : TileId) (q : Fin 32) (z : Xfer) (src : Desc) (route since : Nat) (dest : Dest) (p : PartId)
    (i : SpillIn) (segs : List (Nat × Nat)) (off : Nat), s.bounded → t ≠ r →
    let x := s.tile t.val
    let sends (u : State) (n : Nat) (v : Fin 6) (P : Flit → Prop) : Prop := ∃ f : Flit,
      (u.router n).buf 4 v.val = (s.router n).buf 4 v.val ++ [f] ∧ f.vc = v ∧ f.src = n ∧ P f
    (z.kind = .put src route dest → x.part = some p → dest.tile = r →
      s.endsAtGate p.val route (s.putVc t.val q.val).val t.val = false →
      (x.queue q).xfers.find? (fun w => w.phase = .waiting) = some z → z.since = some since → z.asked = false →
      (since + s.tileObj 0x5100 0x41 t.val < s.coreOf t.val → Gives (.spillRequest t q) s (fun u =>
        sends u t.val 0 (fun f => f.ty = .control ∧ f.dst = r.val ∧ f.q = q.val ∧ f.dests = [dest] ∧ f.data = [0])
        ∧ (u.tile t.val).queue q = { x.queue q with
            xfers := (x.queue q).xfers.map (fun w => if w.id = z.id then { w with asked := true } else w) }))
      ∧ (s.coreOf t.val ≤ since + s.tileObj 0x5100 0x41 t.val → exec (.spillRequest t q) s = .next s))
    ∧ (x.inbox = [.spillRequest r q dest.buf] → x.part = some p → s.inReset t.val = false → (s.core 0).down = false →
        let grants (u : State) : Prop := (u.tile t.val).inbox = [] ∧ sends u t.val 0 (fun f => f.ty = .control
          ∧ f.dst = r.val ∧ f.dests = [⟨t, dest.buf, 0, none⟩] ∧ f.data = [1])
        (x.episodes.any (fun e => e.1 = dest.buf.val) = false → Gives (.spillGrant t dest.buf r) s (fun u =>
          (u.tile t.val).episodes = x.episodes ++ [(dest.buf.val, false)] ∧ grants u ∧ Told s u 0x3020 t.val))
        ∧ (x.episodes.any (fun e => e.1 = dest.buf.val) = true → Gives (.spillGrant t dest.buf r) s (fun u =>
            (u.tile t.val).episodes = x.episodes ∧ grants u ∧ u.ring = s.ring)))
    ∧ (x.spillIn = [i] → i.src = r → i.q = q.val → i.len ≤ i.data.length → s.overRoom t.val i.len = some segs →
        (x.slot i.dest.buf i.dest.slot).st = .filled →
        let v := s.overVault t.val
        let kept (u : State) : Prop := (u.tile t.val).spilled = x.spilled ++
            [⟨i.dest.buf, i.dest.slot, r.val, segs, i.len, i.dest.ctr, false⟩] ∧ (u.tile t.val).spillIn = []
          ∧ ∀ j, j ≠ t.val → u.tile j = s.tile j
        (v = t.val → Gives (.spilledTransferArrival t r q) s (fun u => u = { s with tiles := u.tiles } ∧ kept u
          ∧ (u.tile v).vreqs = x.vreqs ++ [⟨false, false, .spill, 0, i.len, s.overSegs t.val segs, 0, i.data, i.bad⟩]))
        ∧ (v ≠ t.val → Gives (.spilledTransferArrival t r q) s (fun u => kept u ∧ (u.tile t.val).vreqs = x.vreqs
          ∧ ∃ fs : List Flit, (u.router t.val).buf 4 5 = (s.router t.val).buf 4 5 ++ fs
            ∧ fs.flatMap (·.data) = i.data ∧ ∀ f ∈ fs, f.vc = 5 ∧ f.ty = .spill ∧ f.dst = v ∧ f.src = t.val)))
    ∧ (s.tiles = [(r.val, { s.tile r.val with inbox := [.readRequest t z.id off 3 segs] })] →
        Gives (.remoteReadRequest t z.id) s (fun u => (u.tile r.val).inbox = [] ∧ u.mems = s.mems
          ∧ (u.tile r.val).accs = (s.tile r.val).accs ++
              [⟨.reply t.val z.id off 0 segs, banksOf false (piecesOf segs 0 128), 0⟩]))
    ∧ (s.tiles = [(r.val, { s.tile r.val with inbox := [.readRequest t z.id off 2 segs] })] →
        (s.vaultPass r.val = false → Gives (.remoteReadRequest t z.id) s (fun u => (u.tile r.val).inbox = []
          ∧ (u.tile r.val).vreqs = (s.tile r.val).vreqs ++
              [⟨false, true, .move t.val z.id, off, (segs.map (·.2)).sum, segs, 0, [], []⟩]))
        ∧ (s.vaultPass r.val = true → exec (.remoteReadRequest t z.id) s = .next s))
    ∧ (let bs := s.gather (.sram r) segs
       (s.mem (.sram r)).errs = [] → 0 < bs.length → bs.length ≤ 128 →
        (let u := s.replyStep r t.val z.id off 0 segs
         u.tiles = s.tiles ∧ sends u r.val 5 (fun f => f.ty = .response ∧ f.dst = t.val ∧ f.xid = z.id ∧ f.off = off
           ∧ f.head = true ∧ f.tail = true ∧ f.data = bs)))

/-! The network. -/

/-- A flit received good follows its route entry: when its output grants it, it leaves its input, joins the input of the
neighbour with the age it has gained, and is counted at the output; while another bid for the output stands before it, it
stays. Outputs grant VC0, then VC5, then the highest age, the lower VC, and the inputs in their order. One without a valid
entry is discarded and answered with code 4; one whose CRC fails stays, and is sent again on request; at the seventeenth
failure its link is dead (R136, R138, R139, R142, R146). The order among flits of VC0, or of VC5, is the model's choice: log
entry 22. -/
def Obligations.FlitsFollowTheirRouteEntry : Prop :=
  ∀ (s : State) (t u v : TileId) (port : Fin 5) (vc : Fin 6) (dir : Fin 4) (o : Nat) (f : Flit) (rest : List Flit) (n : Nat),
    s.bounded →
    let r := s.router t.val
    let e := r.entry f.part.val f.route
    let k := bufKey port.val vc.val
    let bid : Bid := ⟨o, port.val, rankOf vc.val (s.ageNow t.val f) port.val false⟩
    ((s.region (regionOf t.val)).netUp = true → r.buf port vc = f :: rest → f.head = true →
      (1 ≤ vc.val ∧ vc.val ≤ 4) → f.vc = vc → s.flushes t.val f.part.val = false →
      (mget 0 r.replays k = 0 → r.drops? (dropKey port.val vc.val 7) = false →
        (entryOk e vc.val = true → entryMerge e = false → entryOuts e = [o] → entryLeaf e o = false → o < 4 →
          neighbour t.val o = some u.val → r.dead.contains o = false → s.canSend t.val o vc.val port.val f = true →
          (s.region (regionOf u.val)).netUp = true →
          (mfind o r.sent ≠ some (s.netOf t.val) → (∀ b ∈ s.bids t.val, b.out = o → bid.rank ≤ b.rank) →
            Gives (.flitReceive t port vc true) s (fun w =>
              (w.router t.val).buf port vc = enterEighth (s.netOf t.val) rest
              ∧ (w.router u.val).buf (opposite o) vc = (s.router u.val).buf (opposite o) vc ++
                  [{ f with age := s.ageNow t.val f, came := s.netOf u.val }]
              ∧ mfind o (w.router t.val).sent = some (s.netOf t.val)
              ∧ w.count 0x7300 (o + 1) t.val = s.count 0x7300 (o + 1) t.val + 1))
          ∧ ((mfind o r.sent = some (s.netOf t.val) ∨ ∃ b ∈ s.bids t.val, b.out = o ∧ b.rank < bid.rank) →
            Gives (.flitReceive t port vc true) s (fun w => (w.router t.val).buf port vc = f :: rest
              ∧ (w.router u.val).buf (opposite o) vc = (s.router u.val).buf (opposite o) vc)))
        ∧ (entryOk e vc.val = false → f.edge = 0 → f.ty ≠ .response →
          Gives (.flitReceive t port vc true) s (fun w =>
            (w.router t.val).buf port vc = enterEighth (s.netOf t.val) rest
            ∧ w.count 0x7300 9 t.val = s.count 0x7300 9 t.val + 1
            ∧ ∃ a : Flit, (w.router t.val).buf 4 5 = r.buf 4 5 ++ [a] ∧ a.ty = .response ∧ a.dst = f.src ∧ a.xid = f.xid
              ∧ a.data = [BitVec.ofNat 8 4])))
      ∧ (mget 0 r.replays k = 2 * n → neighbour t.val port.val = some u.val →
          (n < 16 → Gives (.flitReceive t port vc false) s (fun w => (w.router t.val).buf port vc = f :: rest
            ∧ mget 0 (w.router t.val).replays k = 2 * (n + 1) + 1))
          ∧ (n = 16 → (s.core 0).down = false → (∀ q, q < 16 → (s.part q).bin = none) →
              Gives (.flitReceive t port vc false) s (fun w => (w.router t.val).buf port vc = []
                ∧ (w.router t.val).dead.contains port.val = true ∧ (w.router u.val).dead.contains (opposite port.val) = true
                ∧ Told s w 0x3060 t.val))))
    ∧ (neighbour v.val dir.val = some t.val → port.val = opposite dir.val → mget 0 r.replays k = 2 * n + 1 →
        Gives (.hopReplayRequest v dir vc) s (fun w => mget 0 (w.router t.val).replays k = 2 * n
          ∧ w.count 0x7300 6 v.val = s.count 0x7300 6 v.val + 1))
    ∧ (∀ (c d : Fin 6) (a b : Nat) (i j : Fin 5), a ≤ 255 → b ≤ 255 →
        let cls (c : Fin 6) : Nat := if c = 0 then 0 else if c = 5 then 1 else 2
        (rankOf c a i false < rankOf d b j false ↔ cls c < cls d ∨ (cls c = cls d ∧ (b < a ∨ (b = a ∧
          (c < d ∨ (c = d ∧ inputOrder i < inputOrder j)))))))

/-- A merge takes one flit of each of its two operands and, granted its output, sends one: the merged flit, or where the
packets differ in length, in flits or in bytes, counted once, a poisoned one of NaNs (R156–R158). -/
def Obligations.MergesCombineTheirOperands : Prop :=
  ∀ (s : State) (t u : TileId) (p : PartId) (route : Fin 512) (i j o : Nat) (f g : Flit) (fs gs : List Flit),
    s.bounded →
    let r := s.router t.val
    let e := r.entry p.val route.val
    let who := mergeWho p.val route.val
    let now := s.netOf t.val
    (s.region (regionOf t.val)).netUp = true → (s.region (regionOf u.val)).netUp = true →
    entryOk e 3 = true → entryMerge e = true → s.flushes t.val p.val = false → entryOperands e = [i, j] → i ≠ j →
    entryOuts e = [o] → o < 4 → neighbour t.val o = some u.val → s.canSend t.val o 3 who f = true →
    r.dead.contains o = false → mfind (p.val * 512 + route.val) r.merging = none → r.drops = [] →
    mget 0 r.replays (bufKey i 3) = 0 → mget 0 r.replays (bufKey j 3) = 0 →
    r.buf i 3 = f :: fs → r.buf j 3 = g :: gs → f.part = p → g.part = p → f.route = route.val → g.route = route.val →
    f.head = true → g.head = true → f.vc = 3 → s.wins t.val ⟨o, who, rankOf 3 (s.ageNow t.val f) i false⟩ = true →
    let sent (w : State) (m : Flit) : Prop :=
      (w.router t.val).buf i 3 = enterEighth now fs ∧ (w.router t.val).buf j 3 = enterEighth now gs
        ∧ (w.router u.val).buf (opposite o) 3 = (s.router u.val).buf (opposite o) 3 ++
            [{ m with age := s.ageNow t.val f, came := s.netOf u.val }]
    (g.pktLen = f.pktLen ∧ g.pktBytes = f.pktBytes → Gives (.mergeEmit t p route) s (fun w => sent w (mergeFlits (e.getLsbD 30) [f, g] f)))
    ∧ (g.pktLen ≠ f.pktLen ∨ g.pktBytes ≠ f.pktBytes → Gives (.mergeEmit t p route) s (fun w => sent w (nanFlit (e.getLsbD 30) f)
        ∧ w.count 0x7300 0xE t.val = s.count 0x7300 0xE t.val + 1))

/-- The route watchdog stops the partition of a flit that has not advanced for too long, be it a head or a body flit, and
only tells of service traffic; a fork that withholds too long is told once an episode (R141, R155). -/
def Obligations.WatchesFindStuckFlits : Prop :=
  ∀ (s : State) (t : TileId) (port : Fin 5) (vc : Fin 6) (f : Flit) (rest : List Flit) (since o : Nat),
    s.bounded → (s.core 0).down = false →
    let r := s.router t.val
    let n := s.obj 0x5300 5 t.val
    (r.buf port vc = f :: rest → mfind (bufKey port vc) r.since = some since → n ≠ 0 →
      since + mget 0 r.paused (bufKey port vc) + n < s.netOf t.val → s.pstate f.part.val ≠ 5 →
      ((vc = 0 ∨ vc = 5) → Gives (.routeWatchdogExpiry t port vc) s (fun u => Told s u 0x3050 t.val
          ∧ u.pstate f.part.val = s.pstate f.part.val))
      ∧ (vc ≠ 0 → vc ≠ 5 → s.isLive f.part.val = true → Gives (.routeWatchdogExpiry t port vc) s (fun u =>
          u.pstate f.part.val = 6 ∧ u.obj 0x2103 (f.part.val + 1) 0 = 1)))
    ∧ (mfind port.val r.forkSince = some since → since + s.obj 0x5300 6 t.val < s.netOf t.val →
        r.forkTold.contains port.val = false → s.fullBranch t.val port.val = some o → r.buf port 2 = f :: rest →
        Gives (.forkStallExpiry t port) s (fun u => (u.router t.val).forkTold = port.val :: r.forkTold
          ∧ ∃ e ∈ u.ring, e.code = 0x3010 ∧ e.src = t.val ∧ e.data = leBytes 2 f.route ++ leBytes 1 f.part.val ++ leBytes 1 o))
    ∧ (∀ os ls, r.buf port 2 = f :: rest → s.plan t.val port 2 f = .fork os ls →
        (s.withheld t.val port.val = true ↔ ∃ o ∈ os, 8 ≤ (r.holdOf port o).flits.length))
    ∧ (r.forkTold.contains port.val = true → exec (.forkStallExpiry t port) s = .next s)

/-- A flush goes out from the service gate as one broadcast flit on VC0; a router that it reaches discards the partition's
flits among the 8 of each input buffer and in its forks, keeps every other, counts what it discards, and discards and counts
the partition's flits that come later. A region that is off makes the links toward it dead; a table rewrite avoids every dead
link and every hole, and clears the marks toward a region that is up again (R161, R162, R144, R348). -/
def Obligations.FlushesDeadLinksAndTables : Prop :=
  ∀ (s : State) (p : PartId) (r : RegionId) (t g : TileId) (port : Fin 5) (vc : Fin 6) (f : Flit) (rest : List Flit),
    s.bounded →
    (s.isLive p.val = false → (s.core 1).down = false → s.serviceTile = some g.val → Gives (.partitionFlush p) s (fun u =>
      u = { s with routers := u.routers } ∧ (∀ j, j ≠ g.val → u.router j = s.router j)
      ∧ ∃ c : Flit, mget [] (u.router g.val).gateIn (bufKey 3 0) = mget [] (s.router g.val).gateIn (bufKey 3 0) ++ [c]
          ∧ c.isCast = true ∧ c.part = p))
    ∧ ((s.isLive p.val = true ∨ (s.core 1).down = true) → exec (.partitionFlush p) s = .next s)
    ∧ (let u := s.flushHere t.val p.val
       (s.isLive p.val = true → u = s)
       ∧ (s.isLive p.val = false → u.flushes t.val p.val = true ∧ (∀ j, j ≠ t.val → u.router j = s.router j)
          ∧ u.count 0x7300 0xA t.val = s.count 0x7300 0xA t.val + (s.router t.val).flushCount p.val
          ∧ ∀ port vc, (u.router t.val).buf port vc = flushBuf p.val ((s.router t.val).buf port vc)))
    ∧ ((s.region (regionOf t.val)).netUp = true → (s.router t.val).buf port vc = f :: rest → f.part = p → f.isCast = false →
        s.flushes t.val p.val = true → mget 0 (s.router t.val).replays (bufKey port vc) = 0 →
        Gives (.flitReceive t port vc true) s (fun u =>
          (u.router t.val).buf port vc = enterEighth (s.netOf t.val) rest
          ∧ u.count 0x7300 0xA t.val = s.count 0x7300 0xA t.val + 1 ∧ u.tiles = s.tiles))
    ∧ ((s.region r.val).isOff = true → Gives (.neighbourLinkLoss r) s (fun u =>
        (∀ t v d, t < 6912 → regionOf t = r.val → d < 4 → neighbour t d = some v → regionOf v ≠ r.val →
          (u.router v).dead.contains (opposite d) = true)
        ∧ ∀ q : PartId, s.isLive q.val = true → s.routesUse q.val (fun t => regionOf t = r.val) = true →
            u.pstate q.val = 6))
    ∧ ((s.region r.val).isOff = false → exec (.neighbourLinkLoss r) s = .next s)
    ∧ (s.floor.isSome = true → Gives (.directionTableRewrite) s (fun u => u.tablesOn = true
        ∧ (∀ e ∈ u.routers, ∀ d ∈ e.2.dead, e.1 * 4 + d ∈ u.avoid)
        ∧ (∀ t d, t < 6912 → d < 4 → s.floorOf t = 3 → t * 4 + d ∈ u.avoid)
        ∧ ∀ t v d, d < 4 → neighbour t d = some v → (s.region (regionOf v)).netUp = true →
            (s.router t).lost.contains d = true → (u.router t).dead.contains d = false))
    ∧ (s.floor = none → exec (.directionTableRewrite) s = .next s)

/-! The memory tiers. -/

/-- Reading and scrubbing: a refresh, one bank at a time and in at most 1 % of the cycles, changes no bit; a scrub comes after
every waiting request; a word whose symbols can be corrected reads as stored and is clean
again; a word that cannot is marked as poisoned and told with E4020; a marked word is only counted.
A row whose condition does not hold changes nothing: the model's choice, log entry 8. -/
def Obligations.ScrubbingCorrectsOrMarks : Prop :=
  ∀ (s : State) (t : TileId) (bank : Fin 16) (e : EngineId) (w : Nat), s.bounded →
    let m := s.mem (.stack e)
    let es := m.wordErrs w
    ((s.region (regionOf t.val)).netUp = true → s.vaultUsable t.val = true →
        (∀ b, (s.tile t.val).refresh = some b → b.2 + 9600 ≤ s.netOf t.val) → Gives (.vaultRefresh t bank) s (fun u =>
        OnlyTile t s u ∧ SameMem s u ∧ (u.tile t.val).refresh = some (bank, s.netOf t.val)))
    ∧ (∀ b, (s.tile t.val).refresh = some b → s.netOf t.val < b.2 + 9600 → exec (.vaultRefresh t bank) s = .next s)
    ∧ (s.stackUp e.val = true → w < 0x60000000 → s.chanBusy e.val (64 * w) 64 = false → s.nextReq? e.val = none →
        s.traceFor e.val = [] →
      (es = [] → exec (.scrubRead (.stack e) w []) s = .next s)
      ∧ (es ≠ [] → likeMarker 64 es = true → Gives (.scrubRead (.stack e) w []) s (fun u => SameMem s u
          ∧ u.count 0x7410 3 e.val = s.count 0x7410 3 e.val + 1))
      ∧ (es ≠ [] → likeMarker 64 es = false → rsDecode 68 es = .corrected es → e.val ≠ 0 →
          Gives (.scrubRead (.stack e) w []) s (fun u => (∀ a, u.peek (.stack e) a = s.peek (.stack e) a)
            ∧ (u.mem (.stack e)).wordErrs w = [] ∧ u.count 0x7410 1 e.val = s.count 0x7410 1 e.val + 1))
      ∧ (es ≠ [] → likeMarker 64 es = false → rsDecode 68 es = .bad → Gives (.scrubRead (.stack e) w []) s (fun u =>
          (u.mem (.stack e)).isMarked 64 w = true ∧ u.count 0x7410 2 e.val = s.count 0x7410 2 e.val + 1
          ∧ ((s.core 0).down = false → Told s u 0x4020 e.val))))
    ∧ ((s.chanBusy e.val (64 * w) 64 = true ∨ s.nextReq? e.val ≠ none) → exec (.scrubRead (.stack e) w []) s = .next s)

/-- A vault clear ends 3,145,728 net cycles after its start with every usable vault of the region all zero, and no other
memory touched.
A row whose condition does not hold changes nothing: the model's choice, log entry 8. -/
def Obligations.VaultClearZeroesTheRegion : Prop :=
  ∀ (s : State) (r : RegionId) (n : Nat), s.bounded → (s.region r.val).clearing = some n →
    (n + 3145728 ≤ (s.region r.val).net → Gives (.vaultClearDone r) s (fun u => (u.region r.val).clearing = none
      ∧ (∀ (t : TileId) (a : Nat), t.val ∈ regionTiles r.val → s.vaultUsable t.val = true →
          u.peek (.vault t) a = 0 ∧ (u.mem (.vault t)).errs = [])
      ∧ ∀ m, (∀ t : TileId, m = .vault t → t.val ∉ regionTiles r.val) → u.mem m = s.mem m))
    ∧ ((s.region r.val).net < n + 3145728 → exec (.vaultClearDone r) s = .next s)

/-- Retraining passes: while service core 2 runs, the policy asks for one, one region and one channel retrain at a time in the order asked for, and
the end of a pass is told with E4030.
A row whose condition does not hold changes nothing: the model's choice, log entry 8. -/
def Obligations.RetrainingPassesRunInTurn : Prop :=
  ∀ (s : State) (r : RegionId) (e : EngineId) (ch : Fin 16) (ok : Bool) (since : Nat), s.bounded →
    let g := s.region r.val
    let x := s.engine e.val
    (g.retrain = .idle → (s.core 2).down = false → s.obj 0x4040 3 r.val = 1 → 1000 < g.corrected → Gives (.retrainPolicyTrigger (.vaults r)) s
      (fun u => (u.region r.val).retrain = .pending ∧ u.passes = s.passes ++ [r.val] ∧ SameMem s u))
    ∧ (x.pass ch = .idle → (s.core 2).down = false → s.obj 0x6830 3 e.val = 1 → 1000 < mget 0 x.second ch → Gives (.retrainPolicyTrigger (.channel e ch)) s
      (fun u => (u.engine e.val).pass ch = .pending ∧ u.chPasses = s.chPasses ++ [(e.val, ch.val)] ∧ SameMem s u))
    ∧ ((s.core 2).down = true → exec (.retrainPolicyTrigger (.vaults r)) s = .next s
        ∧ exec (.retrainPolicyTrigger (.channel e ch)) s = .next s)
    ∧ (g.retrain = .pending → g.st = .running → s.passes.head? = some r.val →
        (∀ q ∈ s.regions, q.2.retrain.isRunning = false) → Gives (.vaultRetrainStart r) s (fun u =>
          (u.region r.val).retrain = .running s.tick ∧ u.passes = s.passes.tail))
    ∧ ((∃ q ∈ s.regions, q.2.retrain.isRunning = true) → exec (.vaultRetrainStart r) s = .next s)
    ∧ (g.retrain = .running since → (s.core 0).down = false → Gives (.vaultRetrainEnd r ok) s (fun u =>
        (u.region r.val).retrain = .idle ∧ (u.region r.val).retrainBad = !ok ∧ u.obj 0x4040 6 r.val = s.tick
        ∧ Told s u 0x4030 r.val))
    ∧ (s.chPasses.head? = some (e.val, ch.val) → s.stackUp e.val = true →
        (∀ q ∈ s.engines, ∀ c ∈ q.2.retrain, c.2.isRunning = false) → Gives (.channelRetrainStart e) s (fun u =>
          (u.engine e.val).pass ch = .running s.tick ∧ u.chPasses = s.chPasses.tail))
    ∧ (x.retrain.find? (fun c => c.2.isRunning) = some (ch.val, .running since) → (s.core 0).down = false → s.waiting = [] →
        Gives (.channelRetrainEnd e ok) s (fun u => (u.engine e.val).pass ch = .idle ∧ (u.engine e.val).retrainBad = !ok
          ∧ Told s u 0x4030 e.val))

/-- A far request of a module within the enabled pool window reads or writes the stack's bytes and is answered; one
outside it touches no memory and is counted; one at a retraining channel waits in the controller, and one while an engine is
held or repairs is left on its link. A write that names more bytes than its packet brings is held in the commit buffer
(R184, R187, R243, R381). -/
def Obligations.FarRequestsStayInThePoolWindow : Prop :=
  ∀ (s : State) (f : FarReq) (data : List Byte), s.bounded →
    let a := f.addr.toNat
    let e : EngineId := Fin.ofNat 32 (farStack a)
    let b := farByte a
    let take (n : Nat) := s.takeRx f.port.val f.sub.val (linkChannel 1 f.layer) (max 1 ((n + 4095) / 4096))
    let x := s.engine e.val
    s.hostSub ≠ some (f.port.val, f.sub.val) → s.linkUp f.port.val f.sub.val = true →
    farModule a = s.moduleId.toNat → f.hops.toNat < 63 → farIsHost a = false → f.fromHost = false → farZeros a = true →
    let inWindow (n : Nat) : Prop := s.obj 0x6860 3 e.val = 1 ∧ within b n (s.obj 0x6860 1 e.val) (s.obj 0x6860 2 e.val) = true
    let waits (u : State) (r : StackReq) : Prop := SameMem s u ∧ (u.engine e.val).reqs = [r]
    (s.stackUp e.val = true → s.edgeRuns = true → (s.mem (.stack e)).errs = [] → x.reqs = [] → x.commits = [] →
      (inWindow f.len → s.chanBusy e.val b f.len = false → (take 0).2 = false → Gives (.farReadRequest f) s (fun u =>
        SameMem s u ∧ u.subs = ((take 0).1.farAnswer f false (s.bytes (.stack e) b f.len)).subs))
      ∧ (inWindow f.len → s.chanBusy e.val b f.len = true → Gives (.farReadRequest f) s (fun u => waits u (.farRead f)))
      ∧ (inWindow (max f.len data.length) → (take data.length).2 = false →
        (s.chanBusy e.val b data.length = false → f.len ≤ data.length → Gives (.farWriteRequest f data) s (fun u =>
          (∀ i, i < data.length → u.peek (.stack e) (b + i) = data.getD i 0)
          ∧ (∀ m j, ¬(m = .stack e ∧ b ≤ j ∧ j < b + data.length) → u.peek m j = s.peek m j)
          ∧ u.subs = ((take data.length).1.farAnswer f false []).subs))
        ∧ (s.chanBusy e.val b data.length = false → data.length < f.len → Gives (.farWriteRequest f data) s (fun u =>
            SameMem s u ∧ (u.engine e.val).commits = [⟨f, data, false⟩] ∧ u.subs = (take data.length).1.subs))
        ∧ (s.chanBusy e.val b data.length = true → Gives (.farWriteRequest f data) s (fun u =>
            waits u (.farWrite f data false)))))
    ∧ ((s.stackUp e.val = false ∨ s.edgeRuns = false) →
      (inWindow f.len → exec (.farReadRequest f) s = .next s)
      ∧ (inWindow (max f.len data.length) → exec (.farWriteRequest f data) s = .next s))
    ∧ (¬inWindow f.len → Gives (.farReadRequest f) s (fun u => SameMem s u
        ∧ u.count 0x7410 5 e.val = s.count 0x7410 5 e.val + 1))
    ∧ (¬inWindow (max f.len data.length) → Gives (.farWriteRequest f data) s (fun u => SameMem s u
        ∧ u.count 0x7410 5 e.val = s.count 0x7410 5 e.val + 1))

/-! The millrace. -/

/-- A stack-sourced read whose range holds a block that has not settled waits at the gate; one whose blocks have all settled
for the step before is read and enters the network at the root of its tree; one whose range has a channel that retrains
waits. A received working copy is written with its stamp, and no other byte of the stack changes; an owner's digest record is
kept for the comparison (R184, R195, R196, R198, R248). -/
def Obligations.MillraceHoldsReadsAndWritesCopies : Prop :=
  ∀ (s : State) (t : TileId) (q : Nat) (z : Xfer) (p : PartId) (src : Desc) (route g : Nat) (dests : List Dest)
    (stamp : BitVec 32) (j : JobPlan) (port : PortId) (sub : SubId) (f : CopyFrame) (bp : BlockPlan) (a : WcArea)
    (owner : BitVec 14) (eng : EngineId) (rollup : BitVec 64) (x : Engine) (w : Way), s.bounded → s.job p.val = some j →
    (let h : HeldRead := ⟨t, z.id, p, stamp, src, route, dests⟩
     s.engines = [(src.first, x)] → x.reads = [h] → x.heldReads = [] → x.reqs = [] →
      (s.tile t.val).queues = [(q, { xfers := [z] })] → src.space = 4 → s.stackUp src.first = true →
      (s.mem (src.mem t)).errs = [] → src.first < 32 →
      let side := bufKey (engineSide src.first) 2
      (s.readBusy h = true → exec (.stackMcastRead t z.id) s = .next s)
      ∧ (s.readBusy h = false → (∃ ab ∈ coveredBlocks j src.first src.segments, s.stampGap h ab < 0) →
        Gives (.stackMcastRead t z.id) s (fun u => SameMem s u ∧ (u.engine src.first).reads = []
          ∧ (u.engine src.first).heldReads = [h] ∧ (u.tile t.val).queues = (s.tile t.val).queues))
      ∧ (s.readBusy h = false → (∀ ab ∈ coveredBlocks j src.first src.segments, s.blockStamp ab.1 ab.2 = stamp - 1) →
          s.treeGate src.first p.val route 2 = some g → s.sourceCredit p.val route 6912 g = false →
          let bs := s.gather (src.mem t) src.segments
          Gives (.stackMcastRead t z.id) s (fun u => SameMem s u ∧ (u.engine src.first).heldReads = []
            ∧ (u.engine src.first).reads = []
            ∧ ((u.tile t.val).queue q).xfers = [{ z with phase := .answered }]
            ∧ u.count 0x7420 1 src.first = s.count 0x7420 1 src.first + bs.length
            ∧ ∃ fs : List Flit, mget [] (u.router g).gateIn side = mget [] (s.router g).gateIn side ++ fs
                ∧ fs.flatMap (·.data) = bs
                ∧ ∀ f ∈ fs, f.vc = 2 ∧ f.route = route ∧ f.part = p ∧ f.dests = dests ∧ f.poison = false)))
    ∧ (planBlock j f.group.val f.block = some bp → planArea j false f.group.val f.block = some a →
        bp.copyIn = some (port, sub) → s.linkUp port.val sub.val = true → s.wayOpen (port, sub) f.way = true →
        s.gatherFree a f.block = true → (s.engine a.stack.val).reqs = [] →
        (s.takeRx port.val sub.val (linkChannel 2 f.layer) ((f.elems.length + f.scales.length + 4095) / 4096)).2 = false →
        bp.copyOut = [] →
        (s.part p.val).digested.contains f.stamp = false → (s.engine a.stack.val).heldReads = [] →
        (s.mem (.stack a.stack)).errs = [] → f.elems.length = a.elemBytes → f.scales.length = a.scaleBytes →
        let ea := elemAt a f.block
        let sa := scaleAt a f.block
        let ta := stampAt a f.block
        (ea + a.elemBytes ≤ sa ∧ sa + a.scaleBytes ≤ ta) →
        Gives (.allgatherArrival port sub p f) s (fun u =>
          u.bytes (.stack a.stack) ea a.elemBytes = f.elems ∧ u.bytes (.stack a.stack) sa a.scaleBytes = f.scales
          ∧ u.blockStamp a f.block = f.stamp
          ∧ (∀ m i, ¬(m = .stack a.stack ∧ ((ea ≤ i ∧ i < ea + a.elemBytes) ∨ (sa ≤ i ∧ i < sa + a.scaleBytes)
              ∨ (ta ≤ i ∧ i < ta + 4))) → u.peek m i = s.peek m i)
          ∧ u.count 0x7420 4 a.stack.val = s.count 0x7420 4 a.stack.val + 1))
    ∧ (planBlock j f.group.val f.block = some bp → bp.copyIn ≠ some (port, sub) →
        exec (.allgatherArrival port sub p f) s = .next s)
    ∧ (s.isLive p.val = true → s.linkUp port.val sub.val = true → s.wayOpen (port, sub) w = true →
        (∀ r ∈ (s.part p.val).rollups, sameRollup r p stamp owner eng = false) →
        0 < gatherCount j owner eng → Gives (.digestRecordReceive ⟨port, sub, w⟩ p stamp owner eng rollup) s (fun u => SameMem s u
          ∧ ∃ r ∈ (u.part p.val).rollups, sameRollup r p stamp owner eng = true ∧ r.theirs = some rollup))

/-! The tailrace and the step verdict. -/

/-- A port reduction unit collects the packets of a block, and emits once when every input of the block is whole and its
output takes it: the inputs are consumed and the block is remembered as done; a packet of a block that has been emitted is
discarded (R202, R204, R206). -/
def Obligations.PortsReduceWholeBlocks : Prop :=
  ∀ (s : State) (port : PortId) (p : PartId) (q : PortId) (v : SubId) (plan : BitVec 16) (blk out : TailBlock) (j : JobPlan)
    (bp : BlockPlan) (g : GroupId) (b : BitVec 28) (x y : RedIn) (bad : Bool) (tx : PortId × SubId) (c : Combined) (w : Way),
    s.bounded → s.job p.val = some j → s.isLive p.val = true → (s.port port.val).failed = false → bp.redPort = port →
    (j.blocks[plan.toNat]? = some bp → some (q, v) ∈ bp.inputs → s.linkUp q.val v.val = true → s.wayOpen (q, v) w = true →
      blk.hdr.fp16 = true → (s.takeTail q.val v.val).2.1 = false →
      ((s.port port.val).ins = [] → (s.port port.val).done = [] →
        Gives (.tailracePartReceive port p (some ⟨(q, v), plan, w⟩) blk) s (fun u => SameMem s u
          ∧ ∃ r, (u.port port.val).ins = [r] ∧ r.part = p ∧ r.input = some (q, v) ∧ r.plan = plan
          ∧ r.parts = [blk.hdr.part.toNat] ∧ r.blk.hdr = { blk.hdr with part := 0 }
          ∧ (blk.hdr.part.toNat < 2 → blk.grad.length = 2048 →
              (r.blk.grad.drop (blk.hdr.part.toNat * 2048)).take 2048 = blk.grad)))
      ∧ (c ∈ (s.port port.val).done → c.part = p → c.key = blockKey blk.hdr.group.toNat blk.hdr.block.toNat →
          c.stamp = blk.hdr.stamp → some (q, v) ∈ c.inputs →
          Gives (.tailracePartReceive port p (some ⟨(q, v), plan, w⟩) blk) s (fun u => SameMem s u
            ∧ (u.port port.val).ins = (s.port port.val).ins
            ∧ u.count 0x7500 2 port.val = s.count 0x7500 2 port.val + (if blk.hdr.part = 0 then 1 else 0))))
    ∧ (planBlock j g.val b.toNat = some bp → bp.inputs = [none, some (q, v)] → bp.output = some tx →
        (s.port port.val).ins = [x, y] → x.isFor p none (planIndex j g.val b.toNat) = true → x.whole = true →
        y.isFor p (some (q, v)) (planIndex j g.val b.toNat) = true → y.whole = true →
        reduceBlocks [x.blk, y.blk] = some (out, bad) → s.sideClocked (portSide port.val) = true →
        ((s.sub tx.1.val tx.2.val).takes = true → (s.sub tx.1.val tx.2.val).queue.any (fun k => k.hdr.vc = 3) = false →
          Gives (.portReductionEmit port p g b) s (fun u => SameMem s u ∧ (u.port port.val).ins = []
            ∧ (u.port port.val).done.head? =
                some ⟨p, blockKey out.hdr.group.toNat out.hdr.block.toNat, out.hdr.stamp, bp.inputs⟩
            ∧ u.count 0x7500 1 port.val = s.count 0x7500 1 port.val + 1
            ∧ u.count 0x7500 2 port.val = s.count 0x7500 2 port.val + (if bad then 1 else 0)))
        ∧ ((s.sub tx.1.val tx.2.val).queue.any (fun k => k.hdr.vc = 3) = true →
            exec (.portReductionEmit port p g b) s = .next s))

/-- The module joins a verdict with its own contribution, keeps the record of a child until all have reported, applies a
final record once, lowers the loss scale on poison, sends a record with another module count on and does not apply it, and
a verdict that is late stops the job with cause 3 (R208–R212, R255).
A row whose condition does not hold changes nothing: the model's choice, log entry 8. -/
def Obligations.VerdictsAreJoinedCombinedAndApplied : Prop :=
  ∀ (s : State) (p : PartId) (j : JobPlan) (up child : PortId × SubId) (v : Verdict) (n : BitVec 32 × Nat)
    (ns : List (BitVec 32 × Nat)) (w : Way), s.bounded →
    s.job p.val = some j →
    let comes (x : PortId × SubId) : Prop := s.linkUp x.1.val x.2.val = true ∧ s.wayOpen x w = true
    let x := s.part p.val
    let stamp := x.nextJoin
    (s.mayJoin p.val j = true → j.vUp = some up → j.vDown = [] → (s.sub up.1.val up.2.val).takes = true →
      Gives (.verdictJoin p) s (fun u => (u.part p.val).joined = x.joined ++ [(stamp, s.tick)] ∧ (u.part p.val).early = 0
        ∧ (u.part p.val).own = x.own ++ [ownVerdict (mget {} x.contribs stamp.toNat) stamp x.early]
        ∧ (u.part p.val).lastStamp = x.lastStamp
        ∧ u.count 0x7500 3 up.1.val = s.count 0x7500 3 up.1.val + 1))
    ∧ (s.isLive p.val = true → child ∈ j.vDown → comes child →
        0 < stampDiff v.stamp x.lastStamp → x.verdictFrom v.stamp (some child) = none → x.own = [] →
        Gives (.verdictCombine p child ⟨v, w⟩) s (fun u => SameMem s u
          ∧ (let r := s.takeTail child.1.val child.2.val
             (u.part p.val).inputs = x.inputs ++ [⟨child, v, r.2.2, r.2.1⟩]) ∧ (u.part p.val).lastStamp = x.lastStamp))
    ∧ (s.isLive p.val = true → v.modules.toNat = j.modules → 0 < stampDiff v.stamp x.lastStamp → j.vDown = [] →
        (∀ y, j.vUp = some y → comes y) → Gives (.verdictApply p ⟨v, w⟩) s (fun u => (u.part p.val).lastStamp = v.stamp ∧ (u.part p.val).lastFlags = v.flags
          ∧ (u.part p.val).own = x.own.filter (fun w => decide (0 < stampDiff w.stamp v.stamp))
          ∧ u.obj 0x8600 (p.val + 1) 0 = v.stamp.toNat
          ∧ u.blob 0x8620 (p.val + 1) 0 = Verdict.bytes v
          ∧ (s.obj 0x8100 8 0 = p.val → v.flags.getLsbD 0 = true → 0 < s.obj 0x8100 1 0 →
              u.obj 0x8100 1 0 = s.obj 0x8100 1 0 - 1 ∧ u.obj 0x8100 4 0 = 0)))
    ∧ (((v.modules.toNat ≠ j.modules ∧ j.vDown = []) ∨ stampDiff v.stamp x.lastStamp ≤ 0) →
        (∀ y, j.vUp = some y → comes y) → Gives (.verdictApply p ⟨v, w⟩) s (fun u => u = { s with subs := u.subs }))
    ∧ (s.isLive p.val = true → v.modules.toNat ≠ j.modules → 0 < stampDiff v.stamp x.lastStamp → j.vDown = [child] →
        (s.sub child.1.val child.2.val).takes = true → (∀ y, j.vUp = some y → comes y) →
        Gives (.verdictApply p ⟨v, w⟩) s (fun u => u.part p.val = x
          ∧ u.count 0x7500 3 child.1.val = s.count 0x7500 3 child.1.val + 1))
    ∧ (s.isLive p.val = true → x.joined = n :: ns → n.2 + s.obj 0x8610 1 0 * 117500 < s.tick →
        Gives (.verdictTimeout p) s (fun u => u.pstate p.val = 6 ∧ u.obj 0x2103 (p.val + 1) 0 = 3))
    ∧ (x.joined = n :: ns → s.tick ≤ n.2 + s.obj 0x8610 1 0 * 117500 → exec (.verdictTimeout p) s = .next s)

/-- A relay of a side with a clock forwards its oldest held transfer at the gate of its side once the receiver's slot credit
is there, and keeps it until then; one for a student that has been stopped or reset, and not started since, is discarded and
counted. Either way its own slot credit goes back to the teacher's tile on VC5, by the gate at which the transfer came in
(R214, R215). -/
def Obligations.RelaysForwardInOrder : Prop :=
  ∀ (s : State) (r : RelayId) (x : RelayXfer) (rest : List RelayXfer) (p k : PartId) (plan : RelayPlan), s.bounded →
    let y := s.relay r.val
    let side := relaySide r.val
    let vc := if plan.classU then 4 else 1
    let g := s.sideGate side p.val plan.route.val vc
    let slot (u : State) : Slot := (u.tile (x.tile % 6912)).slot (x.buf % 16) (x.slot % 64)
    let enters (u : State) (g vc : Nat) : List Flit := (mget [] (u.router g).gateIn (bufKey side vc)).drop
      (mget [] (s.router g).gateIn (bufKey side vc)).length
    let credit (u : State) : Prop := ∃ f : Flit, enters u x.gate.val 5 = [f] ∧ f.vc = 5 ∧ f.ty = .credit ∧ f.dst = x.teacher.val
      ∧ f.edge = 1 + r.val
    y.held = x :: rest → y.student = some (p, k) → y.plan = some plan → s.sideClocked side = true →
    (y.discards = false →
      ((slot s).st = .avail →
        Gives (.relayForward r) s (fun u => (u.relay r.val).held = rest ∧ credit u
          ∧ (slot u).st = .taken ∧ (slot u).holder = some g
          ∧ (enters u g vc).flatMap (·.data) = x.data
          ∧ (∀ f ∈ enters u g vc, f.part = p ∧ f.route = plan.route.val ∧ f.dst = x.tile % 6912 ∧ f.poison = x.poison)
          ∧ u.count 0x7430 (1 + r.val) 0 = s.count 0x7430 (1 + r.val) 0 + 1))
      ∧ ((slot s).st ≠ .avail → exec (.relayForward r) s = .next s))
    ∧ (y.discards = true → Gives (.relayForward r) s (fun u =>
        (u.relay r.val).held = rest ∧ credit u ∧ u.tiles = s.tiles
        ∧ u.count 0x7430 (0x11 + r.val) 0 = s.count 0x7430 (0x11 + r.val) 0 + 1))

/-! The update engines. -/

/-- A whole block whose turn has not come, by the verdict of the step before or by another step of it that is in hand, is
deferred; one whose turn has come waits for a channel that its handling touches and that retrains (R184), else the next expected one is handled: the engine expects the step after, and the step's contribution counts it; a
poisoned one whose turn has come is skipped: counted, flagged in the step's contribution, and settled; one that is not the
next expected is rejected; one of a partition that has stopped is discarded (R208, R219, R220, R228, R229).
A row whose condition does not hold changes nothing: the model's choice, log entry 8. -/
def Obligations.BlocksAreDeferredSkippedOrRejected : Prop :=
  ∀ (s : State) (e : EngineId) (p : PartId) (r : RedIn) (j : JobPlan) (ep : EnginePlan) (bp : BlockPlan) (a : WcArea),
    s.bounded → s.job p.val = some j → planEngine j e.val = some ep →
    let blk := r.blk
    let h := blk.hdr
    let x := s.engine e.val
    let g : GroupId := Fin.ofNat 12 h.group.toNat
    let key := ekey p.val h.group.toNat h.block.toNat
    let c (u : State) : Contribution := mget {} (u.part p.val).contribs h.stamp.toNat
    let early := stampDiff (s.part p.val).lastStamp (h.stamp - 1)
    let inHand := x.working p g h.block.toNat
    let skipped (u : State) : Prop := (c u).skipped = (c s).skipped + 1 ∧ (c u).handled = (c s).handled + 1
      ∧ (c u).flags = (c s).flags ||| flagPoisoned ∧ u.count 0x7440 2 e.val = s.count 0x7440 2 e.val + 1
      ∧ mfind key (u.engine e.val).expected = some (h.stamp + 1) ∧ mfind key (u.engine e.val).settled = some h.stamp
    let turn : Prop := mfind key x.expected = some h.stamp ∧ h.poison = true ∧ h.contrib.toNat = bp.contrib
      ∧ bp.params ≤ 4096 ∧ s.hasJoined p.val h.stamp = false ∧ (s.part p.val).digested.contains h.stamp = false
      ∧ x.heldReads = [] ∧ bp.copyOut = []
    planBlock j h.group.toNat h.block.toNat = some bp → bp.owner = s.moduleId → bp.engine = e →
    planArea j true h.group.toNat h.block.toNat = some a → bp.group.val = h.group.toNat → bp.block = h.block.toNat →
    s.engineRuns e.val = true → x.reqs = [] →
    let waits := s.blockWaits e p blk
    (x.ins = [r] → r.part = p → r.whole = true → s.isLive p.val = true →
      (0 ≤ early → inHand = false → waits = true → exec (.tailraceBlockArrival e p blk) s = .next s)
      ∧ ((early < 0 ∨ inHand = true) → Gives (.tailraceBlockArrival e p blk) s (fun u =>
        (u.engine e.val).deferred = x.deferred ++ [(p, blk)] ∧ (u.engine e.val).ins = []
        ∧ (u.engine e.val).expected = x.expected ∧ c u = c s))
      ∧ (0 ≤ early → inHand = false → waits = false → turn → Gives (.tailraceBlockArrival e p blk) s skipped)
      ∧ (0 ≤ early → inHand = false → waits = false → mfind key x.expected = some h.stamp →
          Gives (.tailraceBlockArrival e p blk) s (fun u => mfind key (u.engine e.val).expected = some (h.stamp + 1)
            ∧ (c u).handled = (c s).handled + 1))
      ∧ (0 ≤ early → inHand = false → waits = false → mfind key x.expected ≠ some h.stamp →
          Gives (.tailraceBlockArrival e p blk) s (fun u =>
            u.count 0x7420 5 e.val = s.count 0x7420 5 e.val + 1 ∧ c u = c s
            ∧ (u.part p.val).early = (s.part p.val).early ||| flagPoisoned)))
    ∧ (x.ins = [r] → r.part = p → r.whole = true → s.isLive p.val = false → waits = false →
        Gives (.tailraceBlockArrival e p blk) s (fun u => (u.engine e.val).ins = [] ∧ c u = c s
          ∧ (u.engine e.val).expected = x.expected ∧ (u.engine e.val).deferred = x.deferred))
    ∧ (x.deferred = [(p, blk)] → g.val = h.group.toNat →
      ((early < 0 ∨ inHand = true ∨ waits = true) → exec (.deferredBlockCheck e p g h.block) s = .next s)
      ∧ (0 ≤ early → inHand = false → waits = false → turn →
          Gives (.deferredBlockCheck e p g h.block) s (fun u => skipped u ∧ (u.engine e.val).deferred = [])))

/-- A settled block is named with its step and leaves the list of settling blocks; a far fetch and its write-back move their
operation on, with the working copy that the rule gives, and a failed one stops the job with cause 5 (R194, R229, R241). -/
def Obligations.UpdatesSettleAndFarBlocksReturn : Prop :=
  ∀ (s : State) (e : EngineId) (g : GroupId) (b : BitVec 28) (y : Settling) (f : FarOp) (j : JobPlan) (ep : EnginePlan)
    (bp : BlockPlan) (a : WcArea) (rec : List Byte) (p : PartId) (up : Update), s.bounded → s.job p.val = some j →
    planEngine j e.val = some ep → planBlock j g.val b.toNat = some bp → planArea j true g.val b.toNat = some a →
    bp.group = g → bp.block = b.toNat → bp.engine = e → bp.copyOut = [] → (s.engine e.val).heldReads = [] →
    s.engineWaits e.val = false → (s.engine e.val).reqs = [] →
    let key := ekey p.val g.val b.toNat
    let rule := ruleOf j g.val
    ((s.engine e.val).settling = [y] → y.group = g → y.block = b.toNat → y.part = p → s.stackUp e.val = true →
      (s.part p.val).digested.contains y.stamp = false → Gives (.workingCopySettle e g b) s (fun u =>
        (u.engine e.val).settling = [] ∧ mfind key (u.engine e.val).settled = some y.stamp
        ∧ ((s.mem (.stack e)).errs = [] → ∀ m, m ≠ .stack e → u.mem m = s.mem m)))
    ∧ ((s.engine e.val).far = [f] → f.group = g → f.block = b.toNat → f.part = p → f.repair = none →
      (f.fetching = true → f.fetched = false → (s.engine e.val).shipFar = [] →
        (s.isLive p.val = true → Gives (.farFetchResponse e g b .failed) s (fun u => (u.engine e.val).far = []
          ∧ u.pstate p.val = 6 ∧ u.obj 0x2103 (p.val + 1) 0 = 5))
        ∧ ((s.part p.val).digested.contains f.stamp = false → Gives (.farFetchResponse e g b .poisoned) s (fun u =>
            (u.engine e.val).far = [] ∧ u.count 0x7440 2 e.val = s.count 0x7440 2 e.val + 1
            ∧ mfind key (u.engine e.val).settled = some f.stamp))
        ∧ (s.shipping = none → (s.mem (.stack e)).errs = [] → s.mergeFor ep g.val b.toNat f.stamp = none →
            ruleUpdate rule bp.params f.vals f.stamp rec (scaledGrads bp.params (s.entryHead ep f.entry).k f.factor
              ((s.entryGrad ep f.entry).1.map f32) none) = some up →
            Gives (.farFetchResponse e g b (.data rec)) s (fun u => ∃ f', (u.engine e.val).far = [f'] ∧ f'.fetched = true
              ∧ f'.stamp = f.stamp ∧ f'.free = [f.entry] ∧ (f'.elems, f'.scales) = workingCopy a.fmt (pairW up.wc))))
      ∧ (f.fetched = true →
        (s.isLive p.val = true → Gives (.farWritebackDone e g b false) s (fun u => (u.engine e.val).far = []
          ∧ u.pstate p.val = 6 ∧ u.obj 0x2103 (p.val + 1) 0 = 5))
        ∧ ((s.part p.val).digested.contains f.stamp = false → Gives (.farWritebackDone e g b true) s (fun u =>
            (u.engine e.val).far = [] ∧ mfind key (u.engine e.val).settled = some f.stamp
            ∧ u.count 0x7440 5 e.val = s.count 0x7440 5 e.val + 1
            ∧ u.count 0x7440 1 e.val = s.count 0x7440 1 e.val + 1))))

/-- The end of a hold command once every engine has finished, of the repair of an engine without jobs, of a step's digest
rollups, of a block's shipment, whose far record is asked for first, and of a snapshot, as their objects show them (R239,
R245, R247, R250, R251). -/
def Obligations.EngineOperationsEnd : Prop :=
  ∀ (s : State) (e : EngineId) (p : PartId) (j : JobPlan) (r : Rollup) (cmd : HoldCmd)
    (snap : BitVec 32) (content : Nat) (result : Fin 4) (g : GroupId) (b : BitVec 28) (bp : BlockPlan), s.bounded →
    let key := ekey p.val g.val b.toNat
    (s.holdCmd = some cmd →
      ((∀ i, i < 32 → s.commandEntries cmd i = [] ∧ (cmd.action = 1 → (s.engine i).holdOpen cmd = false)) →
        Gives .holdCommandDone s (fun u => u.holdCmd = none ∧ u.obj 0x8720 7 0 = cmd.result
          ∧ SameMem s u ∧ u.engines = s.engines))
      ∧ (s.commandEntries cmd e.val ≠ [] → exec .holdCommandDone s = .next s))
    ∧ (s.obj 0x2003 3 0 ≠ 0 → (s.engine e.val).st ≠ 2 → s.mstate ≠ 3 → (s.engine e.val).failed = false →
        (s.engine e.val).reqs = [] → (s.engine e.val).far = [] →
        s.admittedJobs = [] → Gives (.repairPass e) s (fun u => (u.engine e.val).st = 2 ∧ SameMem s u))
    ∧ (s.job p.val = some j → s.ownedBy j e.val = [] → (s.engine e.val).rollups = [r] → r.part = p →
        Gives (.digestRollupSend e p) s (fun u => (u.engine e.val).rollups = []))
    ∧ (s.shipping = some (snap, content) → s.imageBlocks = [(p.val, j, bp)] → bp.engine = e → bp.group = g →
        bp.block = b.toNat → (s.engine e.val).shipped = [] → (s.engine e.val).copies = [] → (s.engine e.val).waiting = [] →
        s.engineRuns e.val = true → mfind key (s.engine e.val).settled = some snap →
        s.engineWaits e.val = false → (s.engine e.val).reqs = [] →
        ((contentSegs j bp content).isSome = true → Gives (.directShipmentComplete e g b) s (fun u =>
          (u.engine e.val).shipped = [key]
          ∧ u.obj 0x6900 7 0 = s.obj 0x6900 7 0 + 1 ∧ u.count 0x7440 0xB e.val = s.count 0x7440 0xB e.val + 1))
        ∧ (contentSegs j bp content = none → (s.engine e.val).shipFar = [] →
            Gives (.directShipmentComplete e g b) s (fun u => (u.engine e.val).shipFar = [(key, none)]
              ∧ (u.engine e.val).shipped = [])))
    ∧ (s.shipping = some (snap, content) → (s.core 0).down = false → s.admittedJobs = [] →
        Gives (.snapshotShipEnd result) s (fun u => u.shipping = none
          ∧ u.obj 0x6900 6 0 = (if result = 0 then 3 else 4)
          ∧ ((s.mem (.stack 0)).errs = [] →
              u.ring.head?.map (fun v => (v.code, v.step)) = some (0x6070, snap))))

/-! Partitions. -/

/-- A partition is defined over a free rectangle, loaded, started, stopped, reset and removed from the states in which each
command may act, and each command then leaves the queue of commands taken. -/
def Obligations.PartitionCommandsMoveTheState : Prop :=
  ∀ (s : State) (p : PartId) (c : Taken) (img : LoadedImage) (b : Binary), s.bounded →
    let v := bytesAt c.params 0 2
    let s0 := BitVec.ofNat 32 (bytesAt c.params 0 4)
    let r := s.readImage p.val (bytesAt c.params 0 1) (bytesAt c.params 4 4) (bytesAt c.params 8 4) img
    (s.onlyTaken c p 1 → s.pstate p.val ≤ 1 → rectOk v = true → s.rectTaken p.val v = false →
      Gives (.definePartition p) s (fun u => u.pstate p.val = 1 ∧ u.rect p.val = v ∧ u.taken = []))
    ∧ (s.onlyTaken c p 2 → s.pstate p.val = 1 → Gives (.removePartition p) s (fun u =>
        u.pstate p.val = 0 ∧ u.rect p.val = 0 ∧ u.taken = []))
    ∧ (s.onlyTaken c p 3 → s.pstate p.val = 1 → bytesAt c.params 0 1 < 32 → bytesAt c.params 4 4 % 4096 = 0 →
        0 < bytesAt c.params 8 4 → bytesAt c.params 4 4 + bytesAt c.params 8 4 ≤ 768 * 2 ^ 20 → r.2 = true →
        s.loadWaits p.val = false →
        r.1.admission p.val (r.1.rect p.val) (bytesAt c.params 12 4) img.bin = none →
        Gives (.partitionLoad p img) s (fun u => u.pstate p.val = 2 ∧ (u.part p.val).bin = some img.bin
          ∧ u.obj 0x2102 (p.val + 1) 0 = bytesAt c.params 12 4 ∧ u.taken = []))
    ∧ (s.onlyTaken c p 4 → s.pstate p.val = 2 → bytesAt c.params 4 1 ≤ 2 → s.clearRuns p.val = false →
        (s.part p.val).barred = none → (s.part p.val).bin = some b → Gives (.partitionStart p) s (fun u =>
          u.pstate p.val = 3 ∧ (u.part p.val).s0 = s0 ∧ (u.part p.val).lastStamp = s0 - 1 ∧ u.taken = []
          ∧ u.obj 0x8600 (0x11 + p.val) 0 = s0.toNat
          ∧ ∀ x, b.tiles = [x] → x.compute = true → s.obj 0x5000 1 x.tile.val = 0 →
              (u.tile x.tile.val).stamp = s0 ∧ (u.tile x.tile.val).part = some p ∧ (u.tile x.tile.val).counters = []))
    ∧ (s.onlyTaken c p 5 → s.isLive p.val = true → Gives (.partitionStop p) s (fun u =>
        u.pstate p.val = 6 ∧ u.obj 0x2103 (p.val + 1) 0 = 6 ∧ u.taken = []))
    ∧ (s.onlyTaken c p 6 → s.pstate p.val ≠ 0 → s.pstate p.val ≠ 7 → Gives (.partitionReset p) s (fun u =>
        u.pstate p.val = (if (s.part p.val).bin.isSome then 2 else 1) ∧ u.taken = []
        ∧ ∀ e ∈ s.tiles, e.2.part = some p → (u.tile e.1).counters = [] ∧ (u.tile e.1).ctxs = []))
    ∧ (s.onlyTaken c p 4 → s.pstate p.val ≠ 2 → Gives (.partitionStart p) s (fun u => u.pstate p.val = s.pstate p.val))
    ∧ (s.onlyTaken c p 5 → s.isLive p.val = false → Gives (.partitionStop p) s (fun u =>
        u.pstate p.val = s.pstate p.val ∧ u.taken = []))

/-- A pause is asked for, takes effect at the step boundary and ends with a resume; a fence ends when it is the oldest
command; the timeout of a pause withdraws it once its deadline has passed (R128, R276, R385, R386).
A row whose condition does not hold changes nothing: the model's choice, log entry 8. -/
def Obligations.PausesAndFencesEnd : Prop :=
  ∀ (s : State) (p : PartId) (c : Taken) (due : Nat), s.bounded →
    (s.onlyTaken c p 7 → s.isTraining p.val = true → s.pstate p.val = 3 → (s.part p.val).pauses = [] →
      Gives (.partitionPause p) s (fun u => (u.part p.val).pauses = [.command] ∧ u.taken = [{ c with running := true }]
        ∧ u.pstate p.val = 3))
    ∧ (s.pauseDone p.val = true → Gives (.partitionPaused p) s (fun u => u.pstate p.val = 5))
    ∧ (s.pauseDone p.val = false → exec (.partitionPaused p) s = .next s)
    ∧ (s.onlyTaken c p 8 → s.pstate p.val = 5 → (s.part p.val).pauses = [.command] → s.ringFull = true →
        Gives (.partitionResume p) s (fun u => u.pstate p.val = 3 ∧ (u.part p.val).pauses = [] ∧ u.taken = []))
    ∧ (s.onlyTaken c p 9 → Gives (.commandFence p) s (fun u => u.taken = [] ∧ u.pstate p.val = s.pstate p.val))
    ∧ (s.taken = [c] → c.part = p.val → c.due = some due →
        (c.op = 7 → c.running = true → (s.part p.val).pauses = [.command] → s.ringFull = true → due < s.tick →
          (s.core 1).down = false →
          Gives (.commandTimeout p false false) s (fun u => u.taken = [] ∧ (u.part p.val).pauses = []))
        ∧ (c.op = 9 → due < s.tick → (s.core 1).down = false → Gives (.commandTimeout p true false) s (fun u => u.taken = []
            ∧ u.pstate p.val = s.pstate p.val))
        ∧ (s.tick ≤ due → ∀ fence, exec (.commandTimeout p fence false) s = .next s))

/-- A request for a running partition is written to its ring, whose producer index rises by one; one for a draining
partition is answered with status 1, counted as withdrawn and written nowhere; one for a ring that the binary does not declare
is answered (the status 3 is the model's choice: log entry 64); a served response entry ends its request; a ring response
reaches the host only with its from-host flag set, and is refused otherwise (R277–R280, R283, R312). -/
def Obligations.RingsCarryRequestsAndResponses : Prop :=
  ∀ (s : State) (r : RingReq) (b : Binary) (g : RingPlan) (p : PartId) (ring : Fin 4) (q : Request) (port : PortId)
    (sub : SubId) (h : PktHdr) (xf data : List Byte) (hp : Nat × Nat) (x y : Nat) (l : Bool), s.bounded →
    let at' : Nat := g.payload + (s.ringHead g).1 % (s.ringHead g).2.2 * (g.paySize / (s.ringHead g).2.2)
    let w (u : State) (a n : Nat) : Nat := leVal (u.bytes (.stack g.stack) a n)
    let free : Prop := s.stackUp g.stack.val = true ∧ (s.engine g.stack.val).retrain = []
      ∧ (s.engine g.stack.val).reqs = [] ∧ (s.mem (.stack g.stack)).errs = []
    (s.linkUp r.port.val r.sub.val = true → s.wayOpen (r.port, r.sub) ⟨r.sender, r.hops⟩ = true →
      (s.pstate r.part.val = 3 → (s.part r.part.val).bin = some b → b.reqRings[r.ring]? = some g →
        r.reply < b.rspRings.length → s.ringFull = false → free → s.edgeRuns = true →
        (s.takeVc r.port.val r.sub.val 4 1).2.1 = false →
        idxDiff (s.ringHead g).1 (s.ringHead g).2.1 < (s.ringHead g).2.2 →
        r.payload.length ≤ g.paySize / (s.ringHead g).2.2 →
        at' + r.payload.length ≤ g.entries → g.entries + 64 * (s.ringHead g).2.2 ≤ g.header →
        Gives (.ringRequestArrival r) s (fun u => w u g.header 4 = ((s.ringHead g).1 + 1) % 2 ^ 32
          ∧ u.bytes (.stack g.stack) at' r.payload.length = r.payload
          ∧ (u.part r.part.val).requests = (s.part r.part.val).requests ++ [RingReq.request r (s.ringHead g).1]
          ∧ ∀ m, m ≠ .stack g.stack → u.mem m = s.mem m))
      ∧ (r.fromHost = false → (∀ st a c, s.linkRoute 6 (s.ringPkt r.part.val (RingReq.request r 0) st 0 0 []).hdr ≠ .down a c) →
          let answered (u : State) : Prop := SameMem s u ∧ (u.part r.part.val).requests = (s.part r.part.val).requests
            ∧ u.count 0x7500 0x11 r.port.val = s.count 0x7500 0x11 r.port.val + 1
          (s.pstate r.part.val = 4 → Gives (.ringRequestArrival r) s (fun u => answered u
            ∧ u.obj 0x2110 7 0 = s.obj 0x2110 7 0 + 1))
          ∧ (s.pstate r.part.val ≠ 3 → s.pstate r.part.val ≠ 4 → Gives (.ringRequestArrival r) s (fun u => answered u
            ∧ u.obj 0x2110 7 0 = s.obj 0x2110 7 0))
          ∧ (s.pstate r.part.val = 3 → (s.part r.part.val).bin = some b → b.reqRings[r.ring]? = none →
            Gives (.ringRequestArrival r) s answered)))
    ∧ ((s.part p.val).bin = some b → b.rspRings[ring.val]? = some g → s.isLive p.val = true → free →
        (s.ringHead g).1 = (s.ringHead g).2.1 + 1 → (s.ringHead g).1 < 2 ^ 32 → 0 < (s.ringHead g).2.2 →
        (s.part p.val).requests = [q] →
        (let e := s.bytes (.stack g.stack) (g.entries + 64 * ((s.ringHead g).2.1 % (s.ringHead g).2.2)) 64
         q.id = BitVec.ofNat 64 (bytesAt e 0 8) ∧ q.sender = BitVec.ofNat 14 (bytesAt e 8 2) ∧ q.ring = bytesAt e 10 1
           ∧ bytesAt e 12 4 = 0) → s.linkRoute 6 (s.ringPkt p.val q 0 0 0 []).hdr = .noRoute →
        Gives (.responseRingServe p ring) s (fun u => (u.part p.val).requests = []
          ∧ w u (g.header + 4) 4 = (s.ringHead g).1
          ∧ u.count 0x7500 0xE g.port.val = s.count 0x7500 0xE g.port.val + 1))
    ∧ (h.ty = 11 → h.dst = s.moduleId → h.toHost = true → s.linkUp port.val sub.val = true →
        s.wayOpen (port, sub) ⟨h.src, h.hops⟩ = true →
        let take := s.takeRx port.val sub.val (linkChannel h.vc.val h.layer) 1
        (h.fromHost = false →
          let no : PktHdr := { vc := 5, layer := false, ty := 12, slots := 0, dst := h.src, src := s.moduleId, job := h.job }
          s.linkRoute 6 no = .out x y l → s.holdsNew x no = false →
          Gives (.ringResponseForward (port, sub) h xf data) s (fun u => SameMem s u
            ∧ u.count 0x7500 0xB port.val = s.count 0x7500 0xB port.val + 1
            ∧ u.subs = (take.1.sendOn x y ⟨{ no with layer := l }, [3], []⟩).subs))
        ∧ (h.fromHost = true → s.hostSub = some hp → (s.sub hp.1 hp.2).takes = true →
          Gives (.ringResponseForward (port, sub) h xf data) s (fun u => SameMem s u
            ∧ u.subs = (take.1.sendOn hp.1 hp.2 ⟨{ h with poison := h.poison || take.2, hops := h.hops + 1 }, xf, data⟩).subs)))

/-- A turnover goes from stage to stage: drained partitions are reset, the limit, once its tick has passed, stops one that has
not answered by then, and a plan that only removes ends done with the result so far (R278, R283, R285).
A row whose condition does not hold changes nothing: the model's choice, log entry 8. -/
def Obligations.TurnoversPassTheirStages : Prop :=
  ∀ (s : State) (t : Turnover) (e : PlanEntry), s.bounded → s.turn = some t → t.entries = [e] → t.aborted = false →
    (s.core 1).down = false →
    let w := s.serveAll e.part.val
    (t.stage = 1 → s.drained e.part.val = true → e.action = 2 → t.clear = false → Gives .turnoverDrainComplete s (fun u =>
        u.turn.map (·.stage) = some 3 ∧ u.pstate e.part.val = 0 ∧ u.rect e.part.val = 0))
    ∧ (t.stage = 1 → s.drained e.part.val = false → exec .turnoverDrainComplete s = .next s)
    ∧ (t.stage = 1 → s.drained e.part.val = false → w.drained e.part.val = false → w.isLive e.part.val = true →
        t.drain + s.obj 0x2110 2 0 * 117500 < s.tick → Gives .turnoverDrainLimit s (fun u =>
          u.pstate e.part.val = 6 ∧ u.obj 0x2103 (e.part.val + 1) 0 = 7 ∧ u.turn.map (·.result) = some 1))
    ∧ (t.stage = 1 → s.tick ≤ t.drain + s.obj 0x2110 2 0 * 117500 → exec .turnoverDrainLimit s = .next s)
    ∧ (e.action = 2 → t.failed = [] →
        (t.stage = 3 → Gives (.turnoverStageDone (.loaded [])) s (fun u => u.turn.map (·.stage) = some 4))
        ∧ (t.stage = 4 → Gives (.turnoverStageDone (.routed [])) s (fun u => u.turn.map (·.stage) = some 5))
        ∧ (t.stage = 5 → Gives (.turnoverStageDone .started) s (fun u => u.turn = none ∧ u.obj 0x2110 4 0 = 6
            ∧ u.obj 0x2110 5 0 = t.result)))

/-! Links. -/

/-- A data frame with its good CRC advances the sequence number; one with the complement of it as well, and counts as
poisoned; a bad frame is counted, and the first one asks for a replay; what the KP4 decoders report is counted in the reach
classes that have them (R291, R293, R294, R300, R322). Unacknowledged frames leave the replay buffer by
their acknowledgement only; a replay sends them all again, and after 16 the sub-port retrains.
A row whose condition does not hold changes nothing: the model's choice, log entry 8. -/
def Obligations.FramesAreCheckedAndReplayed : Prop :=
  ∀ (s : State) (port : PortId) (sub : SubId) (slots : List Byte) (crc : BitVec 32) (n : Nat) (f : CtlFrame) (g : SentFrame)
    (gs : List SentFrame) (k : Kp4), s.bounded → s.linkUp port.val sub.val = true →
    let p := port.val
    let x := s.sub p sub.val
    let y (u : State) : SubPort := u.sub p sub.val
    let want := dataCrc x.rxSeq slots
    let good (u : State) : Prop := (y u).rxSeq = (x.rxSeq + 1) % 2 ^ 24 ∧ (y u).discarding = false ∧ (y u).lastValid = s.tick
      ∧ u.count 0x7500 5 p = s.count 0x7500 5 p + 1 ∧ SameMem s u
      ∧ u.count 0x7500 9 p = s.count 0x7500 9 p + (if 2 ≤ s.obj 0x6000 2 p then k.fixed else 0)
      ∧ u.count 0x7500 0xA p = s.count 0x7500 0xA p + (if 2 ≤ s.obj 0x6000 2 p then k.bad else 0)
    let again (u : State) : Prop := (y u).unacked = x.unacked ∧ (y u).replays = x.replays + 1 ∧ (y u).ackWait = s.tick
      ∧ u.count 0x7500 7 p = s.count 0x7500 7 p + x.unacked.length
    (crc = want → Gives (.dataFrameReceive port sub slots ⟨crc, k⟩) s (fun u =>
        good u ∧ u.count 0x7500 8 p = s.count 0x7500 8 p))
    ∧ (crc = ~~~want → Gives (.dataFrameReceive port sub slots ⟨crc, k⟩) s (fun u =>
        good u ∧ u.count 0x7500 8 p = s.count 0x7500 8 p + 1))
    ∧ (crc ≠ want → crc ≠ ~~~want → crc ≠ ctlCrc slots → Gives (.badFrameReceive port sub slots ⟨crc, k⟩) s (fun u =>
        (y u).rxSeq = x.rxSeq ∧ (y u).discarding = true ∧ (y u).accepted = x.accepted
        ∧ u.count 0x7500 6 p = s.count 0x7500 6 p + 1
        ∧ (x.discarding = false → (y u).ctl.head?.map (fun c => (c.ty, c.ack)) = some (2, x.rxSeq))
        ∧ (x.discarding = true → (y u).ctl = x.ctl)))
    ∧ (2048 ≤ x.sinceCtl → Gives (.scheduledControlSend port sub) s (fun u =>
        (y u).ctl.head?.map (fun c => (c.ty, c.ack, c.peer)) = some (0, x.rxSeq, s.moduleId) ∧ (y u).sinceCtl = 0))
    ∧ (x.sinceCtl < 2048 → exec (.scheduledControlSend port sub) s = .next s)
    ∧ (x.unacked = g :: gs → g.seq < 2 ^ 24 → n < 2 ^ 24 → n ≤ x.unacked.length →
      (f.ty = 0 → f.digest = none → f.ack = (g.seq + n) % 2 ^ 24 → x.queue = [] → Gives (.controlFrameReceive port sub ⟨f, k⟩) s
        (fun u => (y u).unacked = x.unacked.drop n ∧ (y u).lastValid = s.tick
          ∧ (y u).granted = (if x.granted = [] then f.credits else x.granted.zipWith max f.credits)))
      ∧ (x.replays < 16 → Gives (.replayRequestReceive port sub g.seq) s again)
      ∧ (x.replays < 16 → x.ackWait + s.obj 0x6000 6 p < s.tick → Gives (.replayTimeout port sub) s again)
      ∧ (16 ≤ x.replays → x.ackWait + s.obj 0x6000 6 p < s.tick → Gives (.replayTimeout port sub) s (fun u =>
          (y u).st = 4 ∧ (y u).unacked = x.unacked))
      ∧ (s.tick ≤ x.ackWait + s.obj 0x6000 6 p → exec (.replayTimeout port sub) s = .next s))

/-- Lanes and training: the loss of a lane group leaves the sub-port up on the rest, or brings it down below the least
width; a sub-port trains each 100 ms and sends its identity, comes up with a fitting peer on the lane groups
that no loss has taken and is held with any other; it goes down without valid frames for its time (R288, R290, R304, R316).
A row whose condition does not hold changes nothing: the model's choice, log entry 8. -/
def Obligations.LanesAreDroppedAndSubPortsTrain : Prop :=
  ∀ (s : State) (port : PortId) (sub : SubId) (group : Fin 16) (peer : Identity), s.bounded →
    (s.core 0).down = false → (s.core 3).down = false →
    let p := port.val
    let b := sub.val
    let x := s.sub p b
    let y (u : State) : SubPort := u.sub p b
    let gs := x.groups.filter (fun g => g != group.val)
    let all := subGroups (s.split p) b
    let left := all.filter (fun g => !(s.port p).lost.contains g)
    let wentDown (u : State) : Prop := (y u).st = 0 ∧ (y u).groups = [] ∧ (y u).unacked = [] ∧ (y u).queue = []
      ∧ u.obj 0x6010 (0x10 + b) p = 0xFFFF ∧ Told s u 0x7020 (8 * p + b)
    (s.linkUp p b = true → x.groups.contains group.val = true →
      (minLanes (s.split p) ≤ 8 * gs.length → Gives (.laneLoss port sub group) s (fun u =>
        (y u).st = 3 ∧ (y u).groups = gs ∧ (u.port p).lost = group.val :: (s.port p).lost
        ∧ (y u).unacked = x.unacked ∧ Told s u 0x7010 (8 * p + b)))
      ∧ (8 * gs.length < minLanes (s.split p) → s.unusedSub p b → Gives (.laneLoss port sub group) s wentDown))
    ∧ (x.st = 0 → s.portOn p = true → b < s.subCount p →
      (x.trained + 11750000 ≤ s.tick → Gives (.subportTrainingAttempt port sub) s (fun u =>
        y u = { x with st := 1, trained := s.tick, waits := false,
                       mine := some ⟨s.moduleId, s.obj 0x6000 2 p, s.split p, false, 0, port, sub⟩ }))
      ∧ (s.tick < x.trained + 11750000 → exec (.subportTrainingAttempt port sub) s = .next s))
    ∧ (x.st = 1 →
      (peer.cls = s.obj 0x6000 2 p → peer.split = s.split p → peer.module ≠ s.moduleId →
        (peer.host = true → s.hostSub = some (p, b)) →
        (minLanes (s.split p) ≤ 8 * left.length → x.queue = [] →
          Gives (.subportTrainingDone port sub peer) s (fun u => (y u).st = (if left = all then 2 else 3) ∧ (y u).groups = left
            ∧ (y u).peer = some peer ∧ u.obj 0x6010 (0x10 + b) p = peer.module.toNat
            ∧ (y u).ctl.head?.map (·.ty) = some 3))
        ∧ (8 * left.length < minLanes (s.split p) →
            Gives (.subportTrainingDone port sub peer) s (fun u => y u = { x with st := 0 })))
      ∧ (peer.cls ≠ s.obj 0x6000 2 p ∨ peer.split ≠ s.split p ∨ peer.module = s.moduleId
          ∨ (peer.host = true ∧ s.hostSub ≠ some (p, b)) →
        Gives (.subportTrainingDone port sub peer) s (fun u => y u = { x with st := 5 } ∧ Told s u 0x7050 (8 * p + b))))
    ∧ (x.st = 4 →
      (x.queue = [] → Gives (.linkRetrainEnd port sub true) s (fun u =>
        (y u).st = (if x.groups.length = 16 / 2 ^ s.split p then 2 else 3) ∧ (y u).replays = 0
          ∧ (y u).unacked = x.unacked ∧ Told s u 0x7050 (8 * p + b)))
      ∧ (s.unusedSub p b → Gives (.linkRetrainEnd port sub false) s wentDown))
    ∧ (s.linkUp p b = true →
      (x.lastValid + s.obj 0x6000 7 p < s.tick → s.unusedSub p b → Gives (.peerLossTimeout port sub) s wentDown)
      ∧ (s.tick ≤ x.lastValid + s.obj 0x6000 7 p → exec (.peerLossTimeout port sub) s = .next s))

/-- Packets that arrive: a PUT takes its slot's credit and enters the wafer at its port's side, or waits; a signal enters
as one flit; neither acts for a partition that is not running the packet's job or for a host; a refusal and a reserved
type are counted; a packet for another module goes out by its table with its hop count one higher, and waits at a quiescing
port (R297, R305, R308–R310, R312).
A row whose condition does not hold changes nothing: the model's choice, log entry 8. -/
def Obligations.LinkPacketsEnterTheWaferOrGoOn : Prop :=
  ∀ (s : State) (port q : PortId) (sub v : SubId) (h : PktHdr) (p : PartId) (dest : Dest) (tile : TileId) (ctr : Fin 64)
    (data xf : List Byte) (code : BitVec 8) (l : Bool), s.bounded → s.linkUp port.val sub.val = true →
    s.hostSub ≠ some (port.val, sub.val) →
    let a := s.portGate port.val p.val (s.ingressRoute port.val p.val dest.tile) h.vc.val
    let at' := s.portGate port.val p.val (s.ingressRoute port.val p.val tile) 1
    let side := portSide port.val
    let take := s.takeRx port.val sub.val (linkChannel h.vc.val h.layer) 1
    let bad := h.poison || take.2
    let slot (s : State) : Slot := (s.tile dest.tile.val).slot dest.buf.val dest.slot.val
    let no : PktHdr :=
      { vc := 5, layer := false, ty := 12, slots := 0, dst := h.src, src := s.moduleId, job := h.job,
        fromHost := h.fromHost, toHost := h.fromHost }
    let refused (u : State) : Prop := u.routers = s.routers ∧ u.tiles = s.tiles
      ∧ s.count 0x7500 0xB port.val < u.count 0x7500 0xB port.val
    (h.dst = s.moduleId → s.isLive p.val = true → s.obj 0x2102 (p.val + 1) 0 = h.job.toNat → h.fromHost = false →
      h.hops.toNat < 63 →
      (h.ty = 2 → (h.vc = 1 ∨ h.vc = 4) →
        ((slot s).st = .avail → Gives (.linkPutPacket port sub h p dest data) s (fun u =>
          (slot u).st = .taken ∧ (slot u).ctr = dest.ctr ∧ (slot u).holder = some a
          ∧ (∃ fs, mget [] (u.router a).gateIn (bufKey side h.vc.val) = mget [] (s.router a).gateIn (bufKey side h.vc.val) ++ fs
            ∧ fs.length = (data.length + 127) / 128 ∧ fs.flatMap (·.data) = data
            ∧ ∀ f ∈ fs, f.vc = h.vc ∧ f.part = p ∧ f.dests = [dest] ∧ f.poison = bad)
          ∧ SameMem s u))
        ∧ ((slot s).st ≠ .avail → exec (.linkPutPacket port sub h p dest data) s = .next s))
      ∧ (h.ty = 3 → h.vc = 1 → Gives (.linkCounterSignal port sub h p tile ctr) s (fun u =>
          (∃ f, mget [] (u.router at').gateIn (bufKey side 1) = mget [] (s.router at').gateIn (bufKey side 1) ++ [f] ∧ f.ty = .signal
            ∧ f.dests = [⟨tile, 0, 0, some ctr⟩] ∧ f.poison = bad) ∧ SameMem s u ∧ u.tiles = s.tiles)))
    ∧ (h.dst = s.moduleId → (s.isLive p.val = false ∨ h.fromHost = true) → s.hostSub = none →
        (∀ a b, s.linkRoute 6 no ≠ .down a b) →
        Gives (.linkPutPacket port sub h p dest data) s refused
        ∧ Gives (.linkCounterSignal port sub h p tile ctr) s refused)
    ∧ (h.dst = s.moduleId → h.toHost = false → h.job = 0 ∨ code = 1 ∨ code = 3 →
        Gives (.linkRefusalReceive port sub h code) s (fun u =>
          u.count 0x7500 0xB port.val = s.count 0x7500 0xB port.val + 1 ∧ u.routers = s.routers ∧ u.parts = s.parts))
    ∧ (13 ≤ h.ty.toNat → Gives (.reservedTypeDiscard port sub h) s (fun u =>
        u = take.1.bump 0x7500 0xB port.val 1 ∧ u.count 0x7500 0xB port.val = s.count 0x7500 0xB port.val + 1))
    ∧ (s.obj 0x6000 0xA port.val ≠ 1 → h.ty.toNat < 13 → h.hops.toNat < 63 →
        s.linkRoute port.val h = .out q.val v.val l → s.holdsNew q.val h = false →
        Gives (.packetTransit port sub h xf data) s (fun u =>
          u.subs = (take.1.sendOn q.val v.val ⟨{ h with poison := bad, hops := h.hops + 1, layer := l }, xf, data⟩).subs
          ∧ SameMem s u))
    ∧ (s.obj 0x6000 0xA port.val = 1 → h.vc ≠ 0 → Gives (.packetTransit port sub h xf data) s (fun u =>
        (u.port port.val).holdPkts = (s.port port.val).holdPkts ++ [(port.val, ⟨{ h with poison := bad }, xf, data⟩)]
        ∧ u.subs = take.1.subs))

/-- A stop frame is taken once: its job stops with cause 5 and the frame goes on; digests that stay different past the
settle time are told once; a quiescing port is quiet when no packet of VC1–VC5 is left in it (R310, R315, R318).
A row whose condition does not hold changes nothing: the model's choice, log entry 8. -/
def Obligations.StopFramesDigestsAndQuiescence : Prop :=
  ∀ (s : State) (port : PortId) (sub : SubId) (job : BitVec 32) (origin : BitVec 14) (cause : BitVec 8) (p : PartId)
    (since : Nat) (w : Way), s.bounded → (s.core 0).down = false → s.wayOpen (port, sub) w = true →
    let x := s.sub port.val sub.val
    let n := 8 * port.val + sub.val
    let seen (s : State) : Bool :=
      s.stops.any (fun z => z.1 = job && z.2.1 = origin && s.tick < z.2.2 + 1175000000)
    (s.linkUp port.val sub.val = true → seen s = false → Gives (.stopFrameReceive port sub job ⟨origin, w⟩ cause) s (fun u =>
        seen u = true ∧ Told s u 0x7040 n
        ∧ (s.isLive p.val = true → s.obj 0x2102 (p.val + 1) 0 = job.toNat →
            u.pstate p.val = 6 ∧ u.obj 0x2103 (p.val + 1) 0 = 5)
        ∧ (s.obj 0x2102 (p.val + 1) 0 ≠ job.toNat → u.pstate p.val = s.pstate p.val)))
    ∧ (seen s = true → exec (.stopFrameReceive port sub job ⟨origin, w⟩ cause) s = .next s)
    ∧ (x.mismatch = some since → x.isUp = true → x.mismatchTold = false → bitOf (s.obj 0x6000 5 port.val) sub.val = true →
        s.digestsMatch port.val sub.val = false → s.obj 0x1F81 1 0 ≠ 1 →
        (since + s.obj 0x1F81 2 0 * 117500 < s.tick → Gives (.digestSettleExpiry port sub) s (fun u => Told s u 0x7030 n
          ∧ u.sub port.val sub.val = { x with mismatchTold := true }))
        ∧ (s.tick ≤ since + s.obj 0x1F81 2 0 * 117500 → exec (.digestSettleExpiry port sub) s = .next s))
    ∧ (s.obj 0x6000 0xA port.val = 1 →
        ((∀ b, b < 8 → (s.sub port.val b).rxDone = [] ∧ ∀ k ∈ (s.sub port.val b).queue, k.hdr.vc = 0) →
          Gives (.portQuiesced port) s (fun u => u = s.modPort port.val (fun y => { y with quiesced := true })))
        ∧ ((∃ b, b < 8 ∧ (s.sub port.val b).rxDone ≠ []) → exec (.portQuiesced port) s = .next s))

/-! The object dictionary. -/

/-- The checks of a write, in their order: the modules that it has passed, the host's permission with E9040, a restarting core,
the security state, the index, the sub-index, the instance, the access class (with E9040 for class BW), the length, the rail
and the value; k and C of an admitted loss-scaled job take no value. A request on the host's sub-port is the host's, whatever
it says of itself. A write that does not arrive changes nothing (R258, R308, R312, R323–R326, R329, R330, R334).
A row whose condition does not hold changes nothing: the model's choice, log entry 8. -/
def Obligations.WritesAreCheckedInOrder : Prop :=
  ∀ (s : State) (rq0 : Path) (idx inst : BitVec 16) (sub : BitVec 8) (data : List Byte) (ty : OTy) (acc : Acc) (t : State),
    s.bounded →
    let i := idx.toNat
    let b := sub.toNat
    let n := inst.toNat
    let c : Instr := .objectWrite rq0 idx sub inst data
    let rq := s.fromPath rq0
    let ab (a : Abort) : Prop := Aborted c s rq0 i b n a
    let told (cause : Nat) (a : Abort) : Prop := Gives c s (fun u => ∃ w, Told s w 0x9040 (pathSrc rq) ∧ w.replies = s.replies
      ∧ (w.ring.head?.map (fun r => r.data.head?) = some (some (BitVec.ofNat 8 cause)) ∨ (s.mem (.stack 0)).errs ≠ [])
      ∧ u = w.answer (writeReply rq i b n 0 true false (some a)))
    (∀ src tag p v h hops, rq0 = .inband src tag p v h hops → s.hostSub = some (p.val, v.val) →
      rq = .inband s.moduleId tag p v true hops)
    ∧ (s.arrives rq i n = false → exec c s = .next s)
    ∧ (s.arrives rq i n = true → s.tooFar rq = some t → exec c s = done t)
    ∧ (s.arrives rq i n = true → s.tooFar rq = none →
      (isFromHost rq = true → bitOf (s.obj 0x3020 1 0) (i / 0x1000) = false → (s.core 0).down = false →
        told 1 .protectedWrite)
      ∧ (isFromHost rq = false → ((s.core 0).down = true ∨ (rq = .coe ∧ (s.core 3).down = true)) → ab .serviceRestart)
      ∧ (isFromHost rq = false → (s.core 0).down = false → (s.core 3).down = false → s.security = 4 → i ≠ 0x2F00 →
          ab .stateConflict)
      ∧ (s.blocked rq true i b n = none →
        (knownIndex i = false → ab .noObject)
        ∧ (knownIndex i = true →
          (objType i b = none → ab .noSub)
          ∧ (objType i b = some (ty, acc) →
            ((kindOf i).count ≤ objInst i n → toAll rq i n = false → ab .badInstance)
            ∧ (objInst i n < (kindOf i).count →
              (acc = .ro ∨ acc = .const → ab .readOnly)
              ∧ (acc = .bw → (s.core 0).down = false → told 0 .readOnly)
              ∧ (acc = .wo ∨ acc = .rw ∨ acc = .rws → toAll rq i n = false → s.scaleHeld i b = false →
                (ty.fits data.length = false → ab .length)
                ∧ (ty.fits data.length = true → s.unpowered i b (objInst i n) = true → ab .hardware)
                ∧ (ty.fits data.length = true → s.unpowered i b (objInst i n) = false → accepted ty i b data = false →
                    ab .valueRange)))))))

/-- A write of an accepted value to an object without an effect of its own stores it, by whichever command it comes; the
window of a queue's limit is 1 to 64. An object that acts at the tile's next core cycle reads back its new value, and stays in
force at its old one in the core cycle of the write (R122, R325, R328, R335). -/
def Obligations.PlainObjectsHoldWhatIsWritten : Prop :=
  ∀ (s : State) (rq : Path) (idx inst : BitVec 16) (sub : BitVec 8) (data : List Byte) (n : Nat) (t : TileId) (q : Fin 32)
    (v : BitVec 8), s.bounded →
    let i := idx.toNat
    let b := sub.toNat
    let w0 (inst : Nat) : State :=
      if i = 0x5100 ∨ i = 0x5200 then s.setNext i b inst (leVal data) else s.setObj i b inst (leVal data)
    let limit := s.setNext 0x5100 (q.val + 1) t.val v.toNat
    (limit.obj 0x5100 (q.val + 1) t.val = v.toNat
      ∧ (s.recent = [] → (s.region (regionOf t.val)).coreAt ≤ s.now →
          limit.tileObj 0x5100 (q.val + 1) t.val = s.obj 0x5100 (q.val + 1) t.val))
    ∧ ((i, b, n) ∈ [(0x2110, 2, 4), (0x2200, 2, 4), (0x2F10, 1, 2), (0x5100, 0x41, 4), (0x5200, 1, 2), (0x5300, 1, 1), (0x5300, 2, 2),
        (0x5300, 5, 4), (0x5300, 6, 4), (0x6000, 6, 4), (0x6000, 7, 4), (0x8720, 1, 1), (0x8720, 3, 4),
        (0x8720, 4, 4), (0x9000, 2, 8)] →
      data.length = n → valueOk i b (leVal data) = true → objInst i inst.toNat < (kindOf i).count →
      (s.takesWrite rq i b inst.toNat →
        Wrote (.objectWrite rq idx sub inst data) s rq i b inst.toNat (fun w => w = w0 (objInst i inst.toNat))
        ∧ (isCoe rq = false → Wrote (.inBandWrite rq idx sub inst 0 true data) s rq i b inst.toNat
            (fun w => w = w0 (objInst i inst.toNat))))
      ∧ (s.takesWrite .coe i b (s.window i) → s.window i < (kindOf i).count →
          Wrote (.sdoDownload idx sub false data) s .coe i b (s.window i) (fun w => w = w0 (s.window i))))
    ∧ (s.takesWrite rq 0x5100 (q.val + 1) t.val →
      (1 ≤ v.toNat ∧ v.toNat ≤ 64 → Wrote (.queueLimitWrite rq t q v) s rq 0x5100 (q.val + 1) t.val
        (fun w => w = limit))
      ∧ (v.toNat = 0 ∨ 64 < v.toNat → Aborted (.queueLimitWrite rq t q v) s rq 0x5100 (q.val + 1) t.val .valueRange))

/-- Reads answer with the object's bytes; the event ring and the log with their records from the read index on; SDO
information with the list of indexes, or with an index's descriptions. -/
def Obligations.ReadsAnswerWithTheValue : Prop :=
  ∀ (s : State) (rq : Path) (idx inst : BitVec 16) (sub : BitVec 8) (ty : OTy) (acc : Acc), s.bounded → s.reads = [] →
    let i := idx.toNat
    let b := sub.toNat
    let open' (rq : Path) (i b n : Nat) : Prop := s.takes rq false i b n
    (objType i b = some (ty, acc) → acc ≠ .wo → knownIndex i = true → ¬(i = 0x3200 ∧ b = 2) → i ≠ 0x9100 → i ≠ 0x6840 →
      (isCoe rq = false → open' rq i b inst.toNat → objInst i inst.toNat < (kindOf i).count →
        s.unpowered i b (objInst i inst.toNat) = false →
        ReadBack (.inBandRead rq idx sub inst 0) s rq (s.readBytes ty i b (objInst i inst.toNat)))
      ∧ (open' .coe i b (s.window i) → s.window i < (kindOf i).count → s.unpowered i b (s.window i) = false →
        ReadBack (.sdoUpload idx sub false) s .coe (s.readBytes ty i b (s.window i))))
    ∧ (open' rq 0x9000 3 0 → ReadBack (.eventRingRead rq) s rq (eventRead s.ring (s.obj 0x9000 1 0) (s.obj 0x9000 2 0)))
    ∧ (open' rq 0x9000 5 0 → ReadBack (.eventLogRead rq) s rq (eventRead s.log (s.obj 0x9000 6 0) (s.obj 0x9000 4 0)))
    ∧ (s.mstate ≠ 4 → s.ecat ≠ .init → (s.core 0).down = false → (s.core 3).down = false →
      ReadBack (.sdoInformation none) s .coe (indexList.flatMap (leBytes 2))
      ∧ (knownIndex i = true → s.closed false i = false →
          ReadBack (.sdoInformation (some idx)) s .coe (describe i)))

/-- EtherCAT goes one state up or any down, and a step that it cannot make is answered with an AL status code; the TxPDO is
sampled from Safe-Operational on; a transaction that its block has not completed ends with the timeout abort, one of an
unpowered block with the hardware abort, and a segmented write idle for 1 s with the timeout abort (R329–R332; the AL codes are
the model's choice: log entry 13).
A row whose condition does not hold changes nothing: the model's choice, log entry 8. -/
def Obligations.EtherCatStatesAndTimeouts : Prop :=
  ∀ (s : State) (st : EcatState) (rq0 : Path) (idx inst : BitVec 16) (sub : BitVec 8) (data : List Byte) (g : Segment),
    s.bounded →
    let i := idx.toNat
    let b := sub.toNat
    let rq := s.fromPath rq0
    (s.mstate ≠ 4 → (s.core 3).down = false → s.recovery = false →
      (ecatRank st ≤ ecatRank s.ecat + 1 → Gives (.ethercatStateRequest (.state st)) s (fun u => u.ecat = st ∧ SameMem s u
        ∧ u.alCode = 0 ∧ (st = .init → u.obj 0x2F00 1 0 = 0) ∧ (st ≠ .init → u = { s with ecat := st, alCode := 0 })))
      ∧ (ecatRank s.ecat + 1 < ecatRank st → Gives (.ethercatStateRequest (.state st)) s (fun u =>
          u = { s with alCode := u.alCode } ∧ u.alCode ≠ 0))
      ∧ (∀ no ∈ [EcatRequest.bootstrap, .clocks, .rxPdo], Gives (.ethercatStateRequest no) s (fun u =>
          u = { s with alCode := u.alCode } ∧ u.alCode ≠ 0))
      ∧ (2 ≤ ecatRank s.ecat → Gives .txpdoSample s (fun u => u = { s with txpdo := u.txpdo } ∧ u.txpdo.length = 32
          ∧ u.txpdo.take 2 = [BitVec.ofNat 8 s.mstate, BitVec.ofNat 8 s.security]
          ∧ u.txpdo.drop 28 = leBytes 4 (s.obj 0x7000 2 0)))
      ∧ (ecatRank s.ecat < 2 → exec .txpdoSample s = .next s))
    ∧ (s.takes rq0 true i b inst.toNat → (∃ ty, accessOf rq true i b inst.toNat = .ok ty) → noTimeout i b = false →
        Gives (.transactionTimeout rq0 idx sub inst (some data) false) s (fun u =>
          u.dict = s.dict ∧ SameMem s u ∧ u.replies.head?.map (fun r => (r.write, r.idx, r.sub, r.abort))
            = some (true, i, b, some (if inst.toNat ≠ 0xFFFF ∧ s.unpowered i b (objInst i inst.toNat) = true then .hardware
                else .timeout))))
    ∧ (s.segments = [g] → g.isOf i b (objInst i inst.toNat) = true → samePeer g.path rq = true →
      (g.last + 3760000000 < s.now → Gives (.segmentIdleTimeout rq0 idx sub inst) s (fun u => u.segments = []
        ∧ u.replies.head?.map (·.abort) = some (some (if g.dead then .serviceRestart else .timeout)) ∧ u.dict = s.dict))
      ∧ (s.now ≤ g.last + 3760000000 → s.reads = [] → exec (.segmentIdleTimeout rq0 idx sub inst) s = .next s))

/-- A counter snapshot: the strobe starts it, each block's latch copies its live counters, and it ends when all have
latched, numbering itself; a histogram clear clears the counts of the slots named.
A row whose condition does not hold changes nothing: the model's choice, log entry 8. -/
def Obligations.SnapshotsLatchEveryBlock : Prop :=
  ∀ (s : State) (rq : Path) (v : BitVec 8) (t : TileId) (e : EngineId), s.bounded →
    (s.takesWrite rq 0x7000 1 0 → v = 1 →
      (s.obj 0x7000 4 0 ≠ 1 → Wrote (.snapshotStrobe rq v) s rq 0x7000 1 0 (fun w =>
        w.obj 0x7000 4 0 = 1 ∧ w.obj 0x7000 3 0 = s.tick ∧ w.latching = [] ∧ w.live = s.live ∧ w.latched = s.latched))
      ∧ (s.obj 0x7000 4 0 = 1 → Aborted (.snapshotStrobe rq v) s rq 0x7000 1 0 .stateConflict))
    ∧ (s.obj 0x7000 4 0 = 1 → s.latches (.tile t) = true → s.latching.contains (.tile t) = false →
        Gives (.counterLatch (.tile t)) s (fun u => u = { s with latched := u.latched, latching := .tile t :: s.latching }
          ∧ (∀ sub, sub ∈ [1, 2, 3, 4, 5, 6, 7] → mget 0 u.latched (okey 0x7200 sub t.val) = s.count 0x7200 sub t.val)
          ∧ mget 0 u.latched (okey 0x7200 0x7F t.val) = s.coreOf t.val
          ∧ mget 0 u.latched (okey 0x7300 0x7F t.val) = s.netOf t.val
          ∧ ∀ j, j < 65536 → j ≠ t.val → mget 0 u.latched (okey 0x7200 1 j) = mget 0 s.latched (okey 0x7200 1 j)))
    ∧ (s.obj 0x7000 4 0 ≠ 1 → exec (.counterLatch (.engine e)) s = .next s)
    ∧ (s.obj 0x7000 4 0 = 1 →
      (s.allLatched = true → Gives .snapshotComplete s (fun u => u.obj 0x7000 4 0 = 0
        ∧ u.obj 0x7000 2 0 = s.obj 0x7000 2 0 + 1 ∧ u.latched = s.latched ∧ SameMem s u))
      ∧ (s.allLatched = false → exec .snapshotComplete s = .next s))
    ∧ (s.takesWrite rq 0x5200 9 t.val → Wrote (.histogramSlotClear rq t v) s rq 0x5200 9 t.val (fun w => OnlyTile t s w
        ∧ ∀ k, k < 4 → (mget ({} : Hist) (w.tile t.val).hist k).counts =
            if bitOf v.toNat k then [] else (mget ({} : Hist) (s.tile t.val).hist k).counts))

/-- Stores, restores and images: a write with its signature starts the one flash operation and is answered when that
ends; a second one, a bad signature or an unready module is refused. A stored image that verifies makes its slot valid. -/
def Obligations.StoresAndImagesUseTheFlash : Prop :=
  ∀ (s : State) (rq : Path) (sig : BitVec 32) (img : Image) (slot : Fin 2) (all : Bool) (o : Open), s.bounded →
    let rows (good : Nat) : List (Instr × Nat × Nat × FlashOp × Nat) :=
      if good = 0x7065656B then
        [(.storeAll rq sig, 0x1010, 1, .store true, 1), (.storeLinkAndRoute rq sig, 0x1010, 2, .store false, 1)]
      else [(.restoreAll rq sig, 0x1011, 1, .restore true, 2), (.restoreLinkAndRoute rq sig, 0x1011, 2, .restore false, 2)]
    let other := if s.recovery then (img.slot.map (·.val)).getD (1 - s.obj 0x1012 1 0) else 1 - s.obj 0x1012 1 0
    let target (w : State) : FwSlot := if other = 0 then w.slotA else w.slotB
    (∀ good, good = 0x7065656B ∨ good = 0x64616F6C → ∀ r ∈ rows good, s.takesWrite rq r.2.1 r.2.2.1 0 →
      (sig.toNat = good → s.flash = none → s.storeReady = true → Opened r.1 s rq r.2.1 r.2.2.1 (fun w =>
        w.flash = some r.2.2.2.1 ∧ w.obj 0x1010 3 0 = r.2.2.2.2 ∧ w.saved = s.saved))
      ∧ (sig.toNat ≠ good → Aborted r.1 s rq r.2.1 r.2.2.1 0 .badSignature)
      ∧ (sig.toNat = good → s.flash ≠ none → Aborted r.1 s rq r.2.1 r.2.2.1 0 .stateConflict)
      ∧ (sig.toNat = good → good = 0x7065656B → s.flash = none → s.storeReady = false →
          Aborted r.1 s rq r.2.1 r.2.2.1 0 .storeCondition))
    ∧ (s.flash = none → s.storeReady = true →
      (s.takesWrite rq 0x1012 6 0 → Opened (.imageWrite rq img) s rq 0x1012 6 (fun w =>
        w.flash = some (.image (Fin.ofNat 2 other) img) ∧ (target w).valid = false))
      ∧ (s.mstate ≠ 4 → s.ecat ≠ .init → (s.core 0).down = false → (s.core 3).down = false → s.security ≠ 4 →
        Opened (.foeWrite img) s .coe 0x1012 6 (fun w =>
          w.flash = some (.image (Fin.ofNat 2 other) img) ∧ (target w).valid = false)))
    ∧ (s.opens = [o] → (s.core 0).down = false →
      (s.flash = some (.store all) → o.idx = 0x1010 → o.sub = (if all then 1 else 2) → Gives .storeComplete s (fun u =>
        u.flash = none ∧ u.opens = [] ∧ u.saved = s.save all ∧ u.replies.head?.map (·.abort) = some none))
      ∧ (s.flash = some (.image slot img) → o.idx = 0x1012 → o.sub = 6 → Gives .storeComplete s (fun u =>
          let ok := (img.sigs :: img.more).all (fun x => x.rsa && x.slh) && decide (s.obj 0x3040 1 0 ≤ img.version.toNat)
          u.flash = none ∧ u.opens = [] ∧ u.replies.head?.map (·.abort) = some (if ok then none else some .badSignature)
          ∧ (ok = true → (if slot.val = 0 then u.slotA else u.slotB)
              = { valid := true, version := img.version, parts := img.parts, measures := img.measures })
          ∧ (ok = false → u.slotA = s.slotA ∧ u.slotB = s.slotB
            ∧ ((s.mem (.stack 0)).errs = [] → ∃ r ∈ u.ring, r.code = 0x9010)))))

/-! Writes with an effect. -/

/-- Writes to a tile's or a region's objects: the route window, tile reset, vault clear, retraining requests, thresholds,
the clock stop and the re-arm. -/
def Obligations.TileAndRegionWritesAct : Prop :=
  ∀ (s : State) (rq : Path) (t : TileId) (r : RegionId) (e : EngineId) (v : BitVec 8) (x : BitVec 16) (y : BitVec 32)
    (k : Fin 4), s.bounded →
    let g := s.region r.val
    let window := s.obj 0x5300 1 t.val * 512 + s.obj 0x5300 2 t.val
    (s.takesWrite rq 0x5300 3 t.val →
      (y.toNat < 2 ^ 31 → Wrote (.routeEntryWrite rq t y) s rq 0x5300 3 t.val (fun w =>
        w = s.modRouter t.val (fun z => { z with sets := mset window y z.sets })))
      ∧ (2 ^ 31 ≤ y.toNat → Aborted (.routeEntryWrite rq t y) s rq 0x5300 3 t.val .valueRange))
    ∧ (s.takesWrite rq 0x5000 1 t.val → v = 1 →
      (s.partOf t.val = none → Wrote (.tileResetWrite rq t v) s rq 0x5000 1 t.val (fun w =>
        w.obj 0x5000 1 t.val = 1 ∧ (w.tile t.val).ctxs = [] ∧ (w.tile t.val).counters = [] ∧ (w.tile t.val).queues = []))
      ∧ (∀ p, s.partOf t.val = some p → s.isLive p.val = true →
          Aborted (.tileResetWrite rq t v) s rq 0x5000 1 t.val .stateConflict))
    ∧ (s.takesWrite rq 0x5000 1 t.val → v = 0 → Wrote (.tileResetWrite rq t v) s rq 0x5000 1 t.val (fun w =>
        w = s.setObj 0x5000 1 t.val 0))
    ∧ (s.takesWrite rq 0x4040 4 r.val → v = 1 → g.netUp = true →
      ((∀ j ∈ s.regionVaults r.val, s.inReset j = true) → g.clearing = none →
        Wrote (.vaultClear rq r v) s rq 0x4040 4 r.val (fun w => w = s.setRegion r.val { g with clearing := some g.net }))
      ∧ ((∃ j ∈ s.regionVaults r.val, s.inReset j = false) →
          Aborted (.vaultClear rq r v) s rq 0x4040 4 r.val .stateConflict))
    ∧ (s.takesWrite rq 0x4040 1 r.val → v = 1 →
      (g.retrain = .idle → Wrote (.vaultRetrainRequest rq r v) s rq 0x4040 1 r.val (fun w =>
        (w.region r.val).retrain = .pending ∧ w.passes = s.passes ++ [r.val]))
      ∧ (g.retrain ≠ .idle → Wrote (.vaultRetrainRequest rq r v) s rq 0x4040 1 r.val (fun w => w = s)))
    ∧ (s.takesWrite rq 0x6830 1 e.val →
      (v.toNat ≤ 15 → (s.engine e.val).pass v.toNat = .idle →
        Wrote (.channelRetrainRequest rq e v) s rq 0x6830 1 e.val (fun w =>
          (w.engine e.val).pass v.toNat = .pending ∧ w.chPasses = s.chPasses ++ [(e.val, v.toNat)]))
      ∧ (15 < v.toNat → Aborted (.channelRetrainRequest rq e v) s rq 0x6830 1 e.val .valueRange))
    ∧ (s.takesWrite rq 0x4000 1 r.val → v = 1 →
      (g.st = .latched ∨ (g.st = .offT4 ∧ g.offAt + 1175000000 ≤ s.tick) → Wrote (.regionRearm rq r v) s rq 0x4000 1 r.val
        (fun w => (w.region r.val).st = .powering ∧ (w.region r.val).rising = some s.tick
          ∧ (w.region r.val).rearmed = some s.tick))
      ∧ (g.st = .dead ∨ (g.st = .offT4 ∧ s.tick < g.offAt + 1175000000) →
          Aborted (.regionRearm rq r v) s rq 0x4000 1 r.val .stateConflict)
      ∧ (g.st = .running ∨ g.st = .railOff ∨ g.st = .off ∨ g.st = .powering → Wrote (.regionRearm rq r v) s rq 0x4000 1 r.val (fun w => w = s)))
    ∧ (s.takesWrite rq 0x4000 4 r.val →
      (v = 1 → g.netUp = true → Wrote (.computeClockStopWrite rq r v) s rq 0x4000 4 r.val (fun w =>
        w.obj 0x4000 4 r.val = 1 ∧ (w.region r.val).clocked = false))
      ∧ (v = 0 → g.stops = [.request] → Wrote (.computeClockStopWrite rq r v) s rq 0x4000 4 r.val (fun w =>
        w.obj 0x4000 4 r.val = 0 ∧ (w.region r.val).stops = [])))
    ∧ (s.takesWrite rq 0x4020 (0x12 + k.val) r.val →
      let hw : Int := hwThreshold k.val
      let th (i : Nat) : Int := if i = k.val then i16 x.toNat else s.threshold r.val (i + 1)
      (i16 x.toNat ≤ hw → hw - 250 ≤ i16 x.toNat → (∀ i, i < 3 → th i + 50 ≤ th (i + 1)) →
        Wrote (.thresholdWrite rq r k x) s rq 0x4020 (0x12 + k.val) r.val (fun w =>
          w = s.setObj 0x4020 (0x12 + k.val) r.val x.toNat))
      ∧ (hw < i16 x.toNat ∨ i16 x.toNat < hw - 250 ∨ (∃ i, i < 3 ∧ th (i + 1) < th i + 50) →
        Aborted (.thresholdWrite rq r k x) s rq 0x4020 (0x12 + k.val) r.val .valueRange))

/-- Writes of the edge: a pool window, a hold command on the entries that it names, an activation stamp, the start of a
snapshot shipment and of a turnover. -/
def Obligations.EngineWritesAct : Prop :=
  ∀ (s : State) (rq : Path) (e : EngineId) (sub : Fin 3) (x : BitVec 64) (g : GroupId) (v : BitVec 8) (y : BitVec 32)
    (c : Nat × JobPlan × EnginePlan × BlockPlan × Nat × Entry64) (pid : Nat) (j : JobPlan) (b : BlockPlan) (n : BitVec 32)
    (k : HoldCmd), s.bounded →
    let win (i : Nat) : Nat := if sub.val + 1 = i then x.toNat else s.obj 0x6860 i e.val
    let cmds : List (Nat × Instr) :=
      [(1, .holdApplyStep rq), (2, .holdDropStep rq), (3, .heldNormMerge rq), (4, .heldNormDrop rq)]
    let grp := s.obj 0x8720 2 0
    let step := BitVec.ofNat 32 (s.obj 0x8720 3 0)
    let factor := BitVec.ofNat 32 (s.obj 0x8720 4 0)
    let goal := BitVec.ofNat 32 (s.obj 0x8720 5 0)
    let cmd (a res : Nat) : HoldCmd :=
      { action := a, group := Fin.ofNat 12 grp, step := step, factor := factor, target := goal, result := res }
    let es (a : Nat) := (List.range 32).flatMap (s.commandEntries (cmd (if a = 3 then 4 else a) 3))
    let late : Prop := ∃ x ∈ es 3, ∃ n, mfind (ekey x.1 (Fin.ofNat 12 grp).val x.2.2.2.1.block)
      (s.engine x.2.2.1.engine.val).settled = some n ∧ stampDiff goal n ≤ 0
    let planned := s.planOk (s.blob 0x2110 1 0)
    (s.takesWrite rq 0x6860 (sub.val + 1) e.val → (sub.val = 2 → x.toNat ≤ 1) →
      (sub.val < 2 → x.toNat % 2 ^ 21 = 0) →
      (s.poolCheck e.val (win 1) (win 2) (win 3) = none → Wrote (.poolWindowWrite rq e sub x) s rq 0x6860 (sub.val + 1) e.val
        (fun w => w = s.setObj 0x6860 (sub.val + 1) e.val x.toNat))
      ∧ (∀ a, s.poolCheck e.val (win 1) (win 2) (win 3) = some a →
          Aborted (.poolWindowWrite rq e sub x) s rq 0x6860 (sub.val + 1) e.val a))
    ∧ (s.takesWrite rq 0x8720 6 0 → ∀ a ∈ cmds, s.obj 0x8720 1 0 = a.1 →
      (s.holdCmd = none → (a.1 = 3 → ¬late) → Wrote a.2 s rq 0x8720 6 0 (fun w =>
        w = { s with holdCmd := some (cmd a.1 (if es a.1 = [] then 3 else 2)) }.setObj 0x8720 7 0 1))
      ∧ (s.holdCmd ≠ none ∨ (a.1 = 3 ∧ late) → Aborted a.2 s rq 0x8720 6 0 .stateConflict))
    ∧ (s.holdCmd = some k → s.engineRuns e.val = true → (s.engine e.val).reqs = [] →
      (k.read.contains e = false → (s.holdHeads k e.val).any (fun x => s.segsBusy e.val x.2) = false →
        s.holdStep e = s.readHeads k e)
      ∧ (k.read.contains e = true → s.commandEntries k e.val = [c] → s.holdWaits k c = false →
        (s.engine e.val).working (Fin.ofNat 16 c.1) c.2.2.2.1.group c.2.2.2.1.block = false →
        let i := c.2.2.2.2.1
        let h := c.2.2.2.2.2
        (k.action = 1 → (s.engine e.val).holdOpen k = false → (s.engine e.val).busy < 64 →
          s.holdStep e = (s.applyHeld k.factor c).checkSluice c.2.2.1)
        ∧ (k.action = 2 → s.holdStep e =
            (s.bump 0x7440 0xC c.2.2.1.engine.val 1).settleBlock c.2.1 (Fin.ofNat 16 c.1) c.2.2.2.1 h.stamp [i])
        ∧ (k.action = 3 → s.holdStep e =
            s.writeHead c.2.2.1 i { h with armed := true, target := k.target, factor := k.factor })
        ∧ (k.action = 4 → s.holdStep e = s.freeEntries c.2.2.1 [i]))
      ∧ ((k.read.contains e = true ∧ s.commandEntries k e.val = []) → s.holdStep e = s))
    ∧ (s.takesWrite rq 0x8706 (g.val + 1) 0 →
      (s.admittedJobs = [] → s.engines = [] → Wrote (.activationStampWrite rq g y) s rq 0x8706 (g.val + 1) 0 (fun w =>
        w.obj 0x8706 (g.val + 1) 0 = y.toNat
        ∧ (mget [] w.acts g.val).head? = some ⟨y, s.pendingVals g.val, false⟩
        ∧ ∀ h, h ≠ g.val → mget [] w.acts h = mget [] s.acts h))
      ∧ ((pid, j) ∈ s.admittedJobs → b ∈ s.ownedHere j → b.group = g →
        mfind (ekey pid g.val b.block) (s.engine b.engine.val).expected = some n → 0 < stampDiff n y →
        Aborted (.activationStampWrite rq g y) s rq 0x8706 (g.val + 1) 0 .stateConflict))
    ∧ (s.takesWrite rq 0x6900 5 0 → v = 1 →
      (s.shipping = none → s.imageBlocks = [] → 4096 ≤ s.obj 0x6900 3 0 → Wrote (.snapshotShipStart rq v) s rq 0x6900 5 0
        (fun w => w.shipping = some (BitVec.ofNat 32 (s.obj 0x6900 1 0), s.obj 0x6900 4 0)
          ∧ w.obj 0x6900 6 0 = 1 ∧ w.obj 0x6900 7 0 = 0))
      ∧ (s.shipping ≠ none ∨ s.obj 0x6900 3 0 < s.imageSize (s.obj 0x6900 4 0) →
          Aborted (.snapshotShipStart rq v) s rq 0x6900 5 0 .stateConflict))
    ∧ (s.takesWrite rq 0x2110 3 0 → v = 1 →
      (s.turn = none → planned = true → Wrote (.turnoverExecute rq v) s rq 0x2110 3 0 (fun w =>
        w.turn.map (fun t => (t.stage, t.entries, t.start)) = some (1, planEntries (s.blob 0x2110 1 0), s.tick)
        ∧ w.obj 0x2110 4 0 = 1
        ∧ ((∀ q, q < 16 → (s.part q).requests = []) →
            ∀ p ∈ planEntries (s.blob 0x2110 1 0), s.pstate p.part.val = 3 → w.pstate p.part.val = 4)))
      ∧ (s.turn = none → planned = false → Aborted (.turnoverExecute rq v) s rq 0x2110 3 0 .valueRange)
      ∧ (s.turn ≠ none → Aborted (.turnoverExecute rq v) s rq 0x2110 3 0 .stateConflict))

/-- Writes of a port: enabling, class and split and port reset bring every sub-port down and train those that may, or have
them wait where service core 3 is down; a retrain gives the selected sub-ports their lane groups back and retrains them;
quiescing holds the port's packets; a table entry is written only at ports that are quiet. -/
def Obligations.PortWritesAct : Prop :=
  ∀ (s : State) (rq : Path) (port : PortId) (inst : Fin 7) (split : Bool) (v : BitVec 8) (y : BitVec 32), s.bounded →
    let p := port.val
    let sub := if split then 3 else 2
    let down := (s.core 3).down
    let mayTrain (s : State) (b : Nat) : Bool := s.portOn p && decide (b < s.subCount p)
    let fresh (s w : State) : Prop := ∀ b, b < 8 →
      (w.sub p b).st = (if s.obj 0x6000 1 p ≠ 1 then 6 else if mayTrain s b = true ∧ down = false then 1 else 0)
      ∧ (s.obj 0x6000 1 p = 1 → mayTrain s b = true → (w.sub p b).waits = down)
    (s.takesWrite rq 0x6000 1 p →
      (v.toNat ≤ 1 → v.toNat ≠ s.obj 0x6000 1 p → Wrote (.portEnableWrite rq port v) s rq 0x6000 1 p (fun w =>
        w.obj 0x6000 1 p = v.toNat ∧ fresh (s.setObj 0x6000 1 p v.toNat) w))
      ∧ (v.toNat = s.obj 0x6000 1 p → v.toNat ≤ 1 → Wrote (.portEnableWrite rq port v) s rq 0x6000 1 p (fun w => w = s))
      ∧ (1 < v.toNat → Aborted (.portEnableWrite rq port v) s rq 0x6000 1 p .valueRange))
    ∧ (s.takesWrite rq 0x6000 sub p →
      (v.toNat ≤ 3 → Wrote (.classSplitWrite rq port split v) s rq 0x6000 sub p (fun w =>
        w.obj 0x6000 sub p = v.toNat ∧ fresh (s.setObj 0x6000 sub p v.toNat) w))
      ∧ (3 < v.toNat → Aborted (.classSplitWrite rq port split v) s rq 0x6000 sub p .valueRange))
    ∧ (s.takesWrite rq 0x6000 8 p → Wrote (.portRetrainWrite rq port v) s rq 0x6000 8 p (fun w => SameMem s w
        ∧ (∀ g, g ∈ (w.port p).lost ↔ g ∈ (s.port p).lost
            ∧ ∀ b, b < 8 → bitOf v.toNat b = true → mayTrain s b = true → g ∉ subGroups (s.split p) b)
        ∧ ∀ b, b < 8 → w.sub p b =
          (let x := s.sub p b
           if bitOf v.toNat b = false ∨ mayTrain s b = false ∨ x.st = 4 then x
           else if down then { x with waits := true }
           else if x.isUp then { x with st := 4, groups := subGroups (s.split p) b, trained := s.tick, waits := false }
           else { x with
             st := 1, trained := s.tick, waits := false,
             mine := some ⟨s.moduleId, s.obj 0x6000 2 p, s.split p, false, 0, Fin.ofNat 6 p, Fin.ofNat 8 b⟩ })))
    ∧ (s.takesWrite rq 0x6000 9 p →
      (v = 1 → Wrote (.portReset rq port v) s rq 0x6000 9 p (fun w => fresh s w ∧ (w.port p).holdPkts = []
        ∧ (w.port p).lost = []))
      ∧ (v ≠ 1 → v.toNat ≤ 1 → Wrote (.portReset rq port v) s rq 0x6000 9 p (fun w => w = s)))
    ∧ (s.takesWrite rq 0x6000 0xA p →
      (v = 1 → Wrote (.portQuiesceWrite rq port v) s rq 0x6000 0xA p (fun w => w = s.setObj 0x6000 0xA p 1))
      ∧ (v = 0 → (s.port p).holdPkts = [] → Wrote (.portQuiesceWrite rq port v) s rq 0x6000 0xA p (fun w =>
          w.obj 0x6000 0xA p = 0 ∧ (w.port p).quiesced = false ∧ w.subs = s.subs)))
    ∧ (s.takesWrite rq 0x6100 2 inst.val → y.toNat < 2 ^ 24 →
      let quiet : Prop := ∀ q, q < 6 → (inst.val = 6 ∨ inst.val = q) → (s.port q).quiesced = true
      (quiet → Wrote (.tableEntryWrite rq inst y) s rq 0x6100 2 inst.val (fun w =>
        w = { s with tables := mset (inst.val * 16384 + s.obj 0x6100 1 inst.val) y s.tables }))
      ∧ (¬quiet → Aborted (.tableEntryWrite rq inst y) s rq 0x6100 2 inst.val .stateConflict))

/-- Writes of the module: requests of a state, resets, the rings' indexes, the trace enable and the host lease, which is
taken, renewed and reclaimed as R389 and R391 say, and expires when it has not been renewed in time.
A row whose condition does not hold changes nothing: the model's choice, log entry 8. -/
def Obligations.ModuleWritesAct : Prop :=
  ∀ (s : State) (rq : Path) (v : BitVec 8) (y : BitVec 32), s.bounded →
    let reqs : List (Nat × Instr) := [(0, .requestRun rq), (1, .requestComputeReset rq), (2, .requestComputeIdle rq),
      (3, .requestServiceOnly rq)]
    let due := s.lease + s.obj 0x2200 2 0 * 117500
    (s.takesWrite rq 0x2001 1 0 → ∀ a ∈ reqs,
      ((a.1 = 3 ∨ s.security < 3) → (a.1 = 0 ∨ a.1 = 2 ∨ s.turn = none) →
        (∀ m, s.move = some m → Wrote a.2 s rq 0x2001 1 0 (fun w =>
          w = { s.setObj 0x2001 1 0 a.1 with move := some { m with asked := true } }))
        ∧ (s.move = none → s.boot.active = true ∨ s.mstate = a.1 ∨ 3 ≤ s.security →
          Wrote a.2 s rq 0x2001 1 0 (fun w => w = s.setObj 0x2001 1 0 a.1))
        ∧ (s.move = none → s.boot.active = false → s.mstate = 3 → a.1 ≤ 2 →
          Wrote a.2 s rq 0x2001 1 0 (fun w => w.obj 0x2001 1 0 = a.1 ∧ w.boot.active = true ∧ w.obj 0x2000 2 0 = 4))
        ∧ (s.move = none → s.boot.active = false → s.mstate ≠ a.1 → s.mstate < 3 → s.security < 3 →
          Wrote a.2 s rq 0x2001 1 0 (fun w => w.obj 0x2001 1 0 = a.1 ∧ w.move = some ⟨a.1, 5, s.tick, false⟩
            ∧ (a.1 = 3 → ∀ p, p < 16 → w.isLive p = false))))
      ∧ (a.1 ≤ 2 → 3 ≤ s.security → Aborted a.2 s rq 0x2001 1 0 .stateConflict)
      ∧ (a.1 = 1 ∨ a.1 = 3 → s.turn ≠ none → Aborted a.2 s rq 0x2001 1 0 .stateConflict))
    ∧ (s.takesWrite rq 0x2003 1 0 →
      (y.toNat = 0x74657372 → s.flash = none → Gives (.moduleReset rq y) s (fun u => u.mstate = 3 ∧ u.obj 0x2000 3 0 = 1
        ∧ u.parts = [] ∧ u.mems = [] ∧ u.now = s.now ∧ ∀ p, p < 16 → u.pstate p = 0))
      ∧ (y.toNat ≠ 0x74657372 → Aborted (.moduleReset rq y) s rq 0x2003 1 0 .badSignature))
    ∧ (s.takesWrite rq 0x2003 2 0 → v = 1 → s.turn = none → s.move = none → s.boot.active = false → s.mstate < 3 →
      Wrote (.edgeReset rq v) s rq 0x2003 2 0 (fun w => w.obj 0x2003 3 0 = 1 ∧ (∀ x ∈ w.engines, x.2.st = 0 ∧ x.2.far = [])
        ∧ w.holdCmd = none ∧ w.obj 0x8720 7 0 = 0 ∧ w.shipping = none ∧ ∀ p, p < 16 → w.isLive p = false))
    ∧ (s.takesWrite rq 0x2300 1 0 →
      let n := u32Diff y.toNat (s.obj 0x2300 2 0)
      (n ≤ 16384 → s.ringFull = true → Wrote (.commandProducerWrite rq y) s rq 0x2300 1 0 (fun w =>
        w = s.setObj 0x2300 1 0 y.toNat))
      ∧ (n = 1 → s.ringFull = false → (s.core 1).down = false → s.mstate < 3 → (s.mem (.stack 0)).errs = [] →
        s.obj 0x2300 2 0 < 2 ^ 32 → s.chanBusy 0 (0x17F8000000 + s.obj 0x2300 2 0 % 16384 * 64) 64 = false →
        let c := takenOf (s.bytes (.stack 0) (0x17F8000000 + s.obj 0x2300 2 0 % 16384 * 64) 64) s.tick (s.obj 0x2300 2 0)
        c.bad = false → s.taken.any (·.bad) = false → Wrote (.commandProducerWrite rq y) s rq 0x2300 1 0 (fun w =>
          w.taken = s.taken ++ [c] ∧ w.obj 0x2300 2 0 = y.toNat))
      ∧ (16384 < n → Aborted (.commandProducerWrite rq y) s rq 0x2300 1 0 .valueRange))
    ∧ (s.takesWrite rq 0x2300 4 0 →
      let n := u32Diff y.toNat (s.obj 0x2300 4 0)
      let m := u32Diff (s.obj 0x2300 3 0) (s.obj 0x2300 4 0)
      (n ≤ m → s.waiting = [] → s.ringFull = false → Wrote (.completionConsumerWrite rq y) s rq 0x2300 4 0 (fun w =>
        w = s.setObj 0x2300 4 0 y.toNat))
      ∧ (m < n → Aborted (.completionConsumerWrite rq y) s rq 0x2300 4 0 .valueRange))
    ∧ (y ≠ 0 → s.takesWrite rq 0x2200 1 0 →
      (y.toNat = s.obj 0x2200 4 0 → Wrote (.leaseRenew rq y) s rq 0x2200 1 0 (fun w => w.lease = s.tick ∧ w.obj 0x2200 5 0 = 1
        ∧ w.obj 0x2200 4 0 = y.toNat
        ∧ w.obj 0x2200 6 0 = s.obj 0x2200 6 0 + (if s.obj 0x2200 5 0 = 1 ∧ s.tick = due then 1 else 0)))
      ∧ (y.toNat ≠ s.obj 0x2200 4 0 → Aborted (.leaseRenew rq y) s rq 0x2200 1 0 .stateConflict))
    ∧ (y ≠ 0 → s.takesWrite rq 0x2200 3 0 →
      (s.obj 0x2200 5 0 ≠ 1 → Wrote (.leaseReclaim rq y) s rq 0x2200 3 0 (fun w => w.lease = s.tick ∧ w.obj 0x2200 5 0 = 1
        ∧ w.obj 0x2200 4 0 = y.toNat ∧ (∀ k, k < 5 → w.obj 0x2300 k 0 = s.obj 0x2300 k 0)
        ∧ (∀ a, 0x17F8000000 ≤ a → a < 0x17F8300000 → w.peek (.stack 0) a = s.peek (.stack 0) a)
        ∧ (s.obj 0x2200 5 0 = 2 → Told s w 0x8040 0x7FFF
            ∧ ((s.mem (.stack 0)).errs = [] →
              w.ring.head?.map (·.data.take 8) = some (leBytes 4 (s.obj 0x2200 4 0) ++ leBytes 4 y.toNat)))))
      ∧ (s.obj 0x2200 5 0 = 1 → Aborted (.leaseReclaim rq y) s rq 0x2200 3 0 .stateConflict))
    ∧ (y = 0 → s.takesWrite rq 0x2200 1 0 → Aborted (.leaseRenew rq y) s rq 0x2200 1 0 .valueRange)
    ∧ (y = 0 → s.takesWrite rq 0x2200 3 0 → Aborted (.leaseReclaim rq y) s rq 0x2200 3 0 .valueRange)
    ∧ (State.reset.obj 0x2200 4 0 = 0 ∧ State.reset.obj 0x2200 5 0 = 0)
    ∧ (s.obj 0x2200 5 0 = 1 →
      (due < s.tick → (s.core 0).down = false → Gives .leaseExpiry s (fun u => u.obj 0x2200 5 0 = 2 ∧ Told s u 0x8020 0x7FFF))
      ∧ (s.tick ≤ due → exec .leaseExpiry s = .next s))
    ∧ (s.takesWrite rq 0x9100 1 0 → v.toNat ≤ 1 →
      (v = 0 ∨ (s.security ≠ 1 ∧ s.security < 3 ∧ s.mstate < 3) → Wrote (.traceEnableWrite rq v) s rq 0x9100 1 0 (fun w =>
        w = s.setObj 0x9100 1 0 v.toNat))
      ∧ (v = 1 → s.security = 1 ∨ 3 ≤ s.security ∨ 3 ≤ s.mstate → Aborted (.traceEnableWrite rq v) s rq 0x9100 1 0 .stateConflict))

/-- Records, tokens and attestation: an enrolment record moves MFG to DEPLOYED in M3; a provisioning record that verifies
is kept; a token that verifies moves the security state as its kind says and counts up, any other names its first failed
check; the observation lock ends OBSERVED; a nonce starts a report, which its signing ends. -/
def Obligations.SecurityWritesMoveTheState : Prop :=
  ∀ (s : State) (rq : Path) (er : EnrolRecord) (pr : ProvRecord) (tok : Token) (v : BitVec 8) (nonce : List Byte) (keysOk : Bool)
    (body : List Byte), s.bounded →
    let toks : List (Nat × Instr × Nat) := [(1, .tokenUnlockObservation rq tok, 2), (2, .tokenRelock rq tok, 1),
      (3, .tokenQuarantine rq tok, 3), (4, .tokenReleaseQuarantine rq tok, 1), (5, .tokenRetire rq tok, 4)]
    let verified (t : State) : State := { t with sec := { t.sec with verifyAt := some s.tick } }
    let free : Prop := s.sec.verifyAt ≠ some s.tick
    let reply (sub : Nat) (a : Option Abort) := writeReply (s.fromPath rq) 0x3100 sub 0 0 true false a
    (s.takesWrite rq 0x3100 0x10 0 → s.mstate = 3 →
      (s.security = 0 → free → er.sigs.rsa = true → er.sigs.slh = true → er.serial.toNat = s.serial → s.boot.active = false →
        (er.retire = false → Wrote (.enrolmentRecordWrite rq er) s rq 0x3100 0x10 0 (fun w => w.security = 1
          ∧ w.obj 0x3100 3 0 = 1 ∧ w.blob 0x3100 4 0 = er.digests.take 96))
        ∧ (er.retire = true → Wrote (.enrolmentRecordWrite rq er) s rq 0x3100 0x10 0 (fun w => w.security = 4
          ∧ w.obj 0x3100 3 0 = 0 ∧ w.blob 0x3100 4 0 = [])))
      ∧ (s.security = 0 → free → er.sigs.rsa = false ∨ er.sigs.slh = false ∨ er.serial.toNat ≠ s.serial →
          exec (.enrolmentRecordWrite rq er) s = .next ((verified s).answer (reply 0x10 (some .badSignature))))
      ∧ (s.security ≠ 0 ∨ ¬free → Aborted (.enrolmentRecordWrite rq er) s rq 0x3100 0x10 0 .stateConflict))
    ∧ (s.takesWrite rq 0x3100 0x11 0 →
      (free → s.flash = none → s.storeReady = true →
        s.ownerKeys pr.rsaKey pr.slhKey = true → pr.sigs.rsa = true → pr.sigs.slh = true →
        (pr.serial = 0 ∨ pr.serial.toNat = s.serial) → (∀ old, s.sec.record = some old → old.version.toNat < pr.version.toNat) →
        Wrote (.provisioningRecordWrite rq pr) s rq 0x3100 0x11 0 (fun w =>
          w = verified { s with sec := { s.sec with record := some pr } }))
      ∧ (¬free → Aborted (.provisioningRecordWrite rq pr) s rq 0x3100 0x11 0 .stateConflict))
    ∧ (s.takesWrite rq 0x3100 0x12 0 → ∀ a ∈ toks,
      (free → s.tokenResult a.1 tok = 0 → s.boot.active = false → Wrote a.2.1 s rq 0x3100 0x12 0 (fun w => w.security = a.2.2
        ∧ w.obj 0x3100 5 0 = (s.obj 0x3100 5 0 + 1) % 2 ^ 32 ∧ w.obj 0x3100 6 0 = 0
        ∧ (3 ≤ a.2.2 → s.mstate < 3 → w.move = some ⟨3, 4, s.tick, false⟩)
        ∧ (s.security = 2 → w.obj 0x9100 1 0 = 0)))
      ∧ (free → s.tokenResult a.1 tok ≠ 0 → Gives a.2.1 s (fun u => ∃ w, Told s w 0x9040 (pathSrc rq)
          ∧ w.security = s.security ∧ w.obj 0x3100 6 0 = s.tokenResult a.1 tok ∧ w.obj 0x3100 5 0 = s.obj 0x3100 5 0
          ∧ u = w.answer (reply 0x12 (some (if s.tokenResult a.1 tok = 5 then .stateConflict else .badSignature)))))
      ∧ (¬free → Aborted a.2.1 s rq 0x3100 0x12 0 .stateConflict))
    ∧ (s.takesWrite rq 0x3100 0x13 0 →
      (v = 1 → s.security = 2 → Wrote (.observationLockWrite rq v) s rq 0x3100 0x13 0 (fun w => w.security = 1
        ∧ w.obj 0x9100 1 0 = 0))
      ∧ (v = 1 → s.security ≠ 2 → Wrote (.observationLockWrite rq v) s rq 0x3100 0x13 0 (fun w => w = s)))
    ∧ (s.takesWrite rq 0x3200 1 0 → s.security < 3 →
      (nonce.length = 32 → s.obj 0x3200 3 0 ≠ 1 → Wrote (.attestationNonceWrite rq nonce true) s rq 0x3200 1 0 (fun w =>
        w.blob 0x3200 1 0 = nonce ∧ w.obj 0x3200 3 0 = 1 ∧ w.sec.signing = some (s.reportBody nonce)))
      ∧ (nonce.length = 32 → s.obj 0x3200 3 0 ≠ 1 → s.boot.active = false →
          Wrote (.attestationNonceWrite rq nonce false) s rq 0x3200 1 0 (fun w => w.security = 3 ∧ w.obj 0x3100 2 0 = 1
            ∧ (s.mstate < 3 → w.move = some ⟨3, 4, s.tick, false⟩)))
      ∧ (nonce.length = 32 → s.obj 0x3200 3 0 = 1 →
          Aborted (.attestationNonceWrite rq nonce keysOk) s rq 0x3200 1 0 .stateConflict)
      ∧ (nonce.length ≠ 32 → Aborted (.attestationNonceWrite rq nonce keysOk) s rq 0x3200 1 0 .length))
    ∧ (s.sec.signing = some body → Gives .attestationSigned s (fun u => u.sec.signing = none ∧ u.obj 0x3200 3 0 = 2
        ∧ (u.blob 0x3200 2 0).take body.length = body ∧ (u.blob 0x3200 2 0).length = body.length + 16608))

/-! Power, clocks and heat. -/

/-- The inlet and the rails: out of its window the compute clocks of the powered regions stop, and free again on recovery;
past its limits the wafer goes down to M3 with cause 2; without service power the module is in M4; a rail that does not
sequence and a short latch their region off, and 10 s after a re-arm its count clears.
A row whose condition does not hold changes nothing: the model's choice, log entry 8. -/
def Obligations.PowerFaultsTakeRegionsDown : Prop :=
  ∀ (s : State) (mV : Nat) (r : RegionId) (rail : Fin 3) (since : Nat), s.bounded → (s.core 0).down = false →
    let g := s.region r.val
    let m3 (u : State) : Prop := u.mstate = 3 ∧ u.obj 0x2001 1 0 = 3 ∧ u.obj 0x2000 3 0 = 2 ∧ u.mems = [] ∧ u.tiles = []
      ∧ (∀ p, p < 16 → u.pstate p = 0) ∧ (∀ q, q < 48 → (u.region q).netUp = false)
      ∧ ((∀ p, p < 16 → s.isLive p = false) → s.turn = none → s.shipping = none → Told s u 0x1060 0x7FFF)
    let calm : Prop := g.retrain.isRunning = false ∧ ∀ e ∈ s.tiles, e.2.ops = [] ∧ ∀ c ∈ e.2.ctxs, c.2.store = none
    (s.mstate ≠ 4 →
      ((36000 ≤ mV ∧ mV < 38000) ∨ (46000 < mV ∧ mV ≤ 47000) → s.power.stopped = false →
        Gives (.inletUndervoltStop mV) s (fun u => u.power.stopped = true ∧ u.obj 0x2020 1 0 = mV / 10
          ∧ Told s u 0x1060 0x7FFF ∧ ∀ q, q < 48 → (s.region q).netUp = true → (u.region q).clocked = false))
      ∧ (38500 ≤ mV → mV ≤ 45500 → s.power.stopped = true → Gives (.inletRecovery mV) s (fun u => u.power.stopped = false
          ∧ Told s u 0x1060 0x7FFF ∧ ∀ q ∈ u.regions, StopCause.inlet ∉ q.2.stops))
      ∧ (mV < 36000 ∨ 47000 < mV →
        (s.waferOn = true → Gives (.inletFaultPowerdown mV) s m3)
        ∧ (s.waferOn = false → Gives (.inletFaultPowerdown mV) s (fun u => Told s u 0x1060 0x7FFF ∧ u.obj 0x2020 1 0 = mV / 10
            ∧ u.mstate = s.mstate ∧ u.regions = s.regions))))
    ∧ (36000 ≤ mV → mV ≤ 47000 → exec (.inletFaultPowerdown mV) s = .next s)
    ∧ (mV < 30000 → s.mstate ≠ 4 → Gives (.servicePowerLoss mV) s (fun u => u.mstate = 4 ∧ u.mems = [] ∧ u.tiles = []
        ∧ u.ring = [] ∧ u.log = s.log))
    ∧ (30000 ≤ mV → exec (.servicePowerLoss mV) s = .next s)
    ∧ (s.boot.active = false → g.netUp = true → rail.val ≠ 2 →
      ((g.rearmed = some since ∧ s.tick < since + 11750000) ∨ (g.rising = some since ∧ s.tick < since + 352500) →
        g.hot = false → g.failed < 2 → calm → Gives (.railSequenceTimeout (Fin.castSucc r) rail) s (fun u =>
          (u.region r.val).st = .latched ∧ (u.region r.val).failed = g.failed + 1
          ∧ u.count 0x7600 8 r.val = s.count 0x7600 8 r.val + 1 ∧ Told s u 0x1010 r.val))
      ∧ (g.st = .running → g.rearmed = none → g.rising = none → exec (.railSequenceTimeout (Fin.castSucc r) rail) s = .next s))
    ∧ (g.isOff = false → g.rearmed = none → calm → Gives (.regionShortCircuit r rail) s (fun u => (u.region r.val).st = .latched
        ∧ (∀ t : TileId, regionOf t.val = r.val → (u.mem (.sram t)).cells = [] ∧ (u.mem (.vault t)).cells = [])
        ∧ u.count 0x7600 8 r.val = s.count 0x7600 8 r.val + 1 ∧ Told s u 0x1020 r.val))
    ∧ (g.isOff = true → exec (.regionShortCircuit r rail) s = .next s)
    ∧ (g.netUp = true → g.rearmed = some since →
      (since + 1175000000 ≤ s.tick → Gives (.rearmCountClear r) s (fun u =>
        u = s.setRegion r.val { g with failed := 0, rearmed := none }))
      ∧ (s.tick < since + 1175000000 → exec (.rearmCountClear r) s = .next s))

/-- Clocks and heat: relocks are told and a lost lock takes the wafer down; a temperature reading is kept and its
thresholds act; the thermal index rises by 1 ms and falls by 10 ms steps; the power cap raises every region's step; the
current trip sets the cap to 3; a half clocks down while a cause holds.
A row whose condition does not hold changes nothing: the model's choice, log entry 8. -/
def Obligations.ClocksFollowHeatAndPower : Prop :=
  ∀ (s : State) (regions : BitVec 48) (r : RegionId) (temps : List Int) (temp : Int) (watts deciA since : Nat) (east : Bool),
    s.bounded → (s.core 0).down = false →
    let g := s.region r.val
    let h := if east then 1 else 0
    let lim := s.powerLimit
    (s.boot.active = false → s.mstate < 3 → s.lockHeld = true → regions ≠ 0 →
        Gives (.meshRelock regions) s (fun u => Told s u 0x1030 0x7FFF ∧ u.regions = s.regions))
    ∧ (s.power.locked = true → Gives .meshLockLoss s (fun u => u.mstate = 3 ∧ u.obj 0x2001 1 0 = 3 ∧ u.obj 0x2000 3 0 = 3
        ∧ ((∀ p, p < 16 → s.isLive p = false) → s.turn = none → s.shipping = none → Told s u 0x1030 0x7FFF)))
    ∧ (s.power.locked = false → exec .meshLockLoss s = .next s)
    ∧ (g.netUp = true → temps = List.replicate 16 temp → sensorOk temp = true → g.firstReading = false → g.level = 0 →
      (temp < s.threshold r.val 1 → temp < s.threshold r.val 2 → temp < s.threshold r.val 3 → temp < s.threshold r.val 4 →
        Gives (.thermalSample r temps) s (fun u => (u.region r.val).temp = temp ∧ (u.region r.val).level = 0
          ∧ (u.region r.val).bad = 0 ∧ u.ring = s.ring))
      ∧ (s.threshold r.val 1 ≤ temp → temp < s.threshold r.val 2 → temp < s.threshold r.val 3 → temp < s.threshold r.val 4 →
        Gives (.thermalSample r temps) s (fun u => (u.region r.val).level = 1 ∧ (u.region r.val).index = min 3 (g.index + 1)
          ∧ Told s u 0x2010 r.val)))
    ∧ (g.netUp = true → 1 ≤ g.level →
      (g.index < 3 → g.indexAt + 117500 ≤ s.tick → Gives (.thermalIndexStep r) s (fun u =>
        (u.region r.val).index = g.index + 1 ∧ (u.region r.val).indexAt = s.tick))
      ∧ (s.tick < g.indexAt + 117500 → exec (.thermalIndexStep r) s = .next s))
    ∧ (g.netUp = true → g.level = 0 → 0 < g.index → g.indexAt + 1175000 ≤ s.tick → Gives (.thermalIndexStep r) s (fun u =>
        (u.region r.val).index = g.index - 1 ∧ (g.index = 1 → Told s u 0x2010 r.val)))
    ∧ (s.mstate ≠ 4 → s.power.escal = 0 →
      (lim < watts → s.power.above = 9 → s.power.cap < 3 → Gives (.powerCapTick watts) s (fun u =>
        u.power.cap = s.power.cap + 1 ∧ u.power.above = 0 ∧ u.obj 0x2020 2 0 = watts / 10
        ∧ (s.power.cap = 0 → Told s u 0x2050 0x7FFF)
        ∧ ∀ q ∈ s.regions, s.power.cap + 1 ≤ u.stepWanted q.1))
      ∧ (watts + 1000 ≤ lim → s.power.under = 99 → 0 < s.power.cap → Gives (.powerCapTick watts) s (fun u =>
          u.power.cap = s.power.cap - 1 ∧ (s.power.cap = 1 → Told s u 0x2050 0x7FFF)))
      ∧ (lim < watts → s.power.above < 9 → s.power.cap < 3 → Gives (.powerCapTick watts) s (fun u =>
          u.power.cap = s.power.cap ∧ u.power.above = s.power.above + 1 ∧ u.regions = s.regions)))
    ∧ (s.mstate ≠ 4 →
      (8500 < deciA → Gives (.overcurrentTrip deciA) s (fun u => u.power.cap = 3 ∧ Told s u 0x2050 0x7FFF
        ∧ u.obj 0x2020 9 0 = deciA))
      ∧ (deciA ≤ 8500 → Gives (.overcurrentTrip deciA) s (fun u => u = s.setObj 0x2020 9 0 deciA)))
    ∧ (s.mstate ≠ 4 → s.halfCauses h ≠ 0 → s.power.halfDown.contains h = false → Gives (.halfClockDownEntry east) s (fun u =>
        u.power.halfDown = h :: s.power.halfDown ∧ Told s u 0x1050 h
        ∧ ∀ q, halfOf q = h → 3 ≤ u.stepWanted q))
    ∧ (s.halfCauses h = 0 → exec (.halfClockDownEntry east) s = .next s)
    ∧ (s.power.halfDown = [h] → s.halfCauses h = 0 → mfind h s.power.clear = some since →
      (since + 11750000 ≤ s.tick → Gives (.halfClockDownExit east) s (fun u => u.power.halfDown = [] ∧ Told s u 0x1050 h))
      ∧ (s.tick < since + 11750000 → exec (.halfClockDownExit east) s = .next s))

/-! Bring-up. -/

/-- Bring-up: power-on starts the boot ROM in M3; precharge, the power slots and the microcode go on by their conditions;
the module enters M2 when all is done; a running transition ends in its target; a core that hangs restarts within 40 ms,
and after four restarts in 60 s the module resets.
A row whose condition does not hold changes nothing: the model's choice, log entry 8. -/
def Obligations.BringUpPassesItsSteps : Prop :=
  ∀ (s : State) (mV : Nat) (slot : Fin 48) (t : TileId) (ok : Bool) (m : Map Nat) (x : Transition) (core : Fin 4)
    (exception imageOk : Bool) (ticks : BitVec 32) (since : Nat), s.bounded → s.mstate ≠ 4 →
    let r := bootOrder.getD slot.val 0
    let good : Sigs := ⟨true, true⟩
    let six := List.replicate 6 good
    let c := s.core core.val
    let recent := (c.restarts.filter (fun a => s.tick < a + 7050000000)).length
    (s.mstate = 3 → s.obj 0x2000 2 0 = 0 → 38000 ≤ mV → s.security = 1 → s.obj 0x3100 3 0 = 1 → s.otherSlot = false →
      s.obj 0x1012 2 0 = 0 → s.slotA.valid = true → s.slotA.version.toNat ≥ s.sec.fusedFloor.toNat → s.saved = {} →
      s.obj 0x2001 1 0 ≤ 2 → (∃ rec, s.sec.record = some rec ∧ s.ownerKeys rec.rsaKey rec.slhKey = true
        ∧ rec.floor.toNat ≤ s.slotA.version.toNat) →
      Gives (.powerOn (.start mV good good six six true good true)) s (fun u => u.boot.active = true ∧ u.obj 0x2000 2 0 = 4
        ∧ u.obj 0x1012 1 0 = 0 ∧ u.mstate = 3 ∧ u.security = 1))
    ∧ (mV < 38000 → exec (.powerOn (.start mV good good six six true good true)) s = .next s)
    ∧ (s.boot.active = true → s.boot.precharged = false → 38000 ≤ mV → mV ≤ 46000 →
        s.boot.charging = some since → since + 94000000 ≤ s.tick →
        (∃ q ∈ rootRegions, (s.region q).st ≠ .dead) → Gives (.prechargeComplete mV) s (fun u =>
          u.boot.precharged = true ∧ u.obj 0x2000 2 0 = 5))
    ∧ (s.boot.active = true → s.boot.precharged = true →
      (s.nextSlot = some slot.val → Gives (.regionPowerSlot slot ok) s (fun u =>
        (u.region r).st = .powering ∧ (u.region r).rising = (if ok then some s.tick else none)
        ∧ (u.region r).attempts = (s.region r).attempts + 1
        ∧ u.obj 0x2000 2 0 = (if ok = true ∧ s.power.locked = false ∧ r ∈ rootRegions then 7 else 6)
        ∧ ∀ q, q ≠ r → u.region q = s.region q))
      ∧ (s.nextSlot ≠ some slot.val → exec (.regionPowerSlot slot ok) s = .next s))
    ∧ (s.mc = some m → mfind t.val m = some 0 → (s.core 1).down = false → mget 0 s.boot.mcTries t.val = 2 →
        Gives (.microcodeRetry t false) s (fun u => u.mc = some (mset t.val 2 m) ∧ mget 0 u.boot.mcTries t.val = 3))
    ∧ (s.mc = some m → mfind t.val m = some 0 → (s.core 1).down = false → Gives (.microcodeRetry t true) s (fun u =>
        u.mc = some (mdel t.val m)))
    ∧ (s.bootDone = true → s.security < 3 → s.obj 0x2001 1 0 = 2 → Gives .bootM2Entry s (fun u => u.mstate = 2
        ∧ u.boot.active = false ∧ u.obj 0x1012 2 0 = s.obj 0x1012 1 0 ∧ u.obj 0x2000 2 0 = 12 ∧ u.move = s.move))
    ∧ (s.bootDone = false → exec .bootM2Entry s = .next s)
    ∧ (s.move = some x → x.asked = false ∨ s.obj 0x2001 1 0 = x.target →
      (x.target ≤ 2 → Gives .runningTransitionComplete s (fun u => u.mstate = x.target ∧ u.move = none))
      ∧ (x.target = 3 → (∀ q ∈ s.regions, q.2.isOff = true) → Gives .runningTransitionComplete s (fun u =>
          u.mstate = 3 ∧ u.obj 0x2000 3 0 = x.cause ∧ u.move = none))
      ∧ (x.target = 3 → (∃ q ∈ s.regions, q.2.isOff = false) → exec .runningTransitionComplete s = .next s))
    ∧ (c.down = false →
      (recent < 4 → ticks ≠ 0 → Gives (.coreWatchdogExpiry core exception imageOk ticks) s (fun u =>
        (u.core core.val).down = true ∧ (u.core core.val).upAt = s.tick + min ticks.toNat 4700000))
      ∧ (4 ≤ recent → Gives (.coreWatchdogExpiry core exception imageOk ticks) s (fun u => u.mstate = 3
          ∧ u.obj 0x2000 3 0 = 4 ∧ u.parts = [])))

/-! Reset and the memories. -/

/-- What reset leaves: M3 with the reset values of the spec's tables, no partition, no event, every sub-port down, the
queue empty, and the tiles holding zero counters and no program. -/
def Obligations.ResetLeavesTheTablesDefaults : Prop :=
  State.reset.pending = [] ∧ State.reset.mstate = 3 ∧ State.reset.ring = [] ∧ State.reset.mems = []
    ∧ State.reset.turn = none ∧ State.reset.move = none ∧ State.reset.taken = []
    ∧ (∀ p, p < 16 → State.reset.pstate p = 0) ∧ (∀ p b, (State.reset.sub p b).st = 0)
    ∧ (∀ t k : Nat, (State.reset.tile t).counter k = 0 ∧ (State.reset.tile t).part = none)
    ∧ (∀ r : Nat, (State.reset.region r).st = .off)
    ∧ State.reset.obj 0x6000 1 0 = 1 ∧ State.reset.obj 0x2110 2 0 = 1000 ∧ State.reset.obj 0x5100 1 0 = 8
    ∧ State.reset.bounded ∧ State.reset.memsOk

/-- Commands that write memory, or begin to, and the steps of a tile's operations keep every memory in its canonical form. -/
def Obligations.MemoryWritersKeepTheCanonicalForm : Prop :=
  ∀ (s : State) (t : TileId) (c : CtxId) (h : Hdr) (v : Fin 32) (desc : BitVec 32) (role : Role) (trails : Bool)
    (f : FarReq) (data : List Byte) (m : MemUnit) (w : Nat) (ups : List Upset) (r : RegionId) (n : Nat) (o : Op), s.memsOk →
    (s.opStep t o).memsOk ∧
    ∀ i ∈ ([.vectorSt t c h v desc, .tensorDrain t c h role trails desc, .farWriteRequest f data, .farReadRequest f,
        .scrubRead m w ups, .vaultClearDone r, .vaultRefresh t 0, .operationComplete t n, .leaseExpiry,
        .meshRelock 1] : List Instr),
      Gives i s State.memsOk
end

