-- ==== Sys2Proof/Laws/Maps.lean ====
section
/-! SUPPORT. Sparse data: what a set or deleted number reads as; and the canonical form of a memory, which every
operation on cells keeps. -/
namespace Sys2Proof.Machine

/-! Reading after writing. -/

theorem mfind_minsert_ne {α : Type} {k j : Nat} (h : j ≠ k) (v : α) (m : Map α) :
    mfind j (minsert k v m) = mfind j m := by
  induction m with
  | nil => simp [minsert, mfind, Ne.symm h]
  | cons c r ih =>
    obtain ⟨i, w⟩ := c
    unfold minsert
    split
    · simp [mfind, Ne.symm h]
    · simp [mfind, ih]

theorem mfind_minsert_same {α : Type} {k : Nat} (v : α) (m : Map α) (h : mfind k m = none) :
    mfind k (minsert k v m) = some v := by
  induction m with
  | nil => simp [minsert, mfind]
  | cons c r ih =>
    obtain ⟨i, w⟩ := c
    have hi : i ≠ k := by intro e; simp [mfind, e] at h
    unfold minsert
    split
    · simp [mfind]
    · simp [mfind, hi] at h ⊢
      exact ih h

theorem mfind_mdel_same {α : Type} (k : Nat) (m : Map α) : mfind k (mdel k m) = none := by
  induction m with
  | nil => rfl
  | cons c r ih =>
    obtain ⟨i, w⟩ := c
    by_cases e : i = k
    · subst e; simpa [mdel] using ih
    · simpa [mdel, mfind, e] using ih

theorem mfind_mdel_ne {α : Type} {k j : Nat} (h : j ≠ k) (m : Map α) : mfind j (mdel k m) = mfind j m := by
  induction m with
  | nil => rfl
  | cons c r ih =>
    obtain ⟨i, w⟩ := c
    by_cases e : i = k
    · subst e
      simpa [mdel, mfind, Ne.symm h] using ih
    · by_cases e' : i = j
      · subst e'; simp [mdel, mfind, e]
      · simpa [mdel, mfind, e, e'] using ih

theorem mfind_mset {α : Type} (k j : Nat) (v : α) (m : Map α) :
    mfind j (mset k v m) = if j = k then some v else mfind j m := by
  split
  · next h => subst h; exact mfind_minsert_same v _ (mfind_mdel_same _ m)
  · next h => rw [mset, mfind_minsert_ne h, mfind_mdel_ne h]

theorem mget_mset {α : Type} (d : α) (k j : Nat) (v : α) (m : Map α) :
    mget d (mset k v m) j = if j = k then v else mget d m j := by
  unfold mget
  rw [mfind_mset]
  split <;> rfl

@[simp] theorem mget_mset_same {α : Type} (d : α) (k : Nat) (v : α) (m : Map α) : mget d (mset k v m) k = v := by
  simp [mget_mset]

theorem mget_mset_ne {α : Type} (d : α) {k j : Nat} (h : j ≠ k) (v : α) (m : Map α) :
    mget d (mset k v m) j = mget d m j := by
  simp [mget_mset, h]

theorem mget_mdel {α : Type} (d : α) (k j : Nat) (m : Map α) :
    mget d (mdel k m) j = if j = k then d else mget d m j := by
  unfold mget
  split
  · next h => subst h; rw [mfind_mdel_same]; rfl
  · next h => rw [mfind_mdel_ne h]

/-! The canonical form of cells. -/

theorem cellsOk_cons {c : Host.Cell} {r : List Host.Cell} :
    cellsOk (c :: r) = true ↔ c.2 ≠ 0 ∧ (∀ d ∈ r, c.1 < d.1) ∧ cellsOk r = true := by
  simp [cellsOk, and_assoc]

theorem cellsOk_filter (p : Host.Cell → Bool) {l : List Host.Cell} (h : cellsOk l = true) :
    cellsOk (l.filter p) = true := by
  induction l with
  | nil => rfl
  | cons c r ih =>
    obtain ⟨h1, h2, h3⟩ := cellsOk_cons.1 h
    by_cases e : p c
    · simp only [List.filter_cons, e, if_true]
      exact cellsOk_cons.2 ⟨h1, fun d hd => h2 d (List.mem_of_mem_filter hd), ih h3⟩
    · simpa [e] using ih h3

theorem mem_minsert {α : Type} {k : Nat} {v : α} {m : Map α} {c : Nat × α} (h : c ∈ minsert k v m) :
    c = (k, v) ∨ c ∈ m := by
  induction m with
  | nil => simpa [minsert] using h
  | cons a r ih =>
    obtain ⟨i, w⟩ := a
    unfold minsert at h
    split at h
    · simpa using h
    · rcases List.mem_cons.1 h with h | h
      · exact .inr (by simp [h])
      · rcases ih h with h | h
        · exact .inl h
        · exact .inr (List.mem_cons_of_mem _ h)

theorem cellsOk_minsert {k : Nat} {v : Byte} {l : List Host.Cell} (hv : v ≠ 0) (hk : ∀ d ∈ l, d.1 ≠ k)
    (h : cellsOk l = true) : cellsOk (minsert k v l) = true := by
  induction l with
  | nil => simpa [minsert, cellsOk] using hv
  | cons c r ih =>
    obtain ⟨i, w⟩ := c
    obtain ⟨h1, h2, h3⟩ := cellsOk_cons.1 h
    unfold minsert
    split
    · next e =>
      refine cellsOk_cons.2 ⟨hv, fun d hd => ?_, h⟩
      rcases List.mem_cons.1 hd with hd | hd
      · subst hd; exact e
      · exact Nat.lt_trans e (h2 d hd)
    · next e =>
      have hik : i ≠ k := hk (i, w) (by simp)
      refine cellsOk_cons.2 ⟨h1, fun d hd => ?_, ih (fun d hd => hk d (by simp [hd])) h3⟩
      rcases mem_minsert hd with hd | hd
      · subst hd; exact Nat.lt_of_le_of_ne (Nat.le_of_not_lt e) hik
      · exact h2 d hd

/-- Writing one value keeps the canonical form. -/
theorem cellsOk_cset (a : Nat) (b : Byte) {l : List Host.Cell} (h : cellsOk l = true) : cellsOk (cset a b l) = true := by
  unfold cset
  split
  · exact cellsOk_filter _ h
  · next hb =>
    refine cellsOk_minsert hb (fun d hd => ?_) (cellsOk_filter _ h)
    simpa [mdel] using (List.mem_filter.1 hd).2

theorem cellsOk_cwrite (bs : List Byte) : ∀ (a : Nat) {l : List Host.Cell}, cellsOk l = true →
    cellsOk (cwrite a bs l) = true := by
  induction bs with
  | nil => intro _ _ h; exact h
  | cons b r ih => intro a l h; exact ih _ (cellsOk_cset a b h)

/-- A value written is read back, and no other changes. -/
theorem cget_cset (a j : Nat) (b : Byte) (l : List Host.Cell) : cget (cset a b l) j = if j = a then b else cget l j := by
  unfold cget cset
  split
  · next hb => rw [mget_mdel]; split <;> simp_all
  · exact mget_mset 0 a j b l

theorem cget_cwrite (bs : List Byte) : ∀ (a j : Nat) (l : List Host.Cell),
    cget (cwrite a bs l) j = if a ≤ j ∧ j < a + bs.length then bs.getD (j - a) 0 else cget l j := by
  induction bs with
  | nil => intro a j l; simp [cwrite]
  | cons b r ih =>
    intro a j l
    rw [cwrite, ih, cget_cset]
    by_cases h1 : j = a
    · subst h1; simp
    · by_cases h2 : a ≤ j ∧ j < a + (b :: r).length
      · have : a + 1 ≤ j ∧ j < a + 1 + r.length := by simp at h2; omega
        have hs : j - a = (j - (a + 1)) + 1 := by omega
        rw [if_pos this, if_pos h2, hs]; simp
      · have : ¬(a + 1 ≤ j ∧ j < a + 1 + r.length) := by simp at h2; omega
        rw [if_neg this, if_neg h1, if_neg h2]

end Sys2Proof.Machine
end

