-- ==== Sys2Proof/Laws/Memory.lean ====
section
/-! SUPPORT. Memory: reading after writing, and the canonical form, which every memory operation keeps. -/
namespace Sys2Proof.Machine

theorem MemUnit.key_inj {u v : MemUnit} (h : u.key = v.key) : u = v := by
  cases u with
  | sram t => cases v with
    | sram r => exact congrArg _ (Fin.ext h)
    | vault r => simp only [MemUnit.key] at h; omega
    | stack r => simp only [MemUnit.key] at h; omega
  | vault t => cases v with
    | sram r => simp only [MemUnit.key] at h; omega
    | vault r => simp only [MemUnit.key] at h; exact congrArg _ (Fin.ext (by omega))
    | stack r => simp only [MemUnit.key] at h; omega
  | stack t => cases v with
    | sram r => simp only [MemUnit.key] at h; omega
    | vault r => simp only [MemUnit.key] at h; omega
    | stack r => simp only [MemUnit.key] at h; exact congrArg _ (Fin.ext (by omega))

@[simp] theorem State.mem_setMem (s : State) (u v : MemUnit) (m : Mem) :
    (s.setMem u m).mem v = if v = u then m else s.mem v := by
  unfold State.mem State.setMem
  simp only [mget_mset]
  by_cases h : v = u
  · simp [h]
  · rw [if_neg (fun e => h (MemUnit.key_inj e)), if_neg h]

/-- A write of bytes is read back, and every other byte reads as before. -/
theorem State.peek_poke (s : State) (u v : MemUnit) (a j : Nat) (bs : List Byte) :
    (s.poke u a bs).peek v j =
      if v = u ∧ a ≤ j ∧ j < a + bs.length then bs.getD (j - a) 0 else s.peek v j := by
  unfold State.poke State.peek
  rw [State.mem_setMem]
  by_cases h : v = u
  · subst h; simp [cget_cwrite]
  · simp [h]

/-! Canonical form. -/

theorem Mem.wf_iff {m : Mem} : m.wf = true ↔ cellsOk m.cells = true ∧ cellsOk m.errs = true := by
  simp [Mem.wf]

theorem State.memsOk_setMem {s : State} {u : MemUnit} {m : Mem} (h : s.memsOk) (hm : m.wf = true) :
    (s.setMem u m).memsOk := by
  intro k
  show (mget ({} : Mem) (mset u.key m s.mems) k).wf = true
  rw [mget_mset]
  split
  · exact hm
  · exact h k

theorem State.memsOk_mem {s : State} (h : s.memsOk) (u : MemUnit) : (s.mem u).wf = true := h u.key

/-- A change elsewhere keeps the form. -/
theorem State.memsOk_congr {s u : State} (h : s.memsOk) (e : u.mems = s.mems) : u.memsOk := by
  intro k; rw [e]; exact h k

theorem State.memsOk_poke {s : State} (h : s.memsOk) (u : MemUnit) (a : Nat) (bs : List Byte) : (s.poke u a bs).memsOk :=
  State.memsOk_setMem h (Mem.wf_iff.2 ⟨cellsOk_cwrite _ _ (Mem.wf_iff.1 (State.memsOk_mem h u)).1,
    (Mem.wf_iff.1 (State.memsOk_mem h u)).2⟩)

theorem State.memsOk_zero {s : State} (h : s.memsOk) (u : MemUnit) : (s.zero u).memsOk := by
  intro k
  show (mget ({} : Mem) (mdel u.key s.mems) k).wf = true
  rw [mget_mdel]
  split
  · rfl
  · exact h k

theorem Mem.wf_clearWord {m : Mem} (h : m.wf = true) (w : Nat) : (m.clearWord w).wf = true :=
  Mem.wf_iff.2 ⟨(Mem.wf_iff.1 h).1, cellsOk_filter _ (Mem.wf_iff.1 h).2⟩

theorem Mem.wf_setErrs {m : Mem} (h : m.wf = true) (w : Nat) (es : List (Nat × Byte)) : (m.setErrs w es).wf = true := by
  unfold Mem.setErrs
  induction es generalizing m with
  | nil => exact h
  | cons e r ih => exact ih (Mem.wf_iff.2 ⟨(Mem.wf_iff.1 h).1, cellsOk_cset _ _ (Mem.wf_iff.1 h).2⟩)

theorem Mem.wf_mark {m : Mem} (h : m.wf = true) (n w : Nat) : (m.mark n w).wf = true :=
  Mem.wf_setErrs (Mem.wf_clearWord h w) w _

theorem Mem.wf_flipData {m : Mem} (h : m.wf = true) (n w : Nat) (es : List (Nat × Byte)) :
    (m.flipData n w es).wf = true := by
  unfold Mem.flipData
  induction es generalizing m with
  | nil => exact h
  | cons e r ih =>
    simp only [List.foldl_cons]
    apply ih
    split
    · exact Mem.wf_iff.2 ⟨cellsOk_cset _ _ (Mem.wf_iff.1 h).1, (Mem.wf_iff.1 h).2⟩
    · exact h

/-- A fold of operations that keep the form keeps it. -/
theorem State.memsOk_foldl {α : Type} {f : State → α → State} (hf : ∀ s a, s.memsOk → (f s a).memsOk) :
    ∀ (l : List α) {s : State}, s.memsOk → (l.foldl f s).memsOk
  | [], _, h => h
  | a :: r, _, h => State.memsOk_foldl hf r (hf _ a h)

theorem State.memsOk_countMem {s : State} (h : s.memsOk) (u : MemUnit) (k : Nat) : (s.countMem u k).memsOk := by
  cases u <;> exact State.memsOk_congr h rfl

theorem State.memsOk_noteCorrected {s : State} (h : s.memsOk) (u : MemUnit) (a : Nat) :
    (s.noteCorrected u a).1.memsOk := by
  unfold State.noteCorrected
  cases u <;> simp only <;> (repeat' split) <;> exact State.memsOk_congr h rfl

theorem State.memsOk_readWordEv {s : State} (h : s.memsOk) (u : MemUnit) (w reader : Nat) :
    (s.readWordEv u w reader).1.memsOk := by
  have hm := State.memsOk_mem h u
  unfold State.readWordEv
  simp only
  split
  · exact h
  · split
    · exact State.memsOk_countMem h u 3
    · split
      · exact State.memsOk_setMem h (Mem.wf_clearWord (Mem.wf_flipData hm _ _ _) _)
      · exact State.memsOk_noteCorrected (State.memsOk_countMem (State.memsOk_setMem h
          (Mem.wf_clearWord (Mem.wf_flipData (Mem.wf_flipData hm _ _ _) _ _ _) _)) _ _) _ _
      · exact State.memsOk_countMem (State.memsOk_setMem h (Mem.wf_mark (Mem.wf_flipData hm _ _ _) _ _)) _ _

theorem State.memsOk_storeWordEv {x : State × List Ev} (h : x.1.memsOk) (u : MemUnit) (a len w : Nat) :
    (State.storeWordEv u a len x w).1.memsOk := by
  unfold State.storeWordEv
  split
  · exact State.memsOk_setMem h (Mem.wf_clearWord (State.memsOk_mem h u) w)
  · exact State.memsOk_readWordEv h u w 9

theorem State.memsOk_storeEv {s : State} (h : s.memsOk) (u : MemUnit) (a : Nat) (bs : List Byte) :
    (s.storeEv u a bs).1.memsOk := by
  have key : ∀ (l : List Nat) (x : State × List Ev), x.1.memsOk →
      (l.foldl (State.storeWordEv u a bs.length) x).1.memsOk := by
    intro l
    induction l with
    | nil => exact fun _ hx => hx
    | cons w r ih => exact fun x hx => ih _ (State.memsOk_storeWordEv hx u a _ w)
  exact State.memsOk_poke (key _ (s, []) h) u a bs

theorem State.memsOk_listRecord {s : State} (h : s.memsOk) (r : Record) : (s.listRecord r).memsOk := by
  unfold State.listRecord
  simp only
  split <;> exact State.memsOk_congr h rfl

theorem State.memsOk_listEvent {s : State} (h : s.memsOk) (e : Ev) : (s.listEvent e).memsOk :=
  State.memsOk_foldl (fun _ r h => State.memsOk_listRecord h r) _ h

theorem State.memsOk_mirror : ∀ (n : Nat) {s : State}, s.memsOk → (State.mirror n s).memsOk
  | 0, _, h => h
  | n + 1, s, h => by
    unfold State.mirror
    simp only
    split
    · exact h
    · split
      · exact State.memsOk_congr h rfl
      · split
        · exact h
        · split
          · exact State.memsOk_mirror n (State.memsOk_congr h rfl)
          · exact State.memsOk_mirror n (State.memsOk_foldl (fun _ e h => State.memsOk_listEvent h e) _
              (State.memsOk_congr (State.memsOk_storeEv h _ _ _) rfl))

theorem State.memsOk_records {s : State} (h : s.memsOk) (rs : List Record) : (s.records rs).memsOk :=
  State.memsOk_mirror _ (State.memsOk_foldl (fun _ r h => State.memsOk_listRecord h r) _ h)

theorem State.memsOk_raise {s : State} (h : s.memsOk) (code src : Nat) (step : BitVec 32) (data : List Byte) :
    (s.raise code src step data).memsOk := by
  unfold State.raise
  simp only
  split
  · split <;> exact State.memsOk_congr h rfl
  · exact State.memsOk_records h _

theorem memsOk_raiseAll {x : State × List Ev} (h : x.1.memsOk) : (raiseAll x).memsOk :=
  State.memsOk_foldl (fun _ _ h => State.memsOk_raise h _ _ _ _) _ h

theorem State.memsOk_readWord {s : State} (h : s.memsOk) (u : MemUnit) (w reader : Nat) : (s.readWord u w reader).memsOk :=
  memsOk_raiseAll (State.memsOk_readWordEv h u w reader)

theorem State.memsOk_touchSegs {s : State} (h : s.memsOk) (u : MemUnit) (segs : List (Nat × Nat)) (reader : Nat) :
    (s.touchSegs u segs reader).memsOk :=
  State.memsOk_foldl (fun _ w h => State.memsOk_readWord h u w reader) _ h

theorem State.memsOk_touch {s : State} (h : s.memsOk) (u : MemUnit) (a len reader : Nat) : (s.touch u a len reader).memsOk :=
  State.memsOk_touchSegs h u _ reader

theorem State.memsOk_store {s : State} (h : s.memsOk) (u : MemUnit) (a : Nat) (bs : List Byte) : (s.store u a bs).memsOk :=
  memsOk_raiseAll (State.memsOk_storeEv h u a bs)

theorem State.memsOk_poison {s : State} (h : s.memsOk) (u : MemUnit) (a len : Nat) : (s.poison u a len).memsOk := by
  unfold State.poison
  split
  · exact h
  · exact State.memsOk_foldl (fun s i h => State.memsOk_setMem h (Mem.wf_mark (State.memsOk_mem h u) _ _)) _ h

theorem State.memsOk_upset {s : State} (h : s.memsOk) (ups : List Upset) : (s.upset ups).memsOk := by
  refine State.memsOk_foldl (fun s x h => ?_) _ h
  split
  · exact State.memsOk_setMem h (Mem.wf_setErrs (State.memsOk_mem h _) _ _)
  · exact h

/-! A memory without changed symbols. -/

theorem Mem.badWords_clean {m : Mem} (h : m.errs = []) (n a len : Nat) : m.badWords n a len = [] := by
  simp [Mem.badWords, h]

/-- Reading a memory without changed symbols changes nothing. -/
theorem State.touchSegs_clean {s : State} {u : MemUnit} (h : (s.mem u).errs = []) (segs : List (Nat × Nat)) (reader : Nat) :
    s.touchSegs u segs reader = s := by
  simp [State.touchSegs, Mem.badIn, h]

theorem State.touch_clean {s : State} {u : MemUnit} (h : (s.mem u).errs = []) (a len reader : Nat) :
    s.touch u a len reader = s := State.touchSegs_clean h _ _

theorem State.anyMarked_clean {s : State} {u : MemUnit} (h : (s.mem u).errs = []) (a len : Nat) :
    s.anyMarked u a len = false := by
  simp [State.anyMarked, Mem.badWords_clean h]

/-- A write to a memory without changed symbols only writes its bytes. -/
theorem State.storeEv_clean {s : State} {u : MemUnit} (h : (s.mem u).errs = []) (a : Nat) (bs : List Byte) :
    s.storeEv u a bs = (s.poke u a bs, []) := by
  simp [State.storeEv, Mem.badWords_clean h]

theorem State.store_clean {s : State} {u : MemUnit} (h : (s.mem u).errs = []) (a : Nat) (bs : List Byte) :
    s.store u a bs = s.poke u a bs := by
  simp [State.store, State.storeEv_clean h, raiseAll]

end Sys2Proof.Machine
end

