-- ==== Sys2Proof/Laws/State.lean ====
section
/-! SUPPORT. One lemma for each field and each accessor after each update of the state. -/
namespace Sys2Proof.Machine

/-! The unit written reads as written; the others as before. -/

theorem State.region_setRegion (s : State) (k j : Nat) (v : Region) :
    (s.setRegion k v).region j = if j = k then v else s.region j := mget_mset _ _ _ _ _
@[simp] theorem State.region_setRegion_same (s : State) (k : Nat) (v : Region) : (s.setRegion k v).region k = v := by
  simp [State.region_setRegion]
theorem State.region_setRegion_ne (s : State) {k j : Nat} (h : j ≠ k) (v : Region) : (s.setRegion k v).region j = s.region j := by
  simp [State.region_setRegion, h]
theorem State.tile_setTile (s : State) (k j : Nat) (v : Tile) :
    (s.setTile k v).tile j = if j = k then v else s.tile j := mget_mset _ _ _ _ _
@[simp] theorem State.tile_setTile_same (s : State) (k : Nat) (v : Tile) : (s.setTile k v).tile k = v := by
  simp [State.tile_setTile]
theorem State.tile_setTile_ne (s : State) {k j : Nat} (h : j ≠ k) (v : Tile) : (s.setTile k v).tile j = s.tile j := by
  simp [State.tile_setTile, h]
theorem State.router_setRouter (s : State) (k j : Nat) (v : Router) :
    (s.setRouter k v).router j = if j = k then v else s.router j := mget_mset _ _ _ _ _
@[simp] theorem State.router_setRouter_same (s : State) (k : Nat) (v : Router) : (s.setRouter k v).router k = v := by
  simp [State.router_setRouter]
theorem State.router_setRouter_ne (s : State) {k j : Nat} (h : j ≠ k) (v : Router) : (s.setRouter k v).router j = s.router j := by
  simp [State.router_setRouter, h]
theorem State.engine_setEngine (s : State) (k j : Nat) (v : Engine) :
    (s.setEngine k v).engine j = if j = k then v else s.engine j := mget_mset _ _ _ _ _
@[simp] theorem State.engine_setEngine_same (s : State) (k : Nat) (v : Engine) : (s.setEngine k v).engine k = v := by
  simp [State.engine_setEngine]
theorem State.engine_setEngine_ne (s : State) {k j : Nat} (h : j ≠ k) (v : Engine) : (s.setEngine k v).engine j = s.engine j := by
  simp [State.engine_setEngine, h]
theorem State.port_setPort (s : State) (k j : Nat) (v : Port) :
    (s.setPort k v).port j = if j = k then v else s.port j := mget_mset _ _ _ _ _
@[simp] theorem State.port_setPort_same (s : State) (k : Nat) (v : Port) : (s.setPort k v).port k = v := by
  simp [State.port_setPort]
theorem State.port_setPort_ne (s : State) {k j : Nat} (h : j ≠ k) (v : Port) : (s.setPort k v).port j = s.port j := by
  simp [State.port_setPort, h]
theorem State.relay_setRelay (s : State) (k j : Nat) (v : Relay) :
    (s.setRelay k v).relay j = if j = k then v else s.relay j := mget_mset _ _ _ _ _
@[simp] theorem State.relay_setRelay_same (s : State) (k : Nat) (v : Relay) : (s.setRelay k v).relay k = v := by
  simp [State.relay_setRelay]
theorem State.relay_setRelay_ne (s : State) {k j : Nat} (h : j ≠ k) (v : Relay) : (s.setRelay k v).relay j = s.relay j := by
  simp [State.relay_setRelay, h]
theorem State.part_setPart (s : State) (k j : Nat) (v : Part) :
    (s.setPart k v).part j = if j = k then v else s.part j := mget_mset _ _ _ _ _
@[simp] theorem State.part_setPart_same (s : State) (k : Nat) (v : Part) : (s.setPart k v).part k = v := by
  simp [State.part_setPart]
theorem State.part_setPart_ne (s : State) {k j : Nat} (h : j ≠ k) (v : Part) : (s.setPart k v).part j = s.part j := by
  simp [State.part_setPart, h]
theorem State.core_setCore (s : State) (k j : Nat) (v : Core) :
    (s.setCore k v).core j = if j = k then v else s.core j := mget_mset _ _ _ _ _
@[simp] theorem State.core_setCore_same (s : State) (k : Nat) (v : Core) : (s.setCore k v).core k = v := by
  simp [State.core_setCore]
theorem State.core_setCore_ne (s : State) {k j : Nat} (h : j ≠ k) (v : Core) : (s.setCore k v).core j = s.core j := by
  simp [State.core_setCore, h]
theorem State.sub_setSub (s : State) (k l j m : Nat) (v : SubPort) :
    (s.setSub k l v).sub j m = if j * 8 + m = k * 8 + l then v else s.sub j m := mget_mset _ _ _ _ _
@[simp] theorem State.sub_setSub_same (s : State) (k l : Nat) (v : SubPort) : (s.setSub k l v).sub k l = v := by
  simp [State.sub_setSub]
theorem State.obj_setObj (s : State) (i b n v j c m : Nat) :
    (s.setObj i b n v).obj j c m = if okey j c m = okey i b n then v else s.obj j c m := mget_mset _ _ _ _ _
@[simp] theorem State.obj_setObj_same (s : State) (i b n v : Nat) : (s.setObj i b n v).obj i b n = v := by
  simp [State.obj_setObj]
/-- Objects of other indexes are not touched. -/
@[simp] theorem State.obj_setObj_idx (s : State) {i b n v j c m : Nat} (h : okey j c m ≠ okey i b n) :
    (s.setObj i b n v).obj j c m = s.obj j c m := by
  simp [State.obj_setObj, h]
theorem State.blob_setBlob (s : State) (i b n : Nat) (v : List Byte) (j c m : Nat) :
    (s.setBlob i b n v).blob j c m = if okey j c m = okey i b n then v else s.blob j c m := mget_mset _ _ _ _ _
@[simp] theorem State.blob_setBlob_same (s : State) (i b n : Nat) (v : List Byte) : (s.setBlob i b n v).blob i b n = v := by
  simp [State.blob_setBlob]
theorem State.count_bump (s : State) (i b n v j c m : Nat) :
    (s.bump i b n v).count j c m = if okey j c m = okey i b n then s.count i b n + v else s.count j c m :=
  mget_mset _ _ _ _ _
@[simp] theorem State.count_bump_same (s : State) (i b n v : Nat) : (s.bump i b n v).count i b n = s.count i b n + v := by
  simp [State.count_bump]

/-! Modified units. -/

@[simp] theorem State.modRegion_eq (s : State) (k : Nat) (f : Region → Region) : s.modRegion k f = s.setRegion k (f (s.region k)) := rfl
@[simp] theorem State.modTile_eq (s : State) (k : Nat) (f : Tile → Tile) : s.modTile k f = s.setTile k (f (s.tile k)) := rfl
@[simp] theorem State.modRouter_eq (s : State) (k : Nat) (f : Router → Router) : s.modRouter k f = s.setRouter k (f (s.router k)) := rfl
@[simp] theorem State.modEngine_eq (s : State) (k : Nat) (f : Engine → Engine) : s.modEngine k f = s.setEngine k (f (s.engine k)) := rfl
@[simp] theorem State.modPort_eq (s : State) (k : Nat) (f : Port → Port) : s.modPort k f = s.setPort k (f (s.port k)) := rfl
@[simp] theorem State.modPart_eq (s : State) (k : Nat) (f : Part → Part) : s.modPart k f = s.setPart k (f (s.part k)) := rfl
@[simp] theorem State.modSub_eq (s : State) (k l : Nat) (f : SubPort → SubPort) :
    s.modSub k l f = s.setSub k l (f (s.sub k l)) := rfl
@[simp] theorem State.modCtx_eq (s : State) (t c : Nat) (f : Ctx → Ctx) :
    s.modCtx t c f = s.setTile t ((s.tile t).setCtx c (f ((s.tile t).ctx c))) := rfl

/-! The parts of a tile. -/

theorem Tile.ctx_setCtx (x : Tile) (k j : Nat) (v : Ctx) :
    (x.setCtx k v).ctx j = if j = k then v else x.ctx j := mget_mset _ _ _ _ _
@[simp] theorem Tile.ctx_setCtx_same (x : Tile) (k : Nat) (v : Ctx) : (x.setCtx k v).ctx k = v := by
  simp [Tile.ctx_setCtx]
theorem Tile.counter_setCounter (x : Tile) (k j : Nat) (v : BitVec 32) :
    (x.setCounter k v).counter j = if j = k then v else x.counter j := mget_mset _ _ _ _ _
@[simp] theorem Tile.counter_setCounter_same (x : Tile) (k : Nat) (v : BitVec 32) : (x.setCounter k v).counter k = v := by
  simp [Tile.counter_setCounter]
theorem Tile.sem_setSem (x : Tile) (k j : Nat) (v : Nat) :
    (x.setSem k v).sem j = if j = k then v else x.sem j := mget_mset _ _ _ _ _
@[simp] theorem Tile.sem_setSem_same (x : Tile) (k : Nat) (v : Nat) : (x.setSem k v).sem k = v := by
  simp [Tile.sem_setSem]
theorem Tile.array_setArray (x : Tile) (k j : Nat) (v : Arr) :
    (x.setArray k v).array j = if j = k then v else x.array j := mget_mset _ _ _ _ _
@[simp] theorem Tile.array_setArray_same (x : Tile) (k : Nat) (v : Arr) : (x.setArray k v).array k = v := by
  simp [Tile.array_setArray]
theorem Tile.queue_setQueue (x : Tile) (k j : Nat) (v : Queue) :
    (x.setQueue k v).queue j = if j = k then v else x.queue j := mget_mset _ _ _ _ _
@[simp] theorem Tile.queue_setQueue_same (x : Tile) (k : Nat) (v : Queue) : (x.setQueue k v).queue k = v := by
  simp [Tile.queue_setQueue]
section
variable (x : Tile) (k j : Nat) (v : Ctx)
@[simp] theorem Tile.setCtx_last : (x.setCtx k v).last = x.last := rfl
@[simp] theorem Tile.setCtx_issued : (x.setCtx k v).issued = x.issued := rfl
@[simp] theorem Tile.setCtx_incs : (x.setCtx k v).incs = x.incs := rfl
@[simp] theorem Tile.setCtx_accs : (x.setCtx k v).accs = x.accs := rfl
@[simp] theorem Tile.setCtx_vreqs : (x.setCtx k v).vreqs = x.vreqs := rfl
@[simp] theorem Tile.setCtx_vturn : (x.setCtx k v).vturn = x.vturn := rfl
@[simp] theorem Tile.setCtx_spillIn : (x.setCtx k v).spillIn = x.spillIn := rfl
@[simp] theorem Tile.setCtx_counters : (x.setCtx k v).counters = x.counters := rfl
@[simp] theorem Tile.setCtx_sems : (x.setCtx k v).sems = x.sems := rfl
@[simp] theorem Tile.setCtx_arrays : (x.setCtx k v).arrays = x.arrays := rfl
@[simp] theorem Tile.setCtx_queues : (x.setCtx k v).queues = x.queues := rfl
@[simp] theorem Tile.setCtx_ops : (x.setCtx k v).ops = x.ops := rfl
@[simp] theorem Tile.setCtx_switching : (x.setCtx k v).switching = x.switching := rfl
@[simp] theorem Tile.setCtx_nextId : (x.setCtx k v).nextId = x.nextId := rfl
@[simp] theorem Tile.setCtx_slots : (x.setCtx k v).slots = x.slots := rfl
@[simp] theorem Tile.setCtx_landing : (x.setCtx k v).landing = x.landing := rfl
@[simp] theorem Tile.setCtx_spilled : (x.setCtx k v).spilled = x.spilled := rfl
@[simp] theorem Tile.setCtx_episodes : (x.setCtx k v).episodes = x.episodes := rfl
@[simp] theorem Tile.setCtx_stamp : (x.setCtx k v).stamp = x.stamp := rfl
@[simp] theorem Tile.setCtx_poison : (x.setCtx k v).poison = x.poison := rfl
@[simp] theorem Tile.setCtx_guard : (x.setCtx k v).guard = x.guard := rfl
@[simp] theorem Tile.setCtx_overflow : (x.setCtx k v).overflow = x.overflow := rfl
@[simp] theorem Tile.setCtx_hist : (x.setCtx k v).hist = x.hist := rfl
@[simp] theorem Tile.setCtx_reported : (x.setCtx k v).reported = x.reported := rfl
@[simp] theorem Tile.setCtx_code : (x.setCtx k v).code = x.code := rfl
@[simp] theorem Tile.setCtx_part : (x.setCtx k v).part = x.part := rfl
@[simp] theorem Tile.setCtx_semq : (x.setCtx k v).semq = x.semq := rfl
@[simp] theorem Tile.setCtx_holdT3 : (x.setCtx k v).holdT3 = x.holdT3 := rfl
@[simp] theorem Tile.setCtx_correctedS : (x.setCtx k v).correctedS = x.correctedS := rfl
@[simp] theorem Tile.setCtx_correctedV : (x.setCtx k v).correctedV = x.correctedV := rfl
@[simp] theorem Tile.setCtx_lastE4S : (x.setCtx k v).lastE4S = x.lastE4S := rfl
@[simp] theorem Tile.setCtx_lastE4V : (x.setCtx k v).lastE4V = x.lastE4V := rfl
@[simp] theorem Tile.setCtx_vaultBad : (x.setCtx k v).vaultBad = x.vaultBad := rfl
@[simp] theorem Tile.setCtx_refresh : (x.setCtx k v).refresh = x.refresh := rfl
@[simp] theorem Tile.setCtx_inbox : (x.setCtx k v).inbox = x.inbox := rfl
@[simp] theorem Tile.counter_setCtx : (x.setCtx k v).counter j = x.counter j := rfl
@[simp] theorem Tile.sem_setCtx : (x.setCtx k v).sem j = x.sem j := rfl
@[simp] theorem Tile.array_setCtx : (x.setCtx k v).array j = x.array j := rfl
@[simp] theorem Tile.queue_setCtx : (x.setCtx k v).queue j = x.queue j := rfl
end
section
variable (x : Tile) (k j : Nat) (v : BitVec 32)
@[simp] theorem Tile.setCounter_ctxs : (x.setCounter k v).ctxs = x.ctxs := rfl
@[simp] theorem Tile.setCounter_last : (x.setCounter k v).last = x.last := rfl
@[simp] theorem Tile.setCounter_issued : (x.setCounter k v).issued = x.issued := rfl
@[simp] theorem Tile.setCounter_incs : (x.setCounter k v).incs = x.incs := rfl
@[simp] theorem Tile.setCounter_accs : (x.setCounter k v).accs = x.accs := rfl
@[simp] theorem Tile.setCounter_vreqs : (x.setCounter k v).vreqs = x.vreqs := rfl
@[simp] theorem Tile.setCounter_vturn : (x.setCounter k v).vturn = x.vturn := rfl
@[simp] theorem Tile.setCounter_spillIn : (x.setCounter k v).spillIn = x.spillIn := rfl
@[simp] theorem Tile.setCounter_sems : (x.setCounter k v).sems = x.sems := rfl
@[simp] theorem Tile.setCounter_arrays : (x.setCounter k v).arrays = x.arrays := rfl
@[simp] theorem Tile.setCounter_queues : (x.setCounter k v).queues = x.queues := rfl
@[simp] theorem Tile.setCounter_ops : (x.setCounter k v).ops = x.ops := rfl
@[simp] theorem Tile.setCounter_switching : (x.setCounter k v).switching = x.switching := rfl
@[simp] theorem Tile.setCounter_nextId : (x.setCounter k v).nextId = x.nextId := rfl
@[simp] theorem Tile.setCounter_slots : (x.setCounter k v).slots = x.slots := rfl
@[simp] theorem Tile.setCounter_landing : (x.setCounter k v).landing = x.landing := rfl
@[simp] theorem Tile.setCounter_spilled : (x.setCounter k v).spilled = x.spilled := rfl
@[simp] theorem Tile.setCounter_episodes : (x.setCounter k v).episodes = x.episodes := rfl
@[simp] theorem Tile.setCounter_stamp : (x.setCounter k v).stamp = x.stamp := rfl
@[simp] theorem Tile.setCounter_poison : (x.setCounter k v).poison = x.poison := rfl
@[simp] theorem Tile.setCounter_guard : (x.setCounter k v).guard = x.guard := rfl
@[simp] theorem Tile.setCounter_overflow : (x.setCounter k v).overflow = x.overflow := rfl
@[simp] theorem Tile.setCounter_hist : (x.setCounter k v).hist = x.hist := rfl
@[simp] theorem Tile.setCounter_reported : (x.setCounter k v).reported = x.reported := rfl
@[simp] theorem Tile.setCounter_code : (x.setCounter k v).code = x.code := rfl
@[simp] theorem Tile.setCounter_part : (x.setCounter k v).part = x.part := rfl
@[simp] theorem Tile.setCounter_semq : (x.setCounter k v).semq = x.semq := rfl
@[simp] theorem Tile.setCounter_holdT3 : (x.setCounter k v).holdT3 = x.holdT3 := rfl
@[simp] theorem Tile.setCounter_correctedS : (x.setCounter k v).correctedS = x.correctedS := rfl
@[simp] theorem Tile.setCounter_correctedV : (x.setCounter k v).correctedV = x.correctedV := rfl
@[simp] theorem Tile.setCounter_lastE4S : (x.setCounter k v).lastE4S = x.lastE4S := rfl
@[simp] theorem Tile.setCounter_lastE4V : (x.setCounter k v).lastE4V = x.lastE4V := rfl
@[simp] theorem Tile.setCounter_vaultBad : (x.setCounter k v).vaultBad = x.vaultBad := rfl
@[simp] theorem Tile.setCounter_refresh : (x.setCounter k v).refresh = x.refresh := rfl
@[simp] theorem Tile.setCounter_inbox : (x.setCounter k v).inbox = x.inbox := rfl
@[simp] theorem Tile.ctx_setCounter : (x.setCounter k v).ctx j = x.ctx j := rfl
@[simp] theorem Tile.sem_setCounter : (x.setCounter k v).sem j = x.sem j := rfl
@[simp] theorem Tile.array_setCounter : (x.setCounter k v).array j = x.array j := rfl
@[simp] theorem Tile.queue_setCounter : (x.setCounter k v).queue j = x.queue j := rfl
end
section
variable (x : Tile) (k j : Nat) (v : Nat)
@[simp] theorem Tile.setSem_ctxs : (x.setSem k v).ctxs = x.ctxs := rfl
@[simp] theorem Tile.setSem_last : (x.setSem k v).last = x.last := rfl
@[simp] theorem Tile.setSem_issued : (x.setSem k v).issued = x.issued := rfl
@[simp] theorem Tile.setSem_incs : (x.setSem k v).incs = x.incs := rfl
@[simp] theorem Tile.setSem_accs : (x.setSem k v).accs = x.accs := rfl
@[simp] theorem Tile.setSem_vreqs : (x.setSem k v).vreqs = x.vreqs := rfl
@[simp] theorem Tile.setSem_vturn : (x.setSem k v).vturn = x.vturn := rfl
@[simp] theorem Tile.setSem_spillIn : (x.setSem k v).spillIn = x.spillIn := rfl
@[simp] theorem Tile.setSem_counters : (x.setSem k v).counters = x.counters := rfl
@[simp] theorem Tile.setSem_arrays : (x.setSem k v).arrays = x.arrays := rfl
@[simp] theorem Tile.setSem_queues : (x.setSem k v).queues = x.queues := rfl
@[simp] theorem Tile.setSem_ops : (x.setSem k v).ops = x.ops := rfl
@[simp] theorem Tile.setSem_switching : (x.setSem k v).switching = x.switching := rfl
@[simp] theorem Tile.setSem_nextId : (x.setSem k v).nextId = x.nextId := rfl
@[simp] theorem Tile.setSem_slots : (x.setSem k v).slots = x.slots := rfl
@[simp] theorem Tile.setSem_landing : (x.setSem k v).landing = x.landing := rfl
@[simp] theorem Tile.setSem_spilled : (x.setSem k v).spilled = x.spilled := rfl
@[simp] theorem Tile.setSem_episodes : (x.setSem k v).episodes = x.episodes := rfl
@[simp] theorem Tile.setSem_stamp : (x.setSem k v).stamp = x.stamp := rfl
@[simp] theorem Tile.setSem_poison : (x.setSem k v).poison = x.poison := rfl
@[simp] theorem Tile.setSem_guard : (x.setSem k v).guard = x.guard := rfl
@[simp] theorem Tile.setSem_overflow : (x.setSem k v).overflow = x.overflow := rfl
@[simp] theorem Tile.setSem_hist : (x.setSem k v).hist = x.hist := rfl
@[simp] theorem Tile.setSem_reported : (x.setSem k v).reported = x.reported := rfl
@[simp] theorem Tile.setSem_code : (x.setSem k v).code = x.code := rfl
@[simp] theorem Tile.setSem_part : (x.setSem k v).part = x.part := rfl
@[simp] theorem Tile.setSem_semq : (x.setSem k v).semq = x.semq := rfl
@[simp] theorem Tile.setSem_holdT3 : (x.setSem k v).holdT3 = x.holdT3 := rfl
@[simp] theorem Tile.setSem_correctedS : (x.setSem k v).correctedS = x.correctedS := rfl
@[simp] theorem Tile.setSem_correctedV : (x.setSem k v).correctedV = x.correctedV := rfl
@[simp] theorem Tile.setSem_lastE4S : (x.setSem k v).lastE4S = x.lastE4S := rfl
@[simp] theorem Tile.setSem_lastE4V : (x.setSem k v).lastE4V = x.lastE4V := rfl
@[simp] theorem Tile.setSem_vaultBad : (x.setSem k v).vaultBad = x.vaultBad := rfl
@[simp] theorem Tile.setSem_refresh : (x.setSem k v).refresh = x.refresh := rfl
@[simp] theorem Tile.setSem_inbox : (x.setSem k v).inbox = x.inbox := rfl
@[simp] theorem Tile.ctx_setSem : (x.setSem k v).ctx j = x.ctx j := rfl
@[simp] theorem Tile.counter_setSem : (x.setSem k v).counter j = x.counter j := rfl
@[simp] theorem Tile.array_setSem : (x.setSem k v).array j = x.array j := rfl
@[simp] theorem Tile.queue_setSem : (x.setSem k v).queue j = x.queue j := rfl
end
section
variable (x : Tile) (k j : Nat) (v : Arr)
@[simp] theorem Tile.setArray_ctxs : (x.setArray k v).ctxs = x.ctxs := rfl
@[simp] theorem Tile.setArray_last : (x.setArray k v).last = x.last := rfl
@[simp] theorem Tile.setArray_issued : (x.setArray k v).issued = x.issued := rfl
@[simp] theorem Tile.setArray_incs : (x.setArray k v).incs = x.incs := rfl
@[simp] theorem Tile.setArray_accs : (x.setArray k v).accs = x.accs := rfl
@[simp] theorem Tile.setArray_vreqs : (x.setArray k v).vreqs = x.vreqs := rfl
@[simp] theorem Tile.setArray_vturn : (x.setArray k v).vturn = x.vturn := rfl
@[simp] theorem Tile.setArray_spillIn : (x.setArray k v).spillIn = x.spillIn := rfl
@[simp] theorem Tile.setArray_counters : (x.setArray k v).counters = x.counters := rfl
@[simp] theorem Tile.setArray_sems : (x.setArray k v).sems = x.sems := rfl
@[simp] theorem Tile.setArray_queues : (x.setArray k v).queues = x.queues := rfl
@[simp] theorem Tile.setArray_ops : (x.setArray k v).ops = x.ops := rfl
@[simp] theorem Tile.setArray_switching : (x.setArray k v).switching = x.switching := rfl
@[simp] theorem Tile.setArray_nextId : (x.setArray k v).nextId = x.nextId := rfl
@[simp] theorem Tile.setArray_slots : (x.setArray k v).slots = x.slots := rfl
@[simp] theorem Tile.setArray_landing : (x.setArray k v).landing = x.landing := rfl
@[simp] theorem Tile.setArray_spilled : (x.setArray k v).spilled = x.spilled := rfl
@[simp] theorem Tile.setArray_episodes : (x.setArray k v).episodes = x.episodes := rfl
@[simp] theorem Tile.setArray_stamp : (x.setArray k v).stamp = x.stamp := rfl
@[simp] theorem Tile.setArray_poison : (x.setArray k v).poison = x.poison := rfl
@[simp] theorem Tile.setArray_guard : (x.setArray k v).guard = x.guard := rfl
@[simp] theorem Tile.setArray_overflow : (x.setArray k v).overflow = x.overflow := rfl
@[simp] theorem Tile.setArray_hist : (x.setArray k v).hist = x.hist := rfl
@[simp] theorem Tile.setArray_reported : (x.setArray k v).reported = x.reported := rfl
@[simp] theorem Tile.setArray_code : (x.setArray k v).code = x.code := rfl
@[simp] theorem Tile.setArray_part : (x.setArray k v).part = x.part := rfl
@[simp] theorem Tile.setArray_semq : (x.setArray k v).semq = x.semq := rfl
@[simp] theorem Tile.setArray_holdT3 : (x.setArray k v).holdT3 = x.holdT3 := rfl
@[simp] theorem Tile.setArray_correctedS : (x.setArray k v).correctedS = x.correctedS := rfl
@[simp] theorem Tile.setArray_correctedV : (x.setArray k v).correctedV = x.correctedV := rfl
@[simp] theorem Tile.setArray_lastE4S : (x.setArray k v).lastE4S = x.lastE4S := rfl
@[simp] theorem Tile.setArray_lastE4V : (x.setArray k v).lastE4V = x.lastE4V := rfl
@[simp] theorem Tile.setArray_vaultBad : (x.setArray k v).vaultBad = x.vaultBad := rfl
@[simp] theorem Tile.setArray_refresh : (x.setArray k v).refresh = x.refresh := rfl
@[simp] theorem Tile.setArray_inbox : (x.setArray k v).inbox = x.inbox := rfl
@[simp] theorem Tile.ctx_setArray : (x.setArray k v).ctx j = x.ctx j := rfl
@[simp] theorem Tile.counter_setArray : (x.setArray k v).counter j = x.counter j := rfl
@[simp] theorem Tile.sem_setArray : (x.setArray k v).sem j = x.sem j := rfl
@[simp] theorem Tile.queue_setArray : (x.setArray k v).queue j = x.queue j := rfl
end
section
variable (x : Tile) (k j : Nat) (v : Queue)
@[simp] theorem Tile.setQueue_ctxs : (x.setQueue k v).ctxs = x.ctxs := rfl
@[simp] theorem Tile.setQueue_last : (x.setQueue k v).last = x.last := rfl
@[simp] theorem Tile.setQueue_issued : (x.setQueue k v).issued = x.issued := rfl
@[simp] theorem Tile.setQueue_incs : (x.setQueue k v).incs = x.incs := rfl
@[simp] theorem Tile.setQueue_accs : (x.setQueue k v).accs = x.accs := rfl
@[simp] theorem Tile.setQueue_vreqs : (x.setQueue k v).vreqs = x.vreqs := rfl
@[simp] theorem Tile.setQueue_vturn : (x.setQueue k v).vturn = x.vturn := rfl
@[simp] theorem Tile.setQueue_spillIn : (x.setQueue k v).spillIn = x.spillIn := rfl
@[simp] theorem Tile.setQueue_counters : (x.setQueue k v).counters = x.counters := rfl
@[simp] theorem Tile.setQueue_sems : (x.setQueue k v).sems = x.sems := rfl
@[simp] theorem Tile.setQueue_arrays : (x.setQueue k v).arrays = x.arrays := rfl
@[simp] theorem Tile.setQueue_ops : (x.setQueue k v).ops = x.ops := rfl
@[simp] theorem Tile.setQueue_switching : (x.setQueue k v).switching = x.switching := rfl
@[simp] theorem Tile.setQueue_nextId : (x.setQueue k v).nextId = x.nextId := rfl
@[simp] theorem Tile.setQueue_slots : (x.setQueue k v).slots = x.slots := rfl
@[simp] theorem Tile.setQueue_landing : (x.setQueue k v).landing = x.landing := rfl
@[simp] theorem Tile.setQueue_spilled : (x.setQueue k v).spilled = x.spilled := rfl
@[simp] theorem Tile.setQueue_episodes : (x.setQueue k v).episodes = x.episodes := rfl
@[simp] theorem Tile.setQueue_stamp : (x.setQueue k v).stamp = x.stamp := rfl
@[simp] theorem Tile.setQueue_poison : (x.setQueue k v).poison = x.poison := rfl
@[simp] theorem Tile.setQueue_guard : (x.setQueue k v).guard = x.guard := rfl
@[simp] theorem Tile.setQueue_overflow : (x.setQueue k v).overflow = x.overflow := rfl
@[simp] theorem Tile.setQueue_hist : (x.setQueue k v).hist = x.hist := rfl
@[simp] theorem Tile.setQueue_reported : (x.setQueue k v).reported = x.reported := rfl
@[simp] theorem Tile.setQueue_code : (x.setQueue k v).code = x.code := rfl
@[simp] theorem Tile.setQueue_part : (x.setQueue k v).part = x.part := rfl
@[simp] theorem Tile.setQueue_semq : (x.setQueue k v).semq = x.semq := rfl
@[simp] theorem Tile.setQueue_holdT3 : (x.setQueue k v).holdT3 = x.holdT3 := rfl
@[simp] theorem Tile.setQueue_correctedS : (x.setQueue k v).correctedS = x.correctedS := rfl
@[simp] theorem Tile.setQueue_correctedV : (x.setQueue k v).correctedV = x.correctedV := rfl
@[simp] theorem Tile.setQueue_lastE4S : (x.setQueue k v).lastE4S = x.lastE4S := rfl
@[simp] theorem Tile.setQueue_lastE4V : (x.setQueue k v).lastE4V = x.lastE4V := rfl
@[simp] theorem Tile.setQueue_vaultBad : (x.setQueue k v).vaultBad = x.vaultBad := rfl
@[simp] theorem Tile.setQueue_refresh : (x.setQueue k v).refresh = x.refresh := rfl
@[simp] theorem Tile.setQueue_inbox : (x.setQueue k v).inbox = x.inbox := rfl
@[simp] theorem Tile.ctx_setQueue : (x.setQueue k v).ctx j = x.ctx j := rfl
@[simp] theorem Tile.counter_setQueue : (x.setQueue k v).counter j = x.counter j := rfl
@[simp] theorem Tile.sem_setQueue : (x.setQueue k v).sem j = x.sem j := rfl
@[simp] theorem Tile.array_setQueue : (x.setQueue k v).array j = x.array j := rfl
end
@[simp] theorem Ctx.scalar_setScalar_same (c : Ctx) (i : Nat) (v : BitVec 32) : (c.setScalar i v).scalar i = v := by
  simp [Ctx.scalar, Ctx.setScalar]
theorem Ctx.scalar_setScalar (c : Ctx) (i j : Nat) (v : BitVec 32) :
    (c.setScalar i v).scalar j = if j = i then v else c.scalar j := mget_mset _ _ _ _ _
theorem Ctx.lane_setLane (c : Ctx) (v l x w j : Nat) :
    (c.setLane v l x).lane w j = if w * 64 + j = v * 64 + l then x else c.lane w j := mget_mset _ _ _ _ _

/-! Every field and accessor after every update. -/

section
variable (s : State) (i b n v : Nat)
@[simp] theorem State.setObj_pending : (s.setObj i b n v).pending = s.pending := rfl
@[simp] theorem State.setObj_now : (s.setObj i b n v).now = s.now := rfl
@[simp] theorem State.setObj_free : (s.setObj i b n v).free = s.free := rfl
@[simp] theorem State.setObj_recent : (s.setObj i b n v).recent = s.recent := rfl
@[simp] theorem State.setObj_blobs : (s.setObj i b n v).blobs = s.blobs := rfl
@[simp] theorem State.setObj_live : (s.setObj i b n v).live = s.live := rfl
@[simp] theorem State.setObj_latched : (s.setObj i b n v).latched = s.latched := rfl
@[simp] theorem State.setObj_latching : (s.setObj i b n v).latching = s.latching := rfl
@[simp] theorem State.setObj_edges : (s.setObj i b n v).edges = s.edges := rfl
@[simp] theorem State.setObj_missed : (s.setObj i b n v).missed = s.missed := rfl
@[simp] theorem State.setObj_tables : (s.setObj i b n v).tables = s.tables := rfl
@[simp] theorem State.setObj_replies : (s.setObj i b n v).replies = s.replies := rfl
@[simp] theorem State.setObj_opens : (s.setObj i b n v).opens = s.opens := rfl
@[simp] theorem State.setObj_segments : (s.setObj i b n v).segments = s.segments := rfl
@[simp] theorem State.setObj_reads : (s.setObj i b n v).reads = s.reads := rfl
@[simp] theorem State.setObj_ecat : (s.setObj i b n v).ecat = s.ecat := rfl
@[simp] theorem State.setObj_txpdo : (s.setObj i b n v).txpdo = s.txpdo := rfl
@[simp] theorem State.setObj_alCode : (s.setObj i b n v).alCode = s.alCode := rfl
@[simp] theorem State.setObj_mbxErrors : (s.setObj i b n v).mbxErrors = s.mbxErrors := rfl
@[simp] theorem State.setObj_mems : (s.setObj i b n v).mems = s.mems := rfl
@[simp] theorem State.setObj_tiles : (s.setObj i b n v).tiles = s.tiles := rfl
@[simp] theorem State.setObj_routers : (s.setObj i b n v).routers = s.routers := rfl
@[simp] theorem State.setObj_avoid : (s.setObj i b n v).avoid = s.avoid := rfl
@[simp] theorem State.setObj_tablesOn : (s.setObj i b n v).tablesOn = s.tablesOn := rfl
@[simp] theorem State.setObj_regions : (s.setObj i b n v).regions = s.regions := rfl
@[simp] theorem State.setObj_passes : (s.setObj i b n v).passes = s.passes := rfl
@[simp] theorem State.setObj_chPasses : (s.setObj i b n v).chPasses = s.chPasses := rfl
@[simp] theorem State.setObj_engines : (s.setObj i b n v).engines = s.engines := rfl
@[simp] theorem State.setObj_acts : (s.setObj i b n v).acts = s.acts := rfl
@[simp] theorem State.setObj_holdCmd : (s.setObj i b n v).holdCmd = s.holdCmd := rfl
@[simp] theorem State.setObj_shipping : (s.setObj i b n v).shipping = s.shipping := rfl
@[simp] theorem State.setObj_ports : (s.setObj i b n v).ports = s.ports := rfl
@[simp] theorem State.setObj_subs : (s.setObj i b n v).subs = s.subs := rfl
@[simp] theorem State.setObj_stops : (s.setObj i b n v).stops = s.stops := rfl
@[simp] theorem State.setObj_relays : (s.setObj i b n v).relays = s.relays := rfl
@[simp] theorem State.setObj_parts : (s.setObj i b n v).parts = s.parts := rfl
@[simp] theorem State.setObj_taken : (s.setObj i b n v).taken = s.taken := rfl
@[simp] theorem State.setObj_waiting : (s.setObj i b n v).waiting = s.waiting := rfl
@[simp] theorem State.setObj_ringFull : (s.setObj i b n v).ringFull = s.ringFull := rfl
@[simp] theorem State.setObj_turn : (s.setObj i b n v).turn = s.turn := rfl
@[simp] theorem State.setObj_lease : (s.setObj i b n v).lease = s.lease := rfl
@[simp] theorem State.setObj_cores : (s.setObj i b n v).cores = s.cores := rfl
@[simp] theorem State.setObj_hwbuf : (s.setObj i b n v).hwbuf = s.hwbuf := rfl
@[simp] theorem State.setObj_ring : (s.setObj i b n v).ring = s.ring := rfl
@[simp] theorem State.setObj_log : (s.setObj i b n v).log = s.log := rfl
@[simp] theorem State.setObj_slotA : (s.setObj i b n v).slotA = s.slotA := rfl
@[simp] theorem State.setObj_slotB : (s.setObj i b n v).slotB = s.slotB := rfl
@[simp] theorem State.setObj_flash : (s.setObj i b n v).flash = s.flash := rfl
@[simp] theorem State.setObj_saved : (s.setObj i b n v).saved = s.saved := rfl
@[simp] theorem State.setObj_sec : (s.setObj i b n v).sec = s.sec := rfl
@[simp] theorem State.setObj_boot : (s.setObj i b n v).boot = s.boot := rfl
@[simp] theorem State.setObj_floor : (s.setObj i b n v).floor = s.floor := rfl
@[simp] theorem State.setObj_findings : (s.setObj i b n v).findings = s.findings := rfl
@[simp] theorem State.setObj_mc : (s.setObj i b n v).mc = s.mc := rfl
@[simp] theorem State.setObj_move : (s.setObj i b n v).move = s.move := rfl
@[simp] theorem State.setObj_onTick : (s.setObj i b n v).onTick = s.onTick := rfl
@[simp] theorem State.setObj_otherSlot : (s.setObj i b n v).otherSlot = s.otherSlot := rfl
@[simp] theorem State.setObj_power : (s.setObj i b n v).power = s.power := rfl
@[simp] theorem State.setObj_fuses : (s.setObj i b n v).fuses = s.fuses := rfl
@[simp] theorem State.setObj_w1s : (s.setObj i b n v).w1s = s.w1s := rfl
@[simp] theorem State.setObj_trace : (s.setObj i b n v).trace = s.trace := rfl
@[simp] theorem State.setObj_traceBufs : (s.setObj i b n v).traceBufs = s.traceBufs := rfl
@[simp] theorem State.setObj_mirrored : (s.setObj i b n v).mirrored = s.mirrored := rfl
@[simp] theorem State.blob_setObj (x y z : Nat) : (s.setObj i b n v).blob x y z = s.blob x y z := rfl
@[simp] theorem State.count_setObj (x y z : Nat) : (s.setObj i b n v).count x y z = s.count x y z := rfl
@[simp] theorem State.region_setObj (x : Nat) : (s.setObj i b n v).region x = s.region x := rfl
@[simp] theorem State.tile_setObj (x : Nat) : (s.setObj i b n v).tile x = s.tile x := rfl
@[simp] theorem State.router_setObj (x : Nat) : (s.setObj i b n v).router x = s.router x := rfl
@[simp] theorem State.engine_setObj (x : Nat) : (s.setObj i b n v).engine x = s.engine x := rfl
@[simp] theorem State.port_setObj (x : Nat) : (s.setObj i b n v).port x = s.port x := rfl
@[simp] theorem State.sub_setObj (x y : Nat) : (s.setObj i b n v).sub x y = s.sub x y := rfl
@[simp] theorem State.relay_setObj (x : Nat) : (s.setObj i b n v).relay x = s.relay x := rfl
@[simp] theorem State.part_setObj (x : Nat) : (s.setObj i b n v).part x = s.part x := rfl
@[simp] theorem State.core_setObj (x : Nat) : (s.setObj i b n v).core x = s.core x := rfl
@[simp] theorem State.mem_setObj (m : MemUnit) : (s.setObj i b n v).mem m = s.mem m := rfl
@[simp] theorem State.peek_setObj (m : MemUnit) (a : Nat) : (s.setObj i b n v).peek m a = s.peek m a := rfl
end
section
variable (s : State) (i b n : Nat) (v : List Byte)
@[simp] theorem State.setBlob_pending : (s.setBlob i b n v).pending = s.pending := rfl
@[simp] theorem State.setBlob_now : (s.setBlob i b n v).now = s.now := rfl
@[simp] theorem State.setBlob_free : (s.setBlob i b n v).free = s.free := rfl
@[simp] theorem State.setBlob_recent : (s.setBlob i b n v).recent = s.recent := rfl
@[simp] theorem State.setBlob_dict : (s.setBlob i b n v).dict = s.dict := rfl
@[simp] theorem State.setBlob_live : (s.setBlob i b n v).live = s.live := rfl
@[simp] theorem State.setBlob_latched : (s.setBlob i b n v).latched = s.latched := rfl
@[simp] theorem State.setBlob_latching : (s.setBlob i b n v).latching = s.latching := rfl
@[simp] theorem State.setBlob_edges : (s.setBlob i b n v).edges = s.edges := rfl
@[simp] theorem State.setBlob_missed : (s.setBlob i b n v).missed = s.missed := rfl
@[simp] theorem State.setBlob_tables : (s.setBlob i b n v).tables = s.tables := rfl
@[simp] theorem State.setBlob_replies : (s.setBlob i b n v).replies = s.replies := rfl
@[simp] theorem State.setBlob_opens : (s.setBlob i b n v).opens = s.opens := rfl
@[simp] theorem State.setBlob_segments : (s.setBlob i b n v).segments = s.segments := rfl
@[simp] theorem State.setBlob_reads : (s.setBlob i b n v).reads = s.reads := rfl
@[simp] theorem State.setBlob_ecat : (s.setBlob i b n v).ecat = s.ecat := rfl
@[simp] theorem State.setBlob_txpdo : (s.setBlob i b n v).txpdo = s.txpdo := rfl
@[simp] theorem State.setBlob_alCode : (s.setBlob i b n v).alCode = s.alCode := rfl
@[simp] theorem State.setBlob_mbxErrors : (s.setBlob i b n v).mbxErrors = s.mbxErrors := rfl
@[simp] theorem State.setBlob_mems : (s.setBlob i b n v).mems = s.mems := rfl
@[simp] theorem State.setBlob_tiles : (s.setBlob i b n v).tiles = s.tiles := rfl
@[simp] theorem State.setBlob_routers : (s.setBlob i b n v).routers = s.routers := rfl
@[simp] theorem State.setBlob_avoid : (s.setBlob i b n v).avoid = s.avoid := rfl
@[simp] theorem State.setBlob_tablesOn : (s.setBlob i b n v).tablesOn = s.tablesOn := rfl
@[simp] theorem State.setBlob_regions : (s.setBlob i b n v).regions = s.regions := rfl
@[simp] theorem State.setBlob_passes : (s.setBlob i b n v).passes = s.passes := rfl
@[simp] theorem State.setBlob_chPasses : (s.setBlob i b n v).chPasses = s.chPasses := rfl
@[simp] theorem State.setBlob_engines : (s.setBlob i b n v).engines = s.engines := rfl
@[simp] theorem State.setBlob_acts : (s.setBlob i b n v).acts = s.acts := rfl
@[simp] theorem State.setBlob_holdCmd : (s.setBlob i b n v).holdCmd = s.holdCmd := rfl
@[simp] theorem State.setBlob_shipping : (s.setBlob i b n v).shipping = s.shipping := rfl
@[simp] theorem State.setBlob_ports : (s.setBlob i b n v).ports = s.ports := rfl
@[simp] theorem State.setBlob_subs : (s.setBlob i b n v).subs = s.subs := rfl
@[simp] theorem State.setBlob_stops : (s.setBlob i b n v).stops = s.stops := rfl
@[simp] theorem State.setBlob_relays : (s.setBlob i b n v).relays = s.relays := rfl
@[simp] theorem State.setBlob_parts : (s.setBlob i b n v).parts = s.parts := rfl
@[simp] theorem State.setBlob_taken : (s.setBlob i b n v).taken = s.taken := rfl
@[simp] theorem State.setBlob_waiting : (s.setBlob i b n v).waiting = s.waiting := rfl
@[simp] theorem State.setBlob_ringFull : (s.setBlob i b n v).ringFull = s.ringFull := rfl
@[simp] theorem State.setBlob_turn : (s.setBlob i b n v).turn = s.turn := rfl
@[simp] theorem State.setBlob_lease : (s.setBlob i b n v).lease = s.lease := rfl
@[simp] theorem State.setBlob_cores : (s.setBlob i b n v).cores = s.cores := rfl
@[simp] theorem State.setBlob_hwbuf : (s.setBlob i b n v).hwbuf = s.hwbuf := rfl
@[simp] theorem State.setBlob_ring : (s.setBlob i b n v).ring = s.ring := rfl
@[simp] theorem State.setBlob_log : (s.setBlob i b n v).log = s.log := rfl
@[simp] theorem State.setBlob_slotA : (s.setBlob i b n v).slotA = s.slotA := rfl
@[simp] theorem State.setBlob_slotB : (s.setBlob i b n v).slotB = s.slotB := rfl
@[simp] theorem State.setBlob_flash : (s.setBlob i b n v).flash = s.flash := rfl
@[simp] theorem State.setBlob_saved : (s.setBlob i b n v).saved = s.saved := rfl
@[simp] theorem State.setBlob_sec : (s.setBlob i b n v).sec = s.sec := rfl
@[simp] theorem State.setBlob_boot : (s.setBlob i b n v).boot = s.boot := rfl
@[simp] theorem State.setBlob_floor : (s.setBlob i b n v).floor = s.floor := rfl
@[simp] theorem State.setBlob_findings : (s.setBlob i b n v).findings = s.findings := rfl
@[simp] theorem State.setBlob_mc : (s.setBlob i b n v).mc = s.mc := rfl
@[simp] theorem State.setBlob_move : (s.setBlob i b n v).move = s.move := rfl
@[simp] theorem State.setBlob_onTick : (s.setBlob i b n v).onTick = s.onTick := rfl
@[simp] theorem State.setBlob_otherSlot : (s.setBlob i b n v).otherSlot = s.otherSlot := rfl
@[simp] theorem State.setBlob_power : (s.setBlob i b n v).power = s.power := rfl
@[simp] theorem State.setBlob_fuses : (s.setBlob i b n v).fuses = s.fuses := rfl
@[simp] theorem State.setBlob_w1s : (s.setBlob i b n v).w1s = s.w1s := rfl
@[simp] theorem State.setBlob_trace : (s.setBlob i b n v).trace = s.trace := rfl
@[simp] theorem State.setBlob_traceBufs : (s.setBlob i b n v).traceBufs = s.traceBufs := rfl
@[simp] theorem State.setBlob_mirrored : (s.setBlob i b n v).mirrored = s.mirrored := rfl
@[simp] theorem State.obj_setBlob (x y z : Nat) : (s.setBlob i b n v).obj x y z = s.obj x y z := rfl
@[simp] theorem State.count_setBlob (x y z : Nat) : (s.setBlob i b n v).count x y z = s.count x y z := rfl
@[simp] theorem State.region_setBlob (x : Nat) : (s.setBlob i b n v).region x = s.region x := rfl
@[simp] theorem State.tile_setBlob (x : Nat) : (s.setBlob i b n v).tile x = s.tile x := rfl
@[simp] theorem State.router_setBlob (x : Nat) : (s.setBlob i b n v).router x = s.router x := rfl
@[simp] theorem State.engine_setBlob (x : Nat) : (s.setBlob i b n v).engine x = s.engine x := rfl
@[simp] theorem State.port_setBlob (x : Nat) : (s.setBlob i b n v).port x = s.port x := rfl
@[simp] theorem State.sub_setBlob (x y : Nat) : (s.setBlob i b n v).sub x y = s.sub x y := rfl
@[simp] theorem State.relay_setBlob (x : Nat) : (s.setBlob i b n v).relay x = s.relay x := rfl
@[simp] theorem State.part_setBlob (x : Nat) : (s.setBlob i b n v).part x = s.part x := rfl
@[simp] theorem State.core_setBlob (x : Nat) : (s.setBlob i b n v).core x = s.core x := rfl
@[simp] theorem State.mem_setBlob (m : MemUnit) : (s.setBlob i b n v).mem m = s.mem m := rfl
@[simp] theorem State.peek_setBlob (m : MemUnit) (a : Nat) : (s.setBlob i b n v).peek m a = s.peek m a := rfl
end
section
variable (s : State) (i b n v : Nat)
@[simp] theorem State.bump_pending : (s.bump i b n v).pending = s.pending := rfl
@[simp] theorem State.bump_now : (s.bump i b n v).now = s.now := rfl
@[simp] theorem State.bump_free : (s.bump i b n v).free = s.free := rfl
@[simp] theorem State.bump_recent : (s.bump i b n v).recent = s.recent := rfl
@[simp] theorem State.bump_dict : (s.bump i b n v).dict = s.dict := rfl
@[simp] theorem State.bump_blobs : (s.bump i b n v).blobs = s.blobs := rfl
@[simp] theorem State.bump_latched : (s.bump i b n v).latched = s.latched := rfl
@[simp] theorem State.bump_latching : (s.bump i b n v).latching = s.latching := rfl
@[simp] theorem State.bump_edges : (s.bump i b n v).edges = s.edges := rfl
@[simp] theorem State.bump_missed : (s.bump i b n v).missed = s.missed := rfl
@[simp] theorem State.bump_tables : (s.bump i b n v).tables = s.tables := rfl
@[simp] theorem State.bump_replies : (s.bump i b n v).replies = s.replies := rfl
@[simp] theorem State.bump_opens : (s.bump i b n v).opens = s.opens := rfl
@[simp] theorem State.bump_segments : (s.bump i b n v).segments = s.segments := rfl
@[simp] theorem State.bump_reads : (s.bump i b n v).reads = s.reads := rfl
@[simp] theorem State.bump_ecat : (s.bump i b n v).ecat = s.ecat := rfl
@[simp] theorem State.bump_txpdo : (s.bump i b n v).txpdo = s.txpdo := rfl
@[simp] theorem State.bump_alCode : (s.bump i b n v).alCode = s.alCode := rfl
@[simp] theorem State.bump_mbxErrors : (s.bump i b n v).mbxErrors = s.mbxErrors := rfl
@[simp] theorem State.bump_mems : (s.bump i b n v).mems = s.mems := rfl
@[simp] theorem State.bump_tiles : (s.bump i b n v).tiles = s.tiles := rfl
@[simp] theorem State.bump_routers : (s.bump i b n v).routers = s.routers := rfl
@[simp] theorem State.bump_avoid : (s.bump i b n v).avoid = s.avoid := rfl
@[simp] theorem State.bump_tablesOn : (s.bump i b n v).tablesOn = s.tablesOn := rfl
@[simp] theorem State.bump_regions : (s.bump i b n v).regions = s.regions := rfl
@[simp] theorem State.bump_passes : (s.bump i b n v).passes = s.passes := rfl
@[simp] theorem State.bump_chPasses : (s.bump i b n v).chPasses = s.chPasses := rfl
@[simp] theorem State.bump_engines : (s.bump i b n v).engines = s.engines := rfl
@[simp] theorem State.bump_acts : (s.bump i b n v).acts = s.acts := rfl
@[simp] theorem State.bump_holdCmd : (s.bump i b n v).holdCmd = s.holdCmd := rfl
@[simp] theorem State.bump_shipping : (s.bump i b n v).shipping = s.shipping := rfl
@[simp] theorem State.bump_ports : (s.bump i b n v).ports = s.ports := rfl
@[simp] theorem State.bump_subs : (s.bump i b n v).subs = s.subs := rfl
@[simp] theorem State.bump_stops : (s.bump i b n v).stops = s.stops := rfl
@[simp] theorem State.bump_relays : (s.bump i b n v).relays = s.relays := rfl
@[simp] theorem State.bump_parts : (s.bump i b n v).parts = s.parts := rfl
@[simp] theorem State.bump_taken : (s.bump i b n v).taken = s.taken := rfl
@[simp] theorem State.bump_waiting : (s.bump i b n v).waiting = s.waiting := rfl
@[simp] theorem State.bump_ringFull : (s.bump i b n v).ringFull = s.ringFull := rfl
@[simp] theorem State.bump_turn : (s.bump i b n v).turn = s.turn := rfl
@[simp] theorem State.bump_lease : (s.bump i b n v).lease = s.lease := rfl
@[simp] theorem State.bump_cores : (s.bump i b n v).cores = s.cores := rfl
@[simp] theorem State.bump_hwbuf : (s.bump i b n v).hwbuf = s.hwbuf := rfl
@[simp] theorem State.bump_ring : (s.bump i b n v).ring = s.ring := rfl
@[simp] theorem State.bump_log : (s.bump i b n v).log = s.log := rfl
@[simp] theorem State.bump_slotA : (s.bump i b n v).slotA = s.slotA := rfl
@[simp] theorem State.bump_slotB : (s.bump i b n v).slotB = s.slotB := rfl
@[simp] theorem State.bump_flash : (s.bump i b n v).flash = s.flash := rfl
@[simp] theorem State.bump_saved : (s.bump i b n v).saved = s.saved := rfl
@[simp] theorem State.bump_sec : (s.bump i b n v).sec = s.sec := rfl
@[simp] theorem State.bump_boot : (s.bump i b n v).boot = s.boot := rfl
@[simp] theorem State.bump_floor : (s.bump i b n v).floor = s.floor := rfl
@[simp] theorem State.bump_findings : (s.bump i b n v).findings = s.findings := rfl
@[simp] theorem State.bump_mc : (s.bump i b n v).mc = s.mc := rfl
@[simp] theorem State.bump_move : (s.bump i b n v).move = s.move := rfl
@[simp] theorem State.bump_onTick : (s.bump i b n v).onTick = s.onTick := rfl
@[simp] theorem State.bump_otherSlot : (s.bump i b n v).otherSlot = s.otherSlot := rfl
@[simp] theorem State.bump_power : (s.bump i b n v).power = s.power := rfl
@[simp] theorem State.bump_fuses : (s.bump i b n v).fuses = s.fuses := rfl
@[simp] theorem State.bump_w1s : (s.bump i b n v).w1s = s.w1s := rfl
@[simp] theorem State.bump_trace : (s.bump i b n v).trace = s.trace := rfl
@[simp] theorem State.bump_traceBufs : (s.bump i b n v).traceBufs = s.traceBufs := rfl
@[simp] theorem State.bump_mirrored : (s.bump i b n v).mirrored = s.mirrored := rfl
@[simp] theorem State.obj_bump (x y z : Nat) : (s.bump i b n v).obj x y z = s.obj x y z := rfl
@[simp] theorem State.blob_bump (x y z : Nat) : (s.bump i b n v).blob x y z = s.blob x y z := rfl
@[simp] theorem State.region_bump (x : Nat) : (s.bump i b n v).region x = s.region x := rfl
@[simp] theorem State.tile_bump (x : Nat) : (s.bump i b n v).tile x = s.tile x := rfl
@[simp] theorem State.router_bump (x : Nat) : (s.bump i b n v).router x = s.router x := rfl
@[simp] theorem State.engine_bump (x : Nat) : (s.bump i b n v).engine x = s.engine x := rfl
@[simp] theorem State.port_bump (x : Nat) : (s.bump i b n v).port x = s.port x := rfl
@[simp] theorem State.sub_bump (x y : Nat) : (s.bump i b n v).sub x y = s.sub x y := rfl
@[simp] theorem State.relay_bump (x : Nat) : (s.bump i b n v).relay x = s.relay x := rfl
@[simp] theorem State.part_bump (x : Nat) : (s.bump i b n v).part x = s.part x := rfl
@[simp] theorem State.core_bump (x : Nat) : (s.bump i b n v).core x = s.core x := rfl
@[simp] theorem State.mem_bump (m : MemUnit) : (s.bump i b n v).mem m = s.mem m := rfl
@[simp] theorem State.peek_bump (m : MemUnit) (a : Nat) : (s.bump i b n v).peek m a = s.peek m a := rfl
end
section
variable (s : State) (k : Nat) (v : Region)
@[simp] theorem State.setRegion_pending : (s.setRegion k v).pending = s.pending := rfl
@[simp] theorem State.setRegion_now : (s.setRegion k v).now = s.now := rfl
@[simp] theorem State.setRegion_free : (s.setRegion k v).free = s.free := rfl
@[simp] theorem State.setRegion_recent : (s.setRegion k v).recent = s.recent := rfl
@[simp] theorem State.setRegion_dict : (s.setRegion k v).dict = s.dict := rfl
@[simp] theorem State.setRegion_blobs : (s.setRegion k v).blobs = s.blobs := rfl
@[simp] theorem State.setRegion_live : (s.setRegion k v).live = s.live := rfl
@[simp] theorem State.setRegion_latched : (s.setRegion k v).latched = s.latched := rfl
@[simp] theorem State.setRegion_latching : (s.setRegion k v).latching = s.latching := rfl
@[simp] theorem State.setRegion_edges : (s.setRegion k v).edges = s.edges := rfl
@[simp] theorem State.setRegion_missed : (s.setRegion k v).missed = s.missed := rfl
@[simp] theorem State.setRegion_tables : (s.setRegion k v).tables = s.tables := rfl
@[simp] theorem State.setRegion_replies : (s.setRegion k v).replies = s.replies := rfl
@[simp] theorem State.setRegion_opens : (s.setRegion k v).opens = s.opens := rfl
@[simp] theorem State.setRegion_segments : (s.setRegion k v).segments = s.segments := rfl
@[simp] theorem State.setRegion_reads : (s.setRegion k v).reads = s.reads := rfl
@[simp] theorem State.setRegion_ecat : (s.setRegion k v).ecat = s.ecat := rfl
@[simp] theorem State.setRegion_txpdo : (s.setRegion k v).txpdo = s.txpdo := rfl
@[simp] theorem State.setRegion_alCode : (s.setRegion k v).alCode = s.alCode := rfl
@[simp] theorem State.setRegion_mbxErrors : (s.setRegion k v).mbxErrors = s.mbxErrors := rfl
@[simp] theorem State.setRegion_mems : (s.setRegion k v).mems = s.mems := rfl
@[simp] theorem State.setRegion_tiles : (s.setRegion k v).tiles = s.tiles := rfl
@[simp] theorem State.setRegion_routers : (s.setRegion k v).routers = s.routers := rfl
@[simp] theorem State.setRegion_avoid : (s.setRegion k v).avoid = s.avoid := rfl
@[simp] theorem State.setRegion_tablesOn : (s.setRegion k v).tablesOn = s.tablesOn := rfl
@[simp] theorem State.setRegion_passes : (s.setRegion k v).passes = s.passes := rfl
@[simp] theorem State.setRegion_chPasses : (s.setRegion k v).chPasses = s.chPasses := rfl
@[simp] theorem State.setRegion_engines : (s.setRegion k v).engines = s.engines := rfl
@[simp] theorem State.setRegion_acts : (s.setRegion k v).acts = s.acts := rfl
@[simp] theorem State.setRegion_holdCmd : (s.setRegion k v).holdCmd = s.holdCmd := rfl
@[simp] theorem State.setRegion_shipping : (s.setRegion k v).shipping = s.shipping := rfl
@[simp] theorem State.setRegion_ports : (s.setRegion k v).ports = s.ports := rfl
@[simp] theorem State.setRegion_subs : (s.setRegion k v).subs = s.subs := rfl
@[simp] theorem State.setRegion_stops : (s.setRegion k v).stops = s.stops := rfl
@[simp] theorem State.setRegion_relays : (s.setRegion k v).relays = s.relays := rfl
@[simp] theorem State.setRegion_parts : (s.setRegion k v).parts = s.parts := rfl
@[simp] theorem State.setRegion_taken : (s.setRegion k v).taken = s.taken := rfl
@[simp] theorem State.setRegion_waiting : (s.setRegion k v).waiting = s.waiting := rfl
@[simp] theorem State.setRegion_ringFull : (s.setRegion k v).ringFull = s.ringFull := rfl
@[simp] theorem State.setRegion_turn : (s.setRegion k v).turn = s.turn := rfl
@[simp] theorem State.setRegion_lease : (s.setRegion k v).lease = s.lease := rfl
@[simp] theorem State.setRegion_cores : (s.setRegion k v).cores = s.cores := rfl
@[simp] theorem State.setRegion_hwbuf : (s.setRegion k v).hwbuf = s.hwbuf := rfl
@[simp] theorem State.setRegion_ring : (s.setRegion k v).ring = s.ring := rfl
@[simp] theorem State.setRegion_log : (s.setRegion k v).log = s.log := rfl
@[simp] theorem State.setRegion_slotA : (s.setRegion k v).slotA = s.slotA := rfl
@[simp] theorem State.setRegion_slotB : (s.setRegion k v).slotB = s.slotB := rfl
@[simp] theorem State.setRegion_flash : (s.setRegion k v).flash = s.flash := rfl
@[simp] theorem State.setRegion_saved : (s.setRegion k v).saved = s.saved := rfl
@[simp] theorem State.setRegion_sec : (s.setRegion k v).sec = s.sec := rfl
@[simp] theorem State.setRegion_boot : (s.setRegion k v).boot = s.boot := rfl
@[simp] theorem State.setRegion_floor : (s.setRegion k v).floor = s.floor := rfl
@[simp] theorem State.setRegion_findings : (s.setRegion k v).findings = s.findings := rfl
@[simp] theorem State.setRegion_mc : (s.setRegion k v).mc = s.mc := rfl
@[simp] theorem State.setRegion_move : (s.setRegion k v).move = s.move := rfl
@[simp] theorem State.setRegion_onTick : (s.setRegion k v).onTick = s.onTick := rfl
@[simp] theorem State.setRegion_otherSlot : (s.setRegion k v).otherSlot = s.otherSlot := rfl
@[simp] theorem State.setRegion_power : (s.setRegion k v).power = s.power := rfl
@[simp] theorem State.setRegion_fuses : (s.setRegion k v).fuses = s.fuses := rfl
@[simp] theorem State.setRegion_w1s : (s.setRegion k v).w1s = s.w1s := rfl
@[simp] theorem State.setRegion_trace : (s.setRegion k v).trace = s.trace := rfl
@[simp] theorem State.setRegion_traceBufs : (s.setRegion k v).traceBufs = s.traceBufs := rfl
@[simp] theorem State.setRegion_mirrored : (s.setRegion k v).mirrored = s.mirrored := rfl
@[simp] theorem State.obj_setRegion (x y z : Nat) : (s.setRegion k v).obj x y z = s.obj x y z := rfl
@[simp] theorem State.blob_setRegion (x y z : Nat) : (s.setRegion k v).blob x y z = s.blob x y z := rfl
@[simp] theorem State.count_setRegion (x y z : Nat) : (s.setRegion k v).count x y z = s.count x y z := rfl
@[simp] theorem State.tile_setRegion (x : Nat) : (s.setRegion k v).tile x = s.tile x := rfl
@[simp] theorem State.router_setRegion (x : Nat) : (s.setRegion k v).router x = s.router x := rfl
@[simp] theorem State.engine_setRegion (x : Nat) : (s.setRegion k v).engine x = s.engine x := rfl
@[simp] theorem State.port_setRegion (x : Nat) : (s.setRegion k v).port x = s.port x := rfl
@[simp] theorem State.sub_setRegion (x y : Nat) : (s.setRegion k v).sub x y = s.sub x y := rfl
@[simp] theorem State.relay_setRegion (x : Nat) : (s.setRegion k v).relay x = s.relay x := rfl
@[simp] theorem State.part_setRegion (x : Nat) : (s.setRegion k v).part x = s.part x := rfl
@[simp] theorem State.core_setRegion (x : Nat) : (s.setRegion k v).core x = s.core x := rfl
@[simp] theorem State.mem_setRegion (m : MemUnit) : (s.setRegion k v).mem m = s.mem m := rfl
@[simp] theorem State.peek_setRegion (m : MemUnit) (a : Nat) : (s.setRegion k v).peek m a = s.peek m a := rfl
end
section
variable (s : State) (k : Nat) (v : Tile)
@[simp] theorem State.setTile_pending : (s.setTile k v).pending = s.pending := rfl
@[simp] theorem State.setTile_now : (s.setTile k v).now = s.now := rfl
@[simp] theorem State.setTile_free : (s.setTile k v).free = s.free := rfl
@[simp] theorem State.setTile_recent : (s.setTile k v).recent = s.recent := rfl
@[simp] theorem State.setTile_dict : (s.setTile k v).dict = s.dict := rfl
@[simp] theorem State.setTile_blobs : (s.setTile k v).blobs = s.blobs := rfl
@[simp] theorem State.setTile_live : (s.setTile k v).live = s.live := rfl
@[simp] theorem State.setTile_latched : (s.setTile k v).latched = s.latched := rfl
@[simp] theorem State.setTile_latching : (s.setTile k v).latching = s.latching := rfl
@[simp] theorem State.setTile_edges : (s.setTile k v).edges = s.edges := rfl
@[simp] theorem State.setTile_missed : (s.setTile k v).missed = s.missed := rfl
@[simp] theorem State.setTile_tables : (s.setTile k v).tables = s.tables := rfl
@[simp] theorem State.setTile_replies : (s.setTile k v).replies = s.replies := rfl
@[simp] theorem State.setTile_opens : (s.setTile k v).opens = s.opens := rfl
@[simp] theorem State.setTile_segments : (s.setTile k v).segments = s.segments := rfl
@[simp] theorem State.setTile_reads : (s.setTile k v).reads = s.reads := rfl
@[simp] theorem State.setTile_ecat : (s.setTile k v).ecat = s.ecat := rfl
@[simp] theorem State.setTile_txpdo : (s.setTile k v).txpdo = s.txpdo := rfl
@[simp] theorem State.setTile_alCode : (s.setTile k v).alCode = s.alCode := rfl
@[simp] theorem State.setTile_mbxErrors : (s.setTile k v).mbxErrors = s.mbxErrors := rfl
@[simp] theorem State.setTile_mems : (s.setTile k v).mems = s.mems := rfl
@[simp] theorem State.setTile_routers : (s.setTile k v).routers = s.routers := rfl
@[simp] theorem State.setTile_avoid : (s.setTile k v).avoid = s.avoid := rfl
@[simp] theorem State.setTile_tablesOn : (s.setTile k v).tablesOn = s.tablesOn := rfl
@[simp] theorem State.setTile_regions : (s.setTile k v).regions = s.regions := rfl
@[simp] theorem State.setTile_passes : (s.setTile k v).passes = s.passes := rfl
@[simp] theorem State.setTile_chPasses : (s.setTile k v).chPasses = s.chPasses := rfl
@[simp] theorem State.setTile_engines : (s.setTile k v).engines = s.engines := rfl
@[simp] theorem State.setTile_acts : (s.setTile k v).acts = s.acts := rfl
@[simp] theorem State.setTile_holdCmd : (s.setTile k v).holdCmd = s.holdCmd := rfl
@[simp] theorem State.setTile_shipping : (s.setTile k v).shipping = s.shipping := rfl
@[simp] theorem State.setTile_ports : (s.setTile k v).ports = s.ports := rfl
@[simp] theorem State.setTile_subs : (s.setTile k v).subs = s.subs := rfl
@[simp] theorem State.setTile_stops : (s.setTile k v).stops = s.stops := rfl
@[simp] theorem State.setTile_relays : (s.setTile k v).relays = s.relays := rfl
@[simp] theorem State.setTile_parts : (s.setTile k v).parts = s.parts := rfl
@[simp] theorem State.setTile_taken : (s.setTile k v).taken = s.taken := rfl
@[simp] theorem State.setTile_waiting : (s.setTile k v).waiting = s.waiting := rfl
@[simp] theorem State.setTile_ringFull : (s.setTile k v).ringFull = s.ringFull := rfl
@[simp] theorem State.setTile_turn : (s.setTile k v).turn = s.turn := rfl
@[simp] theorem State.setTile_lease : (s.setTile k v).lease = s.lease := rfl
@[simp] theorem State.setTile_cores : (s.setTile k v).cores = s.cores := rfl
@[simp] theorem State.setTile_hwbuf : (s.setTile k v).hwbuf = s.hwbuf := rfl
@[simp] theorem State.setTile_ring : (s.setTile k v).ring = s.ring := rfl
@[simp] theorem State.setTile_log : (s.setTile k v).log = s.log := rfl
@[simp] theorem State.setTile_slotA : (s.setTile k v).slotA = s.slotA := rfl
@[simp] theorem State.setTile_slotB : (s.setTile k v).slotB = s.slotB := rfl
@[simp] theorem State.setTile_flash : (s.setTile k v).flash = s.flash := rfl
@[simp] theorem State.setTile_saved : (s.setTile k v).saved = s.saved := rfl
@[simp] theorem State.setTile_sec : (s.setTile k v).sec = s.sec := rfl
@[simp] theorem State.setTile_boot : (s.setTile k v).boot = s.boot := rfl
@[simp] theorem State.setTile_floor : (s.setTile k v).floor = s.floor := rfl
@[simp] theorem State.setTile_findings : (s.setTile k v).findings = s.findings := rfl
@[simp] theorem State.setTile_mc : (s.setTile k v).mc = s.mc := rfl
@[simp] theorem State.setTile_move : (s.setTile k v).move = s.move := rfl
@[simp] theorem State.setTile_onTick : (s.setTile k v).onTick = s.onTick := rfl
@[simp] theorem State.setTile_otherSlot : (s.setTile k v).otherSlot = s.otherSlot := rfl
@[simp] theorem State.setTile_power : (s.setTile k v).power = s.power := rfl
@[simp] theorem State.setTile_fuses : (s.setTile k v).fuses = s.fuses := rfl
@[simp] theorem State.setTile_w1s : (s.setTile k v).w1s = s.w1s := rfl
@[simp] theorem State.setTile_trace : (s.setTile k v).trace = s.trace := rfl
@[simp] theorem State.setTile_traceBufs : (s.setTile k v).traceBufs = s.traceBufs := rfl
@[simp] theorem State.setTile_mirrored : (s.setTile k v).mirrored = s.mirrored := rfl
@[simp] theorem State.obj_setTile (x y z : Nat) : (s.setTile k v).obj x y z = s.obj x y z := rfl
@[simp] theorem State.blob_setTile (x y z : Nat) : (s.setTile k v).blob x y z = s.blob x y z := rfl
@[simp] theorem State.count_setTile (x y z : Nat) : (s.setTile k v).count x y z = s.count x y z := rfl
@[simp] theorem State.region_setTile (x : Nat) : (s.setTile k v).region x = s.region x := rfl
@[simp] theorem State.router_setTile (x : Nat) : (s.setTile k v).router x = s.router x := rfl
@[simp] theorem State.engine_setTile (x : Nat) : (s.setTile k v).engine x = s.engine x := rfl
@[simp] theorem State.port_setTile (x : Nat) : (s.setTile k v).port x = s.port x := rfl
@[simp] theorem State.sub_setTile (x y : Nat) : (s.setTile k v).sub x y = s.sub x y := rfl
@[simp] theorem State.relay_setTile (x : Nat) : (s.setTile k v).relay x = s.relay x := rfl
@[simp] theorem State.part_setTile (x : Nat) : (s.setTile k v).part x = s.part x := rfl
@[simp] theorem State.core_setTile (x : Nat) : (s.setTile k v).core x = s.core x := rfl
@[simp] theorem State.mem_setTile (m : MemUnit) : (s.setTile k v).mem m = s.mem m := rfl
@[simp] theorem State.peek_setTile (m : MemUnit) (a : Nat) : (s.setTile k v).peek m a = s.peek m a := rfl
end
section
variable (s : State) (k : Nat) (v : Router)
@[simp] theorem State.setRouter_pending : (s.setRouter k v).pending = s.pending := rfl
@[simp] theorem State.setRouter_now : (s.setRouter k v).now = s.now := rfl
@[simp] theorem State.setRouter_free : (s.setRouter k v).free = s.free := rfl
@[simp] theorem State.setRouter_recent : (s.setRouter k v).recent = s.recent := rfl
@[simp] theorem State.setRouter_dict : (s.setRouter k v).dict = s.dict := rfl
@[simp] theorem State.setRouter_blobs : (s.setRouter k v).blobs = s.blobs := rfl
@[simp] theorem State.setRouter_live : (s.setRouter k v).live = s.live := rfl
@[simp] theorem State.setRouter_latched : (s.setRouter k v).latched = s.latched := rfl
@[simp] theorem State.setRouter_latching : (s.setRouter k v).latching = s.latching := rfl
@[simp] theorem State.setRouter_edges : (s.setRouter k v).edges = s.edges := rfl
@[simp] theorem State.setRouter_missed : (s.setRouter k v).missed = s.missed := rfl
@[simp] theorem State.setRouter_tables : (s.setRouter k v).tables = s.tables := rfl
@[simp] theorem State.setRouter_replies : (s.setRouter k v).replies = s.replies := rfl
@[simp] theorem State.setRouter_opens : (s.setRouter k v).opens = s.opens := rfl
@[simp] theorem State.setRouter_segments : (s.setRouter k v).segments = s.segments := rfl
@[simp] theorem State.setRouter_reads : (s.setRouter k v).reads = s.reads := rfl
@[simp] theorem State.setRouter_ecat : (s.setRouter k v).ecat = s.ecat := rfl
@[simp] theorem State.setRouter_txpdo : (s.setRouter k v).txpdo = s.txpdo := rfl
@[simp] theorem State.setRouter_alCode : (s.setRouter k v).alCode = s.alCode := rfl
@[simp] theorem State.setRouter_mbxErrors : (s.setRouter k v).mbxErrors = s.mbxErrors := rfl
@[simp] theorem State.setRouter_mems : (s.setRouter k v).mems = s.mems := rfl
@[simp] theorem State.setRouter_tiles : (s.setRouter k v).tiles = s.tiles := rfl
@[simp] theorem State.setRouter_avoid : (s.setRouter k v).avoid = s.avoid := rfl
@[simp] theorem State.setRouter_tablesOn : (s.setRouter k v).tablesOn = s.tablesOn := rfl
@[simp] theorem State.setRouter_regions : (s.setRouter k v).regions = s.regions := rfl
@[simp] theorem State.setRouter_passes : (s.setRouter k v).passes = s.passes := rfl
@[simp] theorem State.setRouter_chPasses : (s.setRouter k v).chPasses = s.chPasses := rfl
@[simp] theorem State.setRouter_engines : (s.setRouter k v).engines = s.engines := rfl
@[simp] theorem State.setRouter_acts : (s.setRouter k v).acts = s.acts := rfl
@[simp] theorem State.setRouter_holdCmd : (s.setRouter k v).holdCmd = s.holdCmd := rfl
@[simp] theorem State.setRouter_shipping : (s.setRouter k v).shipping = s.shipping := rfl
@[simp] theorem State.setRouter_ports : (s.setRouter k v).ports = s.ports := rfl
@[simp] theorem State.setRouter_subs : (s.setRouter k v).subs = s.subs := rfl
@[simp] theorem State.setRouter_stops : (s.setRouter k v).stops = s.stops := rfl
@[simp] theorem State.setRouter_relays : (s.setRouter k v).relays = s.relays := rfl
@[simp] theorem State.setRouter_parts : (s.setRouter k v).parts = s.parts := rfl
@[simp] theorem State.setRouter_taken : (s.setRouter k v).taken = s.taken := rfl
@[simp] theorem State.setRouter_waiting : (s.setRouter k v).waiting = s.waiting := rfl
@[simp] theorem State.setRouter_ringFull : (s.setRouter k v).ringFull = s.ringFull := rfl
@[simp] theorem State.setRouter_turn : (s.setRouter k v).turn = s.turn := rfl
@[simp] theorem State.setRouter_lease : (s.setRouter k v).lease = s.lease := rfl
@[simp] theorem State.setRouter_cores : (s.setRouter k v).cores = s.cores := rfl
@[simp] theorem State.setRouter_hwbuf : (s.setRouter k v).hwbuf = s.hwbuf := rfl
@[simp] theorem State.setRouter_ring : (s.setRouter k v).ring = s.ring := rfl
@[simp] theorem State.setRouter_log : (s.setRouter k v).log = s.log := rfl
@[simp] theorem State.setRouter_slotA : (s.setRouter k v).slotA = s.slotA := rfl
@[simp] theorem State.setRouter_slotB : (s.setRouter k v).slotB = s.slotB := rfl
@[simp] theorem State.setRouter_flash : (s.setRouter k v).flash = s.flash := rfl
@[simp] theorem State.setRouter_saved : (s.setRouter k v).saved = s.saved := rfl
@[simp] theorem State.setRouter_sec : (s.setRouter k v).sec = s.sec := rfl
@[simp] theorem State.setRouter_boot : (s.setRouter k v).boot = s.boot := rfl
@[simp] theorem State.setRouter_floor : (s.setRouter k v).floor = s.floor := rfl
@[simp] theorem State.setRouter_findings : (s.setRouter k v).findings = s.findings := rfl
@[simp] theorem State.setRouter_mc : (s.setRouter k v).mc = s.mc := rfl
@[simp] theorem State.setRouter_move : (s.setRouter k v).move = s.move := rfl
@[simp] theorem State.setRouter_onTick : (s.setRouter k v).onTick = s.onTick := rfl
@[simp] theorem State.setRouter_otherSlot : (s.setRouter k v).otherSlot = s.otherSlot := rfl
@[simp] theorem State.setRouter_power : (s.setRouter k v).power = s.power := rfl
@[simp] theorem State.setRouter_fuses : (s.setRouter k v).fuses = s.fuses := rfl
@[simp] theorem State.setRouter_w1s : (s.setRouter k v).w1s = s.w1s := rfl
@[simp] theorem State.setRouter_trace : (s.setRouter k v).trace = s.trace := rfl
@[simp] theorem State.setRouter_traceBufs : (s.setRouter k v).traceBufs = s.traceBufs := rfl
@[simp] theorem State.setRouter_mirrored : (s.setRouter k v).mirrored = s.mirrored := rfl
@[simp] theorem State.obj_setRouter (x y z : Nat) : (s.setRouter k v).obj x y z = s.obj x y z := rfl
@[simp] theorem State.blob_setRouter (x y z : Nat) : (s.setRouter k v).blob x y z = s.blob x y z := rfl
@[simp] theorem State.count_setRouter (x y z : Nat) : (s.setRouter k v).count x y z = s.count x y z := rfl
@[simp] theorem State.region_setRouter (x : Nat) : (s.setRouter k v).region x = s.region x := rfl
@[simp] theorem State.tile_setRouter (x : Nat) : (s.setRouter k v).tile x = s.tile x := rfl
@[simp] theorem State.engine_setRouter (x : Nat) : (s.setRouter k v).engine x = s.engine x := rfl
@[simp] theorem State.port_setRouter (x : Nat) : (s.setRouter k v).port x = s.port x := rfl
@[simp] theorem State.sub_setRouter (x y : Nat) : (s.setRouter k v).sub x y = s.sub x y := rfl
@[simp] theorem State.relay_setRouter (x : Nat) : (s.setRouter k v).relay x = s.relay x := rfl
@[simp] theorem State.part_setRouter (x : Nat) : (s.setRouter k v).part x = s.part x := rfl
@[simp] theorem State.core_setRouter (x : Nat) : (s.setRouter k v).core x = s.core x := rfl
@[simp] theorem State.mem_setRouter (m : MemUnit) : (s.setRouter k v).mem m = s.mem m := rfl
@[simp] theorem State.peek_setRouter (m : MemUnit) (a : Nat) : (s.setRouter k v).peek m a = s.peek m a := rfl
end
section
variable (s : State) (k : Nat) (v : Engine)
@[simp] theorem State.setEngine_pending : (s.setEngine k v).pending = s.pending := rfl
@[simp] theorem State.setEngine_now : (s.setEngine k v).now = s.now := rfl
@[simp] theorem State.setEngine_free : (s.setEngine k v).free = s.free := rfl
@[simp] theorem State.setEngine_recent : (s.setEngine k v).recent = s.recent := rfl
@[simp] theorem State.setEngine_dict : (s.setEngine k v).dict = s.dict := rfl
@[simp] theorem State.setEngine_blobs : (s.setEngine k v).blobs = s.blobs := rfl
@[simp] theorem State.setEngine_live : (s.setEngine k v).live = s.live := rfl
@[simp] theorem State.setEngine_latched : (s.setEngine k v).latched = s.latched := rfl
@[simp] theorem State.setEngine_latching : (s.setEngine k v).latching = s.latching := rfl
@[simp] theorem State.setEngine_edges : (s.setEngine k v).edges = s.edges := rfl
@[simp] theorem State.setEngine_missed : (s.setEngine k v).missed = s.missed := rfl
@[simp] theorem State.setEngine_tables : (s.setEngine k v).tables = s.tables := rfl
@[simp] theorem State.setEngine_replies : (s.setEngine k v).replies = s.replies := rfl
@[simp] theorem State.setEngine_opens : (s.setEngine k v).opens = s.opens := rfl
@[simp] theorem State.setEngine_segments : (s.setEngine k v).segments = s.segments := rfl
@[simp] theorem State.setEngine_reads : (s.setEngine k v).reads = s.reads := rfl
@[simp] theorem State.setEngine_ecat : (s.setEngine k v).ecat = s.ecat := rfl
@[simp] theorem State.setEngine_txpdo : (s.setEngine k v).txpdo = s.txpdo := rfl
@[simp] theorem State.setEngine_alCode : (s.setEngine k v).alCode = s.alCode := rfl
@[simp] theorem State.setEngine_mbxErrors : (s.setEngine k v).mbxErrors = s.mbxErrors := rfl
@[simp] theorem State.setEngine_mems : (s.setEngine k v).mems = s.mems := rfl
@[simp] theorem State.setEngine_tiles : (s.setEngine k v).tiles = s.tiles := rfl
@[simp] theorem State.setEngine_routers : (s.setEngine k v).routers = s.routers := rfl
@[simp] theorem State.setEngine_avoid : (s.setEngine k v).avoid = s.avoid := rfl
@[simp] theorem State.setEngine_tablesOn : (s.setEngine k v).tablesOn = s.tablesOn := rfl
@[simp] theorem State.setEngine_regions : (s.setEngine k v).regions = s.regions := rfl
@[simp] theorem State.setEngine_passes : (s.setEngine k v).passes = s.passes := rfl
@[simp] theorem State.setEngine_chPasses : (s.setEngine k v).chPasses = s.chPasses := rfl
@[simp] theorem State.setEngine_acts : (s.setEngine k v).acts = s.acts := rfl
@[simp] theorem State.setEngine_holdCmd : (s.setEngine k v).holdCmd = s.holdCmd := rfl
@[simp] theorem State.setEngine_shipping : (s.setEngine k v).shipping = s.shipping := rfl
@[simp] theorem State.setEngine_ports : (s.setEngine k v).ports = s.ports := rfl
@[simp] theorem State.setEngine_subs : (s.setEngine k v).subs = s.subs := rfl
@[simp] theorem State.setEngine_stops : (s.setEngine k v).stops = s.stops := rfl
@[simp] theorem State.setEngine_relays : (s.setEngine k v).relays = s.relays := rfl
@[simp] theorem State.setEngine_parts : (s.setEngine k v).parts = s.parts := rfl
@[simp] theorem State.setEngine_taken : (s.setEngine k v).taken = s.taken := rfl
@[simp] theorem State.setEngine_waiting : (s.setEngine k v).waiting = s.waiting := rfl
@[simp] theorem State.setEngine_ringFull : (s.setEngine k v).ringFull = s.ringFull := rfl
@[simp] theorem State.setEngine_turn : (s.setEngine k v).turn = s.turn := rfl
@[simp] theorem State.setEngine_lease : (s.setEngine k v).lease = s.lease := rfl
@[simp] theorem State.setEngine_cores : (s.setEngine k v).cores = s.cores := rfl
@[simp] theorem State.setEngine_hwbuf : (s.setEngine k v).hwbuf = s.hwbuf := rfl
@[simp] theorem State.setEngine_ring : (s.setEngine k v).ring = s.ring := rfl
@[simp] theorem State.setEngine_log : (s.setEngine k v).log = s.log := rfl
@[simp] theorem State.setEngine_slotA : (s.setEngine k v).slotA = s.slotA := rfl
@[simp] theorem State.setEngine_slotB : (s.setEngine k v).slotB = s.slotB := rfl
@[simp] theorem State.setEngine_flash : (s.setEngine k v).flash = s.flash := rfl
@[simp] theorem State.setEngine_saved : (s.setEngine k v).saved = s.saved := rfl
@[simp] theorem State.setEngine_sec : (s.setEngine k v).sec = s.sec := rfl
@[simp] theorem State.setEngine_boot : (s.setEngine k v).boot = s.boot := rfl
@[simp] theorem State.setEngine_floor : (s.setEngine k v).floor = s.floor := rfl
@[simp] theorem State.setEngine_findings : (s.setEngine k v).findings = s.findings := rfl
@[simp] theorem State.setEngine_mc : (s.setEngine k v).mc = s.mc := rfl
@[simp] theorem State.setEngine_move : (s.setEngine k v).move = s.move := rfl
@[simp] theorem State.setEngine_onTick : (s.setEngine k v).onTick = s.onTick := rfl
@[simp] theorem State.setEngine_otherSlot : (s.setEngine k v).otherSlot = s.otherSlot := rfl
@[simp] theorem State.setEngine_power : (s.setEngine k v).power = s.power := rfl
@[simp] theorem State.setEngine_fuses : (s.setEngine k v).fuses = s.fuses := rfl
@[simp] theorem State.setEngine_w1s : (s.setEngine k v).w1s = s.w1s := rfl
@[simp] theorem State.setEngine_trace : (s.setEngine k v).trace = s.trace := rfl
@[simp] theorem State.setEngine_traceBufs : (s.setEngine k v).traceBufs = s.traceBufs := rfl
@[simp] theorem State.setEngine_mirrored : (s.setEngine k v).mirrored = s.mirrored := rfl
@[simp] theorem State.obj_setEngine (x y z : Nat) : (s.setEngine k v).obj x y z = s.obj x y z := rfl
@[simp] theorem State.blob_setEngine (x y z : Nat) : (s.setEngine k v).blob x y z = s.blob x y z := rfl
@[simp] theorem State.count_setEngine (x y z : Nat) : (s.setEngine k v).count x y z = s.count x y z := rfl
@[simp] theorem State.region_setEngine (x : Nat) : (s.setEngine k v).region x = s.region x := rfl
@[simp] theorem State.tile_setEngine (x : Nat) : (s.setEngine k v).tile x = s.tile x := rfl
@[simp] theorem State.router_setEngine (x : Nat) : (s.setEngine k v).router x = s.router x := rfl
@[simp] theorem State.port_setEngine (x : Nat) : (s.setEngine k v).port x = s.port x := rfl
@[simp] theorem State.sub_setEngine (x y : Nat) : (s.setEngine k v).sub x y = s.sub x y := rfl
@[simp] theorem State.relay_setEngine (x : Nat) : (s.setEngine k v).relay x = s.relay x := rfl
@[simp] theorem State.part_setEngine (x : Nat) : (s.setEngine k v).part x = s.part x := rfl
@[simp] theorem State.core_setEngine (x : Nat) : (s.setEngine k v).core x = s.core x := rfl
@[simp] theorem State.mem_setEngine (m : MemUnit) : (s.setEngine k v).mem m = s.mem m := rfl
@[simp] theorem State.peek_setEngine (m : MemUnit) (a : Nat) : (s.setEngine k v).peek m a = s.peek m a := rfl
end
section
variable (s : State) (k : Nat) (v : Port)
@[simp] theorem State.setPort_pending : (s.setPort k v).pending = s.pending := rfl
@[simp] theorem State.setPort_now : (s.setPort k v).now = s.now := rfl
@[simp] theorem State.setPort_free : (s.setPort k v).free = s.free := rfl
@[simp] theorem State.setPort_recent : (s.setPort k v).recent = s.recent := rfl
@[simp] theorem State.setPort_dict : (s.setPort k v).dict = s.dict := rfl
@[simp] theorem State.setPort_blobs : (s.setPort k v).blobs = s.blobs := rfl
@[simp] theorem State.setPort_live : (s.setPort k v).live = s.live := rfl
@[simp] theorem State.setPort_latched : (s.setPort k v).latched = s.latched := rfl
@[simp] theorem State.setPort_latching : (s.setPort k v).latching = s.latching := rfl
@[simp] theorem State.setPort_edges : (s.setPort k v).edges = s.edges := rfl
@[simp] theorem State.setPort_missed : (s.setPort k v).missed = s.missed := rfl
@[simp] theorem State.setPort_tables : (s.setPort k v).tables = s.tables := rfl
@[simp] theorem State.setPort_replies : (s.setPort k v).replies = s.replies := rfl
@[simp] theorem State.setPort_opens : (s.setPort k v).opens = s.opens := rfl
@[simp] theorem State.setPort_segments : (s.setPort k v).segments = s.segments := rfl
@[simp] theorem State.setPort_reads : (s.setPort k v).reads = s.reads := rfl
@[simp] theorem State.setPort_ecat : (s.setPort k v).ecat = s.ecat := rfl
@[simp] theorem State.setPort_txpdo : (s.setPort k v).txpdo = s.txpdo := rfl
@[simp] theorem State.setPort_alCode : (s.setPort k v).alCode = s.alCode := rfl
@[simp] theorem State.setPort_mbxErrors : (s.setPort k v).mbxErrors = s.mbxErrors := rfl
@[simp] theorem State.setPort_mems : (s.setPort k v).mems = s.mems := rfl
@[simp] theorem State.setPort_tiles : (s.setPort k v).tiles = s.tiles := rfl
@[simp] theorem State.setPort_routers : (s.setPort k v).routers = s.routers := rfl
@[simp] theorem State.setPort_avoid : (s.setPort k v).avoid = s.avoid := rfl
@[simp] theorem State.setPort_tablesOn : (s.setPort k v).tablesOn = s.tablesOn := rfl
@[simp] theorem State.setPort_regions : (s.setPort k v).regions = s.regions := rfl
@[simp] theorem State.setPort_passes : (s.setPort k v).passes = s.passes := rfl
@[simp] theorem State.setPort_chPasses : (s.setPort k v).chPasses = s.chPasses := rfl
@[simp] theorem State.setPort_engines : (s.setPort k v).engines = s.engines := rfl
@[simp] theorem State.setPort_acts : (s.setPort k v).acts = s.acts := rfl
@[simp] theorem State.setPort_holdCmd : (s.setPort k v).holdCmd = s.holdCmd := rfl
@[simp] theorem State.setPort_shipping : (s.setPort k v).shipping = s.shipping := rfl
@[simp] theorem State.setPort_subs : (s.setPort k v).subs = s.subs := rfl
@[simp] theorem State.setPort_stops : (s.setPort k v).stops = s.stops := rfl
@[simp] theorem State.setPort_relays : (s.setPort k v).relays = s.relays := rfl
@[simp] theorem State.setPort_parts : (s.setPort k v).parts = s.parts := rfl
@[simp] theorem State.setPort_taken : (s.setPort k v).taken = s.taken := rfl
@[simp] theorem State.setPort_waiting : (s.setPort k v).waiting = s.waiting := rfl
@[simp] theorem State.setPort_ringFull : (s.setPort k v).ringFull = s.ringFull := rfl
@[simp] theorem State.setPort_turn : (s.setPort k v).turn = s.turn := rfl
@[simp] theorem State.setPort_lease : (s.setPort k v).lease = s.lease := rfl
@[simp] theorem State.setPort_cores : (s.setPort k v).cores = s.cores := rfl
@[simp] theorem State.setPort_hwbuf : (s.setPort k v).hwbuf = s.hwbuf := rfl
@[simp] theorem State.setPort_ring : (s.setPort k v).ring = s.ring := rfl
@[simp] theorem State.setPort_log : (s.setPort k v).log = s.log := rfl
@[simp] theorem State.setPort_slotA : (s.setPort k v).slotA = s.slotA := rfl
@[simp] theorem State.setPort_slotB : (s.setPort k v).slotB = s.slotB := rfl
@[simp] theorem State.setPort_flash : (s.setPort k v).flash = s.flash := rfl
@[simp] theorem State.setPort_saved : (s.setPort k v).saved = s.saved := rfl
@[simp] theorem State.setPort_sec : (s.setPort k v).sec = s.sec := rfl
@[simp] theorem State.setPort_boot : (s.setPort k v).boot = s.boot := rfl
@[simp] theorem State.setPort_floor : (s.setPort k v).floor = s.floor := rfl
@[simp] theorem State.setPort_findings : (s.setPort k v).findings = s.findings := rfl
@[simp] theorem State.setPort_mc : (s.setPort k v).mc = s.mc := rfl
@[simp] theorem State.setPort_move : (s.setPort k v).move = s.move := rfl
@[simp] theorem State.setPort_onTick : (s.setPort k v).onTick = s.onTick := rfl
@[simp] theorem State.setPort_otherSlot : (s.setPort k v).otherSlot = s.otherSlot := rfl
@[simp] theorem State.setPort_power : (s.setPort k v).power = s.power := rfl
@[simp] theorem State.setPort_fuses : (s.setPort k v).fuses = s.fuses := rfl
@[simp] theorem State.setPort_w1s : (s.setPort k v).w1s = s.w1s := rfl
@[simp] theorem State.setPort_trace : (s.setPort k v).trace = s.trace := rfl
@[simp] theorem State.setPort_traceBufs : (s.setPort k v).traceBufs = s.traceBufs := rfl
@[simp] theorem State.setPort_mirrored : (s.setPort k v).mirrored = s.mirrored := rfl
@[simp] theorem State.obj_setPort (x y z : Nat) : (s.setPort k v).obj x y z = s.obj x y z := rfl
@[simp] theorem State.blob_setPort (x y z : Nat) : (s.setPort k v).blob x y z = s.blob x y z := rfl
@[simp] theorem State.count_setPort (x y z : Nat) : (s.setPort k v).count x y z = s.count x y z := rfl
@[simp] theorem State.region_setPort (x : Nat) : (s.setPort k v).region x = s.region x := rfl
@[simp] theorem State.tile_setPort (x : Nat) : (s.setPort k v).tile x = s.tile x := rfl
@[simp] theorem State.router_setPort (x : Nat) : (s.setPort k v).router x = s.router x := rfl
@[simp] theorem State.engine_setPort (x : Nat) : (s.setPort k v).engine x = s.engine x := rfl
@[simp] theorem State.sub_setPort (x y : Nat) : (s.setPort k v).sub x y = s.sub x y := rfl
@[simp] theorem State.relay_setPort (x : Nat) : (s.setPort k v).relay x = s.relay x := rfl
@[simp] theorem State.part_setPort (x : Nat) : (s.setPort k v).part x = s.part x := rfl
@[simp] theorem State.core_setPort (x : Nat) : (s.setPort k v).core x = s.core x := rfl
@[simp] theorem State.mem_setPort (m : MemUnit) : (s.setPort k v).mem m = s.mem m := rfl
@[simp] theorem State.peek_setPort (m : MemUnit) (a : Nat) : (s.setPort k v).peek m a = s.peek m a := rfl
end
section
variable (s : State) (k l : Nat) (v : SubPort)
@[simp] theorem State.setSub_pending : (s.setSub k l v).pending = s.pending := rfl
@[simp] theorem State.setSub_now : (s.setSub k l v).now = s.now := rfl
@[simp] theorem State.setSub_free : (s.setSub k l v).free = s.free := rfl
@[simp] theorem State.setSub_recent : (s.setSub k l v).recent = s.recent := rfl
@[simp] theorem State.setSub_dict : (s.setSub k l v).dict = s.dict := rfl
@[simp] theorem State.setSub_blobs : (s.setSub k l v).blobs = s.blobs := rfl
@[simp] theorem State.setSub_live : (s.setSub k l v).live = s.live := rfl
@[simp] theorem State.setSub_latched : (s.setSub k l v).latched = s.latched := rfl
@[simp] theorem State.setSub_latching : (s.setSub k l v).latching = s.latching := rfl
@[simp] theorem State.setSub_edges : (s.setSub k l v).edges = s.edges := rfl
@[simp] theorem State.setSub_missed : (s.setSub k l v).missed = s.missed := rfl
@[simp] theorem State.setSub_tables : (s.setSub k l v).tables = s.tables := rfl
@[simp] theorem State.setSub_replies : (s.setSub k l v).replies = s.replies := rfl
@[simp] theorem State.setSub_opens : (s.setSub k l v).opens = s.opens := rfl
@[simp] theorem State.setSub_segments : (s.setSub k l v).segments = s.segments := rfl
@[simp] theorem State.setSub_reads : (s.setSub k l v).reads = s.reads := rfl
@[simp] theorem State.setSub_ecat : (s.setSub k l v).ecat = s.ecat := rfl
@[simp] theorem State.setSub_txpdo : (s.setSub k l v).txpdo = s.txpdo := rfl
@[simp] theorem State.setSub_alCode : (s.setSub k l v).alCode = s.alCode := rfl
@[simp] theorem State.setSub_mbxErrors : (s.setSub k l v).mbxErrors = s.mbxErrors := rfl
@[simp] theorem State.setSub_mems : (s.setSub k l v).mems = s.mems := rfl
@[simp] theorem State.setSub_tiles : (s.setSub k l v).tiles = s.tiles := rfl
@[simp] theorem State.setSub_routers : (s.setSub k l v).routers = s.routers := rfl
@[simp] theorem State.setSub_avoid : (s.setSub k l v).avoid = s.avoid := rfl
@[simp] theorem State.setSub_tablesOn : (s.setSub k l v).tablesOn = s.tablesOn := rfl
@[simp] theorem State.setSub_regions : (s.setSub k l v).regions = s.regions := rfl
@[simp] theorem State.setSub_passes : (s.setSub k l v).passes = s.passes := rfl
@[simp] theorem State.setSub_chPasses : (s.setSub k l v).chPasses = s.chPasses := rfl
@[simp] theorem State.setSub_engines : (s.setSub k l v).engines = s.engines := rfl
@[simp] theorem State.setSub_acts : (s.setSub k l v).acts = s.acts := rfl
@[simp] theorem State.setSub_holdCmd : (s.setSub k l v).holdCmd = s.holdCmd := rfl
@[simp] theorem State.setSub_shipping : (s.setSub k l v).shipping = s.shipping := rfl
@[simp] theorem State.setSub_ports : (s.setSub k l v).ports = s.ports := rfl
@[simp] theorem State.setSub_stops : (s.setSub k l v).stops = s.stops := rfl
@[simp] theorem State.setSub_relays : (s.setSub k l v).relays = s.relays := rfl
@[simp] theorem State.setSub_parts : (s.setSub k l v).parts = s.parts := rfl
@[simp] theorem State.setSub_taken : (s.setSub k l v).taken = s.taken := rfl
@[simp] theorem State.setSub_waiting : (s.setSub k l v).waiting = s.waiting := rfl
@[simp] theorem State.setSub_ringFull : (s.setSub k l v).ringFull = s.ringFull := rfl
@[simp] theorem State.setSub_turn : (s.setSub k l v).turn = s.turn := rfl
@[simp] theorem State.setSub_lease : (s.setSub k l v).lease = s.lease := rfl
@[simp] theorem State.setSub_cores : (s.setSub k l v).cores = s.cores := rfl
@[simp] theorem State.setSub_hwbuf : (s.setSub k l v).hwbuf = s.hwbuf := rfl
@[simp] theorem State.setSub_ring : (s.setSub k l v).ring = s.ring := rfl
@[simp] theorem State.setSub_log : (s.setSub k l v).log = s.log := rfl
@[simp] theorem State.setSub_slotA : (s.setSub k l v).slotA = s.slotA := rfl
@[simp] theorem State.setSub_slotB : (s.setSub k l v).slotB = s.slotB := rfl
@[simp] theorem State.setSub_flash : (s.setSub k l v).flash = s.flash := rfl
@[simp] theorem State.setSub_saved : (s.setSub k l v).saved = s.saved := rfl
@[simp] theorem State.setSub_sec : (s.setSub k l v).sec = s.sec := rfl
@[simp] theorem State.setSub_boot : (s.setSub k l v).boot = s.boot := rfl
@[simp] theorem State.setSub_floor : (s.setSub k l v).floor = s.floor := rfl
@[simp] theorem State.setSub_findings : (s.setSub k l v).findings = s.findings := rfl
@[simp] theorem State.setSub_mc : (s.setSub k l v).mc = s.mc := rfl
@[simp] theorem State.setSub_move : (s.setSub k l v).move = s.move := rfl
@[simp] theorem State.setSub_onTick : (s.setSub k l v).onTick = s.onTick := rfl
@[simp] theorem State.setSub_otherSlot : (s.setSub k l v).otherSlot = s.otherSlot := rfl
@[simp] theorem State.setSub_power : (s.setSub k l v).power = s.power := rfl
@[simp] theorem State.setSub_fuses : (s.setSub k l v).fuses = s.fuses := rfl
@[simp] theorem State.setSub_w1s : (s.setSub k l v).w1s = s.w1s := rfl
@[simp] theorem State.setSub_trace : (s.setSub k l v).trace = s.trace := rfl
@[simp] theorem State.setSub_traceBufs : (s.setSub k l v).traceBufs = s.traceBufs := rfl
@[simp] theorem State.setSub_mirrored : (s.setSub k l v).mirrored = s.mirrored := rfl
@[simp] theorem State.obj_setSub (x y z : Nat) : (s.setSub k l v).obj x y z = s.obj x y z := rfl
@[simp] theorem State.blob_setSub (x y z : Nat) : (s.setSub k l v).blob x y z = s.blob x y z := rfl
@[simp] theorem State.count_setSub (x y z : Nat) : (s.setSub k l v).count x y z = s.count x y z := rfl
@[simp] theorem State.region_setSub (x : Nat) : (s.setSub k l v).region x = s.region x := rfl
@[simp] theorem State.tile_setSub (x : Nat) : (s.setSub k l v).tile x = s.tile x := rfl
@[simp] theorem State.router_setSub (x : Nat) : (s.setSub k l v).router x = s.router x := rfl
@[simp] theorem State.engine_setSub (x : Nat) : (s.setSub k l v).engine x = s.engine x := rfl
@[simp] theorem State.port_setSub (x : Nat) : (s.setSub k l v).port x = s.port x := rfl
@[simp] theorem State.relay_setSub (x : Nat) : (s.setSub k l v).relay x = s.relay x := rfl
@[simp] theorem State.part_setSub (x : Nat) : (s.setSub k l v).part x = s.part x := rfl
@[simp] theorem State.core_setSub (x : Nat) : (s.setSub k l v).core x = s.core x := rfl
@[simp] theorem State.mem_setSub (m : MemUnit) : (s.setSub k l v).mem m = s.mem m := rfl
@[simp] theorem State.peek_setSub (m : MemUnit) (a : Nat) : (s.setSub k l v).peek m a = s.peek m a := rfl
end
section
variable (s : State) (k : Nat) (v : Relay)
@[simp] theorem State.setRelay_pending : (s.setRelay k v).pending = s.pending := rfl
@[simp] theorem State.setRelay_now : (s.setRelay k v).now = s.now := rfl
@[simp] theorem State.setRelay_free : (s.setRelay k v).free = s.free := rfl
@[simp] theorem State.setRelay_recent : (s.setRelay k v).recent = s.recent := rfl
@[simp] theorem State.setRelay_dict : (s.setRelay k v).dict = s.dict := rfl
@[simp] theorem State.setRelay_blobs : (s.setRelay k v).blobs = s.blobs := rfl
@[simp] theorem State.setRelay_live : (s.setRelay k v).live = s.live := rfl
@[simp] theorem State.setRelay_latched : (s.setRelay k v).latched = s.latched := rfl
@[simp] theorem State.setRelay_latching : (s.setRelay k v).latching = s.latching := rfl
@[simp] theorem State.setRelay_edges : (s.setRelay k v).edges = s.edges := rfl
@[simp] theorem State.setRelay_missed : (s.setRelay k v).missed = s.missed := rfl
@[simp] theorem State.setRelay_tables : (s.setRelay k v).tables = s.tables := rfl
@[simp] theorem State.setRelay_replies : (s.setRelay k v).replies = s.replies := rfl
@[simp] theorem State.setRelay_opens : (s.setRelay k v).opens = s.opens := rfl
@[simp] theorem State.setRelay_segments : (s.setRelay k v).segments = s.segments := rfl
@[simp] theorem State.setRelay_reads : (s.setRelay k v).reads = s.reads := rfl
@[simp] theorem State.setRelay_ecat : (s.setRelay k v).ecat = s.ecat := rfl
@[simp] theorem State.setRelay_txpdo : (s.setRelay k v).txpdo = s.txpdo := rfl
@[simp] theorem State.setRelay_alCode : (s.setRelay k v).alCode = s.alCode := rfl
@[simp] theorem State.setRelay_mbxErrors : (s.setRelay k v).mbxErrors = s.mbxErrors := rfl
@[simp] theorem State.setRelay_mems : (s.setRelay k v).mems = s.mems := rfl
@[simp] theorem State.setRelay_tiles : (s.setRelay k v).tiles = s.tiles := rfl
@[simp] theorem State.setRelay_routers : (s.setRelay k v).routers = s.routers := rfl
@[simp] theorem State.setRelay_avoid : (s.setRelay k v).avoid = s.avoid := rfl
@[simp] theorem State.setRelay_tablesOn : (s.setRelay k v).tablesOn = s.tablesOn := rfl
@[simp] theorem State.setRelay_regions : (s.setRelay k v).regions = s.regions := rfl
@[simp] theorem State.setRelay_passes : (s.setRelay k v).passes = s.passes := rfl
@[simp] theorem State.setRelay_chPasses : (s.setRelay k v).chPasses = s.chPasses := rfl
@[simp] theorem State.setRelay_engines : (s.setRelay k v).engines = s.engines := rfl
@[simp] theorem State.setRelay_acts : (s.setRelay k v).acts = s.acts := rfl
@[simp] theorem State.setRelay_holdCmd : (s.setRelay k v).holdCmd = s.holdCmd := rfl
@[simp] theorem State.setRelay_shipping : (s.setRelay k v).shipping = s.shipping := rfl
@[simp] theorem State.setRelay_ports : (s.setRelay k v).ports = s.ports := rfl
@[simp] theorem State.setRelay_subs : (s.setRelay k v).subs = s.subs := rfl
@[simp] theorem State.setRelay_stops : (s.setRelay k v).stops = s.stops := rfl
@[simp] theorem State.setRelay_parts : (s.setRelay k v).parts = s.parts := rfl
@[simp] theorem State.setRelay_taken : (s.setRelay k v).taken = s.taken := rfl
@[simp] theorem State.setRelay_waiting : (s.setRelay k v).waiting = s.waiting := rfl
@[simp] theorem State.setRelay_ringFull : (s.setRelay k v).ringFull = s.ringFull := rfl
@[simp] theorem State.setRelay_turn : (s.setRelay k v).turn = s.turn := rfl
@[simp] theorem State.setRelay_lease : (s.setRelay k v).lease = s.lease := rfl
@[simp] theorem State.setRelay_cores : (s.setRelay k v).cores = s.cores := rfl
@[simp] theorem State.setRelay_hwbuf : (s.setRelay k v).hwbuf = s.hwbuf := rfl
@[simp] theorem State.setRelay_ring : (s.setRelay k v).ring = s.ring := rfl
@[simp] theorem State.setRelay_log : (s.setRelay k v).log = s.log := rfl
@[simp] theorem State.setRelay_slotA : (s.setRelay k v).slotA = s.slotA := rfl
@[simp] theorem State.setRelay_slotB : (s.setRelay k v).slotB = s.slotB := rfl
@[simp] theorem State.setRelay_flash : (s.setRelay k v).flash = s.flash := rfl
@[simp] theorem State.setRelay_saved : (s.setRelay k v).saved = s.saved := rfl
@[simp] theorem State.setRelay_sec : (s.setRelay k v).sec = s.sec := rfl
@[simp] theorem State.setRelay_boot : (s.setRelay k v).boot = s.boot := rfl
@[simp] theorem State.setRelay_floor : (s.setRelay k v).floor = s.floor := rfl
@[simp] theorem State.setRelay_findings : (s.setRelay k v).findings = s.findings := rfl
@[simp] theorem State.setRelay_mc : (s.setRelay k v).mc = s.mc := rfl
@[simp] theorem State.setRelay_move : (s.setRelay k v).move = s.move := rfl
@[simp] theorem State.setRelay_onTick : (s.setRelay k v).onTick = s.onTick := rfl
@[simp] theorem State.setRelay_otherSlot : (s.setRelay k v).otherSlot = s.otherSlot := rfl
@[simp] theorem State.setRelay_power : (s.setRelay k v).power = s.power := rfl
@[simp] theorem State.setRelay_fuses : (s.setRelay k v).fuses = s.fuses := rfl
@[simp] theorem State.setRelay_w1s : (s.setRelay k v).w1s = s.w1s := rfl
@[simp] theorem State.setRelay_trace : (s.setRelay k v).trace = s.trace := rfl
@[simp] theorem State.setRelay_traceBufs : (s.setRelay k v).traceBufs = s.traceBufs := rfl
@[simp] theorem State.setRelay_mirrored : (s.setRelay k v).mirrored = s.mirrored := rfl
@[simp] theorem State.obj_setRelay (x y z : Nat) : (s.setRelay k v).obj x y z = s.obj x y z := rfl
@[simp] theorem State.blob_setRelay (x y z : Nat) : (s.setRelay k v).blob x y z = s.blob x y z := rfl
@[simp] theorem State.count_setRelay (x y z : Nat) : (s.setRelay k v).count x y z = s.count x y z := rfl
@[simp] theorem State.region_setRelay (x : Nat) : (s.setRelay k v).region x = s.region x := rfl
@[simp] theorem State.tile_setRelay (x : Nat) : (s.setRelay k v).tile x = s.tile x := rfl
@[simp] theorem State.router_setRelay (x : Nat) : (s.setRelay k v).router x = s.router x := rfl
@[simp] theorem State.engine_setRelay (x : Nat) : (s.setRelay k v).engine x = s.engine x := rfl
@[simp] theorem State.port_setRelay (x : Nat) : (s.setRelay k v).port x = s.port x := rfl
@[simp] theorem State.sub_setRelay (x y : Nat) : (s.setRelay k v).sub x y = s.sub x y := rfl
@[simp] theorem State.part_setRelay (x : Nat) : (s.setRelay k v).part x = s.part x := rfl
@[simp] theorem State.core_setRelay (x : Nat) : (s.setRelay k v).core x = s.core x := rfl
@[simp] theorem State.mem_setRelay (m : MemUnit) : (s.setRelay k v).mem m = s.mem m := rfl
@[simp] theorem State.peek_setRelay (m : MemUnit) (a : Nat) : (s.setRelay k v).peek m a = s.peek m a := rfl
end
section
variable (s : State) (k : Nat) (v : Part)
@[simp] theorem State.setPart_pending : (s.setPart k v).pending = s.pending := rfl
@[simp] theorem State.setPart_now : (s.setPart k v).now = s.now := rfl
@[simp] theorem State.setPart_free : (s.setPart k v).free = s.free := rfl
@[simp] theorem State.setPart_recent : (s.setPart k v).recent = s.recent := rfl
@[simp] theorem State.setPart_dict : (s.setPart k v).dict = s.dict := rfl
@[simp] theorem State.setPart_blobs : (s.setPart k v).blobs = s.blobs := rfl
@[simp] theorem State.setPart_live : (s.setPart k v).live = s.live := rfl
@[simp] theorem State.setPart_latched : (s.setPart k v).latched = s.latched := rfl
@[simp] theorem State.setPart_latching : (s.setPart k v).latching = s.latching := rfl
@[simp] theorem State.setPart_edges : (s.setPart k v).edges = s.edges := rfl
@[simp] theorem State.setPart_missed : (s.setPart k v).missed = s.missed := rfl
@[simp] theorem State.setPart_tables : (s.setPart k v).tables = s.tables := rfl
@[simp] theorem State.setPart_replies : (s.setPart k v).replies = s.replies := rfl
@[simp] theorem State.setPart_opens : (s.setPart k v).opens = s.opens := rfl
@[simp] theorem State.setPart_segments : (s.setPart k v).segments = s.segments := rfl
@[simp] theorem State.setPart_reads : (s.setPart k v).reads = s.reads := rfl
@[simp] theorem State.setPart_ecat : (s.setPart k v).ecat = s.ecat := rfl
@[simp] theorem State.setPart_txpdo : (s.setPart k v).txpdo = s.txpdo := rfl
@[simp] theorem State.setPart_alCode : (s.setPart k v).alCode = s.alCode := rfl
@[simp] theorem State.setPart_mbxErrors : (s.setPart k v).mbxErrors = s.mbxErrors := rfl
@[simp] theorem State.setPart_mems : (s.setPart k v).mems = s.mems := rfl
@[simp] theorem State.setPart_tiles : (s.setPart k v).tiles = s.tiles := rfl
@[simp] theorem State.setPart_routers : (s.setPart k v).routers = s.routers := rfl
@[simp] theorem State.setPart_avoid : (s.setPart k v).avoid = s.avoid := rfl
@[simp] theorem State.setPart_tablesOn : (s.setPart k v).tablesOn = s.tablesOn := rfl
@[simp] theorem State.setPart_regions : (s.setPart k v).regions = s.regions := rfl
@[simp] theorem State.setPart_passes : (s.setPart k v).passes = s.passes := rfl
@[simp] theorem State.setPart_chPasses : (s.setPart k v).chPasses = s.chPasses := rfl
@[simp] theorem State.setPart_engines : (s.setPart k v).engines = s.engines := rfl
@[simp] theorem State.setPart_acts : (s.setPart k v).acts = s.acts := rfl
@[simp] theorem State.setPart_holdCmd : (s.setPart k v).holdCmd = s.holdCmd := rfl
@[simp] theorem State.setPart_shipping : (s.setPart k v).shipping = s.shipping := rfl
@[simp] theorem State.setPart_ports : (s.setPart k v).ports = s.ports := rfl
@[simp] theorem State.setPart_subs : (s.setPart k v).subs = s.subs := rfl
@[simp] theorem State.setPart_stops : (s.setPart k v).stops = s.stops := rfl
@[simp] theorem State.setPart_relays : (s.setPart k v).relays = s.relays := rfl
@[simp] theorem State.setPart_taken : (s.setPart k v).taken = s.taken := rfl
@[simp] theorem State.setPart_waiting : (s.setPart k v).waiting = s.waiting := rfl
@[simp] theorem State.setPart_ringFull : (s.setPart k v).ringFull = s.ringFull := rfl
@[simp] theorem State.setPart_turn : (s.setPart k v).turn = s.turn := rfl
@[simp] theorem State.setPart_lease : (s.setPart k v).lease = s.lease := rfl
@[simp] theorem State.setPart_cores : (s.setPart k v).cores = s.cores := rfl
@[simp] theorem State.setPart_hwbuf : (s.setPart k v).hwbuf = s.hwbuf := rfl
@[simp] theorem State.setPart_ring : (s.setPart k v).ring = s.ring := rfl
@[simp] theorem State.setPart_log : (s.setPart k v).log = s.log := rfl
@[simp] theorem State.setPart_slotA : (s.setPart k v).slotA = s.slotA := rfl
@[simp] theorem State.setPart_slotB : (s.setPart k v).slotB = s.slotB := rfl
@[simp] theorem State.setPart_flash : (s.setPart k v).flash = s.flash := rfl
@[simp] theorem State.setPart_saved : (s.setPart k v).saved = s.saved := rfl
@[simp] theorem State.setPart_sec : (s.setPart k v).sec = s.sec := rfl
@[simp] theorem State.setPart_boot : (s.setPart k v).boot = s.boot := rfl
@[simp] theorem State.setPart_floor : (s.setPart k v).floor = s.floor := rfl
@[simp] theorem State.setPart_findings : (s.setPart k v).findings = s.findings := rfl
@[simp] theorem State.setPart_mc : (s.setPart k v).mc = s.mc := rfl
@[simp] theorem State.setPart_move : (s.setPart k v).move = s.move := rfl
@[simp] theorem State.setPart_onTick : (s.setPart k v).onTick = s.onTick := rfl
@[simp] theorem State.setPart_otherSlot : (s.setPart k v).otherSlot = s.otherSlot := rfl
@[simp] theorem State.setPart_power : (s.setPart k v).power = s.power := rfl
@[simp] theorem State.setPart_fuses : (s.setPart k v).fuses = s.fuses := rfl
@[simp] theorem State.setPart_w1s : (s.setPart k v).w1s = s.w1s := rfl
@[simp] theorem State.setPart_trace : (s.setPart k v).trace = s.trace := rfl
@[simp] theorem State.setPart_traceBufs : (s.setPart k v).traceBufs = s.traceBufs := rfl
@[simp] theorem State.setPart_mirrored : (s.setPart k v).mirrored = s.mirrored := rfl
@[simp] theorem State.obj_setPart (x y z : Nat) : (s.setPart k v).obj x y z = s.obj x y z := rfl
@[simp] theorem State.blob_setPart (x y z : Nat) : (s.setPart k v).blob x y z = s.blob x y z := rfl
@[simp] theorem State.count_setPart (x y z : Nat) : (s.setPart k v).count x y z = s.count x y z := rfl
@[simp] theorem State.region_setPart (x : Nat) : (s.setPart k v).region x = s.region x := rfl
@[simp] theorem State.tile_setPart (x : Nat) : (s.setPart k v).tile x = s.tile x := rfl
@[simp] theorem State.router_setPart (x : Nat) : (s.setPart k v).router x = s.router x := rfl
@[simp] theorem State.engine_setPart (x : Nat) : (s.setPart k v).engine x = s.engine x := rfl
@[simp] theorem State.port_setPart (x : Nat) : (s.setPart k v).port x = s.port x := rfl
@[simp] theorem State.sub_setPart (x y : Nat) : (s.setPart k v).sub x y = s.sub x y := rfl
@[simp] theorem State.relay_setPart (x : Nat) : (s.setPart k v).relay x = s.relay x := rfl
@[simp] theorem State.core_setPart (x : Nat) : (s.setPart k v).core x = s.core x := rfl
@[simp] theorem State.mem_setPart (m : MemUnit) : (s.setPart k v).mem m = s.mem m := rfl
@[simp] theorem State.peek_setPart (m : MemUnit) (a : Nat) : (s.setPart k v).peek m a = s.peek m a := rfl
end
section
variable (s : State) (k : Nat) (v : Core)
@[simp] theorem State.setCore_pending : (s.setCore k v).pending = s.pending := rfl
@[simp] theorem State.setCore_now : (s.setCore k v).now = s.now := rfl
@[simp] theorem State.setCore_free : (s.setCore k v).free = s.free := rfl
@[simp] theorem State.setCore_recent : (s.setCore k v).recent = s.recent := rfl
@[simp] theorem State.setCore_dict : (s.setCore k v).dict = s.dict := rfl
@[simp] theorem State.setCore_blobs : (s.setCore k v).blobs = s.blobs := rfl
@[simp] theorem State.setCore_live : (s.setCore k v).live = s.live := rfl
@[simp] theorem State.setCore_latched : (s.setCore k v).latched = s.latched := rfl
@[simp] theorem State.setCore_latching : (s.setCore k v).latching = s.latching := rfl
@[simp] theorem State.setCore_edges : (s.setCore k v).edges = s.edges := rfl
@[simp] theorem State.setCore_missed : (s.setCore k v).missed = s.missed := rfl
@[simp] theorem State.setCore_tables : (s.setCore k v).tables = s.tables := rfl
@[simp] theorem State.setCore_replies : (s.setCore k v).replies = s.replies := rfl
@[simp] theorem State.setCore_opens : (s.setCore k v).opens = s.opens := rfl
@[simp] theorem State.setCore_segments : (s.setCore k v).segments = s.segments := rfl
@[simp] theorem State.setCore_reads : (s.setCore k v).reads = s.reads := rfl
@[simp] theorem State.setCore_ecat : (s.setCore k v).ecat = s.ecat := rfl
@[simp] theorem State.setCore_txpdo : (s.setCore k v).txpdo = s.txpdo := rfl
@[simp] theorem State.setCore_alCode : (s.setCore k v).alCode = s.alCode := rfl
@[simp] theorem State.setCore_mbxErrors : (s.setCore k v).mbxErrors = s.mbxErrors := rfl
@[simp] theorem State.setCore_mems : (s.setCore k v).mems = s.mems := rfl
@[simp] theorem State.setCore_tiles : (s.setCore k v).tiles = s.tiles := rfl
@[simp] theorem State.setCore_routers : (s.setCore k v).routers = s.routers := rfl
@[simp] theorem State.setCore_avoid : (s.setCore k v).avoid = s.avoid := rfl
@[simp] theorem State.setCore_tablesOn : (s.setCore k v).tablesOn = s.tablesOn := rfl
@[simp] theorem State.setCore_regions : (s.setCore k v).regions = s.regions := rfl
@[simp] theorem State.setCore_passes : (s.setCore k v).passes = s.passes := rfl
@[simp] theorem State.setCore_chPasses : (s.setCore k v).chPasses = s.chPasses := rfl
@[simp] theorem State.setCore_engines : (s.setCore k v).engines = s.engines := rfl
@[simp] theorem State.setCore_acts : (s.setCore k v).acts = s.acts := rfl
@[simp] theorem State.setCore_holdCmd : (s.setCore k v).holdCmd = s.holdCmd := rfl
@[simp] theorem State.setCore_shipping : (s.setCore k v).shipping = s.shipping := rfl
@[simp] theorem State.setCore_ports : (s.setCore k v).ports = s.ports := rfl
@[simp] theorem State.setCore_subs : (s.setCore k v).subs = s.subs := rfl
@[simp] theorem State.setCore_stops : (s.setCore k v).stops = s.stops := rfl
@[simp] theorem State.setCore_relays : (s.setCore k v).relays = s.relays := rfl
@[simp] theorem State.setCore_parts : (s.setCore k v).parts = s.parts := rfl
@[simp] theorem State.setCore_taken : (s.setCore k v).taken = s.taken := rfl
@[simp] theorem State.setCore_waiting : (s.setCore k v).waiting = s.waiting := rfl
@[simp] theorem State.setCore_ringFull : (s.setCore k v).ringFull = s.ringFull := rfl
@[simp] theorem State.setCore_turn : (s.setCore k v).turn = s.turn := rfl
@[simp] theorem State.setCore_lease : (s.setCore k v).lease = s.lease := rfl
@[simp] theorem State.setCore_hwbuf : (s.setCore k v).hwbuf = s.hwbuf := rfl
@[simp] theorem State.setCore_ring : (s.setCore k v).ring = s.ring := rfl
@[simp] theorem State.setCore_log : (s.setCore k v).log = s.log := rfl
@[simp] theorem State.setCore_slotA : (s.setCore k v).slotA = s.slotA := rfl
@[simp] theorem State.setCore_slotB : (s.setCore k v).slotB = s.slotB := rfl
@[simp] theorem State.setCore_flash : (s.setCore k v).flash = s.flash := rfl
@[simp] theorem State.setCore_saved : (s.setCore k v).saved = s.saved := rfl
@[simp] theorem State.setCore_sec : (s.setCore k v).sec = s.sec := rfl
@[simp] theorem State.setCore_boot : (s.setCore k v).boot = s.boot := rfl
@[simp] theorem State.setCore_floor : (s.setCore k v).floor = s.floor := rfl
@[simp] theorem State.setCore_findings : (s.setCore k v).findings = s.findings := rfl
@[simp] theorem State.setCore_mc : (s.setCore k v).mc = s.mc := rfl
@[simp] theorem State.setCore_move : (s.setCore k v).move = s.move := rfl
@[simp] theorem State.setCore_onTick : (s.setCore k v).onTick = s.onTick := rfl
@[simp] theorem State.setCore_otherSlot : (s.setCore k v).otherSlot = s.otherSlot := rfl
@[simp] theorem State.setCore_power : (s.setCore k v).power = s.power := rfl
@[simp] theorem State.setCore_fuses : (s.setCore k v).fuses = s.fuses := rfl
@[simp] theorem State.setCore_w1s : (s.setCore k v).w1s = s.w1s := rfl
@[simp] theorem State.setCore_trace : (s.setCore k v).trace = s.trace := rfl
@[simp] theorem State.setCore_traceBufs : (s.setCore k v).traceBufs = s.traceBufs := rfl
@[simp] theorem State.setCore_mirrored : (s.setCore k v).mirrored = s.mirrored := rfl
@[simp] theorem State.obj_setCore (x y z : Nat) : (s.setCore k v).obj x y z = s.obj x y z := rfl
@[simp] theorem State.blob_setCore (x y z : Nat) : (s.setCore k v).blob x y z = s.blob x y z := rfl
@[simp] theorem State.count_setCore (x y z : Nat) : (s.setCore k v).count x y z = s.count x y z := rfl
@[simp] theorem State.region_setCore (x : Nat) : (s.setCore k v).region x = s.region x := rfl
@[simp] theorem State.tile_setCore (x : Nat) : (s.setCore k v).tile x = s.tile x := rfl
@[simp] theorem State.router_setCore (x : Nat) : (s.setCore k v).router x = s.router x := rfl
@[simp] theorem State.engine_setCore (x : Nat) : (s.setCore k v).engine x = s.engine x := rfl
@[simp] theorem State.port_setCore (x : Nat) : (s.setCore k v).port x = s.port x := rfl
@[simp] theorem State.sub_setCore (x y : Nat) : (s.setCore k v).sub x y = s.sub x y := rfl
@[simp] theorem State.relay_setCore (x : Nat) : (s.setCore k v).relay x = s.relay x := rfl
@[simp] theorem State.part_setCore (x : Nat) : (s.setCore k v).part x = s.part x := rfl
@[simp] theorem State.mem_setCore (m : MemUnit) : (s.setCore k v).mem m = s.mem m := rfl
@[simp] theorem State.peek_setCore (m : MemUnit) (a : Nat) : (s.setCore k v).peek m a = s.peek m a := rfl
end
section
variable (s : State) (k : MemUnit) (v : Mem)
@[simp] theorem State.setMem_pending : (s.setMem k v).pending = s.pending := rfl
@[simp] theorem State.setMem_now : (s.setMem k v).now = s.now := rfl
@[simp] theorem State.setMem_free : (s.setMem k v).free = s.free := rfl
@[simp] theorem State.setMem_recent : (s.setMem k v).recent = s.recent := rfl
@[simp] theorem State.setMem_dict : (s.setMem k v).dict = s.dict := rfl
@[simp] theorem State.setMem_blobs : (s.setMem k v).blobs = s.blobs := rfl
@[simp] theorem State.setMem_live : (s.setMem k v).live = s.live := rfl
@[simp] theorem State.setMem_latched : (s.setMem k v).latched = s.latched := rfl
@[simp] theorem State.setMem_latching : (s.setMem k v).latching = s.latching := rfl
@[simp] theorem State.setMem_edges : (s.setMem k v).edges = s.edges := rfl
@[simp] theorem State.setMem_missed : (s.setMem k v).missed = s.missed := rfl
@[simp] theorem State.setMem_tables : (s.setMem k v).tables = s.tables := rfl
@[simp] theorem State.setMem_replies : (s.setMem k v).replies = s.replies := rfl
@[simp] theorem State.setMem_opens : (s.setMem k v).opens = s.opens := rfl
@[simp] theorem State.setMem_segments : (s.setMem k v).segments = s.segments := rfl
@[simp] theorem State.setMem_reads : (s.setMem k v).reads = s.reads := rfl
@[simp] theorem State.setMem_ecat : (s.setMem k v).ecat = s.ecat := rfl
@[simp] theorem State.setMem_txpdo : (s.setMem k v).txpdo = s.txpdo := rfl
@[simp] theorem State.setMem_alCode : (s.setMem k v).alCode = s.alCode := rfl
@[simp] theorem State.setMem_mbxErrors : (s.setMem k v).mbxErrors = s.mbxErrors := rfl
@[simp] theorem State.setMem_tiles : (s.setMem k v).tiles = s.tiles := rfl
@[simp] theorem State.setMem_routers : (s.setMem k v).routers = s.routers := rfl
@[simp] theorem State.setMem_avoid : (s.setMem k v).avoid = s.avoid := rfl
@[simp] theorem State.setMem_tablesOn : (s.setMem k v).tablesOn = s.tablesOn := rfl
@[simp] theorem State.setMem_regions : (s.setMem k v).regions = s.regions := rfl
@[simp] theorem State.setMem_passes : (s.setMem k v).passes = s.passes := rfl
@[simp] theorem State.setMem_chPasses : (s.setMem k v).chPasses = s.chPasses := rfl
@[simp] theorem State.setMem_engines : (s.setMem k v).engines = s.engines := rfl
@[simp] theorem State.setMem_acts : (s.setMem k v).acts = s.acts := rfl
@[simp] theorem State.setMem_holdCmd : (s.setMem k v).holdCmd = s.holdCmd := rfl
@[simp] theorem State.setMem_shipping : (s.setMem k v).shipping = s.shipping := rfl
@[simp] theorem State.setMem_ports : (s.setMem k v).ports = s.ports := rfl
@[simp] theorem State.setMem_subs : (s.setMem k v).subs = s.subs := rfl
@[simp] theorem State.setMem_stops : (s.setMem k v).stops = s.stops := rfl
@[simp] theorem State.setMem_relays : (s.setMem k v).relays = s.relays := rfl
@[simp] theorem State.setMem_parts : (s.setMem k v).parts = s.parts := rfl
@[simp] theorem State.setMem_taken : (s.setMem k v).taken = s.taken := rfl
@[simp] theorem State.setMem_waiting : (s.setMem k v).waiting = s.waiting := rfl
@[simp] theorem State.setMem_ringFull : (s.setMem k v).ringFull = s.ringFull := rfl
@[simp] theorem State.setMem_turn : (s.setMem k v).turn = s.turn := rfl
@[simp] theorem State.setMem_lease : (s.setMem k v).lease = s.lease := rfl
@[simp] theorem State.setMem_cores : (s.setMem k v).cores = s.cores := rfl
@[simp] theorem State.setMem_hwbuf : (s.setMem k v).hwbuf = s.hwbuf := rfl
@[simp] theorem State.setMem_ring : (s.setMem k v).ring = s.ring := rfl
@[simp] theorem State.setMem_log : (s.setMem k v).log = s.log := rfl
@[simp] theorem State.setMem_slotA : (s.setMem k v).slotA = s.slotA := rfl
@[simp] theorem State.setMem_slotB : (s.setMem k v).slotB = s.slotB := rfl
@[simp] theorem State.setMem_flash : (s.setMem k v).flash = s.flash := rfl
@[simp] theorem State.setMem_saved : (s.setMem k v).saved = s.saved := rfl
@[simp] theorem State.setMem_sec : (s.setMem k v).sec = s.sec := rfl
@[simp] theorem State.setMem_boot : (s.setMem k v).boot = s.boot := rfl
@[simp] theorem State.setMem_floor : (s.setMem k v).floor = s.floor := rfl
@[simp] theorem State.setMem_findings : (s.setMem k v).findings = s.findings := rfl
@[simp] theorem State.setMem_mc : (s.setMem k v).mc = s.mc := rfl
@[simp] theorem State.setMem_move : (s.setMem k v).move = s.move := rfl
@[simp] theorem State.setMem_onTick : (s.setMem k v).onTick = s.onTick := rfl
@[simp] theorem State.setMem_otherSlot : (s.setMem k v).otherSlot = s.otherSlot := rfl
@[simp] theorem State.setMem_power : (s.setMem k v).power = s.power := rfl
@[simp] theorem State.setMem_fuses : (s.setMem k v).fuses = s.fuses := rfl
@[simp] theorem State.setMem_w1s : (s.setMem k v).w1s = s.w1s := rfl
@[simp] theorem State.setMem_trace : (s.setMem k v).trace = s.trace := rfl
@[simp] theorem State.setMem_traceBufs : (s.setMem k v).traceBufs = s.traceBufs := rfl
@[simp] theorem State.setMem_mirrored : (s.setMem k v).mirrored = s.mirrored := rfl
@[simp] theorem State.obj_setMem (x y z : Nat) : (s.setMem k v).obj x y z = s.obj x y z := rfl
@[simp] theorem State.blob_setMem (x y z : Nat) : (s.setMem k v).blob x y z = s.blob x y z := rfl
@[simp] theorem State.count_setMem (x y z : Nat) : (s.setMem k v).count x y z = s.count x y z := rfl
@[simp] theorem State.region_setMem (x : Nat) : (s.setMem k v).region x = s.region x := rfl
@[simp] theorem State.tile_setMem (x : Nat) : (s.setMem k v).tile x = s.tile x := rfl
@[simp] theorem State.router_setMem (x : Nat) : (s.setMem k v).router x = s.router x := rfl
@[simp] theorem State.engine_setMem (x : Nat) : (s.setMem k v).engine x = s.engine x := rfl
@[simp] theorem State.port_setMem (x : Nat) : (s.setMem k v).port x = s.port x := rfl
@[simp] theorem State.sub_setMem (x y : Nat) : (s.setMem k v).sub x y = s.sub x y := rfl
@[simp] theorem State.relay_setMem (x : Nat) : (s.setMem k v).relay x = s.relay x := rfl
@[simp] theorem State.part_setMem (x : Nat) : (s.setMem k v).part x = s.part x := rfl
@[simp] theorem State.core_setMem (x : Nat) : (s.setMem k v).core x = s.core x := rfl
end

end Sys2Proof.Machine
end

