-- ==== Sys2Proof/Laws/Tile.lean ====
section
/-! SUPPORT. What the shared operations of a tile do: issue, the next instruction, operations in progress and vector
results. -/
namespace Sys2Proof.Machine

/-! Every command ends in a next state with the ring and the log trimmed. -/

@[simp] theorem done_next (s : State) : done s = .next { s with ring := s.ring.take 4096, log := s.log.take 65536 } := rfl

theorem done_bounded {s : State} (h : s.bounded) : done s = .next s := by
  obtain ⟨h1, h2⟩ := h
  simp [done, List.take_of_length_le h1, List.take_of_length_le h2]

theorem bounded_congr {s u : State} (h : s.bounded) (h1 : u.ring = s.ring) (h2 : u.log = s.log) : u.bounded := by
  simpa [State.bounded, h1, h2] using h

/-- What an issue does: the context begins, its operation runs, and one that could not issue costs no issue cycle. -/
theorem issue_eq {s : State} {t c k h m} (hm : s.issues t c k h m) (f : State → State) :
    s.issue t c k h m f = (f (s.begin t c)).unissue s t.val c.val := by
  obtain ⟨h1, h2, h3, h4, -⟩ := hm
  simp only [State.issue, h1, Bool.not_true, Bool.false_eq_true, if_false]
  split
  · rename_i w hw
    have hn := h4 w hw
    have hw2 : wordOp w = k ∧ wordHdr w = h := by
      simp only [wordNames, Bool.and_eq_true, decide_eq_true_eq] at hn
      exact hn.1
    simp [wordOk, hw2.1, hw2.2, h2, h3, hn]
  · simp [h3]

/-- An operation whose context does not wait has taken its issue cycle. -/
theorem unissue_of_ready {s : State} {s0 : State} {t c : Nat} (h : ((s.tile t).ctx c).run = .ready) :
    s.unissue s0 t c = s := by
  simp [State.unissue, h]

/-- Who issued last, and when, after an issue. -/
theorem mayIssue_ready {s : State} {t c : Nat} (h : s.mayIssue t c = true) : s.ready t c = true := by
  simp only [State.mayIssue, Bool.and_eq_true, decide_eq_true_eq] at h
  have := List.find?_some h.1.2
  simp only [Bool.and_eq_true] at this
  exact this.1

theorem mfind_map {α : Type} (g : Nat → α → α) (m : Map α) (j : Nat) :
    mfind j (m.map (fun y => (y.1, g y.1 y.2))) = (mfind j m).map (g j) := by
  induction m with
  | nil => rfl
  | cons a r ih =>
    obtain ⟨i, w⟩ := a
    by_cases e : i = j
    · subst e; simp [mfind]
    · simp [mfind, e, ih]

theorem begin_tile (s : State) (t : TileId) (c : CtxId) :
    (s.begin t c).tile t.val = { s.issuedTile t c with ctxs := ((s.begin t c).tile t.val).ctxs } := by
  simp [State.begin, State.issuedTile]

theorem begin_only (s : State) (t : TileId) (c : CtxId) : OnlyTile t s (s.begin t c) :=
  ⟨rfl, fun j hj => by simp [State.begin, State.tile_setTile, hj]⟩

theorem begin_ctx_eq (s : State) (t : TileId) (c : CtxId) (j : Nat) :
    ((s.begin t c).tile t.val).ctx j = ((mfind j (s.tile t.val).ctxs).map (fun z : Ctx =>
      if j = c.val then { z with run := .ready }
      else if ((s.tile t.val).turns.takeWhile (· != c.val)).contains j then { z with yielded := false } else z)).getD {} := by
  simp only [State.begin, State.modTile_eq, State.tile_setTile_same, Tile.ctx, mget]
  rw [mfind_map (fun (k : Nat) (z : Ctx) => if k = c.val then { z with run := .ready }
    else if ((s.tile t.val).turns.takeWhile (· != c.val)).contains k then { z with yielded := false } else z)]

theorem begin_ctx {s : State} {t : TileId} {c : CtxId} (hc : s.ready t.val c.val = true) :
    ((s.begin t c).tile t.val).ctx c.val = { (s.tile t.val).ctx c.val with run := .ready } := by
  rw [begin_ctx_eq]
  simp only [State.ready, Tile.ctx, mget] at hc ⊢
  cases hf : mfind c.val (s.tile t.val).ctxs with
  | none => simp [hf] at hc
  | some z => simp

theorem begin_other (s : State) (t : TileId) (c : CtxId) : OthersKeep t c s (s.begin t c) := by
  intro j hj
  rw [begin_ctx_eq]
  simp only [Tile.ctx, mget]
  cases mfind j (s.tile t.val).ctxs with
  | none => simp
  | some z => simp only [Option.map_some, Option.getD_some, hj, if_false]; split <;> simp_all

/-- An issue changes no operation of the tile, and so not whether the vector unit is ready (R105, R123). -/
theorem begin_engaged (s : State) (t : TileId) (c : CtxId) :
    ((s.begin t c).tile t.val).engaged c.val .vector = (s.tile t.val).engaged c.val .vector := by
  rw [begin_tile]; rfl

theorem putLanes_frame (y : Ctx) (v : Nat) (ls : List Nat) (g : Nat → Num) :
    y.putLanes v ls g = { y with v := (y.putLanes v ls g).v } := by
  unfold Ctx.putLanes
  generalize ls.map (fun l => (l, g l)) = xs
  induction xs generalizing y with
  | nil => rfl
  | cons a r ih => simp only [List.foldl_cons]; rw [ih]; rfl

theorem foldl_setVal_lane (v : Nat) (xs : List (Nat × Num)) (y : Ctx) (w j : Nat) (hl : ∀ x ∈ xs, x.1 < 64) (hj : j < 64) :
    (xs.foldl (fun c x => c.setVal v x.1 x.2) y).lane w j
      = if w = v then ((xs.reverse.find? (fun x => x.1 = j)).map (fun x => Fmt.w40.encode .nearestEven x.2)).getD (y.lane w j) else y.lane w j := by
  induction xs generalizing y with
  | nil => simp
  | cons a r ih =>
    have ha : a.1 < 64 := hl a (by simp)
    simp only [List.foldl_cons]
    rw [ih _ (fun x hx => hl x (by simp [hx]))]
    simp only [Ctx.setVal, Ctx.lane_setLane]
    by_cases hw : w = v
    · subst hw
      by_cases e : a.1 = j
      · subst e; simp [List.find?_append]
      · have : ¬ (j = a.1) := fun h => e h.symm
        simp [this, List.find?_append, e]
    · have : ¬ (w * 64 + j = v * 64 + a.1) := by omega
      simp [hw, this]

theorem elementwise_lane (y : Ctx) (d : Nat) (g : Nat → Num) (w j : Nat) (hj : j < 64) :
    (y.elementwise d g).lane w j = if w = d then Fmt.w40.encode .nearestEven (g j) else y.lane w j := by
  unfold Ctx.elementwise Ctx.putLanes
  rw [foldl_setVal_lane _ _ _ _ _ (by simp [lanes]) hj]
  split
  · have : ((lanes.map (fun l => (l, g l))).reverse.find? (fun x => decide (x.1 = j))) = some (j, g j) := by
      have h1 : (lanes.map (fun l => (l, g l))).reverse = (lanes.reverse.map (fun l => (l, g l))) := by simp
      rw [h1, List.find?_map]
      have : (lanes.reverse.find? ((fun x : Nat × Num => decide (x.1 = j)) ∘ fun l => (l, g l))) = some j := by
        have : (fun x : Nat × Num => decide (x.1 = j)) ∘ (fun l => (l, g l)) = fun l => decide (l = j) := rfl
        rw [this]
        have := (List.find?_eq_some_iff_append (xs := lanes.reverse) (p := fun l => decide (l = j)) (b := j)).2
        interval_cases j <;> decide
      rw [this]; rfl
    rw [this]; rfl
  · rfl

theorem advance_ok {s : State} {t c : Nat} (h : ((s.tile t).ctx c).pc < 8191) :
    s.advance t c = s.setTile t ((s.tile t).setCtx c { (s.tile t).ctx c with pc := ((s.tile t).ctx c).pc + 1 }) := by
  simp [State.advance, h]

@[simp] theorem setTile_setTile_tile (s : State) (k : Nat) (v w : Tile) (j : Nat) :
    ((s.setTile k v).setTile k w).tile j = (s.setTile k w).tile j := by
  simp [State.tile_setTile]; split <;> rfl

theorem addOp_tile (s : State) (t : Nat) (c : CtxId) (k : OpKind) (sig : Option (Fin 64)) :
    (s.addOp t c k sig).tile t = { s.tile t with
      ops := (s.tile t).ops ++ [{ id := (s.tile t).nextId, ctx := c, kind := k, sig := sig }],
      nextId := (s.tile t).nextId + 1 } := by
  simp only [State.addOp, State.modTile_eq, State.tile_setTile_same]

@[simp] theorem addOp_ctx (s : State) (t : Nat) (c : CtxId) (k : OpKind) (sig : Option (Fin 64)) (j : Nat) :
    ((s.addOp t c k sig).tile t).ctx j = (s.tile t).ctx j := by
  rw [addOp_tile]; rfl

theorem only_refl (t : TileId) (s : State) : OnlyTile t s s := ⟨rfl, fun _ _ => rfl⟩

theorem only_setTile {t : TileId} {s u : State} (h : OnlyTile t s u) (x : Tile) : OnlyTile t s (u.setTile t.val x) := by
  refine ⟨?_, fun j hj => by rw [State.tile_setTile_ne _ hj, h.2 j hj]⟩
  rw [h.1]; rfl

theorem only_modTile {t : TileId} {s u : State} (h : OnlyTile t s u) (f : Tile → Tile) : OnlyTile t s (u.modTile t.val f) :=
  only_setTile h _

theorem only_addOp {t : TileId} {s u : State} (h : OnlyTile t s u) (c : CtxId) (k : OpKind) (sig : Option (Fin 64)) :
    OnlyTile t s (u.addOp t.val c k sig) := only_setTile h _

theorem only_bounded {t : TileId} {s u : State} (hb : s.bounded) (h : OnlyTile t s u) : u.bounded := by
  rw [h.1]; exact hb

/-- A vector operation on registers, with the vector unit free: it runs, and only its context's registers change. -/
theorem vec_spec {s : State} {t c h} {k : Nat} (hb : s.bounded) (hm : s.issues t c (1, k) h noLow)
    (hv : (s.tile t.val).engaged c.val .vector = false) (f : Ctx → Ctx) (hf : ∀ y, f y = { y with v := (f y).v }) :
    (done (s.vec t c k h f)) = .next (s.vec t c k h f) ∧
    VectorRan s (s.vec t c k h f) t c h (f { (s.tile t.val).ctx c.val with run := .ready }) := by
  have hc := begin_ctx (s := s) (t := t) (mayIssue_ready hm.1)
  have hkv := begin_engaged s t c
  have ho := begin_only s t c
  have hk := begin_other s t c
  have hbt := begin_tile s t c
  have hpc := hm.2.2.2.2
  rw [State.vec, issue_eq hm]
  generalize s.begin t c = w at *
  have hpc2 : (f ((w.tile t.val).ctx c.val)).pc = ((s.tile t.val).ctx c.val).pc := by rw [hf, hc]
  have hr : (f ((w.tile t.val).ctx c.val)).run = .ready := by rw [hf, hc]
  simp only [State.onVector, hkv, hv, Bool.false_eq_true, if_false]
  rw [advance_ok (by simp [hpc2, hpc]), unissue_of_ready (by simp [hr])]
  refine ⟨done_bounded (only_bounded hb (only_setTile (only_addOp (only_modTile ho _) _ _ _) _)),
    only_setTile (only_addOp (only_modTile ho _) _ _ _) _, ?_, ?_, ?_⟩
  · intro j hj
    simp [Tile.ctx_setCtx, hj, hk j hj]
  · simp only [State.tile_setTile_same, Tile.setCtx]
    rw [addOp_tile]
    simp only [State.modCtx_eq, State.tile_setTile_same, Tile.setCtx]
    rw [hbt]; rfl
  · simp only [State.tile_setTile_same, Tile.ctx_setCtx_same, addOp_ctx, State.modCtx_eq]
    rw [hpc2, ← hc, hf]
    simp [hc]

/-- WroteLanes from an elementwise operation. -/
theorem wroteLanes_elementwise {s : State} {t c h} {k : Nat} (hb : s.bounded) (hm : s.issues t c (1, k) h noLow)
    (hv0 : (s.tile t.val).engaged c.val .vector = false) (d : Fin 32)
    (g : Ctx → Nat → Num) (hg : ∀ y, g { y with run := .ready } = g y) :
    Host.Outcome.next (s.vec t c k h (fun x => x.elementwise d (g x))) = (done (s.vec t c k h (fun x => x.elementwise d (g x)))) ∧
    WroteLanes s (s.vec t c k h (fun x => x.elementwise d (g x))) t c h d (g ((s.tile t.val).ctx c.val)) := by
  have hv := vec_spec hb hm hv0 (fun x => x.elementwise d (g x)) (fun y => putLanes_frame _ _ _ _)
  refine ⟨hv.1.symm, ?_⟩
  obtain ⟨h1, h2, h3, h4⟩ := hv.2
  have hl : ∀ v l, l < 64 → (((s.vec t c k h (fun x => x.elementwise d (g x))).tile t.val).ctx c.val).lane v l =
      (({ (s.tile t.val).ctx c.val with run := .ready } : Ctx).elementwise d (g ((s.tile t.val).ctx c.val))).lane v l := by
    intro v l hl; rw [h4, hg]; simp only [Ctx.lane]
  refine ⟨⟨h1, h2, h3, ?_⟩, fun l hl' => ?_, fun v l hv' hl' => ?_⟩
  · rw [h4]
    simp only [Ctx.elementwise]
    generalize hz : Ctx.putLanes _ _ _ _ = z
    have e := putLanes_frame ({ (s.tile t.val).ctx c.val with run := .ready }) d.val lanes (g { (s.tile t.val).ctx c.val with run := .ready })
    rw [hz] at e
    rw [e]
  · rw [hl _ _ hl', elementwise_lane _ _ _ _ _ hl']; simp
  · rw [hl _ _ hl', elementwise_lane _ _ _ _ _ hl']; simp only [hv', if_false, Ctx.lane]
end Sys2Proof.Machine
end

