-- ==== Sys2Proof/WellFormed.lean ====
section
/-! DEFINITION. Well-formed commands: the sizes and counts that the spec fixes for what a command carries. A reserved
bit or an operand value that the spec answers with a fault, an abort or a refusal is well formed: its meaning is that
answer. -/
namespace Sys2Proof

/-- A changed symbol lies in its code word: 36 symbols in tile SRAM, 68 elsewhere (R175). -/
def Upset.wf (u : Upset) : Bool :=
  match u.unit with
  | .sram _ => u.pos < 36
  | _ => u.pos < 68

/-- A tailrace block holds 4,096 elements of its carry format (R201). -/
def TailBlock.wf (b : TailBlock) : Bool :=
  b.grad.length = 4096 && (!b.hdr.fp16 || b.grad.all (fun x => x.toNat < 2 ^ 16))

/-- Data of a link packet: at most 32 slots of 128 bytes, and 48 bytes of transfer fields (R297). -/
def pktWf (xf data : List Byte) : Bool := xf.length ≤ 48 && data.length ≤ 4096

/-- A code word is 32 bytes of tile SRAM or 64 bytes of a vault or a stack; the word lies in its memory (R88, R169,
R173, R175). -/
def wordWf (u : MemUnit) (w : Nat) : Bool :=
  match u with
  | .sram _ => w < 0x600000 / 32
  | .vault _ => w < 0xC000000 / 64
  | .stack _ => w < 0x1800000000 / 64

/-- Every landing buffer has 1–64 slots (R127). -/
def TilePlan.wf (x : TilePlan) : Bool :=
  x.landing.all (fun l => 1 ≤ l.slots && l.slots ≤ 64) && x.roles.length ≤ 3 && x.code.length ≤ 8192

/-- A binary gives each tile once, and a training job where its layout is training (R16, R90). -/
def Binary.wf (b : Binary) : Bool :=
  b.tiles.all TilePlan.wf && (b.tiles.map (·.tile)).eraseDups.length = b.tiles.length
    && b.reqRings.length ≤ 4 && b.rspRings.length ≤ 4

/-- A firmware image carries four versions and seven measurements of 48 bytes (R395, R409). -/
def Image.wf (i : Image) : Bool := i.parts.length = 4 && i.measures.length = 336

/-- A verdict record holds 12 sums of squares (R209). -/
def Verdict.wf (v : Verdict) : Bool := v.sums.length = 12

/-- A control frame is of one of four types and carries the credits of 11 link channels (R295, R299). -/
def CtlFrame.wf (f : CtlFrame) : Bool := f.ty ≤ 3 && f.credits.length = 11

/-- Public keys of the two schemes: a 3,072-bit modulus and 48 bytes (R399, R406). -/
def keysWf (rsa slh : List Byte) : Bool := rsa.length = 384 && slh.length = 48

/-- A multicast names at least one tile and none twice (R443). -/
def destsWf (ds : List Dest) : Bool := !ds.isEmpty && (ds.map (·.tile)).eraseDups.length = ds.length

/-- A reduce-put ends at a tile or at an edge gate (R156, R201). -/
def reduceWf (d : Option Dest) (h : Option TailHdr) : Bool := !(d.isSome && h.isSome)

def LoadedImage.wf (i : LoadedImage) : Bool := i.bin.wf && i.tries.all (fun x => x.2 ≤ 3)

def StageResult.wf : StageResult → Bool
  | .loaded is => is.all LoadedImage.wf
  | _ => true

def Instr.wf : Instr → Bool
  | .tensorStream _ _ _ _ _ _ _ ups | .moveCopy _ _ _ _ _ ups => ups.all Upset.wf
  | .scrubRead u w ups => wordWf u w && ups.all (fun x => x.wf && x.unit = u && x.word = w)
  | .netMcast _ _ _ _ _ ds => destsWf ds
  | .netReduce _ _ _ _ _ d h => reduceWf d h
  | .allgatherArrival _ _ _ f => f.elems.length ≤ 16384
  | .tailracePartReceive _ _ _ b | .tailraceBlockArrival _ _ b => b.wf
  | .farFetchResponse _ _ _ (.data bs) => bs.length ≤ 28992
  | .verdictCombine _ _ v | .verdictApply _ v => v.v.wf
  | .partitionLoad _ i => i.wf
  | .turnoverStageDone r => r.wf
  | .ringRequestArrival r => r.ring < 4 && r.reply < 4
  | .ringResponseForward _ _ xf d | .packetTransit _ _ _ xf d => pktWf xf d
  | .linkPutPacket _ _ _ _ _ d => pktWf [] d
  | .farWriteRequest f d => d.length ≤ f.len && d.length ≤ 4096
  | .dataFrameReceive _ _ sl _ | .badFrameReceive _ _ sl _ => sl.length = 256
  | .controlFrameReceive _ _ f => f.frame.wf
  | .replayRequestReceive _ _ seq => seq < 2 ^ 24
  | .subportTrainingDone _ _ p => p.split < 4
  | .inBandWrite _ _ _ _ _ _ d => d.length ≤ 4096
  | .foeWrite i | .imageWrite _ i => i.wf
  | .thermalSample _ ts => ts.length = 16
  | .enrolmentRecordWrite _ r => r.digests.length = 96
  | .provisioningRecordWrite _ r => keysWf r.rsaKey r.slhKey
  | .tokenUnlockObservation _ k | .tokenRelock _ k | .tokenQuarantine _ k | .tokenReleaseQuarantine _ k
  | .tokenRetire _ k => keysWf k.rsaKey k.slhKey
  | .attestationNonceWrite _ n _ => n.length = 32
  | .farFetchResponse .. => true
  | .tensorLoad .. | .tensorDrain .. | .vectorLd .. | .vectorSt .. | .vectorAdd .. | .vectorSub .. | .vectorMul ..
  | .vectorFma .. | .vectorMax .. | .vectorMin .. | .vectorCmp .. | .vectorExp2 .. | .vectorLog2 .. | .vectorRsqrt ..
  | .vectorRcp .. | .vectorRsum .. | .vectorRmax .. | .vectorRmin .. | .vectorNstat .. | .vectorNapply ..
  | .vectorSmax .. | .netPut .. | .netSignal .. | .syncWait .. | .syncSemw .. | .syncSemp .. | .syncCset ..
  | .syncCadd .. | .syncTmo .. | .syncFence .. | .syncFree .. | .syncVwait .. | .ctrlJmp .. | .ctrlBr .. | .ctrlSset ..
  | .ctrlSadd .. | .ctrlScmp .. | .ctrlYield .. | .ctrlStep .. | .guardOpen .. | .guardClose .. | .guardVoteSend ..
  | .guardVoteResult .. | .ctrlEnd .. => true
  | .farReadRequest .. | .operationComplete .. | .suspendedContextResume .. | .counterIncrementArrival .. | .syncTimeout ..
  | .queueTransferStart .. | .landingDelivery .. | .slotCreditArrival .. | .spillRequest .. | .spillGrant ..
  | .spilledTransferArrival .. | .remoteReadRequest .. | .flitReceive .. | .hopReplayRequest ..
  | .refusalResponseReceive .. | .routeWatchdogExpiry .. | .forkStallExpiry .. | .mergeEmit .. | .partitionFlush ..
  | .neighbourLinkLoss .. | .directionTableRewrite | .routeEntryWrite .. | .vaultRefresh .. | .vaultClear ..
  | .vaultClearDone .. | .vaultRetrainRequest .. | .retrainPolicyTrigger .. | .vaultRetrainStart ..
  | .vaultRetrainEnd .. | .channelRetrainRequest .. | .channelRetrainStart .. | .channelRetrainEnd ..
  | .poolWindowWrite .. | .stackMcastRead .. | .workingCopySettle .. | .portReductionEmit .. | .deferredBlockCheck ..
  | .farWritebackDone .. | .verdictJoin .. | .verdictTimeout .. | .relayForward .. | .holdApplyStep ..
  | .holdDropStep .. | .heldNormMerge .. | .heldNormDrop .. | .holdCommandDone | .activationStampWrite ..
  | .repairPass .. | .digestRollupSend .. | .digestRecordReceive .. | .snapshotShipStart .. | .snapshotShipEnd ..
  | .definePartition .. | .removePartition .. | .partitionStart .. | .partitionStop .. | .partitionReset ..
  | .partitionPause .. | .partitionPaused .. | .partitionResume .. | .commandFence .. | .responseRingServe ..
  | .turnoverExecute .. | .turnoverDrainComplete | .turnoverDrainLimit | .laneLoss .. | .scheduledControlSend ..
  | .replayTimeout .. | .linkRetrainEnd .. | .subportTrainingAttempt .. | .peerLossTimeout .. | .stopFrameReceive ..
  | .linkCounterSignal .. | .linkRefusalReceive .. | .reservedTypeDiscard .. | .digestSettleExpiry ..
  | .portEnableWrite .. | .classSplitWrite .. | .portRetrainWrite .. | .portReset .. | .portQuiesceWrite ..
  | .portQuiesced .. | .tableEntryWrite .. => true
  | .inBandRead .. | .sdoUpload .. | .sdoDownload .. | .sdoInformation .. | .ethercatStateRequest .. | .txpdoSample
  | .transactionTimeout .. | .segmentIdleTimeout .. | .objectWrite .. | .queueLimitWrite .. | .histogramSlotClear ..
  | .snapshotStrobe .. | .counterLatch .. | .snapshotComplete | .storeAll .. | .storeLinkAndRoute .. | .restoreAll ..
  | .restoreLinkAndRoute .. | .storeComplete | .inletUndervoltStop .. | .inletRecovery .. | .inletFaultPowerdown ..
  | .servicePowerLoss .. | .railSequenceTimeout .. | .regionShortCircuit .. | .regionRearm .. | .rearmCountClear ..
  | .computeClockStopWrite .. | .meshRelock .. | .meshLockLoss | .thermalIndexStep .. | .thresholdWrite ..
  | .powerCapTick .. | .overcurrentTrip .. | .halfClockDownEntry .. | .halfClockDownExit .. | .powerOn ..
  | .prechargeComplete .. | .regionPowerSlot .. | .microcodeRetry .. | .bootM2Entry | .requestRun ..
  | .requestComputeReset .. | .requestComputeIdle .. | .requestServiceOnly .. | .moduleReset .. | .edgeReset ..
  | .tileResetWrite .. | .commandProducerWrite .. | .completionConsumerWrite .. | .leaseRenew .. | .leaseReclaim ..
  | .leaseExpiry | .coreWatchdogExpiry .. | .observationLockWrite .. | .attestationSigned
  | .traceEnableWrite .. | .eventRingRead .. | .eventLogRead .. | .commandTimeout .. | .directShipmentComplete ..
  | .runningTransitionComplete => true

end Sys2Proof
end

