-- ==== Sys2Proof/Tests/Slice0.lean ====
section
/-! SUPPORT. Tests: for each statement, small states that meet its hypotheses, clause by clause, with what one step then
gives; values worked out from the spec. -/
namespace Sys2Proof.Tests
open Sys2Proof.Machine

-- one theorem at a time: the tests are many small evaluations
set_option Elab.async false

/-- A command is carried out and its next state passes a check. -/
def runs (i : Instr) (s : State) (p : State → Bool) : Bool :=
  match exec i s with
  | .next u => p u
  | _ => false

/-- A command changes nothing. -/
def still (i : Instr) (s : State) : Bool := runs i s (fun u => u = s)

/-- A module in M0 whose partition 0 runs on tile 0 of region 0, which executes in context 0. -/
def lab : State :=
  let s : State := { State.reset with
    regions := [(0, { st := .running })], floor := some [], parts := [(0, {})],
    tiles := [(0, { part := some 0, ctxs := [(0, { run := .ready })] })] }
  (s.setObj 0x2000 1 0 0).setObj 0x2101 1 0 3

/-- Lab with the state of tile 0 changed. -/
def labT (f : Tile → Tile) : State := lab.modTile 0 f
/-- Lab with the state of context 0 changed. -/
def labC (f : Ctx → Ctx) : State := lab.modCtx 0 0 f

/-- Context 0 of tile 0 issues the operation k now, as a Bool that evaluates. -/
def issuesNow (s : State) (k : OpCode) (h : Hdr) : Bool :=
  s.mayIssue 0 0 && decide (k.2 < opcodesOf k.1) && hdrOk k h && (s.tile 0).code.isEmpty && decide (((s.tile 0).ctx 0).pc < 8191)

theorem issues_of {s : State} {k : OpCode} {h : Hdr} {m : Low} (e : issuesNow s k h = true) : s.issues 0 0 k h m := by
  simp only [issuesNow, Bool.and_eq_true, decide_eq_true_eq, List.isEmpty_iff] at e
  obtain ⟨⟨⟨⟨a, b⟩, c⟩, d⟩, f⟩ := e
  refine ⟨a, b, c, fun w hw => ?_, f⟩
  rw [show (s.tile (0 : TileId).val).code = [] from d] at hw
  simp at hw

/-- Context 0 of tile 0 issues each of some operations. -/
def issuesAll (s : State) (ks : List OpCode) (h : Hdr) : Bool := ks.all (fun k => issuesNow s k h)

/-- A command begins the one operation of tile 0, whose step with a number then passes a check. -/
def steps (i : Instr) (s : State) (pos : Nat) (p : State → Bool) : Bool :=
  runs i s (fun u => match (u.tile 0).ops with
    | [o] => p (u.opStep 0 { o with pos })
    | _ => false)

/-! Queue. -/

theorem wit_StepRunsFrontCommand : { lab with pending := [.syncCset 0 0 {} 3 7, .leaseExpiry] }.pending
    = .syncCset 0 0 {} 3 7 :: [.leaseExpiry] := rfl
theorem wit_IdleStepAdvancesTheClock :
    let s := ((State.reset.setObj 0x2000 1 0 0).modRegion 0 (fun g => { g with st := .latched }))
    s.bounded ∧ s.pending = [] ∧ s.tiles = [] ∧ s.routers = [] ∧ s.engines = [] ∧ s.subs = [] ∧ (∀ c, c < 4 → (s.core c).down = false)
      ∧ u32Diff (s.obj 0x2300 1 0) (s.obj 0x2300 2 0) = 0 ∧ s.mstate ≠ 4 ∧ (s.region 0).st ≠ .running := by decide +kernel
/-- With kind 2 traced, the training of a sub-port gives one record in the trace ring (R411). -/
theorem test_trace : (((lab.setObj 0x9100 1 0 1).setObj 0x9100 2 0 4).train 1 0).trace = 1 ∧ (lab.train 1 0).trace = 0 := by decide +kernel
theorem test_idle : (match step lab with | .next u => decide (u.now = 1 ∧ u.dict = lab.dict) | _ => false) = true := by decide +kernel

/-! The vector unit: lanes of v1 hold 1.0, of v2 the value 2.0, as FW40 codes. -/

def one40 : Nat := Fmt.w40.encode .nearestEven .one
def two40 : Nat := Fmt.w40.encode .nearestEven (Num.one.add .one)
def labV : State := labC (fun y => { y with v := [(64, one40), (65, two40), (128, two40), (129, two40)] })
def lane (u : State) (d l : Nat) : Nat := ((u.tile 0).ctx 0).lane d l

theorem wit_VectorElementwise : labV.bounded ∧ issuesAll labV ((List.range 11).map (fun n => (1, n + 2))) {} ∧ (labV.tile 0).engaged 0 .vector = false := by decide +kernel
theorem test_vectorAdd : runs (.vectorAdd 0 0 {} 3 1 2) labV (fun u =>
    lane u 3 0 = Fmt.w40.encode .nearestEven (.fin false 3 0) && lane u 1 0 = one40 && ((u.tile 0).ctx 0).pc = 1
      && (u.tile 0).ops.length = 1) = true := by decide +kernel
theorem test_vectorCmp : runs (.vectorCmp 0 0 {} .lt 1 1 2) labV (fun u => lane u 1 0 = one40 && lane u 1 1 = 0) = true := by
  decide +kernel
theorem test_vectorFma : runs (.vectorFma 0 0 {} 1 1 2 2) labV (fun u =>
    lane u 1 0 = Fmt.w40.encode .nearestEven (.fin false 4 0)) = true := by decide +kernel

/-- Reductions: 128 elements from v1 on, within v0–v31; 0 and 2,049 elements, and a range past v31, are refused. -/
theorem wit_VectorReductions : labV.bounded ∧ issuesAll labV [(1, 13), (1, 14), (1, 15)] {} ∧ 1 + (128 + 63) / 64 ≤ 32 ∧ 32 < 31 + (65 + 63) / 64 := by
  decide +kernel
theorem test_vectorRmax : runs (.vectorRmax 0 0 {} 4 1 2048) labV (fun u => ((u.tile 0).ctx 0).fault = 1)
    && runs (.vectorRmax 0 0 {} 4 0 2048) labV (fun u => lane u 4 63 = two40) = true := by decide +kernel
theorem test_vectorRsum : runs (.vectorRsum 0 0 {} 4 1 2) labV (fun u => lane u 4 7 = Fmt.w40.encode .nearestEven (.fin false 3 0))
    && runs (.vectorRsum 0 0 {} 4 1 0) labV (fun u => ((u.tile 0).ctx 0).run = .stopped) = true := by decide +kernel
theorem test_vectorRmin : runs (.vectorRmin 0 0 {} 4 1 2) labV (fun u => lane u 4 7 = one40) = true := by decide +kernel

/-- A helper descriptor at 0x200: two elements from v1, result at v5, μ at v6, γ at v8, β at v9, ε = 0. -/
def helperBytes : List Byte := leBytes 2 2 ++ [1, 5, 6, 8, 9, 0] ++ leBytes 4 0 ++ List.replicate 20 0
def labH : State := labV.poke (.sram 0) 0x200 helperBytes
theorem wit_VectorHelpers : labH.bounded ∧ issuesAll labH [(1, 16), (1, 17), (1, 18)] {} ∧ descAddrOk 0x200 = true ∧ (labH.mem (.sram 0)).errs = []
    ∧ (helperOf ⟨false, true, false⟩ (labH.bytes (.sram 0) 0x200 32)).isSome
    ∧ (helperOf ⟨true, true, true⟩ (labH.bytes (.sram 0) 0x200 32)).isSome
    ∧ (helperOf ⟨true, false, false⟩ (labH.bytes (.sram 0) 0x200 32)).isSome := by decide +kernel
/-- Elements 1 and 2: mean 1.5; μ to v6. -/
theorem test_vectorNstat : runs (.vectorNstat 0 0 {} false 0x200) labH (fun u =>
    lane u 6 9 = Fmt.w40.encode .nearestEven (.fin false 3 (-1)) && lane u 8 0 = 0) = true := by decide +kernel
theorem test_vectorSmax : runs (.vectorSmax 0 0 {} 0x200) labH (fun u => lane u 5 2 = 0 && lane u 1 0 = one40) = true := by decide +kernel
theorem test_vectorNapply : runs (.vectorNapply 0 0 {} 0x200) labH (fun u => lane u 5 0 = 0) = true := by decide +kernel

/-- A descriptor of 32 bytes (R119). -/
def desc (ea word n0 n1 pitch count first second : Nat) : List Byte :=
  leBytes 4 ea ++ leBytes 4 0 ++ leBytes 4 word ++ leBytes 4 0 ++ leBytes 2 pitch ++ leBytes 2 n0 ++ leBytes 2 n1 ++ [0, 0]
    ++ leBytes 2 count ++ leBytes 2 0 ++ leBytes 2 first ++ leBytes 2 second

/-- A32 row of 64 elements at 0x1000, described at 0x100; element 1 is 1.0. -/
def labD : State := (labV.poke (.sram 0) 0x100 (desc 0x1000 7 64 1 8 0 0 0)).poke (.sram 0) 0x1004 (leBytes 4 0x3F800000)
def dLd : Desc := descOf (desc 0x1000 7 64 1 8 0 0 0)
theorem wit_VectorLoads : labD.bounded ∧ issuesAll labD [(1, 0), (1, 1)] {} ∧ labD.hasDesc 0 0x100 dLd ∧ dLd.vecFault = false
    ∧ dLd.bound = false ∧ dLd.tag = 0 ∧ ((labD.tile 0).ctx 0).store = none
    ∧ (labD.tile 0).asmFull 0 dLd (dLd.groupLanes.map (fun j => (dLd.first, 64 * dLd.second + j))) = false
    ∧ (labD.tile 0).engaged 0 .vector = false ∧ (Fmt.ofCode dLd.fmt).isSome := by decide +kernel
theorem test_vectorLd : steps (.vectorLd 0 0 {} 7 0x100) labD 0 (fun u => lane u 7 1 = one40 && lane u 7 0 = 0)
    && runs (.vectorLd 0 0 {} 7 0x100) (labD.modTile 0 (fun x => { x with ops := [{ id := 0, ctx := 0, kind := .vectorLd 5 true dLd, sig := none }] }))
      (fun u => ((u.tile 0).ctx 0).run = .waiting (.swap .vector) 0) = true := by decide +kernel
theorem test_vectorSt : steps (.vectorSt 0 0 {} 2 0x100) labD 0 (fun u => u.bytes (.sram 0) 0x1000 8 = leBytes 8 0x4000000040000000
    && ((u.tile 0).ctx 0).pc = 1 && ((u.tile 0).ops.map (·.pos)) = [1]) = true := by decide +kernel

/-! The arrays: array 0 has role forward; an FP16 operand of 2 × 2 elements at 0x2000, element (0, 0) = 1.0, element (1, 1) =
2.0, described at 0x100; its stream, two vectors to entry 3 on, has its control descriptor at 0x120. -/

def ctlBytes : List Byte := List.replicate 24 0 ++ leBytes 2 2 ++ leBytes 2 3 ++ List.replicate 4 0
def dA : List Byte := desc 0x2000 5 2 2 1 0 0 0
def bf (a v : Nat) (s : State) : State := s.poke (.sram 0) a (leBytes 2 v)
def labA : State :=
  let s := (labT (fun x => x.setArray 0 { role := .forward, pepper := [] })).poke (.sram 0) 0x100 (dA ++ ctlBytes)
  bf 0x2000 0x3C00 (bf 0x2022 0x4000 s)
theorem wit_TensorLoad : labA.bounded ∧ issuesNow labA (0, 0) {} ∧ labA.hasDesc 0 0x100 (descOf dA)
    ∧ ((labA.tile 0).array 0).wrongRole .forward = false ∧ (descOf dA).loadFault .a .forward = false ∧ (descOf dA).bound = false
    ∧ ((labA.tile 0).array 0).loading = false ∧ ((labA.tile 0).array 0).shadow = none := by decide +kernel
theorem test_tensorLoad : steps (.tensorLoad 0 0 {} .a .forward 0x100) labA 1 (fun u =>
    ((u.tile 0).array 0).shadow = none && match (u.tile 0).ops.map (fun o => o.kind) with
      | [OpKind.load a _ b] => a = 0 && b.outs.length = 32 && b.outs.getD 1 [] = [(Fmt.ofCode 5).elim .nan (fun f => f.decode 0x4000)]
          && (b.outs.getD 0 [.one]).all Machine.Num.isZero
      | _ => false)
    && steps (.tensorLoad 0 0 {} .a .forward 0x100) labA 31 (fun u => ((u.tile 0).array 0).shadow.isSome
      && !((u.tile 0).array 0).loading) = true := by decide +kernel

/-- A block whose output 0 is the row of 64 ones, as of a load just ended. -/
def blk1 : Block := { orient := .a, fmt := 5, outs := [List.replicate 64 .one] }
def labS : State := labA.modTile 0 (fun x => x.setArray 0 { role := .forward, loadedEver := true, shadow := some blk1 })
theorem wit_TensorStream : labS.bounded ∧ issuesNow labS (0, 1) {} ∧ labS.hasDesc 0 0x100 (descOf dA) ∧ descAddrOk 0x120 = true
    ∧ ctlOf (labS.bytes (.sram 0) 0x120 32) = some (2, 3) ∧ (descOf dA).streamFault .a 2 = false
    ∧ ((labS.tile 0).array 0).wrongRole .forward = false ∧ ((labS.tile 0).array 0).loading = false
    ∧ (blk1.passClass 5 .a .forward).isSome := by decide +kernel
/-- Vector 0 is (1, 0, …): its product with ones is 1; vector 1 is (0, 2, 0, …). -/
theorem test_tensorStream : steps (.tensorStream 0 0 {} .a .forward false 0x100 []) labS 0 (fun u =>
    let e (j i : Nat) := (mget ({} : Entry) ((u.tile 0).array 0).entries (j * 1024 + i)).acc
    ((e 0 3).sub .one).isZero && e 0 4 = .zero && e 0 2 = .zero && e 0 5 = .zero
      && ((u.tile 0).array 0).active = some blk1 && ((u.tile 0).array 0).shadow = none)
    && steps (.tensorStream 0 0 {} .a .forward false 0x100 []) labS 1 (fun u =>
      ((mget ({} : Entry) ((u.tile 0).array 0).entries 4).acc.sub (.ofNat 2)).isZero) = true := by decide +kernel

/-- A drain of two entries as A32 to 0x3000. -/
def dDr : List Byte := desc 0x3000 7 32 2 4 2 0 0
def labDr : State := (labS.poke (.sram 0) 0x140 dDr).modTile 0 (fun x => x.setArray 0 { x.array 0 with entries := [(1, ⟨.one, 1, false, none, none⟩)] })
theorem wit_TensorDrain : labDr.bounded ∧ issuesNow labDr (0, 2) {} ∧ labDr.hasDesc 0 0x140 (descOf dDr) ∧ (descOf dDr).drainFault = false
    ∧ ((labDr.tile 0).drainsLegacy 0 (descOf dDr) && !((descOf dDr).fmt = 6 || (descOf dDr).fmt = 7)) = false
    ∧ (descOf dDr).tag = 0 ∧ (Fmt.ofCode (descOf dDr).fmt).isSome
    ∧ (labDr.tile 0).asmFull 0 (descOf dDr) ((List.range (descOf dDr).count).flatMap (fun i => (descOf dDr).drainLanes.map ((descOf dDr).place i))) = false := by
  decide +kernel
theorem test_tensorDrain : steps (.tensorDrain 0 0 {} .forward false 0x140) labDr 1 (fun u =>
    u.bytes (.sram 0) 0x3080 4 = leBytes 4 0x3F800000 && (u.tile 0).arrays = (labDr.tile 0).arrays
      && match (u.tile 0).ops.map (fun o => o.kind) with
        | [OpKind.drain a _ none us] => a = 0 && us = []
        | _ => false) = true := by decide +kernel
/-- A pass that clears waits for an earlier drain that has not read its entry; a trailing drain waits for its pass (R101). -/
def passK : OpKind := .stream 0 (descOf dA) { cls := .c16, window := 0, orient := .a, clear := true, sx := none } 0 2 false blk1
def held (first second : OpKind) (n : Nat) : Bool :=
  Tile.heldBack { labDr.tile 0 with ops := [{ id := 1, ctx := 0, kind := first, sig := none, pos := n }] }
    { id := 2, ctx := 0, kind := second, sig := none }
theorem test_order : (held (.drain 0 (descOf dDr) none []) passK 0 && !held (.drain 0 (descOf dDr) none []) passK 1
    && held passK (.drain 0 (descOf dDr) (some 1) []) 0 && !held passK (.drain 0 (descOf dDr) (some 1) []) 1) = true := by
  decide +kernel

/-! Transfers: the A32 row at 0x1000 described at 0x100, and another place for it at 0x160; tile 1 has a landing buffer. -/

def dB : List Byte := desc 0x5000 7 64 1 8 0 0 0
def land1 : Landing := ⟨2, 0x8000, 4, 1024, 0⟩
def labM : State :=
  let s := labD.poke (.sram 0) 0x160 dB
  s.setTile 1 { landing := [land1], part := some 0 }
theorem wit_Transfers : labM.bounded ∧ issuesAll labM [(2, 0), (3, 0), (3, 1), (3, 2), (3, 3)] {} ∧ labM.queueRoom 0 0 {}
    ∧ labM.hasDesc 0 0x100 dLd ∧ labM.hasDesc 0 0x160 (descOf dB) ∧ labM.moveFault 0 dLd false = false
    ∧ labM.moveFault 0 (descOf dB) true = false ∧ moveW40 dLd (descOf dB) = false ∧ labM.netFault 0 dLd false = false
    ∧ labM.netFault 0 dLd true = false ∧ (labM.tile 0).guarded = false ∧ labM.gateEnd 0 9 1 0 = none
    ∧ dLd.fmt = 7 ∧ dLd.bs = false := by decide +kernel
theorem test_moveCopy : runs (.moveCopy 0 0 {} 0x100 ⟨0x160, 3⟩ []) labM (fun u =>
    ((u.tile 0).queue 0).xfers.map (·.len) = [256] && u.mems = labM.mems) = true := by decide +kernel
/-- A W40 tensor to the vault. -/
def labW40 : State := (labM.poke (.sram 0) 0x1C0 (desc 0x1000 8 64 1 10 0 0 0)).poke (.sram 0) 0x160 (desc 0x10005000 8 64 1 10 0 0 0)
theorem wit_Transfers_w40 : labW40.hasDesc 0 0x1C0 (descOf (desc 0x1000 8 64 1 10 0 0 0))
    ∧ labW40.hasDesc 0 0x160 (descOf (desc 0x10005000 8 64 1 10 0 0 0)) ∧ (descOf (desc 0x10005000 8 64 1 10 0 0 0)).space = 1
    ∧ runs (.moveCopy 0 0 {} 0x1C0 ⟨0x160, 3⟩ []) labW40 (fun u => ((u.tile 0).ctx 0).run = .stopped && ((u.tile 0).ctx 0).fault = 1
        && ((u.tile 0).queue 0).xfers = []) := by
  decide +kernel
theorem test_netPut : labM.destFault 0 ⟨1, 2, 3, none⟩ 256 = false
    ∧ (labM.setTile 1 { landing := [land1] }).destFault 0 ⟨1, 2, 3, none⟩ 256 = true ∧ runs (.netPut 0 0 { unit := 1 } 0x100 9 ⟨1, 2, 3, none⟩) labM (fun u =>
    ((u.tile 0).queue 1).xfers.map (·.kind) = [.put dLd 9 ⟨1, 2, 3, none⟩]) = true := by decide +kernel
theorem test_netMcast : runs (.netMcast 0 0 {} 0x100 9 [⟨1, 2, 3, none⟩]) labM (fun u =>
    ((u.tile 0).queue 0).xfers.length = 1 && ((u.tile 0).ctx 0).pc = 1) = true := by decide +kernel
theorem test_netReduce : runs (.netReduce 0 0 {} 0x100 9 none none) labM (fun u => ((u.tile 0).queue 0).xfers.length = 1) = true := by
  decide +kernel
/-- The 65th waiting transfer holds its context. -/
def sig0 : Xfer := { id := 0, ctx := 0, q := 0, kind := .signal 0 0 0, len := 0, sig := none }
theorem test_netSignal : ¬(labT (fun x => x.setQueue 0 { xfers := List.replicate 64 sig0 })).queueRoom 0 0 {}
    ∧ runs (.netSignal 0 0 {} 0 0 0) (labT (fun x => x.setQueue 0 { xfers := List.replicate 64 sig0 })) (fun u =>
        ((u.tile 0).ctx 0).run = .waiting (.space 0) 0 && ((u.tile 0).queue 0).xfers.length = 64)
    ∧ runs (.netSignal 0 0 {} 0 0 0) (labT (fun x => x.setQueue 0 { xfers := List.replicate 63 sig0 })) (fun u =>
        ((u.tile 0).queue 0).xfers.length = 64) = true := by decide +kernel

/-! SYNC and CTRL. -/

theorem test_scalars : runs (.ctrlSset 0 0 { sig := true, sigCtr := 5 } 3 7) lab (fun u => ((u.tile 0).ctx 0).scalar 3 = 7
      && (u.tile 0).counter 5 = 0 && (u.tile 0).incs = [(5, 1, 1)])
    && runs (.ctrlSadd 0 0 {} 3 (.imm 0xFFFF)) lab (fun u => ((u.tile 0).ctx 0).scalar 3 = 0xFFFFFFFF)
    && runs (.ctrlScmp 0 0 {} 3 4 .lt (.imm 1)) lab (fun u => ((u.tile 0).ctx 0).scalar 3 = 1) = true := by decide +kernel
theorem test_counters : runs (.syncCadd 0 0 {} 3 0xFFFFFFFF) (labT (fun x => x.setCounter 3 2)) (fun u => (u.tile 0).counter 3 = 1)
    && runs (.syncTmo 0 0 {} 9) lab (fun u => ((u.tile 0).ctx 0).tmo = 9 && ((u.tile 0).ctx 0).pc = 1) = true := by decide +kernel

/-- A counter at its value, and one below; a verdict of step 0 joined and one of step 1 not; a queue empty, and not. -/
theorem wit_Waits : lab.bounded ∧ issuesAll lab [(4, 0), (4, 8), (4, 6)] {} ∧ issuesNow lab (4, 6) { unit := 1 }
    ∧ 0 ≤ (((lab.tile 0).applyIncs 0).counter 3 - 0).toInt ∧ (((lab.tile 0).applyIncs 0).counter 3 - 1).toInt < 0
    ∧ (lab.tile 0).part = some 0 ∧ 0 ≤ ((lab.part 0).lastStamp - 0).toInt ∧ ((lab.part 0).lastStamp - 1).toInt < 0
    ∧ (lab.tile 0).semq = [] ∧ ((lab.tile 0).queue 1).xfers = [] ∧ (labC (fun y => { y with tmo := 4 })).coreOf 0 ≤ 0 + 4 := by decide +kernel
/-- Context 0 waits since core cycle 0, and core cycle 4 ends. -/
def waiting (w : Wait) (tmo : BitVec 32) (f : Tile → Tile := id) : State :=
  ((lab.modTile 0 f).modCtx 0 0 (fun y => { y with run := .waiting w 0, tmo })).modRegion 0 (fun g => { g with core := 4 })
def ctx0 (s : State) : Ctx := (s.tile 0).ctx 0
theorem test_syncWait : runs (.syncWait 0 0 {} 3 0) lab (fun u => (ctx0 u).run = .waiting (.counter 3 0) 0 && (ctx0 u).pc = 1)
    && (ctx0 ((waiting (.counter 3 0) 0).settleWaits 0)).run = .ready && (ctx0 ((waiting (.counter 3 1) 0).settleWaits 0)).run ≠ .ready
    && (let u := (waiting (.counter 3 3) 4 (fun x => { x with incs := [(3, 1, 4), (3, 2, 3), (3, 9, 5)] })).settleWaits 0
        (ctx0 u).res = 0x80 && (u.tile 0).counter 3 = 3 && (u.tile 0).incs = [(3, 9, 5)]) = true := by decide +kernel
theorem test_syncVwait : runs (.syncVwait 0 0 {} 1) lab (fun u => (ctx0 u).run = .waiting (.verdict 1) 0)
    && (let u := ((waiting (.verdict 0) 0).modPart 0 (fun x => { x with lastFlags := 3 })).settleWaits 0
        (ctx0 u).scalar 14 = 3 && (ctx0 u).scalar 15 = 0 && (ctx0 u).res = 0 && (ctx0 u).run = .ready) = true := by decide +kernel
theorem test_syncFence : runs (.syncFence 0 0 { unit := 1 }) lab (fun u => (ctx0 u).run = .waiting (.fence 1) 0)
    && (ctx0 ((waiting (.fence 1) 0).settleWaits 0)).run = .ready
    && (ctx0 ((waiting (.fence 1) 0 (fun x => x.setQueue 1 { xfers := [sig0] })).settleWaits 0)).run = .waiting (.fence 1) 0 := by
  decide +kernel

/-- Landing buffer 2 with its slot 1 filled, for a PUT of tile 5; semaphore 3 at 1, 4 at 0, 5 at its maximum. -/
def labL : State := labT (fun x => { x with landing := [land1], slots := [(129, { st := .filled, holder := some 5 })], sems := [(3, 1), (5, 0xFFFF)] })
theorem wit_Semaphores : labL.bounded ∧ issuesAll labL [(4, 2), (4, 1), (4, 7)] {} ∧ (labL.tile 0).landingOf 2 = some land1
    ∧ ((labL.tile 0).slot 2 1).st = .filled ∧ ((labL.tile 0).slot 2 1).holder = some 5 ∧ (∀ p ∈ (labL.tile 0).spilled, p.buf ≠ 2)
    ∧ ((labT (fun x => { x with landing := [land1], slots := [(129, { st := .filled })] })).tile 0 |>.slot 2 1).holder = none
    ∧ land1.slots ≤ 4 ∧ (labL.tile 0).sem 3 < 0xFFFF ∧ (labL.tile 0).sem 5 = 0xFFFF := by
  decide +kernel
theorem test_semaphores : runs (.syncSemp 0 0 {} 3) labL (fun u => (u.tile 0).sem 3 = 2)
    && runs (.syncSemp 0 0 {} 5) labL (fun u => u.count 0x7200 0x12 0 = 1 && (u.tile 0).sems = (labL.tile 0).sems) = true := by decide +kernel
theorem test_syncSemw : runs (.syncSemw 0 0 {} 3) labL (fun u => (u.tile 0).sem 3 = 1 && (ctx0 u).run = .waiting (.sem 3) 0
      && (u.tile 0).semq = [(3, 0)])
    && (let u := (waiting (.sem 3) 0 (fun x => { x with sems := [(3, 1)], semq := [(3, 0)] })).settleWaits 0
        (u.tile 0).sem 3 = 0 && (ctx0 u).run = .ready && (u.tile 0).semq = []) = true := by
  decide +kernel
theorem test_syncFree : runs (.syncFree 0 0 {} 2 1) labL (fun u => ((u.tile 0).slot 2 1).st = .returning && u.mems = labL.mems
      && ((u.router 0).buf 4 5).map (fun f => (f.ty, f.dst)) = [(.credit, 5)])
    && runs (.syncFree 0 0 {} 2 4) labL (fun u => (ctx0 u).fault = 2) = true := by decide +kernel

/-- Contexts 1 and 2 wait on semaphore 4 from the same core cycle, context 3 from an earlier one. -/
def labSem (n : Nat) : State := labT (fun x => { x with
  ctxs := x.ctxs ++ [(1, { run := .waiting (.sem 4) 5 }), (2, { run := .waiting (.sem 4) 5 }), (3, { run := .waiting (.sem 4) n })],
  semq := [(4, 2), (4, 1), (4, 3)], sems := [(4, 1)] })
theorem wit_Semaphores2 : (labSem 5).bounded ∧ (4, 1) ∈ ((labSem 5).tile 0).semq
    ∧ ((labSem 5).tile 0).sem 4 = 1 ∧ (∀ w ∈ ((labSem 5).tile 0).semq, (((labSem 5).tile 0).ctx w.2).tmo = 0
      ∧ (((labSem 5).tile 0).ctx w.2).run = .waiting (.sem 4) 5 ∧ 1 ≤ w.2) := by decide +kernel
theorem test_semp_order : (let u := (labSem 5).serveSem 0 4 8
      ((u.tile 0).ctx 1).run = .ready && (u.tile 0).sem 4 = 0 && ((u.tile 0).ctx 2).run = .waiting (.sem 4) 5)
    && (let u := (labSem 4).serveSem 0 4 8
      ((u.tile 0).ctx 3).run = .ready && ((u.tile 0).ctx 1).run = .waiting (.sem 4) 5) = true := by decide +kernel

theorem wit_Jumps : lab.bounded ∧ issuesAll lab [(5, 0), (5, 1), (5, 4)] {} ∧ brHolds .eq (brSrcVal (lab.asIssued 0 0) .waitResult) (opndVal (lab.asIssued 0 0) (.imm 0)) = true
    ∧ brHolds .ne (brSrcVal (lab.asIssued 0 0) .waitResult) (opndVal (lab.asIssued 0 0) (.imm 0)) = false := by decide +kernel
theorem test_conditions : (brHolds .lt 0xFFFFFFFF 0 && brHolds .geu 0xFFFFFFFF 0 && !brHolds .ltu 0xFFFFFFFF 0
    && brHolds .ge 0 0xFFFFFFFF) = true ∧ opndVal {} (.imm 0x8000) = 0xFFFF8000 := by decide +kernel
theorem test_ctrlJmp : runs (.ctrlJmp 0 0 {} 8191) lab (fun u => ((u.tile 0).ctx 0).pc = 8191)
    && runs (.ctrlJmp 0 0 {} 8192) lab (fun u => ((u.tile 0).ctx 0).fault = 4 && ((u.tile 0).ctx 0).run = .stopped) = true := by decide +kernel
theorem test_ctrlBr : runs (.ctrlBr 0 0 {} .waitResult .eq (.imm 0) 9) lab (fun u => ((u.tile 0).ctx 0).pc = 9)
    && runs (.ctrlBr 0 0 {} .waitResult .ne (.imm 0) 9999) lab (fun u => ((u.tile 0).ctx 0).pc = 1)
    && runs (.ctrlBr 0 0 {} .waitResult .eq (.imm 0) 8192) lab (fun u => ((u.tile 0).ctx 0).fault = 4) = true := by decide +kernel

def labP : State := lab.modPart 0 (fun x => { x with pauses := [.command] })
def guard0 : Guard := { ctx := 0, level := 0, on := true, counters := [(1, 4)], sems := [], resume := 1, route := 9, layer := 0, mark := 1 }
def labG (g : Guard) : State := labT (fun x => { x with guard := some g, overflow := true })
theorem wit_Yield : lab.bounded ∧ issuesAll lab [(5, 5), (5, 6), (5, 8)] {} ∧ (lab.tile 0).guarded = false ∧ (lab.part 0).pauses = []
    ∧ ((lab.asIssued 0 0).store = none) ∧ (labP.part 0).pauses ≠ [] ∧ issuesNow labP (5, 6) {} ∧ (labG guard0).bounded
    ∧ issuesNow (labG guard0) (5, 6) {} ∧ ((labG guard0).tile 0).guarded = true
    ∧ 0 < stampDiff 1 (BitVec.ofNat 32 (lab.obj 0x8600 0x11 0)) := by decide +kernel
theorem test_ctrlStep : runs (.ctrlStep 0 0 {}) lab (fun u => (u.tile 0).stamp = 1 && u.obj 0x8600 0x11 0 = 1 && ((u.tile 0).ctx 0).pc = 1
      && mget 0 ((u.tile 0).array 2).pepper 31 = pepperSeed (BitVec.ofNat 64 (lab.obj 0x8000 1 0)) 1 0 2 31)
    && runs (.ctrlStep 0 0 {}) labP (fun u => ((u.tile 0).ctx 0).run = .waiting .step 0 && (u.tile 0).stamp = 0)
    && runs (.ctrlStep 0 0 {}) (labG guard0) (fun u => ((u.tile 0).ctx 0).fault = 1) = true := by decide +kernel
theorem test_ctrlEnd : runs (.ctrlEnd 0 0 {}) lab (fun u => ((u.tile 0).ctx 0).run = .idle)
    && runs (.ctrlYield 0 0 {}) lab (fun u => ((u.tile 0).ctx 0).yielded && ((u.tile 0).ctx 0).pc = 1) = true := by decide +kernel

theorem wit_Guard : (labG { guard0 with closing := true }).executes 0 = true ∧ issuesNow lab (5, 7) {} ∧ (lab.tile 0).guard = none
    ∧ issuesNow (labG guard0) (5, 7) {} ∧ issuesNow (labG { guard0 with on := false }) (5, 7) {}
    ∧ ((labG { guard0 with closing := true }).tile 0).part = some 0 ∧ (∀ q ∈ ((labG guard0).tile 0).queues, ∀ z ∈ q.2.xfers, z.id < 1)
    ∧ (Fmt.a32.decode 0).isZero = true ∧ (Fmt.a32.decode 0x3F800000).isZero = false := by decide +kernel
theorem test_guardMarks : runs (.guardOpen 0 0 {} true 0 9 5) lab (fun u => (u.tile 0).guard = some { guard0 with counters := [], layer := 5 }
      && (ctx0 u).scalar 13 = 0)
    && runs (.guardClose 0 0 {} true 0 9 5) (labG guard0) (fun u => (u.tile 0).guard = some { guard0 with closing := true }
      && (ctx0 u).run = .waiting .guard 0)
    && runs (.guardClose 0 0 {} true 0 9 5) (labG { guard0 with on := false }) (fun u => (u.tile 0).guard = none) = true := by decide +kernel
def voted (n : Nat) : State := labG { guard0 with closing := true, voted := true, level := n }
/-- The sum of the guard's tree has come in. -/
def summed (n : Nat) (sum : BitVec 32) : State := (voted n).modTile 0 (fun x => { x with inbox := [.vote sum] })
theorem test_guardVotes : runs (.guardVoteSend 0) (labG { guard0 with closing := true }) (fun u =>
      ((u.router 0).buf 4 3).map (·.data.take 4) = [leBytes 4 0x3F800000] && ((u.tile 0).guard.map (·.voted)) = some true)
    && still (.guardVoteResult 0 0) (voted 0)
    && runs (.guardVoteResult 0 0) (summed 0 0) (fun u => (u.tile 0).guard = none)
    && runs (.guardVoteResult 0 0x3F800000) (summed 1 0x3F800000) (fun u => (u.tile 0).guard = some { guard0 with level := 2 }
      && (u.tile 0).counters = [(1, 4)] && (ctx0 u).scalar 13 = 2 && (ctx0 u).pc = 1)
    && runs (.guardVoteResult 0 0x3F800000) (summed 2 0x3F800000) (fun u => (u.tile 0).poison && u.count 0x7200 0x14 0 = 1) = true := by
  decide +kernel

/-- Context 0 of tile 0 stands at a stored word. -/
def labWord (w : BitVec 64) : State := labT (fun x => { x with code := [w] })
/-- SYNC CSET (4, 3) of the value 7, with no other field set; class 6; CTRL END. -/
def wCset : BitVec 64 := 0x80C0000000000007
def wEnd : BitVec 64 := 0xA200000000000000
theorem wit_OnlyReady : State.reset.mayIssue 0 0 = false ∧ lab.mayIssue 0 1 = false ∧ lab.mayIssue 0 0 = true
    ∧ (lab.tile 0).code[(ctx0 lab).pc]? = none ∧ (labWord wCset).mayIssue 0 0 = true ∧ wordOp wCset = (4, 3) ∧ wordOk wCset = true
    ∧ wordOp wEnd = (5, 8) ∧ wordOk 0xC000000000000000 = false ∧ (wordOp 0).1 = 0 ∧ wordOk 0 = true := by decide +kernel
theorem test_reserved : runs (.syncCset 0 0 { rsvd := 1 } 3 7) lab (fun u => (ctx0 u).fault = 2 && (u.tile 0).counter 3 = 0)
    && runs (.syncCset 0 0 {} 3 7) (labWord wCset) (fun u => (u.tile 0).counter 3 = 7) && still (.syncCset 0 0 {} 3 7) (labWord wEnd)
    && still (.syncCset 0 0 {} 3 8) (labWord wCset)
    && still (.syncCset 0 0 {} 3 7) (labWord 0)
    && runs (.syncCset 0 0 {} 3 7) (labWord 0xC000000000000000) (fun u => (ctx0 u).fault = 2)
    && still (.syncCset 0 1 {} 3 7) lab && still (.vectorAdd 0 0 {} 1 2 3) State.reset = true := by decide +kernel

/-! Events of a tile. -/

def move0 : Xfer := { id := 4, ctx := 0, q := 2, kind := .move dLd (descOf dB), len := 256, sig := some 5, phase := .started }
def op1 (k : OpKind) (n : Nat) : Op := { id := 7, ctx := 0, kind := k, sig := some 6, pos := n }
theorem wit_Completions : lab.bounded ∧ (lab.region (regionOf 0)).clocked = true ∧ lab.inReset 0 = false := by decide +kernel
theorem test_opComplete : runs (.operationComplete 0 7) (labT (fun x => { x with ops := [op1 (.load 1 dLd blk1) 32] })) (fun u =>
      (u.tile 0).ops = [] && (u.tile 0).incs = [(6, 1, 1)])
    && still (.operationComplete 0 7) (labT (fun x => { x with ops := [op1 (.load 1 dLd blk1) 31] }))
    && runs (.counterIncrementArrival 0 3 2) (labT (fun x => { x with inbox := [.counter 3, .counter 4, .counter 3] })) (fun u =>
      (u.tile 0).incs = [(3, 2, 1)] && (u.tile 0).inbox = [.counter 4]) = true := by decide +kernel
/-- Tile 0 has two requesters of bank 3: the pass, of the higher class, is granted, the load retries (R107). -/
theorem test_banks : ((labT (fun x => { x with
    ops := [op1 (.load 1 dLd blk1) 32, { op1 (.stream 0 dLd { cls := .c16, window := 0, orient := .a, clear := true, sx := none } 0 2 false blk1) 2 with id := 8 }],
    accs := [⟨.op 7, [3], 0⟩, ⟨.op 8, [3, 4], 0⟩] })).tile 0).arbitrate 0 = [⟨.op 7, [3], 1⟩, ⟨.op 8, [], 0⟩] := by decide +kernel
def labMv (n : Nat) : State := labD.modTile 0 (fun x => x.setQueue 2 { xfers := [{ move0 with acked := n }] })
theorem wit_Completions_transfer : ((labMv 256).tile 0).ops = []
    ∧ (((labMv 256).tile 0).heads.find? (fun w => w.2.id = 4 && w.2.phase != .waiting)) = some (2, { move0 with acked := 256 })
    ∧ (labMv 256).xferDone 0 { move0 with acked := 256 } = true
    ∧ (labMv 255).xferDone 0 { move0 with acked := 255 } = false := by decide +kernel
theorem test_opComplete_transfer : runs (.operationComplete 0 4) (labMv 256) (fun u =>
    (u.tile 0).queue 2 = { done := 1 } && (u.tile 0).incs = [(5, 1, 1)]) && still (.operationComplete 0 4) (labMv 255) = true := by
  decide +kernel
def labW : State := (labC (fun y => { y with run := .waiting (.counter 3 1) 0, tmo := 4 })).modRegion 0 (fun g => { g with core := 5 })
theorem wit_Completions_timeout : ((labW.tile 0).ctx 0).tmo ≠ 0 ∧ 0 + ((labW.tile 0).ctx 0).tmo.toNat < labW.coreOf 0 := by decide +kernel
theorem test_syncTimeout : runs (.syncTimeout 0 0) labW (fun u => ((u.tile 0).ctx 0).run = .ready && ((u.tile 0).ctx 0).res = 1)
    && still (.syncTimeout 0 0) (labW.modRegion 0 (fun g => { g with core := 4 })) = true := by decide +kernel
def dBound : Desc := { dLd with bind := 0x83 }
/-- A load whose bound queue 3 has completed a transfer, or none; queue 3 is of class U or D. -/
def lateOp (l : Late) (done cls : Nat) : State := (labD.modTile 0 (fun x => { x.setQueue 3 { done := done } with
  ops := [{ id := 7, ctx := 0, kind := .vectorLd 7 true dBound, sig := none, late := l }] })).setObj 0x5100 0x24 0 cls
theorem wit_Completions_late : (lateOp (.suspended 3) 1 0).executes 0 = true ∧ dBound.bound = true
    ∧ ((lateOp (.suspended 3) 1 0).tile 0).lateOp 0 ≠ none
    ∧ ((lateOp .no 0 1).tile 0).ops.map (fun o => (((lateOp .no 0 1).tile 0).lateOn o, ((lateOp .no 0 1).tile 0).atHead o, o.ran)) = [(some 3, true, false)]
    ∧ ((lateOp (.suspended 3) 1 0).tile 0).ops.map ((lateOp (.suspended 3) 1 0).tile 0).lateOn = [none]
    ∧ ((lateOp (.suspended 3) 0 0).tile 0).ops.map ((lateOp (.suspended 3) 0 0).tile 0).lateOn = [some 3] := by decide +kernel
/-- Class U: suspended and counted; class D: halted. Resumed when the data is there, after the switch. -/
theorem test_late : (let u := (lateOp .no 0 1).checkOps 0
      (u.tile 0).ops.map (·.late) = [.suspended 3] && u.count 0x7200 0x10 0 = 1 && !u.ready 0 0)
    && ((((lateOp .no 0 0).checkOps 0).tile 0).ops.map (·.late) = [.halted 3])
    && runs (.suspendedContextResume 0 0) (lateOp (.suspended 3) 1 0) (fun u => (u.tile 0).ops.map (·.late) = [.no]
      && (u.tile 0).switching = [(9, 2)] && u.ready 0 0)
    && still (.suspendedContextResume 0 0) (lateOp (.suspended 3) 0 0) = true := by decide +kernel

def sigX : Xfer := { id := 0, ctx := 0, q := 2, kind := .signal 9 1 5, len := 0, sig := none }
def labQ (z : Xfer) : State := labT (fun x => x.setQueue 2 { xfers := [z] })
/-- The same copy out of the tile's own vault, and out of the SRAM of tile 3. -/
def vaultMove : Xfer := { move0 with kind := .move { dLd with space := 1 } (descOf dB) }
def farMove : Xfer := { move0 with kind := .move { dLd with space := 3, first := 3 } (descOf dB) }
theorem wit_Transfers_start : (labQ sigX).bounded ∧ (labQ sigX).executes 0 = true ∧ ((labQ sigX).tile 0).part = some 0
    ∧ (((labQ sigX).tile 0).ctx 0).isStopped = false ∧ 0 < (labQ sigX).obj 0x5100 3 0 ∧ ((labQ sigX).mem (.sram 0)).errs = []
    ∧ ((labQ move0).tile 0).queues = [(2, { xfers := [move0] })] ∧ dLd.space = 0 ∧ (descOf dB).space = 0 ∧ move0.len ≤ 4096 := by decide +kernel
theorem test_queueStart : runs (.queueTransferStart 0 2) (labQ { move0 with phase := .waiting }) (fun u =>
      ((u.tile 0).queue 2).xfers = [move0])
    && runs (.queueTransferStart 0 2) ((labQ { vaultMove with phase := .waiting })) (fun u =>
      ((u.tile 0).queue 2).xfers = [vaultMove] && (u.tile 0).vreqs.map (fun r => (r.own, r.read, r.len)) = [(true, true, 256)])
    && runs (.queueTransferStart 0 2) ((labQ { farMove with phase := .waiting })) (fun u => ((u.tile 0).queue 2).xfers = [farMove]
      && ((u.router 0).buf 4 1).map (fun f => (f.ty, f.dst, f.len, f.xid)) = [(.readReq, 3, 256, 4)])
    && runs (.queueTransferStart 0 2) (labQ sigX) (fun u => ((u.tile 0).queue 2).xfers = [{ sigX with phase := .started }]
      && ((u.router 0).buf 4 1).map (fun f => (f.dst, f.route, f.dests)) = [(1, 9, [⟨1, 0, 0, some 5⟩])]) = true := by decide +kernel
theorem wit_Transfers_limit : ((labQ move0).setObj 0x5100 3 0 1).obj 0x5100 3 0 ≤ 1
    ∧ still (.queueTransferStart 0 2) ((labQ move0).setObj 0x5100 3 0 1) = true := by decide +kernel
/-- The 256 bytes of the copy leave as 128, which wait for the banks of their place; written, they count (R107, R116). -/
def labSend : State := labD.modTile 0 (fun x => x.setQueue 2 { xfers := [move0] })
theorem wit_Transfers_send : (labSend.mem (.sram 0)).errs = [] ∧ dLd.space = 0 ∧ (descOf dB).space = 0
    ∧ (labSend.tile 0).queues = [(2, { xfers := [move0] })] ∧ move0.isMove = true := by decide +kernel
theorem test_send : (let u := labSend.serveAccess 0 ⟨.send 4, [], 0⟩
      ((u.tile 0).queue 2).xfers = [{ move0 with sent := 128 }]
      && (u.tile 0).accs = [⟨.write false [(0x5000, 128)] (leBytes 8 0x3F80000000000000 ++ List.replicate 120 0) [] (.ack 0 4), [0, 1], 0⟩])
    && (let u := labSend.serveAccess 0 ⟨.write false [(0x5000, 2)] [7, 8] [] (.ack 0 4), [], 0⟩
      u.bytes (.sram 0) 0x5000 2 = [7, 8] && ((u.tile 0).queue 2).xfers = [{ move0 with acked := 2 }]) = true := by decide +kernel
def labSlot (v : Slot) : State := labT (fun x => { x with landing := [land1], slots := [(129, v)] })
def credited (v : Slot) : State := (labSlot v).setTile 5 { inbox := [.credit 0 2 1] }
theorem test_landing : runs (.landingDelivery 0 2 1) (labSlot { st := .taken, got := 128, len := 128, ctr := some 3 }) (fun u =>
      ((u.tile 0).slot 2 1).st = .filled && (u.tile 0).incs = [(3, 1, 1)])
    && runs (.slotCreditArrival 0 2 1) (credited { st := .returning, holder := some 5 }) (fun u => (u.tile 0).slot 2 1 = {}
      && (u.tile 5).inbox = [])
    && still (.slotCreditArrival 0 2 1) (labSlot { st := .returning, holder := some 5 }) = true := by decide +kernel

/-- Refused: 17 is the refusing tile, 1 the partition; 256 bytes of transfer 4. -/
def labRef : State := labT (fun x => { x with inbox := [.refusal 4 9 17 1 4 256], queues := [(2, { xfers := [move0] })] })
theorem test_refusal : move0.isMove = true ∧ runs (.refusalResponseReceive 0) labRef (fun u =>
    u.obj 0x5300 8 0 = 4 + 9 * 16 + 17 * 2 ^ 13 + 2 ^ 26 && u.count 0x7300 0xF 0 = 1 && (u.tile 0).inbox = []
      && ((u.tile 0).queue 2).xfers = [{ move0 with acked := 256, refused := true }]) = true := by decide +kernel

/-- A PUT of tile 0 to buffer 2 of tile 1, which has waited 1,025 core cycles. -/
def put1 : Xfer := { id := 4, ctx := 0, q := 2, kind := .put dLd 9 ⟨1, 2, 1, none⟩, len := 256, sig := none, since := some 0 }
def labSp (z : Xfer) : State := ((labD.modTile 0 (fun x => x.setQueue 2 { xfers := [z] })).setTile 1
  { landing := [land1], slots := [(129, { st := .filled })] }).modRegion 0 (fun g => { g with core := 1000000 })
/-- 256 bytes of the PUT have come in whole; the overflow area has 256 bytes. -/
def spIn : SpillIn := { src := 0, id := 4, q := 2, dest := ⟨1, 2, 1, none⟩, len := 256, data := List.replicate 256 7, bad := [] }
def labArr (room : Nat) : State := ((labSp put1).modTile 1 (fun x => { x with spillIn := [spIn] })).setObj 0x5100 0x43 1 room
theorem wit_Spills : (labSp put1).bounded ∧ ((labSp put1).tile 0).part = some 0
    ∧ (labSp put1).endsAtGate 0 9 ((labSp put1).putVc 0 2).val 0 = false
    ∧ 0 + (labSp put1).obj 0x5100 0x41 0 < (labSp put1).coreOf 0 ∧ (labArr 256).overRoom 1 256 = some [(0, 256)]
    ∧ ((labArr 256).tile 1).spillIn = [spIn] ∧ (((labArr 256).tile 1).slot 2 1).st = .filled
    ∧ lab.inReset 0 = false ∧ (lab.core 0).down = false := by decide +kernel
theorem test_spillRequest : runs (.spillRequest 0 2) (labSp put1) (fun u =>
      ((u.router 0).buf 4 0).map (fun f => (f.ty, f.dst, f.q, f.data)) = [(.control, 1, 2, [0])]
      && ((u.tile 0).queue 2).xfers = [{ put1 with asked := true }])
    && still (.spillRequest 0 2) ((labSp put1).modRegion 0 (fun g => { g with core := 1024 })) = true := by decide +kernel
theorem test_spillArrival : runs (.spilledTransferArrival 1 0 2) (labArr 256) (fun u =>
      (u.tile 1).spilled = [⟨2, 1, 0, [(0, 256)], 256, none, false⟩] && (u.tile 1).vreqs.map (fun r => (r.own, r.read, r.len)) = [(false, false, 256)])
    && runs (.spilledTransferArrival 1 0 2) (labArr 255) (fun u => decide (Told lab u 0x3020 1)) = true := by decide +kernel
def labGr (es : List (Nat × Bool)) : State := labT (fun x => { x with inbox := [.spillRequest 1 3 2], episodes := es })
theorem test_spillGrant : runs (.spillGrant 0 2 1) (labGr []) (fun u => (u.tile 0).episodes = [(2, false)]
      && ((u.router 0).buf 4 0).map (fun f => (f.ty, f.dst, f.data)) = [(.control, 1, [1])] && decide (Told lab u 0x3020 0))
    && runs (.spillGrant 0 2 1) (labGr [(2, false)]) (fun u => (u.tile 0).episodes = [(2, false)] && u.ring = []) = true := by
  decide +kernel
/-- Tile 1 is asked for 64 bytes of its SRAM by tile 0. -/
def labRd : State := { lab with tiles := [(1, { part := some 0, inbox := [.readRequest 0 4 128 3 [(0x1000, 64)]] })] }
theorem wit_Spills_remote : labRd.bounded ∧ (labRd.gather (.sram 1) [(0x1000, 64)]).length = 64 ∧ (labRd.mem (.sram 1)).errs = [] := by
  decide +kernel
theorem test_remoteRead : runs (.remoteReadRequest 0 4) labRd (fun u => (u.tile 1).inbox = []
      && (u.tile 1).accs = [⟨.reply 0 4 128 0 [(0x1000, 64)], [0], 0⟩])
    && ((((labRd.replyStep 1 0 4 128 0 [(0x1000, 64)]).router 1).buf 4 5).map (fun f => (f.ty, f.dst, f.xid, f.off, f.data.length)) =
      [(.response, 0, 4, 128, 64)]) = true := by decide +kernel

/-! The network: route 9 of partition 0 leaves tile 0 eastward, toward tile 1. -/

def flit0 : Flit := { vc := 1, ty := .data, part := 0, route := 9, dst := 1, src := 0, head := true, tail := true, pktLen := 1 }
def labN (f : Router → Router) : State := lab.modRouter 0 f
def eastE : BitVec 32 := 67
def labF (e : BitVec 32) (p vc : Nat) : State := labN (fun r => { (r.setBuf p vc [{ flit0 with vc := Fin.ofNat 6 vc }]) with sets := [(9, e)] })
/-- The bid of the flit at an input for its output; a held flit of an older packet bids before it. -/
def bidE (s : State) : Bid := ⟨1, 4, rankOf 1 (s.ageNow 0 flit0) 4 false⟩
def labF2 : State := (labF eastE 4 1).modRouter 0 (fun r => r.setBuf 0 1 [{ flit0 with age := 9 }])
theorem wit_Flits : (labF eastE 4 1).bounded ∧ ((labF eastE 4 1).region (regionOf 0)).netUp = true ∧ entryOk eastE 1 = true
    ∧ entryMerge eastE = false ∧ entryOuts eastE = [1] ∧ entryLeaf eastE 1 = false ∧ neighbour 0 1 = some 1 ∧ regionOf 1 = 0
    ∧ (labF eastE 4 1).canSend 0 1 1 4 flit0 = true ∧ entryOk 0 1 = false
    ∧ mfind 1 ((labF eastE 4 1).router 0).sent ≠ some ((labF eastE 4 1).netOf 0)
    ∧ (∀ b ∈ (labF eastE 4 1).bids 0, b.out = 1 → (bidE (labF eastE 4 1)).rank ≤ b.rank)
    ∧ (∃ b ∈ labF2.bids 0, b.out = 1 ∧ b.rank < (bidE labF2).rank)
    ∧ neighbour 0 0 = some 96 ∧ neighbour 96 2 = some 0 ∧ opposite 2 = 0 ∧ (lab.core 0).down = false := by decide +kernel
theorem test_flitReceive : runs (.flitReceive 0 4 1 true) (labF eastE 4 1) (fun u =>
      (u.router 0).buf 4 1 = [] && (u.router 1).buf 3 1 = [flit0] && u.count 0x7300 2 0 = 1)
    && runs (.flitReceive 0 4 1 true) labF2 (fun u => (u.router 0).buf 4 1 = [flit0] && (u.router 1).buf 3 1 = [])
    && runs (.flitReceive 0 0 1 true) (labF 0 0 1) (fun u => (u.router 0).buf 0 1 = [] && u.count 0x7300 9 0 = 1
      && ((u.router 0).buf 4 5).map (fun f => (f.ty, f.dst, f.data)) = [(.response, 0, [4])]) = true := by decide +kernel
/-- A body flit follows its head, though the entry has changed; one whose head is lost is lost (R142, R145). -/
theorem test_bodyFlit : (let body : Flit := { flit0 with head := false }
    runs (.flitReceive 0 4 1 true) ((labF 0 4 1).modRouter 0 (fun r => { r.setBuf 4 1 [body] with dec := [(bufKey 4 1, ⟨0, [1], [], 7⟩)] }))
      (fun u => ((u.router 1).buf 3 1).length = 1)
    && runs (.flitReceive 0 4 1 true) ((labF eastE 4 1).modRouter 0 (fun r => r.setBuf 4 1 [body]))
      (fun u => (u.router 1).buf 3 1 = [] && (u.router 0).buf 4 1 = [])) = true := by decide +kernel
def failed (n : Nat) : State := (labF eastE 0 1).modRouter 0 (fun r => { r with replays := [(bufKey 0 1, n)] })
theorem test_hopReplay : runs (.flitReceive 0 0 1 false) (labF eastE 0 1) (fun u => mget 0 (u.router 0).replays (bufKey 0 1) = 3
      && ((u.router 0).buf 0 1).length = 1)
    && runs (.flitReceive 0 0 1 false) (failed 32) (fun u => (u.router 0).buf 0 1 = [] && (u.router 0).dead = [0]
      && (u.router 96).dead = [2] && decide (Told lab u 0x3060 0))
    && runs (.hopReplayRequest 96 2 1) (failed 3) (fun u =>
      mget 0 (u.router 0).replays (bufKey 0 1) = 2 && u.count 0x7300 6 96 = 1) = true := by decide +kernel

def mergeE : BitVec 32 := 1 + 6 + 16 + 64 + 0x8000 + 0x80000
def red0 : Flit := { flit0 with vc := 3, ty := .reduce, data := leBytes 4 0x3F800000 }
def labMg : State := labN (fun r => { (r.setBuf 4 3 [red0]).setBuf 0 3 [red0] with sets := [(9, mergeE)] })
theorem wit_Merges : labMg.bounded ∧ entryOk mergeE 3 = true ∧ entryMerge mergeE = true ∧ entryOperands mergeE = [4, 0]
    ∧ entryOuts mergeE = [1] ∧ labMg.canSend 0 1 3 (mergeWho 0 9) red0 = true ∧ (labMg.router 0).merging = []
    ∧ (labMg.router 0).drops = [] ∧ (labMg.router 0).dead = [] ∧ (labMg.router 0).replays = []
    ∧ labMg.wins 0 ⟨1, mergeWho 0 9, rankOf 3 (labMg.ageNow 0 red0) 4 false⟩ = true ∧ (labMg.region 0).netUp = true := by decide +kernel
theorem test_mergeEmit : runs (.mergeEmit 0 0 9) labMg (fun u => (u.router 0).buf 4 3 = [] && (u.router 0).buf 0 3 = []
      && ((u.router 1).buf 3 3).map (·.data) = [leBytes 4 0x40000000])
    && runs (.mergeEmit 0 0 9) (labMg.modRouter 0 (fun r => r.setBuf 0 3 [{ red0 with pktLen := 2, tail := false }])) (fun u =>
      ((u.router 1).buf 3 3).map (fun f => (f.data, f.poison)) = [(leBytes 4 0x7FC00000, true)] && u.count 0x7300 0xE 0 = 1) = true := by
  decide +kernel

def labWd (vc : Nat) : State :=
  ((labF eastE 4 vc).modRouter 0 (fun r => { r with since := [(bufKey 4 vc, 0)] })).modRegion 0 (fun g => { g with net := 300000000 })
theorem wit_Watches : (labWd 1).bounded ∧ ((labWd 1).core 0).down = false ∧ (labWd 1).obj 0x5300 5 0 ≠ 0
    ∧ 0 + 0 + (labWd 1).obj 0x5300 5 0 < (labWd 1).netOf 0 ∧ (labWd 1).pstate 0 ≠ 5 ∧ (labWd 1).isLive 0 = true := by decide +kernel
theorem test_watchdog : runs (.routeWatchdogExpiry 0 4 1) (labWd 1) (fun u => u.pstate 0 = 6 && u.obj 0x2103 1 0 = 1)
    && runs (.routeWatchdogExpiry 0 4 5) (labWd 5) (fun u => u.pstate 0 = 3 && decide (Told lab u 0x3050 0)) = true := by decide +kernel
def forkE : BitVec 32 := 128 + 64 + 4 + 1
/-- A fork at tile 0: east and south; the hold of its branch east is full. -/
def mc : Flit := { flit0 with vc := 2 }
def labFk : State := (labN (fun r => { r with sets := [(9, forkE)], forkSince := [(4, 0)], holds := [{ input := 4, out := 1, credit := false, flits := List.replicate 8 mc }] }.setBuf 4 2 [mc])).modRegion 0
  (fun g => { g with net := 10000000 })
theorem wit_Watches_fork : 0 + labFk.obj 0x5300 6 0 < labFk.netOf 0 ∧ labFk.fullBranch 0 4 = some 1 ∧ (labFk.router 0).forkTold = []
    ∧ (labFk.router 0).buf 4 2 = [mc] ∧ labFk.plan 0 4 2 mc = .fork [1, 2] [] ∧ labFk.withheld 0 4 = true
    ∧ mfind 4 (labFk.router 0).forkSince = some 0 ∧ (labFk.core 0).down = false := by decide +kernel
theorem test_forkStall : runs (.forkStallExpiry 0 4) labFk (fun u => (u.router 0).forkTold = [4]
    && u.ring.any (fun e => e.code = 0x3010 && e.src = 0 && e.data = [9, 0, 0, 1])) = true := by decide +kernel

def labStop : State := { (labF eastE 4 1).setObj 0x2101 1 0 6 with tablesOn := true }
/-- The flush has reached tile 0, and a flit of the partition comes later. -/
def labAfter : State := (labStop.flushHere 0 0).modRouter 0 (fun r => r.setBuf 0 1 [flit0])
theorem wit_Flushes : labStop.bounded ∧ labStop.isLive 0 = false ∧ lab.isLive 0 = true ∧ (labStop.core 1).down = false
    ∧ labStop.serviceTile = some 0 ∧ labStop.floor.isSome = true ∧ (labAfter.region (regionOf 0)).netUp = true
    ∧ (labAfter.router 0).buf 0 1 = [flit0] ∧ flit0.isCast = false ∧ labAfter.flushes 0 0 = true
    ∧ mget 0 (labAfter.router 0).replays (bufKey 0 1) = 0
    ∧ ((lab.modRegion 1 (fun g => { g with st := .latched })).region 1).isOff = true := by decide +kernel
theorem test_flush : runs (.partitionFlush 0) labStop (fun u =>
      (mget [] (u.router 0).gateIn (bufKey 3 0)).map (fun f => (f.isCast, f.part)) = [(true, 0)])
    && still (.partitionFlush 0) lab && still (.partitionFlush 0) (labStop.setCore 1 { down := true })
    && ((labAfter.router 0).buf 4 1 = [] && labAfter.count 0x7300 0xA 0 = 1)
    && runs (.flitReceive 0 0 1 true) labAfter (fun u => (u.router 0).buf 0 1 = [] && u.count 0x7300 0xA 0 = 2) = true := by
  decide +kernel
/-- Region 1 is tiles 12 to 23 of rows 0 to 11: tile 11 loses its east link. -/
theorem test_neighbourLoss : runs (.neighbourLinkLoss 1) (lab.modRegion 1 (fun g => { g with st := .latched })) (fun u =>
    (u.router 11).dead.contains 1 && !(u.router 0).dead.contains 1) = true := by decide +kernel
theorem test_tableRewrite : runs .directionTableRewrite ({ lab with floor := some [(0, 3)] }.modRouter 5 (fun r => { r with dead := [1] }))
    (fun u => u.tablesOn && u.avoid.contains 21 && u.avoid.contains 2) = true := by decide +kernel

/-! The memory tiers. -/

/-- Stack 0 and engine 0 run; host sub-port none; sub-port 0 of port 1 is up. -/
def labE : State := { ((lab.modEngine 0 (fun x => { x with st := 2, trained := true })).setSub 1 0 { st := 2, groups := [0, 1] }).modEngine 1
  (fun x => { x with st := 2, trained := true }) with regions := [0, 1, 32, 47].map (fun r => (r, { st := .running })) }
def labUp (ps : List (Nat × Byte)) : State := labE.upset (ps.map (fun x => ⟨.stack 1, 5, x.1, x.2⟩))
theorem wit_Scrubbing : labE.bounded ∧ (labE.region (regionOf 0)).netUp = true ∧ labE.vaultUsable 0 = true ∧ labE.stackUp 1 = true
    ∧ ((labUp [(3, 1)]).mem (.stack 1)).wordErrs 5 ≠ [] ∧ likeMarker 64 (((labUp [(3, 1)]).mem (.stack 1)).wordErrs 5) = false
    ∧ rsDecode 68 (((labUp [(3, 1)]).mem (.stack 1)).wordErrs 5) = .corrected (((labUp [(3, 1)]).mem (.stack 1)).wordErrs 5)
    ∧ rsDecode 68 (((labUp [(3, 1), (9, 1), (30, 4)]).mem (.stack 1)).wordErrs 5) = .bad
    ∧ likeMarker 64 (((labUp [(3, 1), (9, 1), (30, 4)]).mem (.stack 1)).wordErrs 5) = false := by decide +kernel
theorem test_scrub : runs (.scrubRead (.stack 1) 5 []) (labUp [(3, 1)]) (fun u => (u.mem (.stack 1)).wordErrs 5 = []
      && u.count 0x7410 1 1 = 1)
    && runs (.scrubRead (.stack 1) 5 []) (labUp [(3, 1), (9, 1), (30, 4)]) (fun u => (u.mem (.stack 1)).isMarked 64 5
      && u.count 0x7410 2 1 = 1 && decide (Told labE u 0x4020 1))
    && runs (.vaultRefresh 0 3) lab (fun u => (u.tile 0).refresh = some (3, 0)) && still (.scrubRead (.stack 1) 5 []) labE = true := by
  decide +kernel
/-- A word that holds the poison marker. -/
def labMk : State := match exec (.scrubRead (.stack 1) 5 []) (labUp [(3, 1), (9, 1), (30, 4)]) with | .next u => u | _ => labE
theorem wit_Scrubbing_marked : likeMarker 64 ((labMk.mem (.stack 1)).wordErrs 5) = true ∧ (labMk.mem (.stack 1)).wordErrs 5 ≠ []
    ∧ runs (.scrubRead (.stack 1) 5 []) labMk (fun u => u.count 0x7410 3 1 = labMk.count 0x7410 3 1 + 1) = true := by decide +kernel

def labCl (n : Nat) : State := (lab.poke (.vault 0) 4 [7]).modRegion 0 (fun g => { g with clearing := some 10, net := n })
theorem wit_VaultClear : (labCl 3145738).bounded ∧ ((labCl 3145738).region 0).clearing = some 10
    ∧ 10 + 3145728 ≤ ((labCl 3145738).region 0).net := by decide +kernel
theorem test_vaultClearDone : runs (.vaultClearDone 0) (labCl 3145738) (fun u => u.peek (.vault 0) 4 = 0 && (u.region 0).clearing = none)
    && still (.vaultClearDone 0) (labCl 3145737) = true := by decide +kernel

def labRt (p : Pass) : State := { (lab.setObj 0x4040 3 0 1).modRegion 0 (fun g => { g with corrected := 1001, retrain := p }) with
  passes := if p = .pending then [0] else [] }
theorem wit_Retraining : (labRt .idle).bounded ∧ ((labRt .idle).region 0).retrain = .idle ∧ (labRt .idle).obj 0x4040 3 0 = 1
    ∧ 1000 < ((labRt .idle).region 0).corrected ∧ (labRt .pending).passes.head? = some 0
    ∧ (∀ q ∈ (labRt .pending).regions, q.2.retrain.isRunning = false) ∧ ∃ q ∈ (labRt (.running 0)).regions, q.2.retrain.isRunning = true := by
  decide +kernel
theorem test_vaultRetrain : runs (.retrainPolicyTrigger (.vaults 0)) (labRt .idle) (fun u => (u.region 0).retrain = .pending && u.passes = [0])
    && runs (.vaultRetrainStart 0) (labRt .pending) (fun u => (u.region 0).retrain = .running 0 && u.passes = [])
    && still (.vaultRetrainStart 0) (labRt (.running 0))
    && runs (.vaultRetrainEnd 0 true) (labRt (.running 0)) (fun u => (u.region 0).retrain = .idle && decide (Told lab u 0x4030 0)) = true := by
  decide +kernel
def labCh (p : Pass) : State := { (labE.setObj 0x6830 3 1 1).modEngine 1 (fun x => { x with second := [(2, 1001)], retrain := [(2, p)] }) with
  chPasses := if p = .pending then [(1, 2)] else [] }
theorem wit_Retraining_channel : ((labCh .idle).engine 1).pass 2 = .idle ∧ 1000 < mget 0 ((labCh .idle).engine 1).second 2
    ∧ (labCh .pending).chPasses.head? = some (1, 2) ∧ (∀ q ∈ (labCh .pending).engines, ∀ c ∈ q.2.retrain, c.2.isRunning = false)
    ∧ ((labCh (.running 0)).engine 1).retrain.find? (fun c => c.2.isRunning) = some (2, .running 0) := by decide +kernel
theorem test_channelRetrain : runs (.retrainPolicyTrigger (.channel 1 2)) (labCh .idle) (fun u => (u.engine 1).pass 2 = .pending)
    && runs (.channelRetrainStart 1) (labCh .pending) (fun u => (u.engine 1).pass 2 = .running 0)
    && runs (.channelRetrainEnd 1 true) (labCh (.running 0)) (fun u => (u.engine 1).pass 2 = .idle && decide (Told lab u 0x4030 1)) = true := by
  decide +kernel

/-- A far request of module 5 to stack 1 of this module. -/
def far0 (b : Nat) : FarReq := ⟨1, 0, 5, false, BitVec.ofNat 64 (1 * 2 ^ 44 + b), 2, 0, 0, false⟩
def labFar : State := ((labE.setObj 0x6860 1 1 0x200000).setObj 0x6860 2 1 0x200000).setObj 0x6860 3 1 1
/-- The channel of the bytes asked for retrains. -/
def busyFar : State := labFar.modEngine 1 (fun x => { x with retrain := (List.range 16).map (fun c => (c, .running 0)) })
theorem wit_Far : labFar.bounded ∧ labFar.hostSub ≠ some (1, 0) ∧ (labFar.sub 1 0).isUp = true
    ∧ farModule (far0 0x3FFFFE).addr.toNat = labFar.moduleId.toNat ∧ farStack (far0 0x3FFFFE).addr.toNat = 1
    ∧ farByte (far0 0x3FFFFE).addr.toNat = 0x3FFFFE ∧ farIsHost (far0 0x3FFFFE).addr.toNat = false
    ∧ farZeros (far0 0x3FFFFE).addr.toNat = true ∧ within 0x3FFFFE 2 0x200000 0x200000 = true
    ∧ within 0x3FFFFF 2 0x200000 0x200000 = false
    ∧ (far0 0x3FFFFE).hops.toNat < 63 ∧ labFar.linkUp 1 0 = true ∧ labFar.edgeRuns = true
    ∧ labFar.chanBusy 1 0x3FFFFE 2 = false ∧ busyFar.chanBusy 1 0x3FFFFE 2 = true
    ∧ (labFar.engine 1).reqs = [] ∧ (labFar.engine 1).commits = [] ∧ (labFar.mem (.stack 1)).errs = []
    ∧ (labFar.setObj 0x2003 3 0 1).edgeRuns = false
    ∧ (labFar.takeRx 1 0 (linkChannel 1 false) (max 1 ((2 + 4095) / 4096))).2 = false := by decide +kernel
theorem test_far : runs (.farWriteRequest (far0 0x3FFFFE) [1, 2]) labFar (fun u => u.bytes (.stack 1) 0x3FFFFE 2 = [1, 2])
    && runs (.farWriteRequest (far0 0x3FFFFF) [1, 2]) labFar (fun u => u.count 0x7410 5 1 = 1 && u.mems = labFar.mems)
    && runs (.farReadRequest (far0 0x3FFFFE)) labFar (fun u => u.mems = labFar.mems && u.count 0x7410 5 1 = 0)
    && runs (.farReadRequest (far0 0x3FFFFE)) busyFar (fun u => (u.engine 1).reqs = [.farRead (far0 0x3FFFFE)])
    && runs (.farWriteRequest (far0 0x3FFFFE) [1]) labFar (fun u => u.mems = labFar.mems
      && (u.engine 1).commits = [⟨far0 0x3FFFFE, [1], false⟩])
    && still (.farReadRequest (far0 0x3FFFFE)) (labFar.setObj 0x2003 3 0 1) = true := by decide +kernel

/-! A training job on this module alone: one group of one block of four parameters, owned here by engine 1, whose working copy
(64 bytes of elements, 16 of scales, a stamp table) lies on stack 1. -/

def area (own : Bool) : WcArea := ⟨1, own, 0x200000, 0x210000, 64, 16, 5, 0, 0, 1, 0x220000⟩
def block0 : BlockPlan := { group := 0, block := 0, owner := 0, engine := 1, state := .stack 0x100000, params := 4, contrib := 1,
                            inputs := [none, some (2, 0)], redPort := 1, copyIn := some (1, 0) }
def job0 : JobPlan :=
  { scaled := true, modules := 1, groups := [⟨0, 1, 1, 0, 0, 0, 0, 0, false⟩], blocks := [block0], areas := [area true, area false],
    engines := [⟨1, 0x1000000, 0x4000000, 0x8000000⟩], contributes := 0, subports := [(1, 0)] }
def labJob (j : JobPlan) (f : Part → Part) : State :=
  { labE with parts := [(0, f { bin := some { training := true, job := some j, windows := [] } })] }
def labJ : State := labJob job0 id

/-- The row of 64 A32 elements at the start of the working copy in stack 1. -/
def wcRead : Desc := { dLd with space := 4, addr := 0x1000, first := 1 }
/-- Route 9 begins at the first gate of stack 1 and leaves it eastward. -/
def gate1 : Nat := (homeGates 1).headD 0
def mcE : BitVec 32 := 64 + 4 + 1
def mc0 : Xfer := { id := 4, ctx := 0, q := 2, kind := .mcast wcRead 9 [⟨1, 2, 1, none⟩] 2,
                    len := 256, sig := none, phase := .started }
def read0 : HeldRead := ⟨0, 4, 0, 2, wcRead, 9, [⟨1, 2, 1, none⟩]⟩
def labMc : State := { labJ.modTile 0 (fun x => { x with queues := [(2, { xfers := [mc0] })], stamp := 1 }) with
  engines := [(1, { st := 2, trained := true, reads := [read0] })] }
/-- Channels of the range retrain. -/
def labMcBusy : State := labMc.modEngine 1 (fun x => { x with retrain := (List.range 16).map (fun c => (c, .running 0)) })
/-- The block that the read covers has settled for the step before. -/
def labMc2 : State := (labMc.store (.stack 1) 0x220000 (leBytes 4 1)).modRouter gate1 (fun r => { r with sets := [(9, mcE)] })
theorem wit_Millrace : labMc.bounded ∧ labMc.job 0 = some job0 ∧ labMc.stackUp 1 = true ∧ (labMc.engine 1).heldReads = []
    ∧ (labMc.engine 1).reads = [read0] ∧ (labMc.engine 1).reqs = [] ∧ labMc.readBusy read0 = false
    ∧ labMcBusy.readBusy read0 = true ∧ (labMc.mem (.stack 1)).errs = [] ∧ labMc2.readBusy read0 = false
    ∧ (∃ ab ∈ coveredBlocks job0 1 wcRead.segments, labMc.stampGap read0 ab < 0)
    ∧ (∀ ab ∈ coveredBlocks job0 1 wcRead.segments, labMc2.blockStamp ab.1 ab.2 = 2 - 1) ∧ labMc2.treeGate 1 0 9 2 = some gate1
    ∧ labMc2.sourceCredit 0 9 6912 gate1 = false := by decide +kernel
theorem test_stackMcast : runs (.stackMcastRead 0 4) labMc (fun u => (u.engine 1).heldReads = [read0] && (u.engine 1).reads = [])
    && still (.stackMcastRead 0 4) labMcBusy
    && runs (.stackMcastRead 0 4) labMc2 (fun u => (u.engine 1).heldReads = [] && ((u.tile 0).queue 2).xfers = [{ mc0 with phase := .answered }]
      && (mget [] (u.router gate1).gateIn (bufKey (engineSide 1) 2)).map (fun f => (f.vc, f.route, f.head, f.tail)) = [(2, 9, true, false), (2, 9, false, true)]
      && u.count 0x7420 1 1 = 256) = true := by decide +kernel
def frame0 : CopyFrame := ⟨0, 0, 7, List.replicate 64 3, List.replicate 16 4, false, {}⟩
theorem wit_Millrace_copy : planBlock job0 0 0 = some block0 ∧ planArea job0 false 0 0 = some (area false) ∧ (labJ.sub 1 0).isUp = true
    ∧ labJ.linkUp 1 0 = true ∧ labJ.wayOpen (1, 0) {} = true ∧ labJ.gatherFree (area false) 0 = true ∧ (labJ.engine 1).reqs = []
    ∧ (labJ.part 0).digested.contains 7 = false
    ∧ (labJ.takeRx 1 0 (linkChannel 2 false) 1).2 = false ∧ block0.copyOut = [] ∧ (labJ.engine 1).heldReads = []
    ∧ (labJ.mem (.stack 1)).errs = [] ∧ elemAt (area false) 0 + 64 ≤ scaleAt (area false) 0
    ∧ scaleAt (area false) 0 + 16 ≤ stampAt (area false) 0 := by decide +kernel
theorem test_allgather : runs (.allgatherArrival 1 0 0 frame0) labJ (fun u => u.bytes (.stack 1) 0x200000 65 = List.replicate 64 3 ++ [0]
    && u.blockStamp (area false) 0 = 7 && u.count 0x7420 4 1 = 1)
    && still (.allgatherArrival 1 1 0 frame0) labJ = true := by decide +kernel
def block9 : BlockPlan := { block0 with owner := 9 }
theorem wit_Millrace_digest : (labJob { job0 with blocks := [block9] } id).isLive 0 = true ∧ 0 < gatherCount { job0 with blocks := [block9] } 9 1
    ∧ ((labJob { job0 with blocks := [block9] } id).part 0).rollups = []
    ∧ (labJob { job0 with blocks := [block9] } id).linkUp 1 0 = true
    ∧ (labJob { job0 with blocks := [block9] } id).wayOpen (1, 0) {} = true := by decide +kernel
theorem test_digestRecord : runs (.digestRecordReceive ⟨1, 0, {}⟩ 0 7 9 1 55) (labJob { job0 with blocks := [block9] } id) (fun u =>
    (u.part 0).rollups.any (fun r => sameRollup r 0 7 9 1 && r.theirs = some 55)) = true := by decide +kernel

/-! The tailrace. -/

def hdr0 : TailHdr := { stamp := 1, block := 0, group := 0, k := 0, poison := false, fp16 := true, contrib := 1 }
def in0 (i : Option (PortId × SubId)) (k : BitVec 5) : RedIn := ⟨0, i, ⟨{ hdr0 with k }, [1, 2]⟩, [0, 1], false, 0⟩
/-- The unit of port 1 sends the block on through sub-port 0 of port 2, from which its second input comes. -/
def block1 : BlockPlan := { block0 with output := some (2, 0) }
def labIn : State := ((labJob { job0 with blocks := [block1] } id).setSub 2 0 { st := 2 }).modPort 1 (fun x => { x with
  ins := [in0 none 0, in0 (some (2, 0)) 1] })
/-- Packets of VC3 wait for credits there. -/
def labStuck : State := labIn.setSub 2 0 { st := 2, queue := [⟨{ vc := 3, layer := false, ty := 4, slots := 1, dst := 9, src := 0, job := 0 }, [], []⟩] }
/-- The block has been emitted from this input. -/
def labEm : State := (labJ.setSub 2 0 { st := 2 }).modPort 1 (fun x => { x with done := [⟨0, 0, 1, [none, some (2, 0)]⟩] })
theorem wit_PortsReduce : labJ.bounded ∧ labJ.isLive 0 = true ∧ (labJ.port 1).failed = false ∧ (labIn.sub 2 0).isUp = true
    ∧ (in0 none 0).isFor 0 none 0 = true ∧ (in0 none 0).whole = true ∧ (in0 (some (2, 0)) 1).isFor 0 (some (2, 0)) 0 = true
    ∧ planIndex { job0 with blocks := [block1] } 0 0 = 0 ∧ (labIn.takeTail 2 0).2.1 = false ∧ blockKey 0 0 = 0
    ∧ (labJ.setSub 2 0 { st := 2 }).linkUp 2 0 = true ∧ labEm.linkUp 2 0 = true ∧ labEm.wayOpen (2, 0) {} = true
    ∧ labIn.sideClocked (portSide 1) = true ∧ (labIn.sub 2 0).queue = []
    ∧ (labStuck.sub 2 0).queue.any (fun k => k.hdr.vc = 3) = true
    ∧ (labIn.sub 2 0).takes = true ∧ (reduceBlocks [(in0 none 0).blk, (in0 (some (2, 0)) 1).blk]).isSome := by decide +kernel
theorem test_partReceive : runs (.tailracePartReceive 1 0 (some ⟨(2, 0), 0, {}⟩) ⟨hdr0, []⟩) (labJ.setSub 2 0 { st := 2 }) (fun u =>
      (u.port 1).ins.map (fun r => (r.input, r.parts)) = [(some (2, 0), [0])])
    && runs (.tailracePartReceive 1 0 (some ⟨(2, 0), 0, {}⟩) ⟨hdr0, []⟩) labEm (fun u => (u.port 1).ins = [] && u.count 0x7500 2 1 = 1) = true := by
  decide +kernel
/-- Unequal step counters k: the block goes on poisoned (R203). -/
theorem test_portEmit : runs (.portReductionEmit 1 0 0 0) labIn (fun u => (u.port 1).ins = [] && u.count 0x7500 1 1 = 1
      && u.count 0x7500 2 1 = 1 && (u.port 1).done = [⟨0, 0, 1, [none, some (2, 0)]⟩])
    && still (.portReductionEmit 1 0 0 0) labStuck = true := by decide +kernel

/-! The step verdict. -/

def ver0 (stamp : BitVec 32) (flags : BitVec 16) : Verdict := ⟨stamp, flags, 1, 0, 0, List.replicate 12 0⟩
def jobUp : JobPlan := { job0 with vUp := some (1, 0) }
def labVj : State := labJob jobUp (fun x => { x with contribs := [(1, { handled := 1, skipped := 0 })] }) |>.setObj 0x8600 0x11 0 1
def jobDown : JobPlan := { job0 with vDown := [(1, 0)] }
theorem wit_Verdicts : labVj.bounded ∧ labVj.job 0 = some jobUp ∧ labVj.mayJoin 0 jobUp = true ∧ (labVj.sub 1 0).takes = true
    ∧ ((labJob jobDown id).part 0).own = [] ∧ ((labJob jobDown id).part 0).verdictFrom 1 (some (1, 0)) = none
    ∧ (labJob jobDown id).linkUp 1 0 = true ∧ (labJob jobDown id).wayOpen (1, 0) {} = true ∧ ((labJob jobDown id).sub 1 0).takes = true
    ∧ 0 < stampDiff 1 (labJ.part 0).lastStamp ∧ stampDiff 0 (labJ.part 0).lastStamp ≤ 0 ∧ jobUp.vDown = [] := by decide +kernel
theorem test_verdictJoin : runs (.verdictJoin 0) labVj (fun u => (u.part 0).joined = [(1, 0)] && (u.part 0).own.length = 1
    && u.count 0x7500 3 1 = 1) = true := by decide +kernel
theorem test_verdictCombine : runs (.verdictCombine 0 (1, 0) ⟨ver0 1 0, {}⟩) (labJob jobDown id) (fun u =>
    (u.part 0).inputs = [⟨(1, 0), ver0 1 0, false, false⟩] && (u.part 0).lastStamp = 0) = true := by decide +kernel
/-- Poison in the verdict lowers the loss scale exponent from 12 to 11 (R257); a record of another module count is sent on
and not applied (R210). -/
theorem test_verdictApply : runs (.verdictApply 0 ⟨ver0 1 1, {}⟩) ((labJ.setObj 0x8100 8 0 0).setObj 0x8100 1 0 12) (fun u =>
      (u.part 0).lastStamp = 1 && u.obj 0x8600 1 0 = 1 && u.obj 0x8100 1 0 = 11)
    && runs (.verdictApply 0 ⟨{ ver0 1 0 with modules := 2 }, {}⟩) (labJob jobDown id) (fun u => (u.part 0).lastStamp = 0
      && u.count 0x7500 3 1 = 1)
    && still (.verdictApply 0 ⟨{ ver0 1 0 with modules := 2 }, {}⟩) labJ && still (.verdictApply 0 ⟨ver0 0 1, {}⟩) labJ = true := by decide +kernel
def labVt (now : Nat) : State := { labJob job0 (fun x => { x with joined := [(1, 0)] }) with now := now * 32 }
theorem test_verdictTimeout : runs (.verdictTimeout 0) (labVt (labJ.obj 0x8610 1 0 * 117500 + 1)) (fun u => u.pstate 0 = 6 && u.obj 0x2103 1 0 = 3)
    && still (.verdictTimeout 0) (labVt (labJ.obj 0x8610 1 0 * 117500)) = true := by decide +kernel

def relayX : RelayXfer := { teacher := 5, gate := 96, tile := 1, buf := 2, slot := 1, ctr := none, data := [1], poison := false }
def labRl (st : SlotState) (off : Bool) : State := ((labE.setTile 1 { slots := [(129, { st })] }).setRelay 3 (
  { student := some (0, 1), plan := some { relay := 3, other := 1 }, held := [relayX], inflight := 1, discards := off } : Relay))
theorem wit_Relays : (labRl .avail false).bounded ∧ ((labRl .avail false).relay 3).held = relayX :: []
    ∧ (labRl .avail false).sideClocked (relaySide 3) = true ∧ ((labRl .avail true).relay 3).discards = true
    ∧ (((labRl .avail false).tile 1).slot 2 1).st = .avail ∧ (((labRl .filled false).tile 1).slot 2 1).st ≠ .avail := by decide +kernel
/-- A flit on its way from a gate of the west side. -/
def fromGate (u : State) (g vc : Nat) : List Flit := mget [] (u.router g).gateIn (bufKey 3 vc)
theorem test_relay : runs (.relayForward 3) (labRl .avail false) (fun u => (u.relay 3).held = [] && ((u.tile 1).slot 2 1).st = .taken
      && u.count 0x7430 4 0 = 1 && (fromGate u ((labRl .avail false).sideGate 3 0 0 1) 1).map (·.data) = [[1]]
      && (fromGate u 96 5).map (fun f => (f.ty, f.dst, f.edge)) = [(.credit, 5, 4)])
    && still (.relayForward 3) (labRl .filled false)
    && runs (.relayForward 3) (labRl .avail true) (fun u => (u.relay 3).held = [] && u.count 0x7430 0x14 0 = 1
      && (fromGate u 96 5).length = 1) = true := by decide +kernel

/-! The update engines. The owned block of the job has turn 1; the engine expects it. -/

def blkN (n : BitVec 32) (poison : Bool) : TailBlock := ⟨{ hdr0 with stamp := n, poison }, [1, 2, 3, 4]⟩
def whole (b : TailBlock) : RedIn := ⟨0, none, b, [0, 1], false, 0⟩
/-- Block b has come in whole. -/
def labB (b : TailBlock) (f : Engine → Engine) : State := labJ.modEngine 1 (fun x => f { x with expected := [(0, 1)], ins := [whole b] })
def labB1 : State := labB (blkN 1 true) id
/-- Another step of the block is still settling. -/
def busyB (x : Engine) : Engine := { x with settling := [⟨0, 0, 0, 0, []⟩] }
/-- At the boundary stamp: 1 has its turn after verdict 0, and 2 waits for verdict 1; a stamp that is not expected. -/
theorem wit_Blocks : labB1.bounded ∧ labB1.job 0 = some job0 ∧ (planEngine job0 1).isSome ∧ planBlock job0 0 0 = some block0
    ∧ block0.owner = labB1.moduleId ∧ planArea job0 true 0 0 = some (area true) ∧ labB1.isLive 0 = true ∧ (whole (blkN 1 true)).whole = true
    ∧ (labB1.setObj 0x2101 1 0 6).isLive 0 = false ∧ labB1.engineRuns 1 = true ∧ (labB1.engine 1).working 0 0 0 = false
    ∧ (busyB {}).working 0 0 0 = true ∧ stampDiff (labB1.part 0).lastStamp (1 - 1) = 0
    ∧ stampDiff (labB1.part 0).lastStamp (2 - 1) < 0 ∧ mfind (ekey 0 0 0) (labB1.engine 1).expected = some 1
    ∧ labB1.hasJoined 0 1 = false ∧ (labB1.part 0).digested = [] ∧ (labB1.engine 1).heldReads = [] ∧ block0.copyOut = [] := by decide +kernel
def settledAt (u : State) (n : BitVec 32) : Bool := mfind 0 (u.engine 1).settled = some n
def con1 (u : State) : Contribution := mget {} (u.part 0).contribs 1
theorem test_blockArrival : runs (.tailraceBlockArrival 1 0 (blkN 1 true)) labB1 (fun u => settledAt u 1 && (u.engine 1).expected = [(0, 2)]
      && (con1 u).skipped = 1 && (con1 u).handled = 1 && u.count 0x7440 2 1 = 1 && (u.engine 1).ins = [])
    && runs (.tailraceBlockArrival 1 0 (blkN 1 false)) (labB (blkN 1 false) (fun x => { x with expected := [(0, 3)] })) (fun u =>
      u.count 0x7420 5 1 = 1 && (u.part 0).early = flagPoisoned && (con1 u).handled = 0)
    && runs (.tailraceBlockArrival 1 0 (blkN 1 true)) (labB1.setObj 0x2101 1 0 6) (fun u => (u.engine 1).ins = []
      && (u.engine 1).expected = [(0, 1)]) = true := by decide +kernel
theorem test_deferred : runs (.deferredBlockCheck 1 0 0 0) (labB (blkN 9 false) (fun x => { x with deferred := [(0, blkN 1 true)] })) (fun u =>
      (u.engine 1).deferred = [] && settledAt u 1 && (con1 u).skipped = 1)
    && runs (.tailraceBlockArrival 1 0 (blkN 1 true)) (labB (blkN 1 true) busyB) (fun u => (u.engine 1).deferred = [(0, blkN 1 true)])
    && still (.deferredBlockCheck 1 0 0 0) (labB (blkN 9 false) (fun x => { x with deferred := [(0, blkN 2 true)] }))
    && still (.deferredBlockCheck 1 0 0 0) (labB (blkN 9 false) (fun x => busyB { x with deferred := [(0, blkN 1 true)] })) = true := by
  decide +kernel

def settling0 : Settling := ⟨0, 0, 0, 5, []⟩
def vals0 : Vals := ⟨0, 0, 0, 0, 0, false⟩
def far1 (fetched : Bool) : FarOp := { part := 0, group := 0, block := 0, stamp := 5, entry := 3, factor := 0x3F800000, vals := vals0,
                                       fetching := !fetched, fetched }
def labFo (fetched : Bool) : State := labJ.modEngine 1 (fun x => { x with far := [far1 fetched] })
/-- The zero record of a block, with weights of step 4. -/
def rec5 : List Byte := leBytes 4 4 ++ List.replicate 60 0 ++ List.replicate 12288 0
theorem wit_Updates : labJ.bounded ∧ (planEngine job0 1).isSome ∧ block0.copyOut = [] ∧ (labJ.engine 1).heldReads = []
    ∧ (labJ.part 0).digested = [] ∧ (labFo false).isLive 0 = true ∧ (labFo false).engineWaits 1 = false
    ∧ ((labFo false).mem (.stack 1)).errs = [] ∧ (labFo true).stackUp 1 = true ∧ (labFo false).shipping = none
    ∧ ((labFo false).engine 1).shipFar = [] ∧ (planEngine job0 1).all (fun ep => ((labFo false).mergeFor ep 0 0 5).isNone) := by decide +kernel
theorem test_settle : runs (.workingCopySettle 1 0 0) (labJ.modEngine 1 (fun x => { x with settling := [settling0] })) (fun u =>
    (u.engine 1).settling = [] && settledAt u 5) = true := by decide +kernel
theorem test_farFetch : runs (.farFetchResponse 1 0 0 .failed) (labFo false) (fun u => (u.engine 1).far = [] && u.pstate 0 = 6
      && u.obj 0x2103 1 0 = 5)
    && runs (.farFetchResponse 1 0 0 .poisoned) (labFo false) (fun u => (u.engine 1).far = [] && u.count 0x7440 2 1 = 1)
    && runs (.farFetchResponse 1 0 0 (.data rec5)) (labFo false) (fun u => (u.engine 1).far.map (fun f => (f.fetched, f.stamp, f.free))
      = [(true, 5, [3])]) = true := by decide +kernel
theorem test_farWriteback : runs (.farWritebackDone 1 0 0 false) (labFo true) (fun u => (u.engine 1).far = [] && u.pstate 0 = 6)
    && runs (.farWritebackDone 1 0 0 true) (labFo true) (fun u => (u.engine 1).far = [] && settledAt u 5 && u.count 0x7440 5 1 = 1
      && u.count 0x7440 1 1 = 1) = true := by decide +kernel

/-- A job with a sluice of 100 entries, at 0x4000000; its entry 1 holds the owned block's gradient for step 5. -/
def heldHead (kind : Nat) : Entry64 := ⟨5, 0, 0, kind, 0, false, 0, 0, 0⟩
def labHc (a kind : Nat) : State :=
  let s : State := (labE.setPart 0 (labJ.part 0)).setObj 0x8720 1 0 a
  let s : State := s.setObj 0x8720 3 0 5
  match planEngine job0 1 with
  | some ep => s.writeHead ep 1 (heldHead kind)
  | none => s
def labHold : State := { labJ with holdCmd := some ⟨2, 0, 5, 0, 0, 2, []⟩ }
/-- The stack of engine 1 holds an entry that the command has still to drop. -/
def labOpen : State := { labHc 2 1 with holdCmd := some ⟨2, 0, 5, 0, 0, 2, []⟩ }
def labRep : State := (labE.modEngine 3 (fun x => { x with st := 0 })).setObj 0x2003 3 0 1
def away : JobPlan := { job0 with blocks := [block9], groups := [] }
def roll0 : Rollup := ⟨0, 5, 9, 1, 77, 1, none⟩
def labShip : State := { labJ with shipping := some (5, 1) }.modEngine 1 (fun x => { x with settled := [(0, 5)] })
theorem wit_Ends : labHold.bounded ∧ (∀ i, i < 32 → labHold.commandEntries ⟨2, 0, 5, 0, 0, 2, []⟩ i = [] ∧ (labHold.engine i).holdOpen ⟨2, 0, 5, 0, 0, 2, []⟩ = false)
    ∧ labOpen.commandEntries ⟨2, 0, 5, 0, 0, 2, []⟩ 1 ≠ [] ∧ labRep.engineWaits 3 = false ∧ (labRep.engine 3).far = []
    ∧ (contentSegs job0 block0 1).isSome ∧ labRep.obj 0x2003 3 0 ≠ 0 ∧ (labRep.engine 3).st ≠ 2 ∧ labRep.mstate ≠ 3
    ∧ (labRep.engine 3).failed = false ∧ labRep.admittedJobs = [] ∧ (labJob away id).ownedBy away 1 = []
    ∧ labShip.imageBlocks = [(0, job0, block0)] ∧ (labShip.engine 1).shipped = [] ∧ (labShip.engine 1).copies = []
    ∧ (labShip.engine 1).waiting = [] ∧ labShip.stackUp 1 = true ∧ mfind (ekey 0 0 0) (labShip.engine 1).settled = some 5
    ∧ ({ labE with shipping := some (5, 1) } : State).admittedJobs = [] ∧ (labE.core 0).down = false := by decide +kernel
/-- The same block with its record in the far tier: it is asked for first (R250). -/
def farBlock : BlockPlan := { block0 with state := .far 0x1000 }
def labShipFar : State := { labJob { job0 with blocks := [farBlock] } id with shipping := some (5, 1) }.modEngine 1 (fun x =>
  { x with settled := [(0, 5)] })
theorem wit_Ends_far : labShipFar.imageBlocks = [(0, { job0 with blocks := [farBlock] }, farBlock)] ∧ (labShipFar.engine 1).shipFar = []
    ∧ contentSegs { job0 with blocks := [farBlock] } farBlock 1 = none ∧ labShipFar.engineRuns 1 = true ∧ labShip.engineRuns 1 = true
    ∧ runs (.directShipmentComplete 1 0 0) labShipFar (fun u => (u.engine 1).shipFar = [(0, none)] && (u.engine 1).shipped = []) = true := by
  decide +kernel
theorem test_ends : runs .holdCommandDone labHold (fun u => u.holdCmd = none && u.obj 0x8720 7 0 = 2) && still .holdCommandDone labOpen
    && runs (.repairPass 3) labRep (fun u => (u.engine 3).st = 2)
    && runs (.digestRollupSend 1 0) ((labJob away id).modEngine 1 (fun x => { x with rollups := [roll0] })) (fun u =>
      (u.engine 1).rollups = []) = true := by decide +kernel
theorem test_shipment : runs (.directShipmentComplete 1 0 0) labShip (fun u => (u.engine 1).shipped = [0] && u.obj 0x6900 7 0 = 1
      && u.count 0x7440 0xB 1 = 1)
    && runs (.snapshotShipEnd 0) { labE with shipping := some (5, 1) } (fun u => u.shipping = none && u.obj 0x6900 6 0 = 3
      && (u.ring.head?.map (fun v => (v.code, v.step))) = some (0x6070, 5)) = true := by decide +kernel

/-! Partitions. -/

def cmdOf (op : Nat) (params : List Byte) : Taken := { op, tag := 7, part := 0, timeout := 0, params := params ++ List.replicate (48 - params.length) 0, tick := 0 }
def labTk (st : Nat) (c : Taken) (f : Part → Part) : State :=
  { (labE.setObj 0x2101 1 0 st).modPart 0 f with taken := [c] }
def tile0 : TilePlan := { tile := 0, compute := true, vault := true, roles := [.forward], entries := [(0, 0)] }
def img0 : LoadedImage := { part := 0, bin := { tiles := [tile0] } }
/-- Load from stack 1 at offset 4,096, 8 bytes, for job 9. -/
def cLoad : Taken := cmdOf 3 ([1, 0, 0, 0] ++ leBytes 4 4096 ++ leBytes 4 8 ++ leBytes 4 9)
def cStart : Taken := cmdOf 4 (leBytes 4 5 ++ [0])
def rect0 (s : State) : State := s.setObj 0x2100 1 0 0
def hasImg (x : Part) : Part := { x with bin := some img0.bin }
def labLoad : State := rect0 (labTk 1 cLoad id)
theorem wit_Partitions : (labTk 1 (cmdOf 1 [0, 0]) id).bounded ∧ (labTk 1 (cmdOf 1 [0, 0]) id).onlyTaken (cmdOf 1 [0, 0]) 0 1
    ∧ rectOk 0 = true ∧ (labTk 1 (cmdOf 1 [0, 0]) id).rectTaken 0 0 = false ∧ labLoad.onlyTaken cLoad 0 3 ∧ labLoad.pstate 0 = 1
    ∧ bytesAt cLoad.params 0 1 < 32 ∧ bytesAt cLoad.params 4 4 % 4096 = 0 ∧ 0 < bytesAt cLoad.params 8 4
    ∧ bytesAt cLoad.params 4 4 + bytesAt cLoad.params 8 4 ≤ 768 * 2 ^ 20
    ∧ (let r := labLoad.readImage 0 1 4096 8 img0; r.2 = true ∧ r.1.admission 0 (r.1.rect 0) 9 img0.bin = none ∧ labLoad.loadWaits 0 = false) := by decide +kernel
theorem wit_Partitions_start : let s := labTk 2 cStart hasImg
    s.onlyTaken cStart 0 4 ∧ s.pstate 0 = 2 ∧ bytesAt cStart.params 4 1 ≤ 2 ∧ s.clearRuns 0 = false ∧ (s.part 0).barred = none
    ∧ tile0.compute = true ∧ s.obj 0x5000 1 tile0.tile.val = 0 ∧ (labTk 3 (cmdOf 5 []) id).isLive 0 = true
    ∧ (labTk 6 (cmdOf 5 []) id).isLive 0 = false := by decide +kernel
theorem test_partitionDefine : runs (.definePartition 0) (labTk 1 (cmdOf 1 [0x40, 2]) id) (fun u => u.pstate 0 = 1 && u.rect 0 = 0x240
      && u.taken = [])
    && runs (.removePartition 0) (labTk 1 (cmdOf 2 []) id) (fun u => u.pstate 0 = 0 && u.taken = [])
    && runs (.partitionLoad 0 img0) labLoad (fun u => u.pstate 0 = 2 && (u.part 0).bin = some img0.bin && u.obj 0x2102 1 0 = 9) = true := by
  decide +kernel
theorem test_partitionStart : runs (.partitionStart 0) (labTk 2 cStart hasImg) (fun u => u.pstate 0 = 3 && (u.part 0).lastStamp = 4
      && u.obj 0x8600 0x11 0 = 5 && (u.tile 0).stamp = 5 && (u.tile 0).part = some 0 && (u.tile 0).counters = [])
    && runs (.partitionStop 0) (labTk 3 (cmdOf 5 []) id) (fun u => u.pstate 0 = 6 && u.obj 0x2103 1 0 = 6 && u.taken = [])
    && runs (.partitionReset 0) (labTk 3 (cmdOf 6 []) hasImg) (fun u => u.pstate 0 = 2 && (u.tile 0).counters = [] && (u.tile 0).ctxs = [])
    && runs (.partitionReset 0) (labTk 6 (cmdOf 6 []) id) (fun u => u.pstate 0 = 1) = true := by decide +kernel

def isTrain (x : Part) : Part := { x with bin := some { training := true } }
def paused (x : Part) : Part := { isTrain x with pauses := [.command] }
def atStep (s : State) : State := s.modCtx 0 0 (fun y => { y with run := .waiting .step 0 })
def cPause (due : Nat) : Taken := { cmdOf 7 [] with running := true, timeout := due }
def labPz : State := { labTk 3 (cPause 2) paused with now := 32 * 235001, ringFull := true }
def cFence (due : Nat) : Taken := { cmdOf 9 [] with timeout := due }
def labFn : State := { labTk 3 (cFence 2) id with now := 32 * 235001 }
theorem wit_Pauses : (labTk 3 (cmdOf 7 []) isTrain).onlyTaken (cmdOf 7 []) 0 7 ∧ (labTk 3 (cmdOf 7 []) isTrain).isTraining 0 = true
    ∧ (atStep (labTk 3 (cPause 0) paused)).pauseDone 0 = true ∧ (labTk 3 (cPause 0) paused).pauseDone 0 = false
    ∧ (labTk 5 (cmdOf 8 []) paused).onlyTaken (cmdOf 8 []) 0 8 ∧ (labTk 3 (cmdOf 9 []) id).onlyTaken (cmdOf 9 []) 0 9
    ∧ (cPause 2).due = some 235000 ∧ (cFence 2).due = some 235000 ∧ labPz.tick = 235001 ∧ (labPz.part 0).pauses = [.command] := by decide +kernel
theorem test_pauses : runs (.partitionPause 0) (labTk 3 (cmdOf 7 []) isTrain) (fun u => (u.part 0).pauses = [.command]
      && u.taken = [{ cmdOf 7 [] with running := true }] && u.pstate 0 = 3)
    && runs (.partitionPaused 0) (atStep (labTk 3 (cPause 0) paused)) (fun u => u.pstate 0 = 5)
    && runs (.partitionResume 0) { labTk 5 (cmdOf 8 []) paused with ringFull := true } (fun u => u.pstate 0 = 3 && (u.part 0).pauses = [])
    && runs (.commandFence 0) (labTk 3 (cmdOf 9 []) id) (fun u => u.taken = [] && u.pstate 0 = 3)
    && runs (.commandTimeout 0 false false) labPz (fun u => u.taken = [] && (u.part 0).pauses = [])
    && runs (.commandTimeout 0 true false) labFn (fun u => u.taken = [] && u.pstate 0 = 3)
    && still (.commandTimeout 0 false false) { labPz with now := 32 * 235000 } = true := by decide +kernel

/-! Rings, turnovers and links. Ring 0 of each kind lies on stack 1: header at 0x30000, entries at 0x20000, payload of 4,096
bytes at 0x10000, two entries. -/

def ring0 : RingPlan := { stack := 1, header := 0x30000, entries := 0x20000, payload := 0x10000, paySize := 4096, port := 2 }
def serving (f : Part → Part) (x : Part) : Part := f { x with bin := some { reqRings := [ring0], rspRings := [ring0] } }
def labRing (st prod cons : Nat) (f : Part → Part) : State :=
  let s : State := (labE.setObj 0x2101 1 0 st).modPart 0 (serving f)
  s.poke (.stack 1) 0x30000 (leBytes 4 prod ++ leBytes 4 cons ++ leBytes 4 2)
def req0 (n : Nat) : RingReq := ⟨1, 0, 0, 0, 0, 77, 9, false, List.replicate n 5, 0⟩
theorem wit_Rings : (labRing 3 1 0 id).bounded ∧ (labRing 3 1 0 id).hostSub ≠ some (1, 0) ∧ ((labRing 3 1 0 id).sub 1 0).isUp = true
    ∧ (labRing 3 1 0 id).pstate 0 = 3 ∧ (labRing 3 1 0 id).ringFull = false ∧ ((labRing 3 1 0 id).mem (.stack 1)).errs = []
    ∧ (labRing 3 1 0 id).linkUp 1 0 = true ∧ (labRing 3 1 0 id).wayOpen (1, 0) ⟨9, 0⟩ = true ∧ (labRing 3 1 0 id).edgeRuns = true
    ∧ ((labRing 3 1 0 id).engine 1).reqs = []
    ∧ (labRing 3 1 0 id).stackUp 1 = true ∧ ((labRing 3 1 0 id).engine 1).retrain = [] ∧ ((labRing 3 1 0 id).takeVc 1 0 4 1).2.1 = false
    ∧ (labRing 3 1 0 id).ringHead ring0 = (1, 0, 2) ∧ idxDiff 1 0 < 2 ∧ (req0 2048).payload.length ≤ 4096 / 2
    ∧ 0x10000 + 1 % 2 * (4096 / 2) + 2048 ≤ 0x20000 ∧ 0x20000 + 64 * 2 ≤ 0x30000
    ∧ (∀ st, st < 6 → (labRing st 1 0 id).linkRoute 6 ((labRing st 1 0 id).ringPkt 0 (RingReq.request (req0 3) 0) 1 0 0 []).hdr = .noRoute) := by
  decide +kernel
theorem test_ringRequest : runs (.ringRequestArrival (req0 3)) (labRing 3 1 0 id) (fun u => u.bytes (.stack 1) 0x30000 4 = [2, 0, 0, 0]
      && u.bytes (.stack 1) 0x10800 3 = [5, 5, 5] && u.bytes (.stack 1) 0x20040 9 = [77, 0, 0, 0, 0, 0, 0, 0, 9]
      && (u.part 0).requests = [⟨77, 9, 0, 0, false, 1, 1⟩])
    && runs (.ringRequestArrival (req0 3)) (labRing 4 1 0 id) (fun u => u.count 0x7500 0x11 1 = 1 && (u.part 0).requests = []
      && u.mems = (labRing 4 1 0 id).mems && u.obj 0x2110 7 0 = 1)
    && runs (.ringRequestArrival (req0 3)) (labRing 2 1 0 id) (fun u => u.count 0x7500 0x11 1 = 1 && u.obj 0x2110 7 0 = 0)
    && runs (.ringRequestArrival { req0 3 with ring := 1 }) (labRing 3 1 0 id) (fun u => u.count 0x7500 0x11 1 = 1
      && (u.part 0).requests = []) = true := by decide +kernel
def out0 : Request := ⟨77, 9, 0, 0, false, 0, 1⟩
def labRsp : State := (labRing 3 1 0 (fun x => { x with requests := [out0] })).poke (.stack 1) 0x20000 (leBytes 8 77 ++ leBytes 2 9)
def hostHdr (fromHost : Bool) : PktHdr := { vc := 4, layer := false, ty := 11, slots := 0, dst := 0, src := 9, job := 0, fromHost, toHost := true }
/-- The host sub-port is sub-port 0 of port 5 (R311); module 9 is reached through sub-port 0 of port 1. -/
def labHb : State := { (((labE.setObj 0x3010 1 0 0xD0).setObj 0x6000 3 5 3).setObj 0x6000 2 5 2).setSub 5 0 { st := 2, groups := [0, 1] } with
  tables := [(6 * 16384 + 9, 1 + 2 * 1)] }
theorem wit_Rings_response : labRsp.ringHead ring0 = (1, 0, 2) ∧ (labRsp.part 0).requests = [out0] ∧ labRsp.isLive 0 = true
    ∧ labRsp.linkRoute 6 (labRsp.ringPkt 0 out0 0 0 0 []).hdr = .noRoute ∧ bytesAt (labRsp.bytes (.stack 1) 0x20000 64) 12 4 = 0
    ∧ out0.id = BitVec.ofNat 64 (bytesAt (labRsp.bytes (.stack 1) 0x20000 64) 0 8)
    ∧ (labRsp.engine 1).reqs = [] ∧ (labRsp.engine 1).retrain = [] ∧ labHb.linkUp 1 0 = true ∧ labHb.wayOpen (1, 0) ⟨9, 0⟩ = true
    ∧ labHb.hostSub = some (5, 0) ∧ (labHb.sub 5 0).takes = true ∧ labHb.moduleId = 0
    ∧ (let no : PktHdr := { vc := 5, layer := false, ty := 12, slots := 0, dst := 9, src := 0, job := 0 }
       labHb.linkRoute 6 no = .out 1 0 false ∧ labHb.holdsNew 1 no = false) := by decide +kernel
theorem test_ringResponse : runs (.responseRingServe 0 0) labRsp (fun u => (u.part 0).requests = [] && u.count 0x7500 0xE 2 = 1
      && u.bytes (.stack 1) 0x30004 4 = [1, 0, 0, 0])
    && runs (.ringResponseForward (1, 0) (hostHdr false) [] [3]) labHb (fun u => u.count 0x7500 0xB 1 = 1 && (u.sub 5 0).unacked = []
      && (u.sub 1 0).unacked.length = 1)
    && runs (.ringResponseForward (1, 0) (hostHdr true) [] [3]) labHb (fun u => (u.sub 5 0).unacked.length = 1 && u.mems = labHb.mems) = true := by
  decide +kernel

def ent0 : PlanEntry := ⟨0, 2, 0, 0, 0, 0, 0, 0, 0⟩
def turn0 (stage : Nat) : Turnover := { stage, entries := [ent0], clear := false, start := 0, drain := 0 }
def labTn (stage st now : Nat) : State := { labE.setObj 0x2101 1 0 st with turn := some (turn0 stage), now := 32 * now }
theorem wit_Turnovers : (labTn 1 6 0).bounded ∧ (labTn 1 6 0).drained 0 = true ∧ (labTn 1 3 0).drained 0 = false ∧ (labTn 1 3 0).isLive 0 = true
    ∧ ((labTn 1 6 0).core 1).down = false
    ∧ ((labTn 1 3 0).serveAll 0).drained 0 = false ∧ ((labTn 1 3 0).serveAll 0).isLive 0 = true
    ∧ ((labTn 1 3 0).core 1).down = false ∧ (labTn 1 3 0).obj 0x2110 2 0 * 117500 = 117500000 := by decide +kernel
theorem test_turnover : runs .turnoverDrainComplete (labTn 1 6 0) (fun u => u.turn.map (·.stage) = some 3 && u.pstate 0 = 0)
    && still .turnoverDrainComplete (labTn 1 3 0)
    && runs .turnoverDrainLimit (labTn 1 3 117500001) (fun u => u.pstate 0 = 6 && u.obj 0x2103 1 0 = 7 && u.turn.map (·.result) = some 1)
    && still .turnoverDrainLimit (labTn 1 3 117500000)
    && runs (.turnoverStageDone (.loaded [])) (labTn 3 0 0) (fun u => u.turn.map (·.stage) = some 4)
    && runs (.turnoverStageDone (.routed [])) (labTn 4 0 0) (fun u => u.turn.map (·.stage) = some 5)
    && runs (.turnoverStageDone .started) (labTn 5 0 0) (fun u => u.turn = none && u.obj 0x2110 4 0 = 6 && u.obj 0x2110 5 0 = 0) = true := by
  decide +kernel

def slots0 : List Byte := List.replicate 8 0
def labFr (f : SubPort → SubPort) : State := labE.setSub 1 0 (f { st := 2, groups := [0, 1], rxSeq := 2 ^ 24 - 1 })
def two (x : SubPort) : SubPort := { x with unacked := [⟨2 ^ 24 - 1, slots0, false⟩, ⟨0, slots0, false⟩] }
def ack0 (n : Nat) : CtlFrame := { ty := 0, ack := n, credits := List.replicate 11 5, peer := 9 }
def crc0 : BitVec 32 := dataCrc (2 ^ 24 - 1) slots0
theorem wit_Frames : (labFr id).bounded ∧ (labFr id).obj 0x9100 1 0 ≠ 1 ∧ (labFr id).linkUp 1 0 = true ∧ crc0 ≠ 0 ∧ ~~~crc0 ≠ 0 ∧ ctlCrc slots0 ≠ 0
    ∧ (labFr id).obj 0x6000 6 1 ≠ 0 := by decide +kernel
theorem test_frames : runs (.dataFrameReceive 1 0 slots0 ⟨crc0, {}⟩) (labFr id) (fun u => (u.sub 1 0).rxSeq = 0 && u.count 0x7500 5 1 = 1
      && u.count 0x7500 8 1 = 0)
    && runs (.dataFrameReceive 1 0 slots0 ⟨crc0, ⟨3, 2⟩⟩) ((labFr id).setObj 0x6000 2 1 2) (fun u => u.count 0x7500 9 1 = 3
      && u.count 0x7500 0xA 1 = 2)
    && runs (.dataFrameReceive 1 0 slots0 ⟨~~~crc0, {}⟩) (labFr id) (fun u => (u.sub 1 0).rxSeq = 0 && u.count 0x7500 8 1 = 1)
    && runs (.badFrameReceive 1 0 slots0 ⟨0, {}⟩) (labFr id) (fun u => (u.sub 1 0).rxSeq = 2 ^ 24 - 1 && u.count 0x7500 6 1 = 1
      && (u.sub 1 0).ctl.map (fun c => (c.ty, c.ack)) = [(2, 2 ^ 24 - 1)])
    && runs (.scheduledControlSend 1 0) (labFr (fun x => { x with sinceCtl := 2048 })) (fun u => (u.sub 1 0).sinceCtl = 0
      && (u.sub 1 0).ctl.map (·.ty) = [0])
    && still (.scheduledControlSend 1 0) (labFr (fun x => { x with sinceCtl := 2047 })) = true := by decide +kernel
theorem test_replay : runs (.controlFrameReceive 1 0 ⟨ack0 0, {}⟩) (labFr two) (fun u => (u.sub 1 0).unacked = [⟨0, slots0, false⟩]
      && (u.sub 1 0).granted = List.replicate 11 5)
    && runs (.replayRequestReceive 1 0 (2 ^ 24 - 1)) (labFr two) (fun u => (u.sub 1 0).replays = 1 && u.count 0x7500 7 1 = 2)
    && runs (.replayTimeout 1 0) { labFr two with now := 32 * 10 ^ 9 } (fun u => (u.sub 1 0).replays = 1 && (u.sub 1 0).ackWait = 10 ^ 9)
    && still (.replayTimeout 1 0) { labFr two with now := 32 * (labFr two).obj 0x6000 6 1 }
    && runs (.replayTimeout 1 0) { labFr (fun x => { two x with replays := 16 }) with now := 32 * 10 ^ 9 } (fun u => (u.sub 1 0).st = 4)
    && still (.replayTimeout 1 0) (labFr two) = true := by decide +kernel

/-! Links: training, packets, stop frames. Port 1 is enabled, in class 1 and split 3: eight sub-ports of two lane groups. -/

def labLn (x : SubPort) (now : Nat) : State :=
  { (((lab.setObj 0x6000 1 1 1).setObj 0x6000 2 1 1).setObj 0x6000 3 1 3).setSub 1 0 x with now := 32 * now }
def peer0 : Identity := { module := 9, cls := 1, split := 3, host := false }
def upX : SubPort := { st := 2, groups := [0, 1] }
theorem wit_Lanes : (labLn upX 0).bounded ∧ (labLn upX 0).obj 0x9100 1 0 ≠ 1 ∧ ((labLn upX 0).core 0).down = false ∧ ((labLn upX 0).core 3).down = false
    ∧ (labLn upX 0).linkUp 1 0 = true ∧ ((labLn {} 0).port 1).lost = [] ∧ subGroups ((labLn {} 0).split 1) 0 = [0, 1]
    ∧ minLanes ((labLn upX 0).split 1) = 16 ∧ minLanes (((labLn { upX with groups := [0, 1, 2] } 0)).split 1) ≤ 8 * 2
    ∧ (labLn upX 0).unusedSub 1 0 ∧ (labLn {} 0).portOn 1 = true ∧ (labLn {} 0).subCount 1 = 8
    ∧ (labLn {} 0).moduleId = 0 ∧ (labLn {} 0).obj 0x6000 2 1 = 1 ∧ (labLn upX 0).obj 0x6000 7 1 ≠ 0 := by decide +kernel
theorem test_laneLoss : runs (.laneLoss 1 0 1) (labLn { upX with groups := [0, 1, 2] } 0) (fun u => (u.sub 1 0).st = 3
      && (u.sub 1 0).groups = [0, 2] && (u.port 1).lost = [1] && decide (Told lab u 0x7010 8))
    && runs (.laneLoss 1 0 1) (labLn upX 0) (fun u => (u.sub 1 0).st = 0 && (u.sub 1 0).groups = [] && u.obj 0x6010 0x10 1 = 0xFFFF
      && decide (Told lab u 0x7020 8)) = true := by decide +kernel
theorem test_training : runs (.subportTrainingAttempt 1 0) (labLn {} 11750000) (fun u => u.sub 1 0 = { st := 1, trained := 11750000, mine := some ⟨0, 1, 3, false, 0, 1, 0⟩ })
    && still (.subportTrainingAttempt 1 0) (labLn {} 11749999)
    && runs (.subportTrainingDone 1 0 peer0) (labLn { st := 1 } 0) (fun u => (u.sub 1 0).st = 2 && (u.sub 1 0).groups = [0, 1]
      && u.obj 0x6010 0x10 1 = 9 && ((u.sub 1 0).ctl.map (·.ty)) = [3])
    && runs (.subportTrainingDone 1 0 { peer0 with module := 0 }) (labLn { st := 1 } 0) (fun u => (u.sub 1 0).st = 5
      && decide (Told lab u 0x7050 8)) = true := by decide +kernel
/-- A dropped lane group stays dropped when the sub-port trains again (R290). -/
theorem test_lostGroups : runs (.subportTrainingDone 1 0 peer0) ((labLn { st := 1 } 0).modPort 1 (fun x => { x with lost := [1] })) (fun u =>
    (u.sub 1 0).st = 0 && (u.sub 1 0).groups = []) = true := by decide +kernel
theorem test_retrainEnd : runs (.linkRetrainEnd 1 0 true) (labLn { upX with st := 4, replays := 16 } 0) (fun u => (u.sub 1 0).st = 2
      && (u.sub 1 0).replays = 0 && decide (Told lab u 0x7050 8))
    && runs (.linkRetrainEnd 1 0 false) (labLn { upX with st := 4 } 0) (fun u => (u.sub 1 0).st = 0 && decide (Told lab u 0x7020 8))
    && runs (.peerLossTimeout 1 0) (labLn upX (10 ^ 9)) (fun u => (u.sub 1 0).st = 0 && decide (Told lab u 0x7020 8))
    && still (.peerLossTimeout 1 0) (labLn upX 0) = true := by decide +kernel

def hdrP (ty : BitVec 4) : PktHdr := { vc := 1, layer := false, ty, slots := 1, dst := 0, src := 9, job := 0 }
def dst0 : Dest := ⟨1, 2, 1, some 3⟩
/-- Module 9 is reached through sub-port 0 of port 2. -/
def labPk : State := { (labE.setSub 2 0 upX).setTile 1 { landing := [land1] } with tables := [(16384 + 9, 1 + 2 * 2)] }
theorem wit_LinkPackets : labPk.bounded ∧ labPk.linkUp 1 0 = true ∧ (hdrP 2).hops.toNat < 63 ∧ labPk.hostSub ≠ some (1, 0) ∧ labPk.isLive 0 = true
    ∧ labPk.obj 0x2102 1 0 = (hdrP 2).job.toNat ∧ ((labPk.tile 1).slot 2 1).st = .avail ∧ labPk.moduleId = 0
    ∧ (labPk.setObj 0x2101 1 0 6).isLive 0 = false ∧ labPk.linkRoute 1 { hdrP 2 with dst := 9 } = .out 2 0 false
    ∧ labPk.obj 0x6000 0xA 1 ≠ 1 ∧ labPk.hostSub = none
    ∧ (∀ fh, labPk.linkRoute 6 { vc := 5, layer := false, ty := 12, slots := 0, dst := 9, src := 0, job := 0, fromHost := fh, toHost := fh } = .noRoute)
    ∧ labPk.holdsNew 2 { hdrP 2 with dst := 9 } = false := by decide +kernel
theorem test_linkPut : runs (.linkPutPacket 1 0 (hdrP 2) 0 dst0 (List.replicate 130 7)) labPk (fun u =>
      (u.tile 1).slot 2 1 = { st := .taken, ctr := some 3, holder := some (labPk.portGate 1 0 (labPk.ingressRoute 1 0 1) 1), beyond := true }
      && (mget [] (u.router (labPk.portGate 1 0 (labPk.ingressRoute 1 0 1) 1)).gateIn (bufKey (portSide 1) 1)).map (·.data.length) = [128, 2])
    && still (.linkPutPacket 1 0 (hdrP 2) 0 dst0 []) (labPk.setTile 1 { landing := [land1], slots := [(129, { st := .filled })] })
    && runs (.linkPutPacket 1 0 (hdrP 2) 0 dst0 []) (labPk.setObj 0x2101 1 0 6) (fun u => u.count 0x7500 0xB 1 = 1
      && u.routers = labPk.routers)
    && runs (.linkCounterSignal 1 0 (hdrP 3) 0 1 5) labPk (fun u =>
      (mget [] (u.router (labPk.portGate 1 0 (labPk.ingressRoute 1 0 1) 1)).gateIn (bufKey (portSide 1) 1)).map (fun f => (f.ty, f.dests))
        = [(.signal, [⟨1, 0, 0, some 5⟩])]) = true := by
  decide +kernel
theorem test_transit : runs (.linkRefusalReceive 1 0 (hdrP 12) 2) labPk (fun u => u.count 0x7500 0xB 1 = 1 && u.parts = labPk.parts)
    && runs (.reservedTypeDiscard 1 0 (hdrP 13)) labPk (fun u => u.count 0x7500 0xB 1 = 1)
    && runs (.packetTransit 1 0 { hdrP 2 with dst := 9, hops := 62 } [] [1]) labPk (fun u => (u.sub 2 0).unacked.length = 1
      && (u.sub 1 0).unacked = [])
    && runs (.packetTransit 1 0 { hdrP 2 with dst := 9 } [] [1]) (labPk.setObj 0x6000 0xA 1 1) (fun u =>
      (u.port 1).holdPkts.length = 1 && (u.sub 2 0).unacked = []) = true := by decide +kernel

def labSt (now : Nat) : State := { labE.setObj 0x2102 1 0 77 with now := 32 * now }
def labDg (now : Nat) : State := { ((labE.setObj 0x6000 5 1 1).setSub 1 0 { upX with mismatch := some 7, peerDigest := [1] }) with now := 32 * now }
theorem wit_StopFrames : (labSt 0).bounded ∧ ((labSt 0).core 0).down = false ∧ (labSt 0).linkUp 1 0 = true ∧ (labSt 0).wayOpen (1, 0) {} = true ∧ (labSt 0).isLive 0 = true
    ∧ (labDg 0).obj 0x1F81 1 0 ≠ 1 ∧ bitOf ((labDg 0).obj 0x6000 5 1) 0 = true ∧ (labDg 0).digestsMatch 1 0 = false
    ∧ (labSt 0).stops = [] ∧ (labDg 0).obj 0x1F81 2 0 = 100 := by decide +kernel
theorem test_stopFrame : runs (.stopFrameReceive 1 0 77 ⟨9, {}⟩ 3) (labSt 0) (fun u => u.pstate 0 = 6 && u.obj 0x2103 1 0 = 5
      && decide (Told lab u 0x7040 8) && u.stops.length = 1)
    && runs (.stopFrameReceive 1 0 78 ⟨9, {}⟩ 3) (labSt 0) (fun u => u.pstate 0 = 3)
    && still (.stopFrameReceive 1 0 77 ⟨9, {}⟩ 3) { labSt 0 with stops := [(77, 9, 0)] } = true := by decide +kernel
theorem test_digestSettle : runs (.digestSettleExpiry 1 0) (labDg (8 + 100 * 117500)) (fun u => decide (Told lab u 0x7030 8)
      && (u.sub 1 0).mismatchTold)
    && still (.digestSettleExpiry 1 0) (labDg (7 + 100 * 117500))
    && runs (.portQuiesced 1) (labE.setObj 0x6000 0xA 1 1) (fun u => (u.port 1).quiesced)
    && still (.portQuiesced 1) ((labE.setObj 0x6000 0xA 1 1).modSub 1 0 (fun x => { x with rxDone := [(1, false)] })) = true := by decide +kernel

/-! The object dictionary. Requests come in-band over sub-port 0 of port 1, from module 9, or from a host behind it; and by
CoE in Pre-Operational. -/

def rq0 (fromHost : Bool) : Path := .inband 9 1 1 0 fromHost
def labO : State := { labE with ecat := .preOp, power := { labE.power with mV := 42000 } }
/-- Region 47 is off. -/
def labOff : State := labO.modRegion 47 (fun g => { g with st := .latched })
def ends (i : Instr) (s : State) (a : Option Abort) : Bool :=
  runs i s (fun u => u.replies.head?.map (·.abort) = some a && u.dict = s.dict)
def ow (idx sub : Nat) (data : List Byte) (inst : Nat := 0) (s : State := labO) (a : Option Abort) : Bool :=
  ends (.objectWrite (rq0 false) (BitVec.ofNat 16 idx) (BitVec.ofNat 8 sub) (BitVec.ofNat 16 inst) data) s a
theorem wit_Writes : labO.bounded ∧ labO.arrives (rq0 false) 0x2110 0 = true ∧ labO.arrives .coe 0x2110 0 = true
    ∧ (labO.setSub 1 0 {}).arrives (rq0 false) 0x2110 0 = false ∧ bitOf ((labO.setObj 0x3020 1 0 0).obj 0x3020 1 0) 2 = false
    ∧ (labO.core 0).down = false ∧ (labO.core 3).down = false ∧ (labO.setObj 0x3100 1 0 4).security = 4
    ∧ labO.blocked (rq0 false) true 0x2110 2 0 = none ∧ knownIndex 0x2111 = false ∧ objType 0x2110 0x40 = none
    ∧ (kindOf 0x5300).count = 6912 ∧ objType 0x2110 4 = some (.u 1, .ro) ∧ objType 0x2110 2 = some (.u 4, .rws)
    ∧ labOff.unpowered 0x5300 1 6911 = true ∧ accepted (.u 4) 0x2110 2 [9, 0, 0, 0] = false
    ∧ accepted (.u 4) 0x2110 2 [10, 0, 0, 0] = true := by decide +kernel
theorem test_writeChecks : ow 0x2111 1 [0] 0 labO (some .noObject) && ow 0x2110 0x40 [0] 0 labO (some .noSub)
    && ow 0x5300 1 [0] 6912 labO (some .badInstance) && ow 0x2110 4 [0] 0 labO (some .readOnly)
    && ow 0x2110 2 [0] 0 labO (some .length) && ow 0x5300 1 [0] 6911 labOff (some .hardware)
    && ow 0x2110 2 [9, 0, 0, 0] 0 labO (some .valueRange) && ow 0x2110 2 [10, 0, 0, 0] 0 (labO.setObj 0x3100 1 0 4) (some .stateConflict)
    && ow 0x2110 2 [10, 0, 0, 0] 0 (labO.setCore 0 { down := true }) (some .serviceRestart)
    && still (.objectWrite (rq0 false) 0x2110 2 0 [10, 0, 0, 0]) (labO.setSub 1 0 {})
    && runs (.objectWrite (rq0 true) 0x2110 2 0 [10, 0, 0, 0]) (labO.setObj 0x3020 1 0 0) (fun u =>
      u.replies.head?.map (·.abort) = some (some .protectedWrite) && u.ring.head?.map (·.code) = some 0x9040) = true := by decide +kernel

theorem wit_Plain : labO.takesWrite (rq0 false) 0x2110 2 0 ∧ labO.takesWrite .coe 0x2110 2 (labO.window 0x2110)
    ∧ labO.window 0x2110 < (kindOf 0x2110).count ∧ isCoe (rq0 false) = false ∧ valueOk 0x2110 2 (leVal [10, 0, 0, 0]) = true
    ∧ labO.takesWrite (rq0 false) 0x5100 1 0 ∧ labO.takesWrite (rq0 false) 0x5100 32 0 := by decide +kernel
theorem test_plainWrites : runs (.objectWrite (rq0 false) 0x2110 2 0 [10, 0, 0, 0]) labO (fun u => u.obj 0x2110 2 0 = 10)
    && runs (.inBandWrite (rq0 false) 0x2110 2 0 0 true [10, 0, 0, 0]) labO (fun u => u.obj 0x2110 2 0 = 10)
    && runs (.sdoDownload 0x2110 2 false [10, 0, 0, 0]) labO (fun u => u.obj 0x2110 2 0 = 10)
    && runs (.queueLimitWrite (rq0 false) 0 31 64) labO (fun u => u.obj 0x5100 32 0 = 64)
    && ends (.queueLimitWrite (rq0 false) 0 31 65) labO (some .valueRange)
    && ends (.queueLimitWrite (rq0 false) 0 31 0) labO (some .valueRange) = true := by decide +kernel

def labEv : State := { labO.setObj 0x9000 1 0 1 with ring := [{ code := 0x3010, src := 0, tick := 5, data := [] }] }
theorem wit_Reads : labO.reads = [] ∧ labO.blocked (rq0 false) false 0x2110 2 0 = none ∧ labO.blocked .coe false 0x2110 2 0 = none
    ∧ labO.unpowered 0x2110 2 0 = false ∧ labEv.arrives (rq0 false) 0x9000 0 = true ∧ labO.mstate ≠ 4 ∧ labO.ecat ≠ .init
    ∧ labO.closed false 0x2110 = false := by decide +kernel
def readsAs (i : Instr) (s : State) (bs : List Byte) : Bool := runs i s (fun u => u.replies.head?.map (·.data) = some bs)
theorem test_reads : readsAs (.inBandRead (rq0 false) 0x2110 2 0 0) labO (leBytes 4 1000)
    && readsAs (.sdoUpload 0x2110 2 false) labO (leBytes 4 1000)
    && runs (.eventRingRead (rq0 false)) labEv (fun u => u.replies.head?.map (fun r => (r.data.drop 8).take 4) = some [0x10, 0x30, 0, 0])
    && runs (.eventLogRead (rq0 false)) labEv (fun u => u.replies.head?.map (·.total) = some 8)
    && runs (.sdoInformation none) labO (fun u => u.replies.head?.map (·.data.take 2) = some [8, 0x10])
    && runs (.sdoInformation (some 0x2110)) labO (fun u => u.replies.head?.map (·.data.take 2) = some [0x10, 0x21]) = true := by
  decide +kernel

def labX : State := { labO with ecat := .safeOp }
def seg0 (dead : Bool) : Segment := ⟨rq0 false, 0x2110, 1, 0, [1], 0, dead⟩
def labSg (now : Nat) (dead : Bool := false) : State := { labO with segments := [seg0 dead], now }
theorem wit_EtherCat : labX.mstate ≠ 4 ∧ labX.recovery = false ∧ ecatRank .op ≤ ecatRank labX.ecat + 1
    ∧ ecatRank labO.ecat + 1 < ecatRank .op ∧ 2 ≤ ecatRank labX.ecat ∧ ecatRank labO.ecat < 2
    ∧ accessOf (rq0 false) true 0x2110 2 0 matches .ok _ ∧ noTimeout 0x2110 2 = false ∧ (seg0 false).isOf 0x2110 1 (objInst 0x2110 0) = true
    ∧ samePeer (seg0 false).path (labO.fromPath (rq0 false)) = true ∧ (labX.core 3).down = false ∧ labO.takesWrite (rq0 false) 0x2110 2 0
    ∧ (labSg 3760000000).reads = [] := by decide +kernel
theorem test_ethercat : runs (.ethercatStateRequest (.state .op)) labX (fun u => u.ecat = .op)
    && runs (.ethercatStateRequest (.state .op)) labO (fun u => u.ecat = .preOp && u.alCode != 0)
    && runs (.ethercatStateRequest .bootstrap) labO (fun u => u.ecat = .preOp && u.alCode != 0)
    && runs (.ethercatStateRequest (.state .init)) (labX.setObj 0x2F00 1 0 5) (fun u => u.ecat = .init && u.obj 0x2F00 1 0 = 0)
    && runs .txpdoSample labX (fun u => u.txpdo.length = 32 && u.txpdo.take 2 = [0, 0]) && still .txpdoSample labO
    && ends (.transactionTimeout (rq0 false) 0x2110 2 0 (some [1]) false) labO (some .timeout)
    && ends (.transactionTimeout (rq0 false) 0x5300 1 6911 (some [1]) false) labOff (some .hardware)
    && runs (.segmentIdleTimeout (rq0 false) 0x2110 1 0) (labSg 3760000001 true) (fun u =>
      u.replies.head?.map (·.abort) = some (some .serviceRestart))
    && runs (.segmentIdleTimeout (rq0 false) 0x2110 1 0) (labSg 3760000001) (fun u => u.segments = [])
    && still (.segmentIdleTimeout (rq0 false) 0x2110 1 0) (labSg 3760000000) = true := by decide +kernel

def labSnap : State := (labO.setObj 0x7000 4 0 1).modTile 0 (fun x => { x with hist := [(0, { counts := [(3, 4)] }), (1, { counts := [(5, 6)] })] })
/-- All latched: no tile is powered. -/
def blocks0 : List CounterBlock :=
  (allFin 48).map CounterBlock.region ++ (allFin 32).map CounterBlock.engine ++ (allFin 6).map CounterBlock.port ++ [CounterBlock.relays]
def labAll : State := { labO.setObj 0x7000 4 0 1 with regions := [], latching := blocks0 }
theorem wit_Snapshots : labO.takesWrite (rq0 false) 0x7000 1 0 ∧ labO.obj 0x7000 4 0 ≠ 1 ∧ labSnap.latches (.tile 0) = true
    ∧ labSnap.latching = [] ∧ labAll.allLatched = true ∧ labSnap.allLatched = false ∧ labSnap.takesWrite (rq0 false) 0x5200 9 0 := by
  decide +kernel
theorem test_snapshot : runs (.snapshotStrobe (rq0 false) 1) labO (fun u => u.obj 0x7000 4 0 = 1)
    && ends (.snapshotStrobe (rq0 false) 1) labSnap (some .stateConflict)
    && runs (.counterLatch (.tile 0)) (labSnap.bump 0x7200 3 0 8) (fun u => mget 0 u.latched (okey 0x7200 3 0) = 8)
    && runs .snapshotComplete labAll (fun u => u.obj 0x7000 4 0 = 0 && u.obj 0x7000 2 0 = 1) && still .snapshotComplete labSnap
    && runs (.histogramSlotClear (rq0 false) 0 2) labSnap (fun u => (u.tile 0).hist = [(0, { counts := [(3, 4)] }), (1, {})]) = true := by
  decide +kernel

def imgF (ok : Bool) : Image := { version := 0x01000001, sigs := ⟨ok, true⟩ }
def open0 (idx sub : Nat) : Open := ⟨rq0 false, idx, sub, 0, 0, none⟩
def labFl (op : FlashOp) (idx sub : Nat) : State := { labO with flash := some op, opens := [open0 idx sub] }
theorem wit_Stores : labO.takesWrite (rq0 false) 0x1010 1 0 ∧ labO.takesWrite (rq0 false) 0x1011 2 0 ∧ labO.takesWrite (rq0 false) 0x1012 6 0
    ∧ labO.flash = none ∧ labO.storeReady = true ∧ labE.storeReady = false ∧ labO.security ≠ 4 := by decide +kernel
theorem test_stores : runs (.storeAll (rq0 false) 0x7065656B) labO (fun u => u.flash = some (.store true) && u.obj 0x1010 3 0 = 1
      && u.opens.length = 1 && u.replies = [])
    && ends (.storeAll (rq0 false) 0x7065656C) labO (some .badSignature)
    && ends (.storeLinkAndRoute (rq0 false) 0x7065656B) labE (some .storeCondition)
    && ends (.restoreAll (rq0 false) 0x64616F6C) (labFl (.store true) 0x1010 1) (some .stateConflict)
    && runs (.restoreLinkAndRoute (rq0 false) 0x64616F6C) labO (fun u => u.flash = some (.restore false) && u.obj 0x1010 3 0 = 2)
    && runs (.imageWrite (rq0 false) (imgF true)) labO (fun u => u.flash = some (.image 1 (imgF true)) && !u.slotB.valid && u.slotA.valid)
    && runs (.foeWrite (imgF true)) labO (fun u => u.flash = some (.image 1 (imgF true)) && u.opens.length = 1) = true := by decide +kernel
theorem test_storeDone : runs .storeComplete (labFl (.store false) 0x1010 2) (fun u => u.flash = none && u.opens = [] && u.saved.link
      && !u.saved.all && u.replies.head?.map (·.abort) = some none)
    && runs .storeComplete (labFl (.image 1 (imgF true)) 0x1012 6) (fun u => u.slotB.version = 0x01000001 && u.replies.head?.map (·.abort) = some none)
    && runs .storeComplete (labFl (.image 1 (imgF false)) 0x1012 6) (fun u => u.slotB = labO.slotB
      && u.ring.head?.map (·.code) = some 0x9010 && u.replies.head?.map (·.abort) = some (some .badSignature)) = true := by decide +kernel

/-! Writes with an effect: tiles and regions. -/

def labR (f : Region → Region) : State := labO.modRegion 0 f
def setSt (st : RState) (at' now : Nat) : State := { labR (fun g => { g with st, offAt := at' }) with now := 32 * now }
theorem wit_TileWrites : labO.takesWrite (rq0 false) 0x5300 3 0 ∧ labO.takesWrite (rq0 false) 0x5000 1 0
    ∧ labO.takesWrite (rq0 false) 0x4040 4 0 ∧ labO.takesWrite (rq0 false) 0x4040 1 0 ∧ labO.takesWrite (rq0 false) 0x6830 1 1
    ∧ labO.takesWrite (rq0 false) 0x4000 1 0 ∧ labO.takesWrite (rq0 false) 0x4000 4 0 ∧ labO.takesWrite (rq0 false) 0x4020 0x12 0
    ∧ (labO.setObj 0x2101 1 0 0).takesWrite (rq0 false) 0x5000 1 1 ∧ (labO.setObj 0x2101 1 0 0).partOf 1 = none ∧ (labO.region 0).netUp = true ∧ (labO.region 0).retrain = .idle ∧ (labO.region 0).clearing = none
    ∧ hwThreshold 0 = labO.threshold 0 1 := by decide +kernel
def labHd (on : Bool) : State := (allFin 144).foldl (fun s k => if on then s.setObj 0x5000 1 (k.val / 12 * 96 + k.val % 12) 1 else s) labO
theorem wit_TileWrites_held : (∀ j ∈ (labHd true).regionVaults 0, (labHd true).inReset j = true)
    ∧ (∃ j ∈ labO.regionVaults 0, labO.inReset j = false) ∧ labO.partOf 0 = some 0 ∧ labO.isLive 0 = true := by decide +kernel
theorem test_tileWrites : runs (.routeEntryWrite (rq0 false) 0 0x7FFFFFFF) ((labO.setObj 0x5300 1 0 15).setObj 0x5300 2 0 511) (fun u =>
      (u.router 0).sets = [(8191, 0x7FFFFFFF)])
    && ends (.routeEntryWrite (rq0 false) 0 0x80000000) labO (some .valueRange)
    && runs (.tileResetWrite (rq0 false) 1 1) ((labO.setObj 0x2101 1 0 0).setTile 1 { stamp := 3, counters := [(1, 1)], queues := [(2, {})] }) (fun u =>
      u.obj 0x5000 1 1 = 1 && (u.tile 1).counters = [] && (u.tile 1).queues = [])
    && ends (.tileResetWrite (rq0 false) 0 1) labO (some .stateConflict)
    && runs (.tileResetWrite (rq0 false) 0 0) (labO.setObj 0x5000 1 0 1) (fun u => u.obj 0x5000 1 0 = 0) = true := by decide +kernel
theorem test_regionWrites : runs (.vaultClear (rq0 false) 0 1) (labHd true) (fun u => (u.region 0).clearing = some 0)
    && ends (.vaultClear (rq0 false) 0 1) labO (some .stateConflict)
    && runs (.vaultRetrainRequest (rq0 false) 0 1) labO (fun u => (u.region 0).retrain = .pending && u.passes = [0])
    && runs (.vaultRetrainRequest (rq0 false) 0 1) (labR (fun g => { g with retrain := .pending })) (fun u => u.passes = [])
    && runs (.channelRetrainRequest (rq0 false) 1 15) labO (fun u => (u.engine 1).pass 15 = .pending && u.chPasses = [(1, 15)])
    && ends (.channelRetrainRequest (rq0 false) 1 16) labO (some .valueRange) = true := by decide +kernel
theorem test_rearm : runs (.regionRearm (rq0 false) 0 1) (setSt .latched 0 9) (fun u => (u.region 0).st = .powering
      && (u.region 0).rising = some 9 && (u.region 0).rearmed = some 9)
    && runs (.regionRearm (rq0 false) 0 1) (setSt .offT4 0 1175000000) (fun u => (u.region 0).st = .powering)
    && ends (.regionRearm (rq0 false) 0 1) (setSt .offT4 0 1174999999) (some .stateConflict)
    && ends (.regionRearm (rq0 false) 0 1) (setSt .dead 0 0) (some .stateConflict)
    && runs (.regionRearm (rq0 false) 0 1) labO (fun u => u.regions = labO.regions)
    && runs (.computeClockStopWrite (rq0 false) 0 1) labO (fun u => u.obj 0x4000 4 0 = 1 && !(u.region 0).clocked)
    && runs (.computeClockStopWrite (rq0 false) 0 0) (labR (fun g => { g with stops := [.request] })) (fun u => (u.region 0).stops = []) = true := by
  decide +kernel
def thr (k : Fin 4) (v : Int) : Instr := .thresholdWrite (rq0 false) 0 k (BitVec.ofInt 16 v)
theorem test_thresholds : (List.range 4).map hwThreshold = (List.range 4).map (fun k => labO.threshold 0 (k + 1))
    ∧ runs (thr 0 (hwThreshold 0 - 250)) labO (fun u => u.threshold 0 1 = hwThreshold 0 - 250)
    && ends (thr 0 (hwThreshold 0 - 251)) labO (some .valueRange) && ends (thr 0 (hwThreshold 0 + 1)) labO (some .valueRange)
    && ends (thr 3 (hwThreshold 2 + 49)) labO (some .valueRange) = true := by decide +kernel

/-! Writes with an effect: the edge and the ports. -/

def hcmd (a res : Nat) : HoldCmd := ⟨a, 0, 5, 0x3F800000, 0, res, []⟩
def labHw (a kind : Nat) : State := { labHc a kind with ecat := .preOp, power := { labE.power with mV := 42000 } }
/-- The engine has read the headers. -/
def heldBy (a kind : Nat) : State := { labHw a kind with holdCmd := some { hcmd a 2 with read := [1] } }
/-- The entry of `labHc`, for the command of action `a` that is open on it. -/
def has1 (a kind : Nat) : Bool := ((labHw a kind).commandEntries (hcmd a 2) 1).map (fun c => (c.1, c.2.2.2.1.block, c.2.2.2.2.1)) = [(0, 0, 1)]
def isLate (n : BitVec 32) : Bool :=
  let s := (labHw 3 2).modEngine 1 (fun x => { x with settled := [(ekey 0 0 0, n)] })
  ends (.heldNormMerge (rq0 false)) (s.setObj 0x8720 5 0 7) (some .stateConflict)
theorem wit_EngineWrites : labO.takesWrite (rq0 false) 0x6860 1 1 ∧ labO.poolCheck 1 0x200000 0 0 = none
    ∧ labO.poolCheck 1 (2 ^ 40) 0 0 = some .valueRange ∧ labO.takesWrite (rq0 false) 0x8720 6 0
    ∧ has1 1 1 = true ∧ has1 2 1 = true ∧ has1 3 2 = true ∧ has1 4 2 = true
    ∧ (labHc 2 1).holdCmd = none ∧ (∀ q : EngineId, ((labHw 2 1).mem (.stack q)).errs = []) ∧ (labHw 1 1).takesWrite (rq0 false) 0x8720 6 0
    ∧ (labHw 1 1).engineRuns 1 = true ∧ ((labHw 1 1).engine 1).holdOpen (hcmd 1 2) = false ∧ ((labHw 1 1).engine 1).busy = 0
    ∧ ((labHw 1 1).engine 1).working 0 0 0 = false ∧ ((labHw 1 1).engine 1).reqs = []
    ∧ ((labHw 1 1).holdHeads (hcmd 1 2) 1).any (fun x => (labHw 1 1).segsBusy 1 x.2) = false
    ∧ ((heldBy 1 1).commandEntries { hcmd 1 2 with read := [1] } 1).map (fun c => (heldBy 1 1).holdWaits { hcmd 1 2 with read := [1] } c) = [false]
    ∧ mfind (ekey 0 0 0) ((labHw 3 2).engine 1).settled = none
    ∧ isLate 7 = true ∧ isLate 6 = false ∧ labO.takesWrite (rq0 false) 0x8706 12 0
    ∧ labO.takesWrite (rq0 false) 0x6900 5 0 ∧ labO.takesWrite (rq0 false) 0x2110 3 0 ∧ labO.admittedJobs = []
    ∧ ({ labO with engines := [] } : State).engines = [] ∧ (labO.setObj 0x6900 3 0 4096).imageBlocks = [] := by decide +kernel
theorem test_poolWindow : runs (.poolWindowWrite (rq0 false) 1 0 0x200000) labO (fun u => u.obj 0x6860 1 1 = 0x200000)
    && ends (.poolWindowWrite (rq0 false) 1 0 (2 ^ 40)) labO (some .valueRange)
    && runs (.poolWindowWrite (rq0 false) 1 2 1) labO (fun u => u.obj 0x6860 3 1 = 1) = true := by decide +kernel
/-- The command only starts; the engine has read its headers, and then acts on the entry. -/
def begins (i : Instr) (a kind : Nat) : Bool := runs i (labHw a kind) (fun u => u.holdCmd = some (hcmd a 2) && u.obj 0x8720 7 0 = 1)
def headAfter (a kind : Nat) : Entry64 :=
  match planEngine job0 1 with
  | some ep => ((heldBy a kind).holdStep 1).entryHead ep 1
  | none => heldHead 9
theorem test_holdCommands : begins (.holdApplyStep (rq0 false)) 1 1 && begins (.holdDropStep (rq0 false)) 2 1
    && begins (.heldNormMerge (rq0 false)) 3 2 && begins (.heldNormDrop (rq0 false)) 4 2 = true := by decide +kernel
theorem test_holdSteps : (headAfter 2 1).kind = 0 ∧ (headAfter 3 2).armed = true ∧ (headAfter 4 2).kind = 0
    ∧ (({ labHw 2 1 with holdCmd := some (hcmd 2 2) } : State).holdStep 1).holdCmd = some { hcmd 2 2 with read := [1] } := by decide +kernel
theorem test_holdNone : runs (.holdApplyStep (rq0 false)) (labO.setObj 0x8720 1 0 1) (fun u => u.holdCmd = some ⟨1, 0, 0, 0x3F800000, 0, 3, []⟩)
    && ends (.heldNormDrop (rq0 false)) { labO.setObj 0x8720 1 0 4 with holdCmd := some ⟨1, 0, 0, 0, 0, 3, []⟩ } (some .stateConflict) = true := by
  decide +kernel
def labAc (n : BitVec 32) : State := (labO.setPart 0 (labJ.part 0)).modEngine 1 (fun x => { x with expected := [(0, n)] })
theorem test_activation : runs (.activationStampWrite (rq0 false) 11 7) ({ labO with engines := [] }) (fun u => u.obj 0x8706 12 0 = 7
      && (mget [] u.acts 11).map (·.stamp) = [7])
    && ends (.activationStampWrite (rq0 false) 0 7) (labAc 8) (some .stateConflict) = true := by decide +kernel
theorem test_snapStart : runs (.snapshotShipStart (rq0 false) 1) (labO.setObj 0x6900 3 0 4096) (fun u => u.shipping = some (0, 0)
      && u.obj 0x6900 6 0 = 1)
    && ends (.snapshotShipStart (rq0 false) 1) (labO.setObj 0x6900 3 0 4095) (some .stateConflict) = true := by decide +kernel
/-- A plan that removes partition 0 (R284). -/
def plan0 : List Byte := 1 :: List.replicate 15 0 ++ [0, 2] ++ List.replicate 30 0
def labPl : State := (labO.setBlob 0x2110 1 0 plan0)
theorem wit_Turnover : planFormOk plan0 = true ∧ labPl.planOk plan0 = true ∧ labO.planOk (labO.blob 0x2110 1 0) = false
    ∧ (planEntries plan0).map (fun e => (e.part.val, e.action)) = [(0, 2)] ∧ labPl.pstate 0 = 3 := by decide +kernel
theorem test_turnoverExecute : runs (.turnoverExecute (rq0 false) 1) labPl (fun u => u.turn.map (·.stage) = some 1 && u.pstate 0 = 4
      && u.obj 0x2110 4 0 = 1)
    && ends (.turnoverExecute (rq0 false) 1) labO (some .valueRange)
    && ends (.turnoverExecute (rq0 false) 1) { labPl with turn := some (turn0 1) } (some .stateConflict) = true := by decide +kernel

/-! Writes with an effect: ports and the module. Port 2 is enabled, in class 1 and split 1. -/

def labPt : State := ((labO.setObj 0x6000 1 2 1).setObj 0x6000 2 2 1).setObj 0x6000 3 2 1 |>.setSub 2 0 { st := 2, groups := [0] }
def states (u : State) : List Nat := (List.range 8).map (fun b => (u.sub 2 b).st)
/-- Service core 3 is down: a training waits (R393). -/
def labPt3 : State := labPt.setCore 3 { down := true }
theorem wit_PortWrites : labPt3.takesWrite (rq0 false) 0x6000 1 2 ∧ (labPt3.core 3).down = true ∧ labPt.obj 0x9100 1 0 ≠ 1 ∧ labPt.takesWrite (rq0 false) 0x6000 1 2 ∧ labPt.takesWrite (rq0 false) 0x6000 3 2
    ∧ labPt.takesWrite (rq0 false) 0x6000 8 2 ∧ labPt.takesWrite (rq0 false) 0x6000 9 2 ∧ labPt.takesWrite (rq0 false) 0x6000 0xA 2
    ∧ labPt.takesWrite (rq0 false) 0x6100 2 2 ∧ (labPt.port 2).holdPkts = [] ∧ (labPt.port 2).quiesced = false := by decide +kernel
theorem test_portWrites : runs (.portEnableWrite (rq0 false) 2 0) labPt (fun u => states u = List.replicate 8 6 && u.obj 0x6000 1 2 = 0)
    && runs (.portEnableWrite (rq0 false) 2 1) labPt (fun u => u.subs = labPt.subs)
    && ends (.portEnableWrite (rq0 false) 2 2) labPt (some .valueRange)
    && runs (.portReset (rq0 false) 2 1) labPt3 (fun u => states u = List.replicate 8 0 && (u.sub 2 0).waits && (u.sub 2 1).waits)
    && runs (.portRetrainWrite (rq0 false) 2 1) (labPt.modPort 2 (fun x => { x with lost := [3, 9] })) (fun u => (u.port 2).lost = [9])
    && runs (.classSplitWrite (rq0 false) 2 true 2) labPt (fun u => states u = [1, 1, 1, 1, 0, 0, 0, 0] && u.obj 0x6000 3 2 = 2)
    && runs (.classSplitWrite (rq0 false) 2 false 0) labPt (fun u => states u = List.replicate 8 0)
    && ends (.classSplitWrite (rq0 false) 2 true 4) labPt (some .valueRange)
    && runs (.portRetrainWrite (rq0 false) 2 3) labPt (fun u => states u = [4, 1, 0, 0, 0, 0, 0, 0]
      && (u.sub 2 0).groups = [0, 1, 2, 3, 4, 5, 6, 7])
    && runs (.portReset (rq0 false) 2 1) labPt (fun u => states u = [1, 1, 0, 0, 0, 0, 0, 0]) = true := by decide +kernel
theorem test_quiesceAndTables : runs (.portQuiesceWrite (rq0 false) 2 1) labPt (fun u => u.obj 0x6000 0xA 2 = 1)
    && runs (.portQuiesceWrite (rq0 false) 2 0) (labPt.modPort 2 (fun x => { x with quiesced := true })) (fun u => !(u.port 2).quiesced)
    && runs (.tableEntryWrite (rq0 false) 2 0xFFFFFF) (labPt.modPort 2 (fun x => { x with quiesced := true })) (fun u =>
      u.tables = [(32768, 0xFFFFFF)])
    && ends (.tableEntryWrite (rq0 false) 2 5) labPt (some .stateConflict)
    && ends (.tableEntryWrite (rq0 false) 6 5) (labPt.modPort 2 (fun x => { x with quiesced := true })) (some .stateConflict) = true := by
  decide +kernel

def labCmd (n : Nat) : State := (labO.poke (.stack 0) 0x17F8000000 ([9, 0, 0, 0] ++ leBytes 4 7)).setObj 0x2300 2 0 n
def labCc : State := { labO.setObj 0x2300 3 0 5 with ringFull := false }
def labLs (st now : Nat) : State := { (labO.setObj 0x2200 5 0 st).setObj 0x2200 4 0 9 with now := 32 * now }
theorem wit_ModuleWrites : labO.takesWrite (rq0 false) 0x2001 1 0 ∧ labO.takesWrite (rq0 false) 0x2003 1 0 ∧ labO.takesWrite (rq0 false) 0x2003 2 0
    ∧ labO.takesWrite (rq0 false) 0x2300 1 0 ∧ labO.takesWrite (rq0 false) 0x2300 4 0 ∧ labO.takesWrite (rq0 false) 0x2200 1 0
    ∧ labO.takesWrite (rq0 false) 0x2200 3 0 ∧ labO.takesWrite (rq0 false) 0x9100 1 0 ∧ labO.move = none ∧ labO.boot.active = false
    ∧ labO.mstate = 0 ∧ labO.turn = none ∧ labO.security = 0 ∧ (labCmd 0).ringFull = false ∧ ((labCmd 0).mem (.stack 0)).errs = []
    ∧ u32Diff 1 0 = 1 ∧ u32Diff 0 (2 ^ 32 - 1) = 1 ∧ (takenOf ((labCmd 0).bytes (.stack 0) 0x17F8000000 64) 0 0).op = 9
    ∧ (takenOf ((labCmd 0).bytes (.stack 0) 0x17F8000000 64) 0 0).bad = false ∧ (labCmd 0).taken.any (·.bad) = false
    ∧ labCc.waiting = [] ∧ (labLs 1 0).obj 0x2200 2 0 ≠ 0 := by decide +kernel
theorem test_requests : runs (.requestComputeIdle (rq0 false)) labO (fun u => u.move = some ⟨2, 5, 0, false⟩ && u.obj 0x2001 1 0 = 2)
    && runs (.requestComputeReset (rq0 false)) labO (fun u => u.move = some ⟨1, 5, 0, false⟩)
    && runs (.requestServiceOnly (rq0 false)) labO (fun u => u.move = some ⟨3, 5, 0, false⟩ && u.pstate 0 = 6)
    && runs (.requestRun (rq0 false)) (labO.setObj 0x2001 1 0 2) (fun u => u.move = none && u.obj 0x2001 1 0 = 0)
    && ends (.requestRun (rq0 false)) (labO.setObj 0x3100 1 0 3) (some .stateConflict)
    && ends (.requestServiceOnly (rq0 false)) { labO with turn := some (turn0 1) } (some .stateConflict) = true := by decide +kernel
theorem test_resets : runs (.moduleReset (rq0 false) 0x74657372) labO (fun u => u.mstate = 3 && u.obj 0x2000 3 0 = 1 && u.mems = []
      && u.parts = [] && u.pstate 0 = 0)
    && ends (.moduleReset (rq0 false) 0x74657373) labO (some .badSignature)
    && runs (.edgeReset (rq0 false) 1) labO (fun u => u.obj 0x2003 3 0 = 1 && u.engines.all (fun x => x.2.st = 0) && u.pstate 0 = 6) = true := by
  decide +kernel
theorem test_commandRing : runs (.commandProducerWrite (rq0 false) 1) (labCmd 0) (fun u => u.taken.map (fun c => (c.op, c.tag, c.part)) = [(9, 7, 0)]
      && u.obj 0x2300 2 0 = 1)
    && runs (.commandProducerWrite (rq0 false) 1) (labO.poke (.stack 0) 0x17F8000000 ([42, 0, 0, 0] ++ leBytes 4 7)) (fun u =>
      u.taken = [] && u.obj 0x2300 3 0 = 1)
    && ends (.commandProducerWrite (rq0 false) 16385) labO (some .valueRange)
    && runs (.completionConsumerWrite (rq0 false) 5) labCc (fun u => u.obj 0x2300 4 0 = 5)
    && ends (.completionConsumerWrite (rq0 false) 6) labCc (some .valueRange) = true := by decide +kernel
theorem test_lease : runs (.leaseRenew (rq0 false) 9) (labLs 1 3) (fun u => u.lease = 3 && u.obj 0x2200 5 0 = 1)
    && ends (.leaseRenew (rq0 false) 8) (labLs 1 3) (some .stateConflict)
    && runs (.leaseReclaim (rq0 false) 8) (labLs 2 3) (fun u => u.lease = 3 && u.obj 0x2200 4 0 = 8 && decide (Told lab u 0x8040 0x7FFF)
      && u.ring.head?.map (·.data.take 8) = some (leBytes 4 9 ++ leBytes 4 8))
    && ends (.leaseReclaim (rq0 false) 0) (labLs 2 3) (some .valueRange)
    && ends (.leaseRenew (rq0 false) 0) (labLs 2 3) (some .valueRange)
    && runs (.leaseRenew (rq0 false) 9) (labLs 1 ((labLs 1 0).obj 0x2200 2 0 * 117500)) (fun u => u.obj 0x2200 6 0 = 1)
    && ends (.leaseReclaim (rq0 false) 8) (labLs 1 3) (some .stateConflict)
    && runs .leaseExpiry (labLs 1 ((labLs 1 0).obj 0x2200 2 0 * 117500 + 1)) (fun u => u.obj 0x2200 5 0 = 2 && decide (Told lab u 0x8020 0x7FFF))
    && still .leaseExpiry (labLs 1 ((labLs 1 0).obj 0x2200 2 0 * 117500))
    && runs (.traceEnableWrite (rq0 false) 1) labO (fun u => u.obj 0x9100 1 0 = 1)
    && ends (.traceEnableWrite (rq0 false) 1) (labO.setObj 0x3100 1 0 1) (some .stateConflict) = true := by decide +kernel

/-! Security, power and bring-up. -/

def sigs1 : Sigs := ⟨true, true⟩
def er0 (ok retire : Bool) : EnrolRecord := { retire, sigs := ⟨ok, true⟩, serial := 1, digests := List.replicate 96 5 }
/-- Owner keys (short ones, for the evaluation), and their digests. -/
def keyR : List Byte := [5]
def keyS : List Byte := [6]
def digs0 : List Byte := sha384 keyR ++ sha384 keyS
def pr0 (v : BitVec 32) : ProvRecord :=
  { rsaKey := keyR, slhKey := keyS, sigs := sigs1, serial := 0, version := v, hostSub := 0, traceSub := 0, writePerm := 0x3FE, obsPerm := 0, unlock := true, floor := 0 }
def tok0 (n : BitVec 32) : Token := ⟨keyR, keyS, sigs1, 1, n⟩
/-- In M3 by CoE; enrolled, in a state of R404. -/
def labS3 : State := { labO.setObj 0x2000 1 0 3 with power := { labO.power with mV := 42000 } }
def labSe (st cause : Nat) : State :=
  ((((labO.setObj 0x3100 1 0 st).setObj 0x3100 2 0 cause).setObj 0x3100 3 0 1).setObj 0x3030 2 0 1).setBlob 0x3100 4 0 digs0
/-- The security core verifies (R407). -/
def verifying (s : State) : State := { s with sec := { s.sec with verifyAt := some s.tick } }
def moves (i : Instr) (s : State) (st : Nat) : Bool := runs i s (fun u => u.security = st && u.obj 0x3100 5 0 = 1 && u.obj 0x3100 6 0 = 0)
theorem wit_Security : labS3.takesWrite .coe 0x3100 0x10 0 ∧ labS3.mstate = 3 ∧ labS3.security = 0 ∧ labS3.serial = 1
    ∧ labS3.sec.verifyAt ≠ some labS3.tick ∧ (labSe 1 0).sec.verifyAt ≠ some (labSe 1 0).tick ∧ (labSe 1 0).ownerKeys keyR keyS = true
    ∧ (labSe 1 0).takesWrite (rq0 false) 0x3100 0x11 0 ∧ (labSe 1 0).storeReady = true ∧ (labSe 1 0).takesWrite (rq0 false) 0x3100 0x12 0
    ∧ (labSe 2 0).takesWrite (rq0 false) 0x3100 0x13 0 ∧ (labSe 1 0).takesWrite (rq0 false) 0x3200 1 0
    ∧ (labSe 1 0).tokenResult 1 (tok0 1) = 0 ∧ (labSe 2 0).tokenResult 2 (tok0 1) = 0 ∧ (labSe 2 0).tokenResult 3 (tok0 1) = 0
    ∧ (labSe 3 2).tokenResult 4 (tok0 1) = 0 ∧ (labSe 0 0).tokenResult 5 (tok0 1) = 0 ∧ (labSe 1 0).tokenResult 2 (tok0 1) = 5
    ∧ (labSe 1 0).tokenResult 1 (tok0 2) = 4 := by decide +kernel
theorem test_enrolment : runs (.enrolmentRecordWrite .coe (er0 true false)) labS3 (fun u => u.security = 1 && u.obj 0x3100 3 0 = 1)
    && runs (.enrolmentRecordWrite .coe (er0 true true)) labS3 (fun u => u.security = 4)
    && ends (.enrolmentRecordWrite .coe (er0 false false)) labS3 (some .badSignature)
    && ends (.enrolmentRecordWrite .coe (er0 true false)) (labS3.setObj 0x3100 1 0 1) (some .stateConflict)
    && ends (.enrolmentRecordWrite .coe (er0 true false)) (verifying labS3) (some .stateConflict)
    && ends (.provisioningRecordWrite (rq0 false) (pr0 2)) (verifying (labSe 1 0)) (some .stateConflict)
    && runs (.provisioningRecordWrite (rq0 false) (pr0 2)) (labSe 1 0) (fun u => u.sec.record = some (pr0 2)) = true := by decide +kernel
theorem test_tokens : ends (.tokenRelock (rq0 false) (tok0 1)) (verifying (labSe 2 0)) (some .stateConflict) && moves (.tokenUnlockObservation (rq0 false) (tok0 1)) (labSe 1 0) 2 && moves (.tokenRelock (rq0 false) (tok0 1)) (labSe 2 0) 1
    && moves (.tokenQuarantine (rq0 false) (tok0 1)) (labSe 2 0) 3 && moves (.tokenReleaseQuarantine (rq0 false) (tok0 1)) (labSe 3 2) 1
    && moves (.tokenRetire (rq0 false) (tok0 1)) (labSe 1 0) 4
    && runs (.tokenRelock (rq0 false) (tok0 1)) (labSe 1 0) (fun u => u.security = 1 && u.obj 0x3100 6 0 = 5 && decide (Told lab u 0x9040 8)
      && u.replies.head?.map (·.abort) = some (some .stateConflict)) = true := by decide +kernel
theorem test_attestation : runs (.observationLockWrite (rq0 false) 1) (labSe 2 0) (fun u => u.security = 1)
    && runs (.observationLockWrite (rq0 false) 1) (labSe 1 0) (fun u => u.security = 1 && u.ring = [])
    && runs (.attestationNonceWrite (rq0 false) (List.replicate 32 7) true) (labSe 1 0) (fun u => u.obj 0x3200 3 0 = 1 && u.sec.signing.isSome)
    && runs (.attestationNonceWrite (rq0 false) (List.replicate 32 7) false) (labSe 1 0) (fun u => u.security = 3 && u.obj 0x3100 2 0 = 1
      && u.move = some ⟨3, 4, 0, false⟩)
    && ends (.attestationNonceWrite (rq0 false) (List.replicate 31 7) true) (labSe 1 0) (some .length)
    && ends (.attestationNonceWrite (rq0 false) (List.replicate 32 7) true) ((labSe 1 0).setObj 0x3200 3 0 1) (some .stateConflict) = true := by
  decide +kernel
theorem test_report : (labSe 1 0).reportBody (List.replicate 32 7) |>.length |> (· = 576) := by decide +kernel

def labPw (f : Power → Power) : State := { lab with power := f lab.power }
def labRg (f : Region → Region) (now : Nat) : State := { lab.modRegion 0 f with now := 32 * now }
theorem wit_Power : lab.bounded ∧ (lab.core 0).down = false ∧ lab.mstate < 3 ∧ (labPw (fun p => { p with stopped := true })).power.stopped = true
    ∧ (labRg (fun g => { g with rearmed := some 0 }) 11749999).tick < 0 + 11750000
    ∧ lab.waferOn = true ∧ State.reset.waferOn = false ∧ State.reset.mstate ≠ 4 ∧ lab.boot.active = false ∧ (lab.region 0).netUp = true
    ∧ (labRg (fun g => { g with rising := some 0 }) 352499).tick < 0 + 352500 ∧ (lab.region 0).rising = none
    ∧ (∀ e ∈ lab.tiles, e.2.ops = [] ∧ ∀ c ∈ e.2.ctxs, c.2.store = none) ∧ (lab.region 0).retrain.isRunning = false ∧ (lab.region 0).isOff = false
    ∧ ((lab.modRegion 0 (fun g => { g with st := .latched })).region 0).isOff = true ∧ (lab.region 0).rearmed = none := by decide +kernel
theorem test_inlet : runs (.inletUndervoltStop 36000) lab (fun u => u.power.stopped && u.obj 0x2020 1 0 = 3600 && !(u.region 0).clocked
      && decide (Told lab u 0x1060 0x7FFF))
    && runs (.inletUndervoltStop 37999) lab (fun u => u.power.stopped) && runs (.inletUndervoltStop 38000) lab (fun u => !u.power.stopped)
    && runs (.inletRecovery 38500) (labPw (fun p => { p with stopped := true })) (fun u => !u.power.stopped)
    && runs (.inletRecovery 45501) (labPw (fun p => { p with stopped := true })) (fun u => u.power.stopped)
    && runs (.inletFaultPowerdown 47001) lab (fun u => u.mstate = 3 && u.obj 0x2000 3 0 = 2 && u.mems = [] && u.tiles = [] && u.pstate 0 = 0
      && u.ring.any (fun e => e.code = 0x1060))
    && runs (.inletFaultPowerdown 47001) State.reset (fun u => u.mstate = 3 && decide (Told lab u 0x1060 0x7FFF))
    && still (.inletFaultPowerdown 47000) lab
    && runs (.servicePowerLoss 29999) lab (fun u => u.mstate = 4 && u.ring = []) && still (.servicePowerLoss 30000) lab = true := by decide +kernel
theorem test_regionPower : still (.regionShortCircuit 0 2) (lab.modRegion 0 (fun g => { g with st := .latched }))
    && still (.railSequenceTimeout 0 1) lab
    && runs (.rearmCountClear 0) (labRg (fun g => { g with rearmed := some 0, failed := 2 }) 1175000000) (fun u => (u.region 0).failed = 0
      && (u.region 0).rearmed = none)
    && still (.rearmCountClear 0) (labRg (fun g => { g with rearmed := some 0 }) 1174999999) = true := by decide +kernel

def hot (t : Int) : Instr := .thermalSample 0 (List.replicate 16 t)
def labRoot : State := labPw (fun p => { p with locked := true }) |>.modRegion 19 (fun g => { g with st := .running })
def warm (level index at' now : Nat) : State := labRg (fun g => { g with level, index, indexAt := at' }) now
def cap0 (cap above under : Nat) : State := labPw (fun p => { p with cap, above, under })
def half0 (now : Nat) : State := { labPw (fun p => { p with halfDown := [0], clear := [(0, 5)] }) with now := 32 * now }
theorem wit_Clocks : labRoot.lockHeld = true ∧ labRoot.boot.active = false ∧ labRoot.power.locked = true ∧ lab.power.locked = false
    ∧ (lab.region 0).firstReading = false ∧ sensorOk 949 = true ∧ lab.threshold 0 1 = 950 ∧ lab.threshold 0 2 = 1050 ∧ lab.powerLimit < 40000
    ∧ (lab.setObj 0x2020 6 0 1).halfCauses 0 ≠ 0 ∧ lab.halfCauses 0 = 0 ∧ (half0 0).halfCauses 0 = 0 ∧ halfOf 0 = 0 := by decide +kernel
theorem test_clocks : runs (.meshRelock 1) labRoot (fun u => decide (Told lab u 0x1030 0x7FFF) && u.regions = labRoot.regions)
    && runs .meshLockLoss labRoot (fun u => u.mstate = 3 && u.obj 0x2000 3 0 = 3) && still .meshLockLoss lab
    && runs (hot 949) lab (fun u => (u.region 0).temp = 949 && (u.region 0).level = 0 && u.ring = [])
    && runs (hot 950) lab (fun u => (u.region 0).level = 1 && (u.region 0).index = 1 && decide (Told lab u 0x2010 0))
    && runs (.thermalIndexStep 0) (warm 1 2 7 117507) (fun u => (u.region 0).index = 3) && still (.thermalIndexStep 0) (warm 1 2 7 117506)
    && runs (.thermalIndexStep 0) (warm 0 1 0 1175000) (fun u => (u.region 0).index = 0 && decide (Told lab u 0x2010 0)) = true := by decide +kernel
theorem test_cap : runs (.powerCapTick 40000) (cap0 0 9 0) (fun u => u.power.cap = 1 && u.obj 0x2020 2 0 = 4000 && decide (Told lab u 0x2050 0x7FFF)
      && 1 ≤ u.stepWanted 0)
    && runs (.powerCapTick 40000) (cap0 0 8 0) (fun u => u.power.cap = 0 && u.power.above = 9)
    && runs (.powerCapTick 0) (cap0 1 0 99) (fun u => u.power.cap = 0 && decide (Told lab u 0x2050 0x7FFF))
    && runs (.overcurrentTrip 8501) lab (fun u => u.power.cap = 3 && decide (Told lab u 0x2050 0x7FFF) && u.obj 0x2020 9 0 = 8501)
    && runs (.overcurrentTrip 8500) lab (fun u => u.power.cap = 0 && u.ring = [])
    && runs (.halfClockDownEntry false) (lab.setObj 0x2020 6 0 1) (fun u => u.power.halfDown = [0] && decide (Told lab u 0x1050 0) && 3 ≤ u.stepWanted 0)
    && still (.halfClockDownEntry false) lab
    && runs (.halfClockDownExit false) (half0 11750005) (fun u => u.power.halfDown = [] && decide (Told lab u 0x1050 0))
    && still (.halfClockDownExit false) (half0 11750004) = true := by decide +kernel

def labOn : State := { ((State.reset.setObj 0x3100 1 0 1).setObj 0x3100 3 0 1).setBlob 0x3100 4 0 digs0 with sec := { State.reset.sec with record := some (pr0 2) } }
def start0 (mV : Nat) : Instr := .powerOn (.start mV sigs1 sigs1 (List.replicate 6 sigs1) (List.replicate 6 sigs1) true sigs1 true)
def labBt (f : Boot → Boot) : State := { State.reset with boot := f { active := true } }
def labUc (n : Nat) : State := { lab with mc := some [(0, 0)], boot := { mcTries := [(0, n)] } }
theorem wit_BringUp : labOn.mstate = 3 ∧ labOn.obj 0x2000 2 0 = 0 ∧ labOn.otherSlot = false ∧ labOn.obj 0x1012 2 0 = 0
    ∧ labOn.slotA.valid = true ∧ labOn.sec.fusedFloor.toNat ≤ labOn.slotA.version.toNat ∧ labOn.saved = {} ∧ labOn.obj 0x2001 1 0 ≤ 2
    ∧ labOn.ownerKeys (pr0 2).rsaKey (pr0 2).slhKey = true ∧ (pr0 2).floor.toNat ≤ labOn.slotA.version.toNat ∧ (∃ q ∈ rootRegions, ((labBt id).region q).st ≠ .dead)
    ∧ (labBt (fun b => { b with precharged := true })).nextSlot = some 0 ∧ (State.reset.core 1).down = false := by decide +kernel
theorem test_bringUp : runs (start0 38000) labOn (fun u => u.boot.active && u.obj 0x2000 2 0 = 4 && u.mstate = 3 && u.security = 1)
    && still (start0 37999) labOn
    && still (.prechargeComplete 38000) { labBt (fun b => { b with charging := some 0 }) with now := 32 * 93999999, power := { mV := 38000 }, dict := [(okey 0x2020 1 0, 3800)] }
    && runs (.prechargeComplete 38000) { labBt (fun b => { b with charging := some 0 }) with now := 32 * 94000000 } (fun u => u.boot.precharged && u.obj 0x2000 2 0 = 5)
    && runs (.regionPowerSlot 0 true) (labBt (fun b => { b with precharged := true })) (fun u =>
      (u.region (bootOrder.getD 0 0)).st = .powering && (u.region (bootOrder.getD 0 0)).attempts = 1 && u.obj 0x2000 2 0 = 7)
    && still (.regionPowerSlot 1 true) (labBt (fun b => { b with precharged := true }))
    && runs (.microcodeRetry 0 false) (labUc 2) (fun u => u.mc = some [(0, 2)])
    && runs (.microcodeRetry 0 true) (labUc 0) (fun u => u.mc = some []) && still .bootM2Entry (labBt id) = true := by decide +kernel
/-- Every engine failed, no region powered, the floor plan published and no tile awaiting microcode. -/
def labDone : State := { labBt (fun b => { b with published := true, precharged := true }) with
  mc := some [], engines := (List.range 32).map (fun e => (e, { failed := true })), dict := [] }
theorem test_bootM2 : (labDone.setObj 0x2001 1 0 2).bootDone = true ∧ labDone.security < 3
    ∧ runs .bootM2Entry (labDone.setObj 0x2001 1 0 2) (fun u => u.mstate = 2 && !u.boot.active && u.obj 0x2000 2 0 = 12) = true := by decide +kernel
theorem test_transition : runs .runningTransitionComplete { lab.setObj 0x2001 1 0 2 with move := some ⟨2, 5, 0, false⟩ } (fun u => u.mstate = 2 && u.move = none)
    && runs .runningTransitionComplete { lab.setObj 0x2001 1 0 3 with move := some ⟨3, 4, 0, false⟩, regions := [] } (fun u => u.mstate = 3 && u.obj 0x2000 3 0 = 4)
    && still .runningTransitionComplete { lab.setObj 0x2001 1 0 3 with move := some ⟨3, 4, 0, false⟩ }
    && runs (.requestRun (rq0 false)) { labO with move := some ⟨2, 5, 0, false⟩ } (fun u => u.move = some ⟨2, 5, 0, true⟩ && u.obj 0x2001 1 0 = 0)
    && runs (.coreWatchdogExpiry 2 false true 5000000) lab (fun u => (u.core 2).down && (u.core 2).upAt = 4700000)
    && runs (.coreWatchdogExpiry 2 false true 9) (lab.setCore 2 { restarts := [0, 0, 0, 0] }) (fun u => u.mstate = 3 && u.obj 0x2000 3 0 = 4 && u.parts = [])
    = true := by decide +kernel

theorem wit_Reset : State.reset.bounded ∧ State.reset.obj 0x2110 2 0 = 1000 ∧ State.reset.obj 0x5100 1 0 = 8 ∧ State.reset.obj 0x6000 1 0 = 1 := by
  decide +kernel
theorem wit_Memories : lab.memsOk := fun _ => rfl

/-! Ill-formed commands, one for each check. -/

theorem test_wellFormed : ([.tensorStream 0 0 {} .a .forward false 0 [⟨.sram 0, 0, 36, 1⟩], .moveCopy 0 0 {} 0 ⟨0, 0⟩ [⟨.vault 0, 0, 68, 1⟩],
    .scrubRead (.stack 1) (0x1800000000 / 64) [], .netMcast 0 0 {} 0 0 [], .netReduce 0 0 {} 0 0 (some dst0) (some hdr0),
    .allgatherArrival 1 0 0 ⟨0, 0, 7, List.replicate 16385 0, [], false, {}⟩, .tailraceBlockArrival 1 0 ⟨hdr0, []⟩, .tailracePartReceive 1 0 none ⟨hdr0, []⟩,
    .farFetchResponse 0 0 0 (.data (List.replicate 28993 0)), .verdictApply 0 ⟨⟨0, 0, 1, 0, 0, []⟩, {}⟩, .verdictCombine 0 (1, 0) ⟨⟨0, 0, 1, 0, 0, []⟩, {}⟩,
    .partitionLoad 0 { img0 with tries := [(0, 4)] }, .turnoverStageDone (.loaded [{ img0 with tries := [(0, 4)] }]),
    .ringRequestArrival { req0 3 with ring := 4 }, .ringResponseForward (1, 0) (hostHdr true) (List.replicate 49 0) [],
    .packetTransit 1 0 (hdrP 2) [] (List.replicate 4097 0), .linkPutPacket 1 0 (hdrP 2) 0 dst0 (List.replicate 4097 0),
    .farWriteRequest (far0 0) [1, 2, 3], .dataFrameReceive 1 0 [] ⟨0, {}⟩, .badFrameReceive 1 0 [] ⟨0, {}⟩, .controlFrameReceive 1 0 ⟨{ ack0 0 with ty := 4 }, {}⟩,
    .replayRequestReceive 1 0 (2 ^ 24), .subportTrainingDone 1 0 { peer0 with split := 4 }, .inBandWrite (rq0 false) 0 0 0 0 true (List.replicate 4097 0),
    .foeWrite (imgF true), .imageWrite (rq0 false) (imgF true), .thermalSample 0 [], .enrolmentRecordWrite .coe { er0 true false with digests := [] },
    .provisioningRecordWrite .coe { pr0 1 with slhKey := [] }, .tokenRelock .coe { tok0 1 with rsaKey := [] }, .attestationNonceWrite .coe [] true] : List Instr).all (fun i => !i.wf) = true := by decide +kernel
theorem test_wellFormed_good : ([.vectorAdd 0 0 {} 1 2 3, .replayRequestReceive 1 0 (2 ^ 24 - 1), .scrubRead (.stack 1) (0x1800000000 / 64 - 1) [],
    .farWriteRequest (far0 0) [1], .provisioningRecordWrite .coe { pr0 1 with rsaKey := List.replicate 384 5, slhKey := List.replicate 48 6 }, .attestationNonceWrite .coe (List.replicate 32 7) true] : List Instr).all Instr.wf = true := by decide +kernel

end Sys2Proof.Tests
end

section
/-! SUPPORT. What stays unchanged when an event is recorded and when a context stops, what an operation finds in the state in
which it runs, and how MOVE and NET operations append their transfers (O11). -/
namespace Sys2Proof.Machine

/-! What the recording of an event leaves unchanged. -/

/-- From s to u, no more has happened than that service core 0 has recorded events: ring, log, hardware buffer and mirror
have changed, with the objects 0x9000 and what the mirror's stack counts of its own reads (R180, R417–R419). -/
structure Recorded (s u : State) : Prop where
  frame : u = { s with ring := u.ring, log := u.log, hwbuf := u.hwbuf, mirrored := u.mirrored, dict := u.dict,
                       mems := u.mems, engines := u.engines, live := u.live }
  count : ∀ i b n, okey i b n / 2 ^ 24 ≠ 0x7410 → u.count i b n = s.count i b n

namespace Recorded
variable {s u v : State}

theorem refl (s : State) : Recorded s s := ⟨rfl, fun _ _ _ _ => rfl⟩

theorem trans (h : Recorded s u) (k : Recorded u v) : Recorded s v :=
  ⟨by rw [k.frame, h.frame], fun i b n hi => (k.count i b n hi).trans (h.count i b n hi)⟩

theorem tile (h : Recorded s u) (t : Nat) : u.tile t = s.tile t := by rw [h.frame]; rfl

theorem foldl {α : Type} {f : State → α → State} (hf : ∀ s a, Recorded s (f s a)) (l : List α) (s : State) :
    Recorded s (l.foldl f s) := by
  induction l generalizing s with
  | nil => exact refl s
  | cons a r ih => exact (hf s a).trans (ih _)

theorem setMem (s : State) (m : MemUnit) (x : Mem) : Recorded s (s.setMem m x) := ⟨rfl, fun _ _ _ _ => rfl⟩

theorem countMem (s : State) (e : Fin 32) {k : Nat} (hk : k < 256) : Recorded s (s.countMem (.stack e) k) := by
  refine ⟨rfl, fun i b n hi => ?_⟩
  have hne : okey i b n ≠ okey 0x7410 k e.val := by
    intro he
    apply hi
    rw [he]
    simp only [okey]
    omega
  simp [State.countMem, State.count_bump, hne]

theorem noteCorrected (s : State) (e : Fin 32) (a : Nat) : Recorded s (s.noteCorrected (.stack e) a).1 := by
  simp only [State.noteCorrected]
  split <;> split <;> exact ⟨rfl, fun _ _ _ _ => rfl⟩

theorem readWordEv (s : State) (e : Fin 32) (w reader : Nat) : Recorded s (s.readWordEv (.stack e) w reader).1 := by
  simp only [State.readWordEv]
  split
  · exact refl s
  · split
    · exact countMem s e (by omega)
    · split
      · exact setMem s _ _
      · exact ((setMem s _ _).trans (countMem _ e (by omega))).trans (noteCorrected _ e _)
      · exact (setMem s _ _).trans (countMem _ e (by omega))

theorem storeWordEv (e : Fin 32) (a len : Nat) (x : State × List Ev) (w : Nat) :
    Recorded x.1 (State.storeWordEv (.stack e) a len x w).1 := by
  unfold State.storeWordEv
  split
  · exact setMem _ _ _
  · exact readWordEv _ e w 9

theorem storeEv (s : State) (e : Fin 32) (a : Nat) (bs : List Byte) : Recorded s (s.storeEv (.stack e) a bs).1 := by
  have words (l : List Nat) (x : State × List Ev) :
      Recorded x.1 (l.foldl (State.storeWordEv (.stack e) a bs.length) x).1 := by
    induction l generalizing x with
    | nil => exact refl _
    | cons w r ih => exact (storeWordEv e a _ x w).trans (ih _)
  exact (words _ (s, [])).trans (setMem _ _ _)

theorem listRecord (s : State) (r : Record) : Recorded s (s.listRecord r) := by
  unfold State.listRecord
  simp only
  split <;> exact ⟨rfl, fun _ _ _ _ => rfl⟩

theorem listEvent (s : State) (e : Ev) : Recorded s (s.listEvent e) := foldl listRecord _ s

theorem mirrored (s : State) (i : Nat) : Recorded s { s with mirrored := i } := ⟨rfl, fun _ _ _ _ => rfl⟩

theorem mirror (n : Nat) (s : State) : Recorded s (State.mirror n s) := by
  induction n generalizing s with
  | zero => exact refl s
  | succ n ih =>
    unfold State.mirror
    simp only
    split
    · exact refl s
    · split
      · exact mirrored s _
      · split
        · exact refl s
        · split
          · exact (mirrored s _).trans (ih _)
          · exact (((storeEv s 0 _ _).trans (mirrored _ _)).trans (foldl listEvent _ _)).trans (ih _)

theorem raise (s : State) (code src : Nat) (stp : BitVec 32) (data : List Byte) :
    Recorded s (s.raise code src stp data) := by
  unfold State.raise
  simp only
  split
  · split <;> exact ⟨rfl, fun _ _ _ _ => rfl⟩
  · exact (foldl listRecord _ s).trans (mirror _ _)

end Recorded

/-! A context stops (R131). -/

/-- The end of a tagged write changes nothing of the tiles but which tags have been reported (R48). -/
theorem endWrite_tile (s : State) (t tag j : Nat) :
    (s.endWrite t tag).tile j = { s.tile j with reported := ((s.endWrite t tag).tile j).reported } := by
  simp only [State.endWrite]
  split
  · rfl
  · split
    · rfl
    · rw [(Recorded.raise _ _ _ _ _).tile, State.tile_setTile]
      split
      · subst j; rfl
      · rfl

theorem endWrite_count (s : State) (t tag i b n : Nat) (hi : okey i b n / 2 ^ 24 ≠ 0x7410) :
    (s.endWrite t tag).count i b n = s.count i b n := by
  simp only [State.endWrite]
  split
  · rfl
  · split
    · rfl
    · rw [(Recorded.raise _ _ _ _ _).count i b n hi]; rfl

@[simp] theorem endRun_queues (s : State) (t c : Nat) : ((s.endRun t c).tile t).queues = (s.tile t).queues := by
  unfold State.endRun
  split
  · rfl
  · rw [endWrite_tile]; simp

/-- The end of a context's run of stores leaves the rest of the context as it is (R82). -/
@[simp] theorem endRun_ctx (s : State) (t c : Nat) :
    ((s.endRun t c).tile t).ctx c = { (s.tile t).ctx c with store := none } := by
  unfold State.endRun
  split
  · next h => rw [← h]
  · have hr (x : Tile) (r : List Nat) : ({ x with reported := r } : Tile).ctx c = x.ctx c := rfl
    rw [endWrite_tile, hr]
    simp

theorem endRun_count (s : State) (t c i b n : Nat) (hi : okey i b n / 2 ^ 24 ≠ 0x7410) :
    (s.endRun t c).count i b n = s.count i b n := by
  unfold State.endRun
  split
  · rfl
  · rw [endWrite_count _ _ _ _ _ _ hi]; rfl

theorem foldl_onlyArrays {f : Tile → Op → Tile} (hf : ∀ x o, f x o = { x with arrays := (f x o).arrays }) (l : List Op)
    (x : Tile) : l.foldl f x = { x with arrays := (l.foldl f x).arrays } := by
  induction l generalizing x with
  | nil => rfl
  | cons o r ih => rw [List.foldl_cons, ih, hf]

/-- Abandoned operations leave their tile with fewer operations and accesses, and free their arrays. -/
theorem abandon_frame (x : Tile) (c : Nat) :
    x.abandon c = { x with ops := (x.abandon c).ops, accs := (x.abandon c).accs, arrays := (x.abandon c).arrays } := by
  unfold Tile.abandon
  dsimp only
  rw [foldl_onlyArrays ?_]
  intro y o
  split <;> rfl

@[simp] theorem abandon_queues (x : Tile) (c : Nat) : (x.abandon c).queues = x.queues := by rw [abandon_frame]

@[simp] theorem abandon_ctxs (x : Tile) (c : Nat) : (x.abandon c).ctxs = x.ctxs := by rw [abandon_frame]

@[simp] theorem abandon_ctx (x : Tile) (c j : Nat) : (x.abandon c).ctx j = x.ctx j := by simp [Tile.ctx]

@[simp] theorem stopCtx_queues (s : State) (t c : Nat) : ((s.stopCtx t c).tile t).queues = (s.tile t).queues := by
  simp [State.stopCtx, Tile.modCtx]

theorem stopCtx_ctxs (s : State) (t c : Nat) : ((s.stopCtx t c).tile t).ctxs
    = (((s.endRun t c).tile t).modCtx c (fun y => { y with run := .stopped, asm := [], yielded := false })).ctxs := by
  simp [State.stopCtx, Tile.modCtx, Tile.setCtx]

@[simp] theorem stopCtx_ctx (s : State) (t c : Nat) : ((s.stopCtx t c).tile t).ctx c
    = { (s.tile t).ctx c with run := .stopped, asm := [], yielded := false, store := none } := by
  rw [Tile.ctx, stopCtx_ctxs]
  exact (Tile.ctx_setCtx_same _ _ _).trans (by rw [endRun_ctx])

theorem stopCtx_count (s : State) (t c i b n : Nat) (hi : okey i b n / 2 ^ 24 ≠ 0x7410) :
    (s.stopCtx t c).count i b n = s.count i b n := by
  rw [← endRun_count s t c i b n hi]; rfl

/-- A fault stops its context, which keeps the rest of what it holds, and records code and address (R131). -/
theorem fault_ctx (s : State) (t c code : Nat) : ((s.fault t c code).tile t).ctx c
    = { (s.tile t).ctx c with run := .stopped, asm := [], yielded := false, store := none, fault := code,
                              faddr := ((s.tile t).ctx c).pc } := by
  simp [State.fault]

/-- A fault leaves the transfers of its tile as they are. -/
theorem fault_queues (s : State) (t c code : Nat) : ((s.fault t c code).tile t).queues = (s.tile t).queues := by
  simp [State.fault]

theorem fault_count (s : State) {t : Nat} (ht : t < 2 ^ 16) (c code : Nat) :
    (s.fault t c code).count 0x7200 0x11 t = s.count 0x7200 0x11 t + 1 := by
  have hi : okey 0x7200 0x11 t / 2 ^ 24 ≠ 0x7410 := by simp only [okey]; omega
  simp only [State.fault, State.count_bump_same, State.modCtx_eq, State.count_setTile, stopCtx_count _ _ _ _ _ _ hi]

/-! The state in which an instruction's operation runs. -/

/-- From s, context c of tile t has begun to issue, and its operation has done nothing yet (R114, R117). -/
structure Begun (s w : State) (t : TileId) (c : CtxId) : Prop where
  only : OnlyTile t s w
  others : OthersKeep t c s w
  tile : w.tile t.val = { s.issuedTile t c with ctxs := (w.tile t.val).ctxs }
  ctx : (w.tile t.val).ctx c.val = s.asIssued t c

theorem begun_begin {s : State} {t : TileId} {c : CtxId} (h : s.ready t.val c.val = true) : Begun s (s.begin t c) t c :=
  ⟨begin_only s t c, begin_other s t c, begin_tile s t c, begin_ctx h⟩

namespace Begun
variable {s w : State} {t : TileId} {c : CtxId}

/-- What a tile holds beside its contexts and the record of its last issue is as before the issue. -/
theorem field {α : Type} (hw : Begun s w t c) (f : Tile → α)
    (hf : ∀ x cs l i, f { x with ctxs := cs, last := l, issued := i } = f x) (j : Nat) :
    f (w.tile j) = f (s.tile j) := by
  by_cases hj : j = t.val
  · subst hj
    rw [hw.tile]
    exact hf (s.tile t.val) _ _ _
  · rw [hw.only.2 j hj]

theorem ofState {α : Type} (hw : Begun s w t c) (f : State → α) (hf : ∀ x ts, f { x with tiles := ts } = f x) :
    f w = f s := by
  rw [hw.only.1]
  exact hf _ _

theorem part (hw : Begun s w t c) (j : Nat) : (w.tile j).part = (s.tile j).part := hw.field Tile.part (fun _ _ _ _ => rfl) j
theorem queue (hw : Begun s w t c) (q : Nat) : (w.tile t.val).queue q = (s.tile t.val).queue q :=
  hw.field (Tile.queue · q) (fun _ _ _ _ => rfl) _
theorem nextId (hw : Begun s w t c) : (w.tile t.val).nextId = (s.tile t.val).nextId :=
  hw.field Tile.nextId (fun _ _ _ _ => rfl) _
theorem stamp (hw : Begun s w t c) : (w.tile t.val).stamp = (s.tile t.val).stamp := hw.field Tile.stamp (fun _ _ _ _ => rfl) _
theorem guarded (hw : Begun s w t c) : (w.tile t.val).guarded = (s.tile t.val).guarded :=
  hw.field Tile.guarded (fun _ _ _ _ => rfl) _
theorem dataReady (hw : Begun s w t c) (q : Nat) : (w.tile t.val).ready q = (s.tile t.val).ready q :=
  hw.field (Tile.ready · q) (fun _ _ _ _ => rfl) _
theorem coreOf (hw : Begun s w t c) (j : Nat) : w.coreOf j = s.coreOf j := hw.ofState (State.coreOf · j) (fun _ _ => rfl)
theorem tilePart (hw : Begun s w t c) (j : Nat) : w.tilePart j = s.tilePart j := by simp only [State.tilePart, hw.part]

theorem cold (hw : Begun s w t c) : w.cold t.val = s.cold t.val := by
  have hp (p : Nat) : w.part p = s.part p := hw.ofState (State.part · p) (fun _ _ => rfl)
  simp only [State.cold, hw.tilePart, hw.stamp, hp]

/-- A descriptor reads the same in the state in which the operation runs (R119). -/
theorem hasDesc (hw : Begun s w t c) {a : Nat} {d : Desc} (h : s.hasDesc t a d) : w.hasDesc t a d := by
  obtain ⟨haddr, herrs, hread⟩ := h
  have hm (u : MemUnit) : w.mem u = s.mem u := hw.ofState (State.mem · u) (fun _ _ => rfl)
  have hr (b : Bool) : w.readDesc t a b = s.readDesc t a b := hw.ofState (State.readDesc · t a b) (fun _ _ => rfl)
  exact ⟨haddr, by rw [hm, herrs], by rw [hw.cold, hr, hread]⟩

theorem moveFault (hw : Begun s w t c) (d : Desc) (write : Bool) : w.moveFault t.val d write = s.moveFault t.val d write := by
  have hwin : w.windows t.val = s.windows t.val := by
    have hp (p : Nat) : w.part p = s.part p := hw.ofState (State.part · p) (fun _ _ => rfl)
    simp only [State.windows, hw.part, hp]
  have hheld : w.vaultHeld t.val = s.vaultHeld t.val := by
    have hfloor : w.floorOf t.val = s.floorOf t.val := hw.ofState (State.floorOf · t.val) (fun _ _ => rfl)
    have hbad : (w.tile t.val).vaultBad = (s.tile t.val).vaultBad := hw.field Tile.vaultBad (fun _ _ _ _ => rfl) _
    simp only [State.vaultHeld, hfloor, hbad]
  simp only [State.moveFault, Desc.windowFault, hwin, hheld]

theorem netFault (hw : Begun s w t c) (d : Desc) (stack : Bool) : w.netFault t.val d stack = s.netFault t.val d stack := by
  simp only [State.netFault, hw.moveFault]

theorem destFault (hw : Begun s w t c) (d : Dest) (len : Nat) : w.destFault t.val d len = s.destFault t.val d len := by
  have hl (j : Nat) : (w.tile j).landing = (s.tile j).landing := hw.field Tile.landing (fun _ _ _ _ => rfl) j
  simp only [State.destFault, State.landingFits, Tile.landingOf, hw.tilePart, hl]

theorem relayFault (hw : Begun s w t c) (d len : Nat) : w.relayFault t.val d len = s.relayFault t.val d len := by
  have he : w.exports d = s.exports d := hw.ofState (State.exports · d) (fun _ _ => rfl)
  simp only [State.relayFault, hw.part, hw.guarded, he]

theorem putVc (hw : Begun s w t c) (q : Nat) : w.putVc t.val q = s.putVc t.val q :=
  hw.ofState (State.putVc · t.val q) (fun _ _ => rfl)

theorem gateEnd (hw : Begun s w t c) (p route vc j : Nat) : w.gateEnd p route vc j = s.gateEnd p route vc j := by
  have hr (j : Nat) : w.router j = s.router j := hw.ofState (State.router · j) (fun _ _ => rfl)
  have hend (n j : Nat) : w.routeEnd p route vc n j = s.routeEnd p route vc n j := by
    induction n generalizing j with
    | zero => rfl
    | succ n ih => simp only [State.routeEnd, hr, ih]
  simp only [State.gateEnd, hend]

end Begun

/-- With a descriptor that reads free of changed symbols, an operation goes on with it (R119, R178). -/
theorem withDesc_of_hasDesc {s : State} {t : TileId} {a : Nat} {d : Desc} (h : s.hasDesc t a d) (c : CtxId)
    (f : State → Desc → State) : s.withDesc t c a f = f s d := by
  obtain ⟨haddr, herrs, hread⟩ := h
  simp [State.withDesc, haddr, State.touch_clean herrs, hread]

/-- A command that issues: what its operation makes of the state in which it runs is the outcome. -/
theorem issued_of_begun {s : State} {t c k h m i} {f : State → State} {P : State → Prop}
    (hi : exec i s = done (s.issue t c k h m f))
    (hf : ∀ w, Begun s w t c → ((s.tile t.val).ctx c.val).pc < 8191 →
      ∃ u, done ((f w).unissue s t.val c.val) = .next u ∧ P u) : Issued s t c k h m i P := by
  intro hm
  obtain ⟨hmay, -, -, -, hpc⟩ := id hm
  obtain ⟨u, hu, hP⟩ := hf _ (begun_begin (mayIssue_ready hmay)) hpc
  exact ⟨u, by rw [hi, issue_eq hm, hu], hP⟩

/-- The same of an operation that changes its tile only. -/
theorem issued_of_only {s : State} {t c k h m i} {f : State → State} {P : State → Prop} (hb : s.bounded)
    (hi : exec i s = done (s.issue t c k h m f))
    (hf : ∀ w, Begun s w t c → ((s.tile t.val).ctx c.val).pc < 8191 →
      OnlyTile t s ((f w).unissue s t.val c.val) ∧ P ((f w).unissue s t.val c.val)) : Issued s t c k h m i P :=
  issued_of_begun hi fun w hw hpc =>
    have ⟨ho, hP⟩ := hf w hw hpc
    ⟨_, done_bounded (only_bounded hb ho), hP⟩

/-! How an operation of a queue ends. -/

theorem hold_eq (s : State) (t c : Nat) (w : Wait) : s.hold t c w
    = s.setTile t ((s.tile t).setCtx c { (s.tile t).ctx c with run := .waiting w (s.coreOf t) }) := by
  simp [State.hold]

/-- An instruction that waits for room in a queue has cost no issue cycle (R114). -/
theorem unissue_of_space {s s0 : State} {t c q n : Nat} (h : ((s.tile t).ctx c).run = .waiting (.space q) n) :
    s.unissue s0 t c = s.setTile t { s.tile t with last := (s0.tile t).last, issued := (s0.tile t).issued } := by
  simp [State.unissue, h]

/-- A context that finds its queue full waits for room in it (R121). -/
theorem waits_of_hold {s w : State} {t : TileId} {c : CtxId} (hw : Begun s w t c) (q : Nat) :
    Waits s ((w.hold t.val c.val (.space q)).unissue s t.val c.val) t c (.space q) := by
  rw [hold_eq, unissue_of_space (q := q) (n := w.coreOf t.val) (by simp)]
  have hctx (x : Tile) (l : Nat) (i : Option Nat) (j : Nat) : ({ x with last := l, issued := i } : Tile).ctx j = x.ctx j := rfl
  refine ⟨only_setTile (only_setTile hw.only _) _, fun j hj => ?_, ?_, ?_⟩
  · simp only [State.tile_setTile_same, hctx, Tile.ctx_setCtx, hj, if_false, hw.others j hj]
  · simp only [State.tile_setTile_same, Tile.setCtx]
    rw [hw.tile]
    rfl
  · simp only [State.tile_setTile_same, hctx, Tile.ctx_setCtx_same, hw.ctx, hw.coreOf, State.asIssued]

/-- An operation that has made y of its tile, its contexts apart, and issues: the next instruction follows (R112). -/
theorem advanced_of_begun {s w : State} {t : TileId} {c : CtxId} (hw : Begun s w t c)
    (hpc : ((s.tile t.val).ctx c.val).pc < 8191) {y : Tile} (hy : y.ctxs = (w.tile t.val).ctxs) {u : State}
    (hu : u = ((w.setTile t.val y).advance t.val c.val).unissue s t.val c.val) :
    OnlyTile t s u ∧ OthersKeep t c s u ∧ u.tile t.val = { y with ctxs := (u.tile t.val).ctxs }
      ∧ (u.tile t.val).ctx c.val
        = { (s.tile t.val).ctx c.val with pc := ((s.tile t.val).ctx c.val).pc + 1, run := .ready } := by
  have hctx (j : Nat) : y.ctx j = (w.tile t.val).ctx j := by rw [Tile.ctx, hy]; rfl
  have hyc : y.ctx c.val = s.asIssued t c := (hctx _).trans hw.ctx
  rw [advance_ok (by simpa [hyc, State.asIssued] using hpc), unissue_of_ready (by simp [hyc, State.asIssued])] at hu
  subst hu
  refine ⟨only_setTile (only_setTile hw.only _) _, fun j hj => ?_, ?_, ?_⟩
  · simp only [State.tile_setTile_same, Tile.ctx_setCtx, hj, if_false, hctx, hw.others j hj]
  · simp only [State.tile_setTile_same, Tile.setCtx]
  · simp only [State.tile_setTile_same, Tile.ctx_setCtx_same, hyc, State.asIssued]

/-- Where its queue has room, an operation appends one transfer (R121). -/
theorem appended_of_room {s w : State} {t : TileId} {c : CtxId} {h : Hdr} (hw : Begun s w t c)
    (hpc : ((s.tile t.val).ctx c.val).pc < 8191) (hroom : s.queueRoom t c h) (k : XKind) (len route : Nat) :
    Appended s ((w.append t c h k len route).unissue s t.val c.val) t c h k len route := by
  have hfree : ¬ 64 ≤ ((w.tile t.val).queue (4 * c.val + h.unit.toNat % 4)).notStarted := by rw [hw.queue]; omega
  simp only [State.append, hfree, if_false]
  generalize hu : State.unissue _ s t.val c.val = u
  obtain ⟨honly, hothers, htile, hctx⟩ := advanced_of_begun hw hpc (by rfl) hu.symm
  refine ⟨honly, hothers, ?_, hctx, ?_, fun j hj => ?_⟩
  · rw [htile, hw.tile]
    rfl
  · rw [htile]
    exact (mget_mset_same _ _ _ _).trans (by rw [hw.queue, hw.nextId])
  · rw [htile]
    exact (mget_mset_ne _ hj _ _).trans (hw.queue j)

/-- An operation begins: it joins those in progress on its tile (R116). -/
theorem opBegun_of_addOp {s w : State} {t : TileId} {c : CtxId} (hw : Begun s w t c)
    (hpc : ((s.tile t.val).ctx c.val).pc < 8191) (k : OpKind) (sig : Option (Fin 64)) :
    OpBegun s (((w.addOp t.val c k sig).advance t.val c.val).unissue s t.val c.val) t c
      { id := (s.tile t.val).nextId, ctx := c, kind := k, sig := sig } (s.issuedTile t c) (s.asIssued t c) := by
  simp only [State.addOp, State.modTile_eq]
  generalize hu : State.unissue _ s t.val c.val = u
  obtain ⟨honly, hothers, htile, hctx⟩ := advanced_of_begun hw hpc (by rfl) hu.symm
  refine ⟨honly, hothers, ?_, hctx⟩
  rw [htile, hw.tile]
  rfl

/-- An operation appends its transfer where its queue has room, and waits for room where it has none (R121). -/
def Queued (s u : State) (t : TileId) (c : CtxId) (h : Hdr) (k : XKind) (len route : Nat) : Prop :=
  (s.queueRoom t c h → Appended s u t c h k len route)
    ∧ (¬s.queueRoom t c h → Waits s u t c (.space (4 * c.val + h.unit.toNat % 4)))

theorem queued_of_append {s w : State} {t : TileId} {c : CtxId} {h : Hdr} (hw : Begun s w t c)
    (hpc : ((s.tile t.val).ctx c.val).pc < 8191) (k : XKind) (len route : Nat) :
    OnlyTile t s ((w.append t c h k len route).unissue s t.val c.val)
      ∧ Queued s ((w.append t c h k len route).unissue s t.val c.val) t c h k len route := by
  by_cases hroom : s.queueRoom t c h
  · have ha := appended_of_room hw hpc hroom k len route
    exact ⟨ha.1, fun _ => ha, fun hfull => absurd hroom hfull⟩
  · have hfull : 64 ≤ ((w.tile t.val).queue (4 * c.val + h.unit.toNat % 4)).notStarted := by rw [hw.queue]; omega
    simp only [State.append, hfull, if_true]
    have hwait := waits_of_hold hw (4 * c.val + h.unit.toNat % 4)
    exact ⟨hwait.1, fun h' => absurd h' hroom, fun _ => hwait⟩

/-- A context that faults as it issues has stopped, and its tile's queues are as before (R131). -/
theorem faulted_of_begun {s w : State} {t : TileId} {c : CtxId} (hw : Begun s w t c) (code : Nat) :
    ∃ u, done ((w.fault t.val c.val code).unissue s t.val c.val) = .next u ∧ Faulted s u t c code
      ∧ (u.tile t.val).queues = (s.tile t.val).queues := by
  have hctx := fault_ctx w t.val c.val code
  rw [hw.ctx] at hctx
  have hun : (w.fault t.val c.val code).unissue s t.val c.val = w.fault t.val c.val code := by
    simp [State.unissue, hctx]
  rw [hun]
  refine ⟨_, done_next _, ⟨?_, ?_, ?_, ?_⟩, ?_⟩
  · exact congrArg Ctx.run hctx
  · exact congrArg Ctx.fault hctx
  · exact congrArg Ctx.faddr hctx
  · exact (fault_count w (by omega) c.val code).trans
      (congrArg (· + 1) (hw.ofState (State.count · 0x7200 0x11 t.val) (fun _ _ => rfl)))
  · exact (fault_queues w t.val c.val code).trans (hw.field Tile.queues (fun _ _ _ _ => rfl) _)

/-! NET (R443). -/

section
variable {s : State} {t : TileId} {c : CtxId} {h : Hdr} {src : BitVec 32} {route : Fin 512} {a : Desc}

theorem netSignal_queued (hb : s.bounded) (far : TileId) (ctr : Fin 64) :
    Issued s t c (3, 3) h noLow (.netSignal t c h route far ctr) (fun u =>
      Queued s u t c h (.signal route.val far ctr) 0 route.val) :=
  issued_of_only hb rfl fun _ hw hpc => queued_of_append hw hpc _ _ _

/-- A PUT within its partition checks the landing buffer that it names. -/
theorem netPut_queued_of_dest (hb : s.bounded) (hd : s.hasDesc t src.toNat a) (hf : s.netFault t.val a false = false)
    {dest : Dest} (hend : s.gateEnd ((s.tilePart t.val).getD 0) route.val (s.putVc t.val (queueOf c h)).val t.val = none)
    (hdest : s.destFault t.val dest a.length = false) :
    Issued s t c (3, 0) h noLow (.netPut t c h src route dest) (fun u =>
      Queued s u t c h (.put a route.val dest) a.length route.val) :=
  issued_of_only hb rfl fun w hw hpc => by
    rw [withDesc_of_hasDesc (hw.hasDesc hd)]
    simp only [hw.tilePart, hw.putVc, hw.gateEnd, hend, hw.netFault, hf, hw.destFault, hdest, Bool.or_self,
      Bool.false_eq_true, if_false]
    exact queued_of_append hw hpc _ _ _

/-- A PUT by an edge gate checks what the relay there takes (R214, R263). -/
theorem netPut_queued_of_gate (hb : s.bounded) (hd : s.hasDesc t src.toNat a) (hf : s.netFault t.val a false = false)
    (dest : Dest) {g d : Nat}
    (hend : s.gateEnd ((s.tilePart t.val).getD 0) route.val (s.putVc t.val (queueOf c h)).val t.val = some (g, d))
    (hrelay : s.relayFault t.val d a.length = false) :
    Issued s t c (3, 0) h noLow (.netPut t c h src route dest) (fun u =>
      Queued s u t c h (.put a route.val dest) a.length route.val) :=
  issued_of_only hb rfl fun w hw hpc => by
    rw [withDesc_of_hasDesc (hw.hasDesc hd)]
    simp only [hw.tilePart, hw.putVc, hw.gateEnd, hend, hw.netFault, hf, hw.relayFault, hrelay, Bool.or_self,
      Bool.false_eq_true, if_false]
    exact queued_of_append hw hpc _ _ _

theorem netReduce_queued (hb : s.bounded) (hd : s.hasDesc t src.toNat a) (hf : s.netFault t.val a false = false)
    (hfmt : a.fmt = 5 ∨ a.fmt = 7) (hbs : a.bs = false) (hguard : (s.tile t.val).guarded = false) (dest : Option Dest)
    (tail : Option TailHdr) :
    Issued s t c (3, 2) h noLow (.netReduce t c h src route dest tail) (fun u =>
      Queued s u t c h (.reduce a route.val dest tail) a.length route.val) :=
  issued_of_only hb rfl fun w hw hpc => by
    rw [withDesc_of_hasDesc (hw.hasDesc hd)]
    have hword : (decide (a.fmt = 5) || decide (a.fmt = 7)) = true := by simpa using hfmt
    simp only [hw.netFault, hf, hword, hbs, hw.guarded, hguard, Bool.not_true, Bool.false_and, Bool.or_self,
      Bool.false_eq_true, if_false]
    exact queued_of_append hw hpc _ _ _

theorem netMcast_queued (hb : s.bounded) (hd : s.hasDesc t src.toNat a) (hf : s.netFault t.val a true = false)
    {dests : List Dest} (hdests : ∀ x ∈ dests, s.destFault t.val x a.length = false) :
    Issued s t c (3, 1) h noLow (.netMcast t c h src route dests) (fun u =>
      Queued s u t c h (.mcast a route.val dests (s.tile t.val).stamp) a.length route.val) :=
  issued_of_only hb rfl fun w hw hpc => by
    rw [withDesc_of_hasDesc (hw.hasDesc hd)]
    have hany : dests.any (fun x => w.destFault t.val x a.length) = false :=
      List.any_eq_false.2 fun x hx => by simp [hw.destFault, hdests x hx]
    simp only [hw.netFault, hf, hany, hw.stamp, Bool.or_self, Bool.false_eq_true, if_false]
    exact queued_of_append hw hpc _ _ _

end

/-! MOVE (R44, R52, R123). -/

/-- To write back what a tile holds leaves the state in which an operation runs as it is. -/
theorem Begun.setTile_self {s w : State} {t : TileId} {c : CtxId} (hw : Begun s w t c) :
    Begun s (w.setTile t.val (w.tile t.val)) t c := by
  refine ⟨only_setTile hw.only _, ?_, ?_, ?_⟩
  · simpa only [OthersKeep, State.tile_setTile_same] using hw.others
  · simpa only [State.tile_setTile_same] using hw.tile
  · simpa only [State.tile_setTile_same] using hw.ctx

section
variable {s : State} {t : TileId} {c : CtxId} {h : Hdr} {src dst : BitVec 32} {route : Fin 512} {a b : Desc}

/-- A MOVE of operands that are not bound appends its transfer or waits for room (R121). -/
theorem moveCopy_queued (hb : s.bounded) (ha : s.hasDesc t src.toNat a) (hd : s.hasDesc t dst.toNat b)
    (hua : a.bound = false) (hub : b.bound = false) (hfa : s.moveFault t.val a false = false)
    (hfb : s.moveFault t.val b true = false) (h40 : moveW40 a b = false) :
    Issued s t c (2, 0) h noLow (.moveCopy t c h src ⟨dst, route⟩ []) (fun u =>
      Queued s u t c h (.move a b) a.length route.val) :=
  issued_of_only hb rfl fun w hw hpc => by
    rw [withDesc_of_hasDesc (hw.hasDesc ha), withDesc_of_hasDesc (hw.hasDesc hd)]
    simp only [hw.moveFault, hfa, hfb, h40, hua, hub, hw.queue, Bool.or_self, Bool.false_eq_true, if_false, List.any_cons,
      List.any_nil, List.filter_cons, List.filter_nil, Bool.false_and, List.foldl_nil, State.modTile_eq]
    split
    · next hfull =>
      have hwait := waits_of_hold hw (queueOf c h)
      exact ⟨hwait.1, fun hroom => absurd hfull (Nat.not_le.2 hroom), fun _ => hwait⟩
    · exact queued_of_append hw.setTile_self hpc _ _ _

/-- A MOVE whose bound data has not arrived joins the operations in progress (R123). -/
theorem moveCopy_begun (hb : s.bounded) (ha : s.hasDesc t src.toNat a) (hd : s.hasDesc t dst.toNat b)
    (hbound : a.bound = true) (hlate : (s.tile t.val).ready a.boundQ = 0) (hfa : s.moveFault t.val a false = false)
    (hfb : s.moveFault t.val b true = false) (h40 : moveW40 a b = false) (hroom : s.queueRoom t c h) :
    Issued s t c (2, 0) h noLow (.moveCopy t c h src ⟨dst, route⟩ []) (fun u => OpBegun s u t c
      { id := (s.tile t.val).nextId, ctx := c, kind := .move a b route.val (queueOf c h), sig := sigOf h }
      (s.issuedTile t c) (s.asIssued t c)) :=
  issued_of_only hb rfl fun w hw hpc => by
    rw [withDesc_of_hasDesc (hw.hasDesc ha), withDesc_of_hasDesc (hw.hasDesc hd)]
    have hfree : ¬ 64 ≤ ((s.tile t.val).queue (queueOf c h)).notStarted := Nat.not_le.2 hroom
    simp only [hw.moveFault, hfa, hfb, h40, hw.queue, hfree, List.any_cons, hbound, hw.dataReady, hlate, decide_true,
      Bool.or_self, Bool.and_self, Bool.true_or, Bool.false_eq_true, if_false, if_true]
    have hbegun := opBegun_of_addOp hw hpc (.move a b route.val (queueOf c h)) (sigOf h)
    exact ⟨hbegun.1, hbegun⟩

/-- A MOVE of a W40 tensor to or from anywhere outside tile SRAM is a descriptor fault (R52). -/
theorem moveCopy_w40_faults (ha : s.hasDesc t src.toNat a) (hd : s.hasDesc t dst.toNat b) (hfmt : a.fmt = 8 ∨ b.fmt = 8)
    (hspace : a.space ≠ 0 ∨ b.space ≠ 0) :
    Issued s t c (2, 0) h noLow (.moveCopy t c h src ⟨dst, route⟩ []) (fun u =>
      Faulted s u t c 1 ∧ (u.tile t.val).queues = (s.tile t.val).queues) :=
  issued_of_begun rfl fun w hw _ => by
    have h40 : moveW40 a b = true := by simpa [moveW40] using ⟨hfmt, hspace⟩
    rw [withDesc_of_hasDesc (hw.hasDesc ha), withDesc_of_hasDesc (hw.hasDesc hd)]
    simp only [h40, Bool.or_true, if_true]
    exact faulted_of_begun hw 1

end

/-- Settles O11: each operation of MOVE and NET is a case of its own, and a queue with room or without it a case of what
appending does. -/
theorem transfersAreAppendedInOrder : Obligations.TransfersAreAppendedInOrder := by
  intro s t c h src dst a b route dest dests od tail far ctr hb
  exact ⟨netSignal_queued hb far ctr,
    moveCopy_queued hb,
    fun ha hd hlate => moveCopy_begun hb ha hd hlate.1 hlate.2,
    fun ha hf => ⟨⟨netPut_queued_of_dest hb ha hf, fun _ _ => netPut_queued_of_gate hb ha hf dest⟩,
      fun hfmt hbs hguard => netReduce_queued hb ha hf hfmt hbs hguard od tail⟩,
    fun ha hf hdests => netMcast_queued hb ha hf hdests,
    moveCopy_w40_faults⟩

end Sys2Proof.Machine
end

section
/-! SUPPORT. What the producer writes where the tile's SRAM holds no changed symbols, and how a DRAIN is issued, steps and
orders itself with the passes of its array (O10). -/
namespace Sys2Proof.Machine

/-! What the producer leaves unchanged. -/

/-- From s to u, no more has happened than that the producer of tile t has written the tile's SRAM and counted what it wrote
(R75, R82, R262). -/
structure Produced (t : TileId) (s u : State) : Prop where
  frame : u = { s with tiles := u.tiles, mems := u.mems }
  others : ∀ j, j ≠ t.val → u.tile j = s.tile j
  tile : u.tile t.val = { s.tile t.val with hist := (u.tile t.val).hist, overflow := (u.tile t.val).overflow }
  mem : ∀ m, m ≠ .sram t → u.mem m = s.mem m

namespace Produced
variable {t : TileId} {s u v : State}

theorem refl (t : TileId) (s : State) : Produced t s s := ⟨rfl, fun _ _ => rfl, rfl, fun _ _ => rfl⟩

theorem trans (h : Produced t s u) (k : Produced t u v) : Produced t s v :=
  ⟨by rw [k.frame, h.frame], fun j hj => (k.others j hj).trans (h.others j hj), by rw [k.tile, h.tile],
    fun m hm => (k.mem m hm).trans (h.mem m hm)⟩

theorem foldl {α : Type} {f : State → α → State} (hf : ∀ s a, Produced t s (f s a)) (l : List α) (s : State) :
    Produced t s (l.foldl f s) := by
  induction l generalizing s with
  | nil => exact refl t s
  | cons a r ih => exact (hf s a).trans (ih _)

theorem poke (s : State) (t : TileId) (a : Nat) (bs : List Byte) : Produced t s (s.poke (.sram t) a bs) :=
  ⟨rfl, fun _ _ => rfl, rfl, fun m hm => by simp [State.poke, hm]⟩

theorem classify (s : State) (t : TileId) (tag : Nat) (ms : List Made) : Produced t s (s.classify t.val tag ms) :=
  ⟨rfl, fun _ hj => State.tile_setTile_ne _ hj _, by simp [State.classify], fun _ _ => rfl⟩

end Produced

/-- A patch of a memory without changed symbols only writes its bytes. -/
theorem storePatch_clean {s : State} {u : MemUnit} (h : (s.mem u).errs = []) (m : Patch) :
    s.storePatch u m = (runsOf m).foldl (fun s r => s.poke u r.1 r.2) s := by
  unfold State.storePatch
  induction runsOf m generalizing s with
  | nil => rfl
  | cons r rs ih =>
    have hkeep : ((s.poke u r.1 r.2).mem u).errs = [] := by simpa [State.poke] using h
    rw [List.foldl_cons, List.foldl_cons, State.store_clean h, ih hkeep]

/-- What bytes written in a row leave in the memories is decided by the memories before. -/
theorem foldl_poke_mems_congr {s w : State} (h : w.mems = s.mems) (u : MemUnit) (rs : List (Nat × List Byte)) :
    (rs.foldl (fun s r => s.poke u r.1 r.2) w).mems = (rs.foldl (fun s r => s.poke u r.1 r.2) s).mems := by
  induction rs generalizing s w with
  | nil => exact h
  | cons r rs ih => exact ih (by simp only [State.poke, State.setMem, State.mem, h])

theorem putElem_congr {s w : State} (h : w.mems = s.mems) (u : MemUnit) (d : Desc) : w.putElem u d = s.putElem u d := by
  funext m e
  simp only [State.putElem, State.patched, State.peek, State.mem, h]

/-- The bytes that the producer writes: blocks with their scale bytes, or elements without block scale (R45, R75). -/
def State.madePatch (s : State) (t : TileId) (d : Desc) (bs : List FormedBlock) (ms : List Made) : Patch :=
  if d.bs then s.blockPatch (.sram t) d bs else ms.foldl (s.putElem (.sram t) d) []

theorem madePatch_congr {s w : State} (h : w.mems = s.mems) (t : TileId) (d : Desc) (bs : List FormedBlock)
    (ms : List Made) : w.madePatch t d bs ms = s.madePatch t d bs ms := by
  simp only [State.madePatch, State.blockPatch, putElem_congr h]

/-- After its patch is stored, the producer only counts. -/
theorem writeMade_eq (s : State) (t : TileId) (d : Desc) (bs : List FormedBlock) (ms : List Made) :
    s.writeMade t d bs ms = (bs.map (·.made) ++ if ms = [] then [] else [ms]).foldl (fun s l => s.classify t.val d.tag l)
      (s.storePatch (.sram t) (s.madePatch t d bs ms)) := by
  rw [List.foldl_append, List.foldl_map]
  unfold State.writeMade State.madePatch
  split <;> split <;> rfl

theorem foldl_classify_mems (s : State) (t tag : Nat) (ls : List (List Made)) :
    (ls.foldl (fun s l => s.classify t tag l) s).mems = s.mems := by
  induction ls generalizing s with
  | nil => rfl
  | cons l r ih => exact ih _

theorem writeMade_produced {s : State} {t : TileId} (h : (s.mem (.sram t)).errs = []) (d : Desc) (bs : List FormedBlock)
    (ms : List Made) : Produced t s (s.writeMade t d bs ms) := by
  rw [writeMade_eq, storePatch_clean h]
  exact (Produced.foldl (fun s (r : Nat × List Byte) => Produced.poke s t r.1 r.2) _ s).trans
    (Produced.foldl (fun s l => Produced.classify s t d.tag l) _ _)

/-- What the producer leaves in the memories is decided by the memories before. -/
theorem writeMade_mems_congr {s w : State} {t : TileId} (h : (s.mem (.sram t)).errs = []) (hw : w.mems = s.mems) (d : Desc)
    (bs : List FormedBlock) (ms : List Made) : (w.writeMade t d bs ms).mems = (s.writeMade t d bs ms).mems := by
  have hclean : (w.mem (.sram t)).errs = [] := by simpa only [State.mem, hw] using h
  rw [writeMade_eq, writeMade_eq, foldl_classify_mems, foldl_classify_mems, madePatch_congr hw, storePatch_clean h,
    storePatch_clean hclean, foldl_poke_mems_congr hw]

/-! A step of an operation. -/

/-- The operation with the number of o has done one step more, and has become k. -/
def Tile.stepOp (x : Tile) (o : Op) (k : OpKind) : Tile := x.modOp o.id (fun p => { p with pos := p.pos + 1, kind := k })

theorem stepOp_ids (x : Tile) (o : Op) (k : OpKind) : (x.stepOp o k).ops.map (·.id) = x.ops.map (·.id) := by
  simp only [Tile.stepOp, Tile.modOp, List.map_map]
  refine List.map_congr_left fun p _ => ?_
  simp only [Function.comp]
  split <;> rfl

theorem stepOp_done {x : Tile} {o : Op} (k : OpKind) (honly : ∀ p ∈ x.ops, p.id = o.id → p = o) :
    ∀ p ∈ (x.stepOp o k).ops, p.id = o.id → p.pos = o.pos + 1 ∧ p.kind = k := by
  intro p hp hid
  obtain ⟨q, hq, rfl⟩ := List.mem_map.1 hp
  by_cases hqo : q.id = o.id
  · simp [honly q hq hqo]
  · simp [hqo] at hid

/-- An operation that only has its producer write has made a step. -/
theorem Produced.stepped {t : TileId} {s u : State} (h : Produced t s u) (o : Op) (k : OpKind) :
    Stepped s (u.modTile t.val (·.stepOp o k)) t o k := by
  have hqueues : (u.tile t.val).queues = (s.tile t.val).queues := by rw [h.tile]
  have hops : (u.tile t.val).ops = (s.tile t.val).ops := by rw [h.tile]
  refine ⟨fun j hj => ?_, ?_, h.mem, ?_, ?_, fun honly => ?_⟩
  · rw [State.modTile_eq, State.tile_setTile_ne _ hj, h.others j hj]
  · rw [h.frame]; rfl
  · rw [State.modTile_eq, State.tile_setTile_same, ← hqueues]; rfl
  · rw [State.modTile_eq, State.tile_setTile_same, stepOp_ids, hops]
  · rw [State.modTile_eq, State.tile_setTile_same]
    exact stepOp_done k (hops ▸ honly)

/-- The assembly buffer of a context is set to m (R436). -/
def State.setAsm (s : State) (t c : Nat) (m : List Assembly) : State := s.modCtx t c (fun y => { y with asm := m })

theorem setAsm_tile (s : State) (t c : Nat) (m : List Assembly) :
    (s.setAsm t c m).tile t = (s.tile t).setCtx c { (s.tile t).ctx c with asm := m } := by
  simp [State.setAsm]

/-- A step may also set the assembly buffer of its context. -/
theorem stepped_of_setAsm {t : TileId} {s u : State} {o : Op} {k : OpKind} {c : Nat} {m : List Assembly}
    (h : Stepped (s.setAsm t.val c m) u t o k) : Stepped s u t o k := by
  obtain ⟨hothers, hdict, hmem, hrest⟩ := h
  refine ⟨fun j hj => (hothers j hj).trans (State.tile_setTile_ne s hj _), hdict, hmem, ?_⟩
  simpa only [setAsm_tile, Tile.setCtx_queues, Tile.setCtx_ops] using hrest

/-! The steps of a drain (R65, R100, R436). -/

section
variable {s : State} {t : TileId} {o : Op} {a : Fin 3} {d : Desc} {pass : Option Nat} {part : List ((Nat × Nat) × Num)}
  {f : Fmt}

/-- A step of an untagged drain without block scale. -/
theorem drainStep_direct (htag : d.tag = 0) (hf : Fmt.ofCode d.fmt = some f) (hbs : d.bs = false) :
    s.drainStep t o a d pass part
      = (s.writeMade t d [] (formDirect f (((s.tile t.val).array a.val).drainVals d o.pos))).modTile t.val
          (·.stepOp o (.drain a d pass [])) := by
  simp [State.drainStep, State.beginWrite, State.traceDrain, htag, hf, hbs, Tile.stepOp]

/-- What a step of a drain with block scale makes of the assembly buffer: after the last entry what is still open goes
there. -/
def drainAsm (d : Desc) (o : Op) (r : List FormedBlock × List Assembly × List ((Nat × Nat) × Num)) : List Assembly :=
  if o.pos + 1 = d.count then keepOpen d r.2.1 r.2.2 else r.2.1

/-- A step of an untagged drain with block scale, of which r is what the producer makes of its values. -/
theorem drainStep_blocks (htag : d.tag = 0) (hf : Fmt.ofCode d.fmt = some f) (hbs : d.bs = true)
    {r : List FormedBlock × List Assembly × List ((Nat × Nat) × Num)}
    (hr : r = formReady f d ((s.tile t.val).ctx o.ctx.val).asm
      (part ++ ((s.tile t.val).array a.val).drainVals d o.pos)) :
    s.drainStep t o a d pass part
      = ((s.setAsm t.val o.ctx.val (drainAsm d o r)).writeMade t d r.1 []).modTile t.val
          (·.stepOp o (.drain a d pass (if o.pos + 1 = d.count then [] else r.2.2))) := by
  subst hr
  simp [State.drainStep, State.beginWrite, State.traceDrain, htag, hf, hbs, Tile.stepOp, drainAsm, State.setAsm]

/-- Neither the producer nor the count of steps changes the accumulator entries (R65). -/
theorem produced_arrays {u : State} (h : Produced t s u) (k : OpKind) :
    ((u.modTile t.val (·.stepOp o k)).tile t.val).arrays = (s.tile t.val).arrays := by
  rw [State.modTile_eq, State.tile_setTile_same, Tile.stepOp, Tile.modOp, h.tile]

theorem produced_ctx {u : State} (h : Produced t s u) (k : OpKind) (c : Nat) :
    ((u.modTile t.val (·.stepOp o k)).tile t.val).ctx c = (s.tile t.val).ctx c := by
  rw [State.modTile_eq, State.tile_setTile_same, Tile.stepOp, Tile.modOp, h.tile]
  rfl

theorem drain_opStep_direct (hclean : (s.mem (.sram t)).errs = []) (ho : o.kind = .drain a d pass part) (htag : d.tag = 0)
    (hf : Fmt.ofCode d.fmt = some f) (hbs : d.bs = false) :
    ((s.opStep t o).tile t.val).arrays = (s.tile t.val).arrays
      ∧ Stepped s (s.opStep t o) t o (.drain a d pass [])
      ∧ (s.opStep t o).mems
        = (s.writeMade t d [] (formDirect f (((s.tile t.val).array a.val).drainVals d o.pos))).mems := by
  have hp := writeMade_produced hclean d [] (formDirect f (((s.tile t.val).array a.val).drainVals d o.pos))
  simp only [State.opStep, ho]
  rw [drainStep_direct htag hf hbs]
  exact ⟨produced_arrays hp _, hp.stepped o _, rfl⟩

theorem drain_opStep_blocks (hclean : (s.mem (.sram t)).errs = []) (ho : o.kind = .drain a d pass part) (htag : d.tag = 0)
    (hf : Fmt.ofCode d.fmt = some f) (hbs : d.bs = true)
    {r : List FormedBlock × List Assembly × List ((Nat × Nat) × Num)}
    (hr : r = formReady f d ((s.tile t.val).ctx o.ctx.val).asm
      (part ++ ((s.tile t.val).array a.val).drainVals d o.pos)) :
    ((s.opStep t o).tile t.val).arrays = (s.tile t.val).arrays
      ∧ Stepped s (s.opStep t o) t o (.drain a d pass (if o.pos + 1 = d.count then [] else r.2.2))
      ∧ (s.opStep t o).mems = (s.writeMade t d r.1 []).mems
      ∧ (((s.opStep t o).tile t.val).ctx o.ctx.val).asm = drainAsm d o r := by
  have hp := writeMade_produced (s := s.setAsm t.val o.ctx.val (drainAsm d o r)) hclean d r.1 []
  simp only [State.opStep, ho]
  rw [drainStep_blocks htag hf hbs hr]
  refine ⟨(produced_arrays hp _).trans ?_, stepped_of_setAsm (hp.stepped o _),
    writeMade_mems_congr (w := s.setAsm t.val o.ctx.val (drainAsm d o r)) hclean rfl d r.1 [],
    (congrArg Ctx.asm (produced_ctx hp _ _)).trans ?_⟩
  · rw [setAsm_tile, Tile.setCtx_arrays]
  · rw [setAsm_tile, Tile.ctx_setCtx_same]

end

/-! The issue of a drain (R67, R95, R439). -/

/-- Whether values fit the assembly buffer of a context is decided by the buffer and the operations in progress. -/
theorem asmFull_congr {x y : Tile} {c : Nat} (hops : y.ops = x.ops) (hasm : (y.ctx c).asm = (x.ctx c).asm) (d : Desc)
    (places : List (Nat × Nat)) : y.asmFull c d places = x.asmFull c d places := by
  simp only [Tile.asmFull, Tile.asmAfter, hops, hasm]

/-- The pass that a drain trails: the last one issued to the array (R101). -/
def Tile.trailed (x : Tile) (trails : Bool) (a : Fin 3) : Option Nat :=
  if trails then (x.ops.filter (fun o => o.kind.engine = some (3 + a.val))).getLast?.map (·.id) else none

theorem tensorDrain_begun {s : State} {t : TileId} {c : CtxId} {h : Hdr} {desc : BitVec 32} {d : Desc} {a : Fin 3}
    (role : Role) (trails : Bool) (hb : s.bounded) (hd : s.hasDesc t desc.toNat d) (ha : h.unit.toNat = a.val)
    (hrole : ((s.tile t.val).array a.val).wrongRole role = false) (hfault : d.drainFault = false)
    (hleg : ((s.tile t.val).drainsLegacy a.val d && !(d.fmt = 6 || d.fmt = 7)) = false)
    (hasm : (s.tile t.val).asmFull c.val d
      ((List.range d.count).flatMap (fun i => d.drainLanes.map (d.place i))) = false) :
    Issued s t c (0, 2) h (lowOp desc) (.tensorDrain t c h role trails desc) (fun u => OpBegun s u t c
      { id := (s.tile t.val).nextId, ctx := c, kind := .drain a d ((s.tile t.val).trailed trails a) [], sig := sigOf h }
      (s.issuedTile t c) (s.asIssued t c)) :=
  issued_of_only hb rfl fun w hw hpc => by
    have harr : Fin.ofNat 3 h.unit.toNat = a := by simp [ha]
    have hops : (w.tile t.val).ops = (s.tile t.val).ops := hw.field Tile.ops (fun _ _ _ _ => rfl) _
    have hrole' : ((w.tile t.val).array a.val).wrongRole role = false :=
      (hw.field (fun x => (x.array a.val).wrongRole role) (fun _ _ _ _ => rfl) _).trans hrole
    have hleg' : (w.tile t.val).drainsLegacy a.val d = (s.tile t.val).drainsLegacy a.val d :=
      hw.field (Tile.drainsLegacy · a.val d) (fun _ _ _ _ => rfl) _
    have hbuf : ((w.tile t.val).ctx c.val).asm = ((s.tile t.val).ctx c.val).asm := by rw [hw.ctx]; rfl
    have hasm' := asmFull_congr hops hbuf d
      ((List.range d.count).flatMap (fun i => d.drainLanes.map (d.place i)))
    rw [withDesc_of_hasDesc (hw.hasDesc hd)]
    simp only [harr, hrole', hfault, hleg', hleg, hasm', hasm, hops, Bool.or_self, Bool.false_eq_true, if_false]
    have hbegun := opBegun_of_addOp hw hpc (.drain a d ((s.tile t.val).trailed trails a) []) (sigOf h)
    exact ⟨hbegun.1, hbegun⟩

/-! The order of passes and drains (R101). -/

section
variable {x : Tile} {o q : Op} {a e : Fin 3} {d f : Desc} {p : PassCfg} {base n : Nat} {swap : Bool} {b : Block}
  {part : List ((Nat × Nat) × Num)}

/-- A clearing pass waits for an earlier drain that has not read the entry. -/
theorem heldBack_of_drain {pass : Option Nat} (ho : o.kind = .drain a d pass part)
    (hq : q.kind = .stream a f p base n swap b) (hmem : o ∈ x.ops) (hid : o.id < q.id) (hclear : p.clear = true)
    (hfrom : d.base + o.pos ≤ base + q.pos) (hto : base + q.pos < d.base + d.count) : x.heldBack q = true := by
  simp only [Tile.heldBack, hq, hclear, Bool.true_and, List.any_eq_true]
  exact ⟨o, hmem, by simp [ho, hid, hfrom, hto]⟩

/-- A trailing drain waits for its pass to add to the entry. -/
theorem heldBack_of_pass (ho : o.kind = .drain a d (some q.id) part) (hq : q.kind = .stream e f p base n swap b)
    (hmem : q ∈ x.ops) (hfrom : base + q.pos ≤ d.base + o.pos) (hto : d.base + o.pos < base + n) :
    x.heldBack o = true := by
  simp only [Tile.heldBack, ho, List.any_eq_true]
  exact ⟨q, hmem, by simp [hq, hfrom, hto]⟩

end

/-- Settles O10: the issue of a drain, its step without and with block scale, and the two rules of order are a lemma each. -/
theorem tensorDrainWritesEntries : Obligations.TensorDrainWritesEntries := by
  intro s t c h role trails desc d a o q pass part f hb hd ha
  obtain ⟨-, hclean, -⟩ := id hd
  refine ⟨fun hrole hfault hleg hasm hm => ?_, fun ho _ htag hf => ?_, fun ho hq =>
    ⟨fun _ _ _ _ _ _ => heldBack_of_drain ho,
      fun _ _ _ _ _ _ hk hpass => heldBack_of_pass (hpass ▸ ho) hk hq⟩⟩
  · obtain ⟨u, hu, hbegun⟩ := tensorDrain_begun role trails hb hd ha hrole hfault hleg hasm hm
    exact ⟨u, hu, _, hbegun, fun hno => by simp [Tile.trailed, hno], fun hyes => by simp [Tile.trailed, hyes]⟩
  · cases hbs : d.bs
    · obtain ⟨harrays, hstep⟩ := drain_opStep_direct hclean ho htag hf hbs
      exact ⟨harrays, fun _ => hstep, nofun⟩
    · obtain ⟨harrays, hstep⟩ := drain_opStep_blocks hclean ho htag hf hbs rfl
      exact ⟨harrays, nofun, fun _ => hstep⟩

end Sys2Proof.Machine
end

section
/-! SUPPORT. What an operation of an array does at its issue: it waits for its engine, or joins the operations in progress
with a possibly bound operand; and what one step of such an operation leaves unchanged (O8, O9). -/
namespace Sys2Proof.Machine

/-! Two writes of one entry. -/

theorem mdel_minsert {α : Type} (k : Nat) (v : α) (m : Map α) : mdel k (minsert k v m) = mdel k m := by
  induction m with
  | nil => simp [minsert, mdel]
  | cons c r ih =>
    unfold minsert
    split
    · simp [mdel]
    · unfold mdel at ih ⊢
      rw [List.filter_cons, List.filter_cons, ih]

theorem mset_mset {α : Type} (k : Nat) (v w : α) (m : Map α) : mset k v (mset k w m) = mset k v m := by
  rw [mset, mset, mdel_minsert]
  simp [mset, mdel]

theorem State.setTile_setTile (s : State) (k : Nat) (x y : Tile) : (s.setTile k x).setTile k y = s.setTile k y := by
  simp only [State.setTile, mset_mset]

/-! The issue of an operation of an array (R97, R114, R119). -/

theorem Begun.array {s w : State} {t : TileId} {c : CtxId} (hw : Begun s w t c) (a : Nat) :
    (w.tile t.val).array a = (s.tile t.val).array a := hw.field (Tile.array · a) (fun _ _ _ _ => rfl) _

/-- An instruction that waits for its engine has cost no issue cycle (R114). -/
theorem unissue_of_swap {s s0 : State} {t c n : Nat} {e : Engaged} (h : ((s.tile t).ctx c).run = .waiting (.swap e) n) :
    s.unissue s0 t c = s.setTile t { s.tile t with last := (s0.tile t).last, issued := (s0.tile t).issued } := by
  simp [State.unissue, h]

/-- A context whose engine is not ready waits for it (R97). -/
theorem waits_of_swap {s w : State} {t : TileId} {c : CtxId} (hw : Begun s w t c) (e : Engaged) :
    Waits s ((w.hold t.val c.val (.swap e)).unissue s t.val c.val) t c (.swap e) := by
  rw [hold_eq, unissue_of_swap (e := e) (n := w.coreOf t.val) (by simp), State.setTile_setTile, State.tile_setTile_same]
  have hctx (x : Tile) (l : Nat) (i : Option Nat) (j : Nat) : ({ x with last := l, issued := i } : Tile).ctx j = x.ctx j := rfl
  refine ⟨only_setTile hw.only _, fun j hj => ?_, ?_, ?_⟩
  · rw [State.tile_setTile_same, hctx, Tile.ctx_setCtx, if_neg hj, hw.others j hj]
  · rw [State.tile_setTile_same, Tile.setCtx, hw.tile]
    rfl
  · rw [State.tile_setTile_same, hctx, Tile.ctx_setCtx_same, hw.ctx, hw.coreOf, State.asIssued]

/-- The tile once an operation with a possibly bound operand of n vectors has joined those in progress (R116, R119). -/
def Tile.joined (x : Tile) (c : CtxId) (k : OpKind) (sig : Option (Fin 64)) (d : Desc) (n : Nat) : Tile :=
  { x.bindTo d n with
    ops := x.ops ++ [{ id := x.nextId, ctx := c, kind := k, sig := sig,
                       from' := if d.bound then (x.queue d.boundQ).taken else 0 }],
    nextId := x.nextId + 1 }

theorem addBound_eq (s : State) (t : Nat) (c : CtxId) (k : OpKind) (sig : Option (Fin 64)) (d : Desc) (n : Nat) :
    s.addBound t c k sig d n = s.setTile t ((s.tile t).joined c k sig d n) := by
  unfold State.addBound Tile.joined Tile.bindTo
  cases d.bound <;> rfl

/-- An operation whose operand may be bound begins, on a tile of which it may first change the arrays. -/
theorem opBegun_of_joined {s w : State} {t : TileId} {c : CtxId} (hw : Begun s w t c)
    (hpc : ((s.tile t.val).ctx c.val).pc < 8191) {x : Tile} (hx : x = { w.tile t.val with arrays := x.arrays })
    (h : Hdr) (k : OpKind) (d : Desc) (n : Nat) :
    OpBegun s (((w.setTile t.val (x.joined c k (sigOf h) d n)).advance t.val c.val).unissue s t.val c.val) t c
      (s.opIssued t c h k d) (({ s.issuedTile t c with arrays := x.arrays } : Tile).bindTo d n) (s.asIssued t c) := by
  have hctxs : (x.joined c k (sigOf h) d n).ctxs = (w.tile t.val).ctxs := by
    rw [hx]
    unfold Tile.joined Tile.bindTo
    split <;> rfl
  generalize hu : State.unissue _ s t.val c.val = u
  obtain ⟨honly, hothers, htile, hctx⟩ := advanced_of_begun hw hpc hctxs hu.symm
  refine ⟨honly, hothers, ?_, hctx⟩
  rw [htile, hx, hw.tile]
  unfold Tile.joined Tile.bindTo State.opIssued
  cases d.bound <;> rfl

/-! A step of an operation of an array (R96, R98). -/

/-- A step that changes of its tile no more than the arrays and the entry of its own operation. -/
theorem stepped_of_modOp {s : State} {t : TileId} {o : Op} {y : Tile} {g : Op → Op}
    (hqueues : y.queues = (s.tile t.val).queues) (hops : y.ops = ((s.tile t.val).modOp o.id g).ops)
    (hid : ∀ p, (g p).id = p.id) (hpos : (g o).pos = o.pos + 1) :
    Stepped s (s.setTile t.val y) t o (g o).kind := by
  refine ⟨fun j hj => State.tile_setTile_ne s hj y, rfl, fun _ _ => rfl, ?_, ?_, fun honly p hp hpid => ?_⟩
  · rw [State.tile_setTile_same, hqueues]
  · rw [State.tile_setTile_same, hops, Tile.modOp, List.map_map]
    refine List.map_congr_left fun p _ => ?_
    simp only [Function.comp]
    split
    · exact hid p
    · rfl
  · rw [State.tile_setTile_same, hops] at hp
    obtain ⟨q, hq, rfl⟩ := List.mem_map.1 hp
    by_cases hqo : q.id = o.id
    · rw [if_pos hqo, honly q hq hqo]
      exact ⟨hpos, rfl⟩
    · rw [if_neg hqo] at hpid
      exact absurd hpid hqo

end Sys2Proof.Machine
end

section
/-! SUPPORT. How a LOAD is issued and fills the shadow block of its array (O8). -/
namespace Sys2Proof.Machine

/-! The issue of a LOAD (R91, R93, R97). -/

section
variable {s : State} {t : TileId} {c : CtxId} {h : Hdr} {o : Orient} {role : Role} {desc : BitVec 32} {d : Desc} {a : Fin 3}

/-- A LOAD waits while another load, or a block not yet active, has the shadow block. -/
theorem tensorLoad_waits (hb : s.bounded) (hd : s.hasDesc t desc.toNat d) (ha : h.unit.toNat = a.val)
    (hrole : ((s.tile t.val).array a.val).wrongRole role = false) (hfault : d.loadFault o role = false)
    (hbusy : (s.tile t.val).engaged c.val (.load a) = true) :
    Issued s t c (0, 0) h (lowOp desc) (.tensorLoad t c h o role desc) (fun u => Waits s u t c (.swap (.load a))) :=
  issued_of_only hb rfl fun w hw _ => by
    have harr : Fin.ofNat 3 h.unit.toNat = a := by simp [ha]
    have hbusy' : (w.tile t.val).engaged c.val (.load a) = true := by simpa only [Tile.engaged, hw.array] using hbusy
    rw [withDesc_of_hasDesc (hw.hasDesc hd)]
    simp only [harr, hw.array, hrole, hfault, hbusy', Bool.or_self, Bool.false_eq_true, if_false, if_true]
    have hwait := waits_of_swap hw (.load a)
    exact ⟨hwait.1, hwait⟩

/-- A LOAD of an array whose shadow block is free keeps it from its issue on. -/
theorem tensorLoad_begun (hb : s.bounded) (hd : s.hasDesc t desc.toNat d) (ha : h.unit.toNat = a.val)
    (hrole : ((s.tile t.val).array a.val).wrongRole role = false) (hfault : d.loadFault o role = false)
    (hfree : (s.tile t.val).engaged c.val (.load a) = false) :
    Issued s t c (0, 0) h (lowOp desc) (.tensorLoad t c h o role desc) (fun u =>
      OpBegun s u t c (s.opIssued t c h (.load a d (emptyBlock d o)) d)
        (((s.issuedTile t c).setArray a.val
          { (s.tile t.val).array a.val with loading := true, loadedEver := true }).bindTo d 32) (s.asIssued t c)) :=
  issued_of_only hb rfl fun w hw hpc => by
    have harr : Fin.ofNat 3 h.unit.toNat = a := by simp [ha]
    have hfree' : (w.tile t.val).engaged c.val (.load a) = false := by simpa only [Tile.engaged, hw.array] using hfree
    have harrays : (w.tile t.val).arrays = (s.tile t.val).arrays := hw.field Tile.arrays (fun _ _ _ _ => rfl) _
    rw [withDesc_of_hasDesc (hw.hasDesc hd)]
    simp only [harr, hw.array, hrole, hfault, hfree', Bool.or_self, Bool.false_eq_true, if_false, State.modTile_eq,
      addBound_eq, State.tile_setTile_same, State.setTile_setTile]
    have hbegun := opBegun_of_joined hw hpc (x := (w.tile t.val).setArray a.val
      { (s.tile t.val).array a.val with loading := true, loadedEver := true }) rfl h (.load a d (emptyBlock d o)) d 32
    simp only [Tile.setArray, harrays] at hbegun ⊢
    exact ⟨hbegun.1, hbegun⟩

end

/-! A step of a LOAD (R92, R96). -/

/-- The block of a load once row i of its cells is in it. -/
def State.withRow (s : State) (t : TileId) (d : Desc) (b : Block) (i : Nat) : Block :=
  { b with
    outs := s.loadRow t d b.orient (loadGroup d.fmt) i b.outs,
    outs8 := if d.fmt = 0 then s.loadRow t d b.orient 8 i b.outs8 else [] }

/-- In orientation A a row of cells gives g elements to each output. -/
theorem loadRow_a_getD (s : State) (t : TileId) (d : Desc) (g i : Nat) {outs : List (List Num)} (hlen : outs.length = 32)
    {j : Nat} (hj : j < 32) :
    (s.loadRow t d .a g i outs).getD j [] = outs.getD j [] ++
      (List.range g).map (fun e => s.operand t d (32 * d.first + j) (32 * g * d.second + g * i + e)) := by
  simp [State.loadRow, List.getD_eq_getElem?_getD, hlen, hj]

/-- The array of a load after one of its steps: the last one leaves the block in the shadow block (R96, R97). -/
def Arr.withLoaded (x : Arr) (i : Nat) (b : Block) : Arr :=
  if i = 31 then { x with shadow := some b, loading := false } else x

section
variable {s : State} {t : TileId} {o : Op} {a : Fin 3} {d : Desc} {b : Block}

/-- A step of a load from a memory without changed symbols. -/
theorem loadStep_clean (hclean : (s.mem (.sram t)).errs = []) : ∃ y : Tile,
    s.loadStep t o a d b = s.setTile t.val y ∧ y.queues = (s.tile t.val).queues
      ∧ y.ops = ((s.tile t.val).stepOp o (.load a d (s.withRow t d b o.pos))).ops
      ∧ y.array a.val = ((s.tile t.val).array a.val).withLoaded o.pos (s.withRow t d b o.pos)
      ∧ ∀ j, j ≠ a.val → y.array j = (s.tile t.val).array j := by
  simp only [State.loadStep, State.touchSegs_clean hclean, State.modTile_eq, Arr.withLoaded]
  split
  · exact ⟨_, rfl, rfl, rfl, Tile.array_setArray_same _ _ _, fun j hj => (Tile.array_setArray _ _ _ _).trans (if_neg hj)⟩
  · exact ⟨_, rfl, rfl, rfl, rfl, fun _ _ => rfl⟩

theorem load_opStep (hclean : (s.mem (.sram t)).errs = []) (ho : o.kind = .load a d b) :
    Stepped s (s.opStep t o) t o (.load a d (s.withRow t d b o.pos)) ∧ (s.opStep t o).mems = s.mems
      ∧ ((s.opStep t o).tile t.val).array a.val
        = ((s.tile t.val).array a.val).withLoaded o.pos (s.withRow t d b o.pos)
      ∧ ∀ j, j ≠ a.val → ((s.opStep t o).tile t.val).array j = (s.tile t.val).array j := by
  obtain ⟨y, hy, hqueues, hops, harray, hothers⟩ := loadStep_clean (o := o) (a := a) (d := d) (b := b) hclean
  simp only [State.opStep, ho]
  rw [hy, State.tile_setTile_same]
  exact ⟨stepped_of_modOp hqueues hops (fun _ => rfl) rfl, rfl, harray, hothers⟩

end

/-- Settles O8: the wait at the issue, the issue and a step are a lemma each. -/
theorem tensorLoadFillsTheShadowBlock : Obligations.TensorLoadFillsTheShadowBlock := by
  intro s t c h o role desc d a p b hb hd ha
  obtain ⟨-, hclean, -⟩ := id hd
  refine ⟨fun hrole hfault hbusy => tensorLoad_waits hb hd ha hrole hfault ?_,
    fun hrole hfault hload hshadow => tensorLoad_begun hb hd ha hrole hfault (by simp [Tile.engaged, hload, hshadow]),
    fun hp _ => ?_⟩
  · simpa [Tile.engaged, Option.isSome_iff_ne_none] using hbusy
  · obtain ⟨hstep, hmems, harray, hothers⟩ := load_opStep hclean hp
    refine ⟨s.withRow t d b p.pos, hstep, hmems, rfl, rfl, rfl, fun hor => ?_, fun hor hlen j hj => ?_, harray, hothers⟩
    · rw [State.withRow, hor]
      rfl
    · rw [State.withRow, hor]
      exact loadRow_a_getD s t d _ _ hlen hj

end Sys2Proof.Machine
end

section
/-! SUPPORT. How a STREAM is issued, what each of its steps adds, and why the entries that it keeps need the bound of its
control descriptor (O9). -/
namespace Sys2Proof.Machine

/-! The issue of a STREAM (R91, R97, R439). -/

/-- At a descriptor address of a memory without changed symbols a descriptor is read (R119, R178). -/
theorem exists_hasDesc {s : State} {t : TileId} {a : Nat} (haddr : descAddrOk a = true)
    (hclean : (s.mem (.sram t)).errs = []) : ∃ d, s.hasDesc t a d := by
  have hread : ∃ d, s.readDesc t a (s.cold t.val) = some d := by
    simp [State.readDesc, State.anyMarked_clean hclean]
  exact hread.imp fun d hd => ⟨haddr, hclean, hd⟩

theorem Begun.bytes {s w : State} {t : TileId} {c : CtxId} (hw : Begun s w t c) (m : MemUnit) (a n : Nat) :
    w.bytes m a n = s.bytes m a n := hw.ofState (State.bytes · m a n) (fun _ _ => rfl)

/-- The accumulator-control descriptor names entries of the array only (R95). -/
theorem ctlOf_bound {bs : List Byte} {n base : Nat} (h : ctlOf bs = some (n, base)) : base + n ≤ 1024 := by
  simp only [ctlOf] at h
  split at h
  · cases h
  · next hok =>
    simp only [Bool.or_eq_true, decide_eq_true_eq, not_or] at hok
    obtain ⟨rfl, rfl⟩ : _ = n ∧ _ = base := by simpa using h
    omega

/-- What a pass adds with, as its issue fixes it (R51, R61, R95). -/
def PassCfg.ofIssue (k : PClass) (d : Desc) (o : Orient) (cont : Bool) : PassCfg :=
  { cls := k, window := k.window d.fmt, orient := o, clear := !cont, sx := if d.ts then some d.scale else none }

section
variable {s : State} {t : TileId} {c : CtxId} {h : Hdr} {o : Orient} {role : Role} {cont : Bool} {desc : BitVec 32}
  {d : Desc} {n base : Nat} {a : Fin 3} {b : Block} {k : PClass}

/-- A STREAM waits while a load of its array runs. -/
theorem tensorStream_waits (hb : s.bounded) (hd : s.hasDesc t desc.toNat d) (haddr : descAddrOk (desc.toNat + 32) = true)
    (ha : h.unit.toNat = a.val) (hctl : ctlOf (s.bytes (.sram t) (desc.toNat + 32) 32) = some (n, base))
    (hrole : ((s.tile t.val).array a.val).wrongRole role = false) (hfault : d.streamFault o n = false)
    (hever : ((s.tile t.val).array a.val).loadedEver = true) (hload : ((s.tile t.val).array a.val).loading = true) :
    Issued s t c (0, 1) h (lowOp desc) (.tensorStream t c h o role cont desc []) (fun u =>
      Waits s u t c (.swap (.stream a))) :=
  issued_of_only hb rfl fun w hw _ => by
    have harr : Fin.ofNat 3 h.unit.toNat = a := by simp [ha]
    obtain ⟨e, he⟩ := exists_hasDesc haddr hd.2.1
    rw [withDesc_of_hasDesc (hw.hasDesc hd), withDesc_of_hasDesc (hw.hasDesc he)]
    simp only [harr, hw.array, hw.bytes, hctl, hrole, hfault, hever, hload, Tile.engaged, Bool.or_self, Bool.not_true,
      Bool.false_eq_true, if_false, if_true]
    have hwait := waits_of_swap hw (.stream a)
    exact ⟨hwait.1, hwait⟩

/-- A STREAM takes the block in the shadow block, or else the active one. -/
theorem tensorStream_begun (hb : s.bounded) (hd : s.hasDesc t desc.toNat d) (haddr : descAddrOk (desc.toNat + 32) = true)
    (ha : h.unit.toNat = a.val) (hctl : ctlOf (s.bytes (.sram t) (desc.toNat + 32) 32) = some (n, base))
    (hrole : ((s.tile t.val).array a.val).wrongRole role = false) (hfault : d.streamFault o n = false)
    (hever : ((s.tile t.val).array a.val).loadedEver = true) (hload : ((s.tile t.val).array a.val).loading = false)
    (hblock : (if ((s.tile t.val).array a.val).shadow.isSome then ((s.tile t.val).array a.val).shadow
      else ((s.tile t.val).array a.val).active) = some b)
    (hclass : b.passClass d.fmt o role = some k) :
    Issued s t c (0, 1) h (lowOp desc) (.tensorStream t c h o role cont desc []) (fun u =>
      OpBegun s u t c
        (s.opIssued t c h (.stream a d (.ofIssue k d o cont) base n
          (((s.tile t.val).array a.val).shadow.isSome && !(s.tile t.val).swapPends a.val) b) d)
        ((s.issuedTile t c).bindTo d n) (s.asIssued t c)) :=
  issued_of_only hb rfl fun w hw hpc => by
    have harr : Fin.ofNat 3 h.unit.toNat = a := by simp [ha]
    obtain ⟨e, he⟩ := exists_hasDesc haddr hd.2.1
    have hpend : (w.tile t.val).swapPends a.val = (s.tile t.val).swapPends a.val :=
      hw.field (Tile.swapPends · a.val) (fun _ _ _ _ => rfl) _
    have harrays : (w.tile t.val).arrays = (s.tile t.val).arrays := hw.field Tile.arrays (fun _ _ _ _ => rfl) _
    rw [withDesc_of_hasDesc (hw.hasDesc hd), withDesc_of_hasDesc (hw.hasDesc he)]
    simp only [harr, hw.array, hw.bytes, hctl, hrole, hfault, hever, hload, hblock, hclass, hpend, Tile.engaged,
      Bool.or_self, Bool.not_true, Bool.false_eq_true, if_false, addBound_eq]
    have hbegun := opBegun_of_joined hw hpc (x := w.tile t.val) rfl h (.stream a d (.ofIssue k d o cont) base n
      (((s.tile t.val).array a.val).shadow.isSome && !(s.tile t.val).swapPends a.val) b) d n
    rw [harrays] at hbegun
    exact ⟨hbegun.1, hbegun⟩

end

/-! The adds of one vector (R58, R64, R95). -/

/-- One lane of `Arr.addVector`. -/
def Arr.addLane (theta : Nat) (p : PassCfg) (b : Block) (xs : List Num) (entry : Nat) (x : Arr) (j : Nat) : Arr :=
  let e : Entry := { (if p.clear then {} else mget {} x.entries (j * 1024 + entry)) with st := b.scale, sx := p.sx }
  let ps := ((b.lane p.cls p.orient j).zip xs).map (fun y => y.1.mul y.2)
  if p.cls = .legacy then
    { x with entries := mset (j * 1024 + entry) { e with acc := ps.foldl legacyAdd e.acc, legacy := true } x.entries }
  else
    let r := addChunk theta (32 * p.cls.group) e (chunkSum p.window ps) (mget 0 x.pepper j)
    { x with entries := mset (j * 1024 + entry) r.1 x.entries, pepper := mset j r.2 x.pepper }

section
variable (theta : Nat) (p : PassCfg) (b : Block) (xs : List Num) (entry : Nat)

theorem addVector_eq (x : Arr) : x.addVector theta p b xs entry = (List.range 32).foldl (Arr.addLane theta p b xs entry) x :=
  rfl

theorem addLane_frame (x : Arr) (j : Nat) : x.addLane theta p b xs entry j =
    { x with entries := (x.addLane theta p b xs entry j).entries, pepper := (x.addLane theta p b xs entry j).pepper } := by
  unfold Arr.addLane
  dsimp only
  split <;> rfl

theorem addLane_entries_ne (x : Arr) {j i : Nat} (hi : i ≠ j * 1024 + entry) :
    mget ({} : Entry) (x.addLane theta p b xs entry j).entries i = mget {} x.entries i := by
  unfold Arr.addLane
  dsimp only
  split <;> exact mget_mset_ne _ hi _ _

/-- A vector changes entries and generators of its array only. -/
theorem addVector_frame (x : Arr) : x.addVector theta p b xs entry =
    { x with entries := (x.addVector theta p b xs entry).entries, pepper := (x.addVector theta p b xs entry).pepper } := by
  rw [addVector_eq]
  generalize List.range 32 = js
  induction js generalizing x with
  | nil => rfl
  | cons j js ih =>
    rw [List.foldl_cons, ih, addLane_frame]

/-- What is no lane of the entry keeps its value. -/
theorem addVector_entries_ne (x : Arr) {i : Nat} (hi : ∀ j < 32, i ≠ j * 1024 + entry) :
    mget ({} : Entry) (x.addVector theta p b xs entry).entries i = mget {} x.entries i := by
  have lanes (js : List Nat) (hjs : ∀ j ∈ js, i ≠ j * 1024 + entry) (x : Arr) :
      mget ({} : Entry) (js.foldl (Arr.addLane theta p b xs entry) x).entries i = mget {} x.entries i := by
    induction js generalizing x with
    | nil => rfl
    | cons j js ih =>
      rw [List.forall_mem_cons] at hjs
      rw [List.foldl_cons, ih hjs.2, addLane_entries_ne _ _ _ _ _ _ hjs.1]
  exact lanes _ (fun j hj => hi j (List.mem_range.1 hj)) x

end

/-! A step of a STREAM (R71, R95, R97, R98). -/

/-- The array of a pass as its step finds it: the first one on a newly loaded block makes the block active. -/
def Arr.swapped (x : Arr) (swap : Bool) (pos : Nat) (b : Block) : Arr :=
  if swap && pos = 0 then { x with active := some b, shadow := none } else x

theorem swapped_frame (x : Arr) (swap : Bool) (pos : Nat) (b : Block) : x.swapped swap pos b =
    { x with active := (x.swapped swap pos b).active, shadow := (x.swapped swap pos b).shadow } := by
  unfold Arr.swapped
  split <;> rfl

/-- The vector that a pass streams at its step pos. -/
def State.streamed (s : State) (t : TileId) (d : Desc) (p : PassCfg) (pos : Nat) : List Num :=
  (List.range (32 * p.cls.group)).map (fun e => s.operand t d (d.first + pos) (32 * p.cls.group * d.second + e))

/-- The array y once a pass has added a vector; a pass with generators of its own leaves those of the array (R74, R123). -/
def Arr.passed (y : Arr) (o : Op) (theta : Nat) (p : PassCfg) (base : Nat) (b : Block) (xs : List Num) : Arr :=
  let z := { y with pepper := o.pepper.getD y.pepper }.addVector theta p b xs (base + o.pos)
  if o.pepper.isSome then { z with pepper := y.pepper } else z

/-- A pass after one of its steps, with the generators z where it keeps some of its own. -/
def Op.passedOn (z : Map (BitVec 64)) (o : Op) : Op := { o with pos := o.pos + 1, pepper := o.pepper.map (fun _ => z) }

section
variable {s : State} {t : TileId} {o : Op} {a : Fin 3} {d : Desc} {p : PassCfg} {base n : Nat} {swap : Bool} {b : Block}

theorem passed_frame (y : Arr) (theta : Nat) (xs : List Num) : y.passed o theta p base b xs =
    { y with entries := (y.passed o theta p base b xs).entries, pepper := (y.passed o theta p base b xs).pepper } := by
  unfold Arr.passed
  dsimp only
  rw [addVector_frame]
  split <;> rfl

theorem passed_entries_ne (y : Arr) (theta : Nat) (xs : List Num) {i : Nat} (hi : ∀ j < 32, i ≠ j * 1024 + (base + o.pos)) :
    mget ({} : Entry) (y.passed o theta p base b xs).entries i = mget {} y.entries i := by
  have hkeep := addVector_entries_ne theta p b xs (base + o.pos) { y with pepper := o.pepper.getD y.pepper } hi
  unfold Arr.passed
  dsimp only
  split <;> exact hkeep

/-- A step of a pass over a memory without changed symbols. -/
theorem stream_opStep (hclean : (s.mem (.sram t)).errs = []) (ho : o.kind = .stream a d p base n swap b) :
    Stepped s (s.opStep t o) t o o.kind ∧ (s.opStep t o).mems = s.mems
      ∧ ((s.opStep t o).tile t.val).array a.val = (((s.tile t.val).array a.val).swapped swap o.pos b).passed o
          (s.theta t.val) p base b (s.streamed t d p o.pos)
      ∧ ∀ j, j ≠ a.val → ((s.opStep t o).tile t.val).array j = (s.tile t.val).array j := by
  have hstep : s.opStep t o = s.streamStep t o a d p base swap b := by simp only [State.opStep, ho]
  rw [hstep]
  simp only [State.streamStep, State.touchSegs_clean hclean, State.modTile_eq]
  rw [State.tile_setTile_same]
  refine ⟨stepped_of_modOp (g := Op.passedOn _) rfl rfl (fun _ => rfl) rfl, rfl, Tile.array_setArray_same _ _ _,
    fun j hj => (Tile.array_setArray _ _ _ _).trans (if_neg hj)⟩

/-- A pass whose entries are those of its array keeps every other entry. -/
theorem stream_opStep_entries (hclean : (s.mem (.sram t)).errs = []) (ho : o.kind = .stream a d p base n swap b)
    (hbound : base + n ≤ 1024) (hpos : o.pos < n) {j e : Nat} (he : e < 1024) (hne : e ≠ base + o.pos) :
    mget ({} : Entry) (((s.opStep t o).tile t.val).array a.val).entries (j * 1024 + e)
      = mget {} ((s.tile t.val).array a.val).entries (j * 1024 + e) := by
  obtain ⟨-, -, harray, -⟩ := stream_opStep hclean ho
  rw [harray, passed_entries_ne _ _ _ (fun i _ => by omega), swapped_frame]

/-- What holds of a step in place of the step's part of O9: its clauses, for a pass whose entries are those of its array.
`ctlOf_bound` gives that bound for every pass that an instruction issues. -/
theorem stream_opStep_adds (hclean : (s.mem (.sram t)).errs = []) (ho : o.kind = .stream a d p base n swap b)
    (hbound : base + n ≤ 1024) (hpos : o.pos < n) :
    let x := (s.tile t.val).array a.val
    let u := s.opStep t o
    let y := (u.tile t.val).array a.val
    let z := x.swapped swap o.pos b
    Stepped s u t o o.kind ∧ u.mems = s.mems ∧ y.active = z.active ∧ y.shadow = z.shadow ∧ y.role = x.role
      ∧ (o.pepper = none → y = z.addVector (s.theta t.val) p b (s.streamed t d p o.pos) (base + o.pos))
      ∧ (∀ ps, o.pepper = some ps → y.pepper = x.pepper)
      ∧ (∀ j e, j < 32 → e < 1024 → e ≠ base + o.pos →
          mget ({} : Entry) y.entries (j * 1024 + e) = mget {} x.entries (j * 1024 + e))
      ∧ ∀ j, j ≠ a.val → (u.tile t.val).array j = (s.tile t.val).array j := by
  intro x u y z
  obtain ⟨hstep, hmems, harray, hothers⟩ := stream_opStep hclean ho
  have hy : y = z.passed o (s.theta t.val) p base b (s.streamed t d p o.pos) := harray
  have hz : z = { x with active := z.active, shadow := z.shadow } := swapped_frame x swap o.pos b
  refine ⟨hstep, hmems, ?_, ?_, ?_, fun hno => ?_, fun ps hps => ?_,
    fun _ _ _ => stream_opStep_entries hclean ho hbound hpos, hothers⟩
  · rw [hy, passed_frame]
  · rw [hy, passed_frame]
  · rw [hy, passed_frame, hz]
  · simp [hy, Arr.passed, hno]
  · rw [hy, hz]
    simp [Arr.passed, hps]

end

/-! A step beyond the entries. Entry 1,024 of lane 0 has the place of entry 0 of lane 1. -/

/-- The descriptor of 32 bytes 0. -/
def zeroDesc : Desc := descOf (List.replicate 32 0)

/-- A pass of one vector into entry 1,024. -/
def overrunPass : Op :=
  { id := 0, ctx := 0, sig := none
    kind := .stream 0 zeroDesc { cls := .c16, window := 36, orient := .a, clear := true, sx := none } 1024 1 false
      { orient := .a, fmt := 5, outs := [] } }

theorem reset_hasDesc : State.reset.hasDesc 0 0 zeroDesc := by decide +kernel

/-- Its step leaves 32 terms in entry 0 of lane 1, which had none. -/
theorem overrunPass_terms :
    (mget ({} : Entry) (((State.reset.opStep 0 overrunPass).tile 0).array 0).entries (1 * 1024 + 0)).n = 32
      ∧ (mget ({} : Entry) ((State.reset.tile 0).array 0).entries (1 * 1024 + 0)).n = 0 := by decide +kernel

/-- Refutes O9: the part about a step takes any pass in progress, and does not say that its entries are those of the array.
After reset, the step of a pass into entry 1,024 changes entry 0 of lane 1, though 0 is not 1,024. With base + n ≤ 1,024, as
the control descriptor of every STREAM has it (R95, `ctlOf_bound`), the clauses hold: `stream_opStep_adds`. The part about
the issue holds as it stands: `tensorStream_waits`, `tensorStream_begun`. -/
theorem not_tensorStreamAddsItsVectors : ¬ Obligations.TensorStreamAddsItsVectors := by
  intro hall
  obtain ⟨-, hstep⟩ := hall State.reset 0 0 {} .a .forward false 0 zeroDesc 1 1024 0 { orient := .a, fmt := 5, outs := [] }
    .c16 overrunPass { cls := .c16, window := 36, orient := .a, clear := true, sx := none } false (by decide) reset_hasDesc
    (by decide) rfl
  obtain ⟨-, -, -, -, -, -, -, hkeep, -⟩ := hstep rfl (by decide)
  have hsame := congrArg Entry.n (hkeep 1 0 (by decide) (by decide) (by decide))
  obtain ⟨hafter, hbefore⟩ := overrunPass_terms
  exact absurd (hafter.symm.trans (hsame.trans hbefore)) (by decide)

end Sys2Proof.Machine
end

section
/-! SUPPORT. What the shared operations of a tile make of it, one after the other, and the operations of SYNC and CTRL that
complete at issue (O12, O15). -/
namespace Sys2Proof.Machine

/-! From one state of a tile to the next. -/

/-- From s to u nothing has changed but tile t, which has become x. -/
structure TileMade (t : TileId) (s u : State) (x : Tile) : Prop where
  only : OnlyTile t s u
  tile : u.tile t.val = x

namespace TileMade
variable {t : TileId} {s u v : State} {x y : Tile} {c : Nat}

theorem refl (t : TileId) (s : State) : TileMade t s s (s.tile t.val) := ⟨only_refl t s, rfl⟩

theorem trans (h : TileMade t s u x) (k : TileMade t u v y) : TileMade t s v y :=
  ⟨⟨by rw [k.only.1, h.only.1], fun j hj => (k.only.2 j hj).trans (h.only.2 j hj)⟩, k.tile⟩

theorem setTile (h : TileMade t s u x) (y : Tile) : TileMade t s (u.setTile t.val y) y :=
  ⟨only_setTile h.only y, State.tile_setTile_same _ _ _⟩

theorem modTile (h : TileMade t s u x) (f : Tile → Tile) : TileMade t s (u.modTile t.val f) (f x) :=
  ⟨only_modTile h.only f, by rw [State.modTile_eq, State.tile_setTile_same, h.tile]⟩

theorem modCtx (h : TileMade t s u x) (c : Nat) (f : Ctx → Ctx) : TileMade t s (u.modCtx t.val c f) (x.setCtx c (f (x.ctx c))) :=
  h.modTile _

/-- What a state holds beside its tiles is as before. -/
theorem ofState {α : Type} (h : TileMade t s u x) (f : State → α) (hf : ∀ s ts, f { s with tiles := ts } = f s) : f u = f s := by
  rw [h.only.1]
  exact hf _ _

theorem coreOf (h : TileMade t s u x) (j : Nat) : u.coreOf j = s.coreOf j := h.ofState (State.coreOf · j) (fun _ _ => rfl)

/-- A completion owes its counter one, in the next core cycle (R116). -/
theorem signal (h : TileMade t s u x) (sig : Option (Fin 64)) :
    TileMade t s (u.signal t.val sig) { x with incs := x.incs ++ s.owed t sig } := by
  cases sig with
  | none =>
    refine ⟨h.only, h.tile.trans ?_⟩
    simp [State.owed]
  | some k =>
    have hmade := h.modTile (fun z => { z with incs := z.incs ++ [(k, 1, u.coreOf t.val + 1)] })
    rw [h.coreOf] at hmade
    simpa [State.signal, State.addCounter, State.owed, h.coreOf] using hmade

theorem advance (h : TileMade t s u x) (hpc : (x.ctx c).pc < 8191) :
    TileMade t s (u.advance t.val c) (x.setCtx c { x.ctx c with pc := (x.ctx c).pc + 1 }) := by
  rw [advance_ok (by rwa [h.tile]), h.tile]
  exact h.setTile _

end TileMade

theorem Begun.made {s w : State} {t : TileId} {c : CtxId} (hw : Begun s w t c) : TileMade t s w (w.tile t.val) := ⟨hw.only, rfl⟩

/-- A wait of an instruction that has not issued (R97, R121, R276). -/
def Wait.beforeIssue : Wait → Bool
  | .swap _ | .space _ | .step => true
  | _ => false

/-- A context whose instruction waits to issue. -/
def Run.unissued : Run → Bool
  | .waiting w _ => w.beforeIssue
  | _ => false

/-- An instruction that does not wait to issue has taken its issue cycle (R114). -/
theorem unissue_of_issued {s s0 : State} {t c : Nat} (h : ((s.tile t).ctx c).run.unissued = false) :
    s.unissue s0 t c = s := by
  unfold State.unissue
  split
  all_goals simp_all [Run.unissued, Wait.beforeIssue]

/-- The other contexts keep what they hold while their tile changes in other places. -/
theorem Begun.othersKeep {s w u : State} {t : TileId} {c : CtxId} {x : Tile} (hw : Begun s w t c) (hu : TileMade t s u x)
    (hx : ∀ j, j ≠ c.val → x.ctx j = (w.tile t.val).ctx j) : OthersKeep t c s u := by
  intro j hj
  rw [hu.tile, hx j hj, hw.others j hj]

/-! SYNC and CTRL operations that complete at issue (R116). -/

/-- An operation that changes of its tile its context and the counters only, and then signals and goes on to the next
instruction. -/
theorem issueAt_syncRan {s : State} {t : TileId} {c : CtxId} {k : OpCode} {h : Hdr} {m : Low} {i : Instr} {f : State → State}
    {y : Ctx} {g : Nat → BitVec 32} (hb : s.bounded) (hi : exec i s = done (s.issueAt t c k h m f))
    (hpc : y.pc = ((s.tile t.val).ctx c.val).pc) (hrun : y.run.unissued = false)
    (hf : ∀ w, Begun s w t c → ∃ x, TileMade t s (f w) x
      ∧ x = { w.tile t.val with ctxs := x.ctxs, counters := x.counters } ∧ x.ctx c.val = y
      ∧ (∀ j, j ≠ c.val → x.ctx j = (w.tile t.val).ctx j) ∧ ∀ n : Fin 64, x.counter n.val = g n.val) :
    Issued s t c k h m i (fun u => SyncRan s u t c h y g) :=
  issued_of_only hb hi fun w hw hbound => by
    obtain ⟨x, hmade, hframe, hctx, hothers, hcounter⟩ := hf w hw
    have hend := (hmade.signal (sigOf h)).advance (c := c.val) (by
      show (x.ctx c.val).pc < 8191
      rw [hctx, hpc]
      exact hbound)
    generalize ((f w).signal t.val (sigOf h)).advance t.val c.val = u at hend ⊢
    have hctx' : (u.tile t.val).ctx c.val = { y with pc := y.pc + 1 } := by
      rw [hend.tile, Tile.ctx_setCtx_same]
      show { x.ctx c.val with pc := (x.ctx c.val).pc + 1 } = _
      rw [hctx]
    rw [unissue_of_issued (by rw [hctx']; exact hrun)]
    refine ⟨hend.only, hend.only, hw.othersKeep hend fun j hj => ?_, ?_, ?_, fun n => ?_⟩
    · rw [Tile.ctx_setCtx, if_neg hj]
      exact hothers j hj
    · rw [hend.tile, hframe, hw.tile]
      rfl
    · rw [hctx', hpc]
    · rw [hend.tile]
      exact hcounter n

/-- An operation that changes its context only. -/
theorem issueAt_modCtx {s : State} {t : TileId} {c : CtxId} {k : OpCode} {h : Hdr} {m : Low} {i : Instr} (f : State → Ctx → Ctx)
    (hb : s.bounded) (hi : exec i s = done (s.issueAt t c k h m (fun w => w.modCtx t.val c.val (f w))))
    (hf : ∀ w, Begun s w t c → f w = f s) (hpc : (f s (s.asIssued t c)).pc = ((s.tile t.val).ctx c.val).pc)
    (hrun : (f s (s.asIssued t c)).run.unissued = false) :
    Issued s t c k h m i (fun u => SyncRan s u t c h (f s (s.asIssued t c)) (s.tile t.val).counter) :=
  issueAt_syncRan hb hi hpc hrun fun w hw =>
    ⟨_, hw.made.modCtx c.val (f w), rfl, by rw [Tile.ctx_setCtx_same, hw.ctx, hf w hw],
      fun j hj => by rw [Tile.ctx_setCtx, if_neg hj],
      fun n => hw.field (Tile.counter · n.val) (fun _ _ _ _ => rfl) _⟩

/-- An operation that makes f of one counter only. -/
theorem issueAt_setCounter {s : State} {t : TileId} {c : CtxId} {k : OpCode} {h : Hdr} {m : Low} {i : Instr} (ctr : Fin 64)
    (f : BitVec 32 → BitVec 32) (hb : s.bounded)
    (hi : exec i s = done (s.issueAt t c k h m (fun w =>
      w.modTile t.val (fun x => x.setCounter ctr.val (f (x.counter ctr.val)))))) :
    Issued s t c k h m i (fun u => SyncRan s u t c h (s.asIssued t c)
      (fun n => if n = ctr.val then f ((s.tile t.val).counter n) else (s.tile t.val).counter n)) :=
  issueAt_syncRan hb hi rfl rfl fun w hw => by
    have hcounter (n : Nat) : (w.tile t.val).counter n = (s.tile t.val).counter n :=
      hw.field (Tile.counter · n) (fun _ _ _ _ => rfl) _
    refine ⟨_, hw.made.modTile _, rfl, hw.ctx, fun _ _ => rfl, fun n => ?_⟩
    rw [Tile.counter_setCounter, hcounter, hcounter]
    split
    · next hn => rw [hn]
    · rfl

/-- SCMP writes 1 or 0 by the six conditions of R441. -/
theorem ctrlScmp_syncRan {s : State} (hb : s.bounded) (t : TileId) (c : CtxId) (h : Hdr) (d a : Fin 16) (cond : BrCond)
    (op : Opnd) :
    let y := s.asIssued t c
    Issued s t c (5, 4) h noLow (.ctrlScmp t c h d a cond op) (fun u => SyncRan s u t c h
      (y.setScalar d (if brHolds cond (y.scalar a) (opndVal y op) then 1 else 0)) (s.tile t.val).counter) :=
  issueAt_modCtx
    (fun _ y => y.setScalar d.val (if brHolds cond (y.scalar a.val) (opndVal y op) then 1 else 0)) hb rfl (fun _ _ => rfl) rfl rfl

/-- Settles O12: CSET and CADD set a counter, the others change their context. -/
theorem countersAndScalarsAreWritten : Obligations.CountersAndScalarsAreWritten := by
  intro s t c h ctr v d a op cond hb
  exact ⟨issueAt_setCounter ctr (fun _ => v) hb rfl,
    issueAt_setCounter ctr (· + v) hb rfl,
    issueAt_modCtx (fun _ y => { y with tmo := v }) hb rfl (fun _ _ => rfl) rfl rfl,
    issueAt_modCtx (fun _ y => y.setScalar d.val v) hb rfl (fun _ _ => rfl) rfl rfl,
    issueAt_modCtx (fun _ y => y.setScalar d.val (y.scalar d.val + opndVal y op)) hb rfl (fun _ _ => rfl) rfl rfl,
    ctrlScmp_syncRan hb t c h d a cond op⟩

end Sys2Proof.Machine
end

section
/-! SUPPORT. Jumps and the six conditions (O15). -/
namespace Sys2Proof.Machine

/-- After an operation that completes at issue, its context is z, the counter that the word names is owed one (R116), and
nothing else has changed. -/
def ContextIs (s u : State) (t : TileId) (c : CtxId) (h : Hdr) (z : Ctx) : Prop :=
  OnlyTile t s u ∧ OthersKeep t c s u
    ∧ u.tile t.val = { s.issuedTile t c with
        ctxs := (u.tile t.val).ctxs, incs := (s.tile t.val).incs ++ s.owed t (sigOf h) }
    ∧ (u.tile t.val).ctx c.val = z

theorem contextIs_of_tileMade {s w u : State} {t : TileId} {c : CtxId} {h : Hdr} {z : Ctx} (hw : Begun s w t c)
    (hu : TileMade t s u
      ({ w.tile t.val with incs := (w.tile t.val).incs ++ s.owed t (sigOf h) }.setCtx c.val z)) :
    ContextIs s u t c h z := by
  refine ⟨hu.only, hw.othersKeep hu fun j hj => ?_, ?_, ?_⟩
  · rw [Tile.ctx_setCtx, if_neg hj]
    rfl
  · rw [hu.tile, hw.tile]
    rfl
  · rw [hu.tile, Tile.ctx_setCtx_same]

section
variable {s w : State} {t : TileId} {c : CtxId}

/-- A jump taken within the instruction store. -/
theorem jump_contextIs (hw : Begun s w t c) (h : Hdr) {target : BitVec 32} (hin : target.toNat < 8192) :
    ContextIs s ((w.jump t.val c.val (sigOf h) target).unissue s t.val c.val) t c h
      { s.asIssued t c with pc := target.toNat } := by
  have hmade := (hw.made.signal (sigOf h)).modCtx c.val (fun y => { y with pc := target.toNat })
  have hctx : ({ w.tile t.val with incs := (w.tile t.val).incs ++ s.owed t (sigOf h) } : Tile).ctx c.val = s.asIssued t c :=
    hw.ctx
  rw [hctx] at hmade
  simp only [State.jump, hin, if_true]
  have hgoes := contextIs_of_tileMade hw hmade
  rw [unissue_of_issued (by rw [hgoes.2.2.2]; rfl)]
  exact hgoes

/-- An instruction that only signals, and the next one follows. -/
theorem advance_contextIs (hw : Begun s w t c) (hpc : ((s.tile t.val).ctx c.val).pc < 8191) (h : Hdr) :
    ContextIs s (((w.signal t.val (sigOf h)).advance t.val c.val).unissue s t.val c.val) t c h
      { s.asIssued t c with pc := (s.asIssued t c).pc + 1 } := by
  have hctx : ({ w.tile t.val with incs := (w.tile t.val).incs ++ s.owed t (sigOf h) } : Tile).ctx c.val = s.asIssued t c :=
    hw.ctx
  have hmade := (hw.made.signal (sigOf h)).advance (c := c.val) (by rw [hctx]; exact hpc)
  rw [hctx] at hmade
  have hgoes := contextIs_of_tileMade hw hmade
  rw [unissue_of_issued (by rw [hgoes.2.2.2]; rfl)]
  exact hgoes

/-- A jump past the instruction store stops its context (R131). -/
theorem jump_faulted (hw : Begun s w t c) (sig : Option (Fin 64)) {target : BitVec 32} (hout : 8192 ≤ target.toNat) :
    ∃ u, done ((w.jump t.val c.val sig target).unissue s t.val c.val) = .next u ∧ Faulted s u t c 4 := by
  obtain ⟨u, hu, hfault, -⟩ := faulted_of_begun hw 4
  simp only [State.jump, Nat.not_lt.2 hout, if_false]
  exact ⟨u, hu, hfault⟩

end

section
variable {s : State} {t : TileId} {c : CtxId} {h : Hdr} {src : BrSrc} {cond : BrCond} {op : Opnd} {target : BitVec 32}

theorem ctrlJmp_goes (hb : s.bounded) (hin : target.toNat < 8192) :
    Issued s t c (5, 0) h noLow (.ctrlJmp t c h target) (fun u =>
      ContextIs s u t c h { s.asIssued t c with pc := target.toNat }) :=
  issued_of_only hb rfl fun _ hw _ => have hgoes := jump_contextIs hw h hin; ⟨hgoes.1, hgoes⟩

theorem ctrlJmp_faults (hout : 8192 ≤ target.toNat) :
    Issued s t c (5, 0) h noLow (.ctrlJmp t c h target) (fun u => Faulted s u t c 4) :=
  issued_of_begun rfl fun _ hw _ => jump_faulted hw (sigOf h) hout

theorem ctrlBr_goes (hb : s.bounded) (hin : target.toNat < 8192)
    (hholds : brHolds cond (brSrcVal (s.asIssued t c) src) (opndVal (s.asIssued t c) op) = true) :
    Issued s t c (5, 1) h noLow (.ctrlBr t c h src cond op target) (fun u =>
      ContextIs s u t c h { s.asIssued t c with pc := target.toNat }) :=
  issued_of_only hb rfl fun _ hw _ => by
    simp only [hw.ctx, hholds, if_true]
    have hgoes := jump_contextIs hw h hin
    exact ⟨hgoes.1, hgoes⟩

theorem ctrlBr_faults (hout : 8192 ≤ target.toNat)
    (hholds : brHolds cond (brSrcVal (s.asIssued t c) src) (opndVal (s.asIssued t c) op) = true) :
    Issued s t c (5, 1) h noLow (.ctrlBr t c h src cond op target) (fun u => Faulted s u t c 4) :=
  issued_of_begun rfl fun _ hw _ => by
    simp only [hw.ctx, hholds, if_true]
    exact jump_faulted hw (sigOf h) hout

/-- A branch whose condition does not hold goes on. -/
theorem ctrlBr_goesOn (hb : s.bounded)
    (hholds : brHolds cond (brSrcVal (s.asIssued t c) src) (opndVal (s.asIssued t c) op) = false) :
    Issued s t c (5, 1) h noLow (.ctrlBr t c h src cond op target) (fun u =>
      ContextIs s u t c h { s.asIssued t c with pc := (s.asIssued t c).pc + 1 }) :=
  issued_of_only hb rfl fun _ hw hpc => by
    simp only [hw.ctx, hholds, Bool.false_eq_true, if_false]
    have hgoes := advance_contextIs hw hpc h
    exact ⟨hgoes.1, hgoes⟩

end

/-- The six conditions compare as equal and unequal, as signed and as unsigned numbers (R441). -/
theorem brHolds_iff (v w : BitVec 32) : (brHolds .eq v w ↔ v = w) ∧ (brHolds .ne v w ↔ v ≠ w)
    ∧ (brHolds .lt v w ↔ v.toInt < w.toInt) ∧ (brHolds .ge v w ↔ w.toInt ≤ v.toInt)
    ∧ (brHolds .ltu v w ↔ v.toNat < w.toNat) ∧ (brHolds .geu v w ↔ w.toNat ≤ v.toNat) := by
  simp [brHolds, BitVec.slt, BitVec.ult]

/-- Settles O15: a jump or branch taken within the store, past it, and a branch not taken are a lemma each. -/
theorem jumpsSetTheProgramCounter : Obligations.JumpsSetTheProgramCounter := by
  intro s t c h src cond op target d a hb
  exact ⟨fun hin => ⟨ctrlJmp_goes hb hin, ctrlBr_goes hb hin⟩,
    fun hout => ⟨ctrlJmp_faults hout, ctrlBr_faults hout⟩,
    ctrlBr_goesOn hb,
    ctrlScmp_syncRan hb t c h d a cond op,
    brHolds_iff,
    fun _ => ⟨rfl, rfl⟩,
    BitVec.toNat_setWidth_of_le (by decide),
    fun v => BitVec.toInt_signExtend_of_le (by decide)⟩

end Sys2Proof.Machine
end

section
/-! SUPPORT. How WAIT, VWAIT and FENCE begin to wait, and what the end of a core cycle makes of a waiting context (O13). -/
namespace Sys2Proof.Machine

/-! The increments of a core cycle (R125). -/

theorem foldl_setCounter_frame (l : List (Fin 64 × BitVec 32 × Nat)) (x : Tile) :
    l.foldl (fun x i => x.setCounter i.1.val (x.counter i.1.val + i.2.1)) x
      = { x with counters := (l.foldl (fun x i => x.setCounter i.1.val (x.counter i.1.val + i.2.1)) x).counters } := by
  induction l generalizing x with
  | nil => rfl
  | cons i r ih => rw [List.foldl_cons, ih]; rfl

theorem applyIncs_frame (x : Tile) (core : Nat) :
    x.applyIncs core = { x with counters := (x.applyIncs core).counters, incs := (x.applyIncs core).incs } := by
  simp only [Tile.applyIncs]
  rw [foldl_setCounter_frame]

theorem foldl_setCounter_counter (k : Fin 64) (l : List (Fin 64 × BitVec 32 × Nat)) (x : Tile) :
    (l.foldl (fun x i => x.setCounter i.1.val (x.counter i.1.val + i.2.1)) x).counter k
      = (l.filter (fun i => i.1 = k)).foldl (fun a i => a + i.2.1) (x.counter k) := by
  induction l generalizing x with
  | nil => rfl
  | cons i r ih =>
    rw [List.foldl_cons, ih, Tile.counter_setCounter, List.filter_cons]
    by_cases hk : i.1 = k
    · simp [hk]
    · have hne : k.val ≠ i.1.val := fun h => hk (Fin.ext h.symm)
      simp [hk, hne]

/-- Every increment due is applied to its counter. -/
theorem applyIncs_counter (x : Tile) (core : Nat) (k : Fin 64) : (x.applyIncs core).counter k =
    (x.incs.filter (fun i => i.1 = k && i.2.2 ≤ core)).foldl (fun a i => a + i.2.1) (x.counter k) := by
  have hfold := foldl_setCounter_counter k (x.incs.filter (fun i => i.2.2 ≤ core)) x
  rw [List.filter_filter] at hfold
  exact hfold

/-! What changes contexts only. -/

/-- From s to u nothing has changed but the contexts of tile t. -/
structure CtxsOnly (t : TileId) (s u : State) : Prop where
  only : OnlyTile t s u
  tile : u.tile t.val = { s.tile t.val with ctxs := (u.tile t.val).ctxs }

namespace CtxsOnly
variable {t : TileId} {s u v : State}

theorem refl (t : TileId) (s : State) : CtxsOnly t s s := ⟨only_refl t s, rfl⟩

theorem trans (h : CtxsOnly t s u) (k : CtxsOnly t u v) : CtxsOnly t s v :=
  ⟨⟨by rw [k.only.1, h.only.1], fun j hj => (k.only.2 j hj).trans (h.only.2 j hj)⟩, by rw [k.tile, h.tile]⟩

theorem modCtx (s : State) (t : TileId) (c : Nat) (f : Ctx → Ctx) : CtxsOnly t s (s.modCtx t.val c f) :=
  ⟨((TileMade.refl t s).modCtx c f).only, by rw [((TileMade.refl t s).modCtx c f).tile]; rfl⟩

theorem satisfied (h : CtxsOnly t s u) (w : Wait) : u.satisfied t.val w = s.satisfied t.val w := by
  have hpart (p : Nat) : u.part p = s.part p := by rw [h.only.1]; rfl
  unfold State.satisfied State.tilePart
  rw [h.tile]
  simp only [hpart]
  rfl

end CtxsOnly

/-- From s to u nothing has changed but context c of tile t, which has become z. -/
structure CtxMade (t : TileId) (c : Nat) (s u : State) (z : Ctx) : Prop extends CtxsOnly t s u where
  ctx : (u.tile t.val).ctx c = z
  others : ∀ j, j ≠ c → (u.tile t.val).ctx j = (s.tile t.val).ctx j

namespace CtxMade
variable {t : TileId} {c : Nat} {s u : State} {z : Ctx}

theorem refl (t : TileId) (c : Nat) (s : State) : CtxMade t c s s ((s.tile t.val).ctx c) :=
  ⟨CtxsOnly.refl t s, rfl, fun _ _ => rfl⟩

theorem modCtx (h : CtxMade t c s u z) (f : Ctx → Ctx) : CtxMade t c s (u.modCtx t.val c f) (f z) := by
  have hmade := (TileMade.refl t u).modCtx c f
  refine ⟨h.toCtxsOnly.trans (CtxsOnly.modCtx u t c f), ?_, fun j hj => ?_⟩
  · rw [hmade.tile, Tile.ctx_setCtx_same, h.ctx]
  · rw [hmade.tile, Tile.ctx_setCtx, if_neg hj, h.others j hj]

end CtxMade

/-! The evaluation of waits (R125, R128, R200). -/

/-- A wait whose condition the end of a core cycle evaluates. -/
def Wait.timed : Wait → Bool
  | .counter .. | .fence _ | .verdict _ => true
  | _ => false

/-- What a satisfied wait delivers into its context: VWAIT k and the flags (R200). -/
def State.delivered (s : State) (t : Nat) (w : Wait) (y : Ctx) : Ctx :=
  match w, s.tilePart t with
  | .verdict _, some p =>
    (y.setScalar 15 (BitVec.ofNat 32 (s.lossK p))).setScalar 14 ((s.part p).lastFlags.zeroExtend 32)
  | _, _ => y

/-- A context after the evaluation of its wait. -/
def State.wokenCtx (s : State) (t : Nat) (y : Ctx) : Ctx :=
  match y.run with
  | .waiting w since =>
    if !w.timed || !s.satisfied t w then y
    else if expired since (s.coreOf t) y.tmo.toNat then endWait y 1
    else endWait (s.delivered t w y) (waitRes (s.coreOf t - since) (s.delivered t w y).tmo.toNat)
  | _ => y

theorem wokenCtx_congr {t : TileId} {s u : State} (h : CtxsOnly t s u) (y : Ctx) :
    u.wokenCtx t.val y = s.wokenCtx t.val y := by
  have hpart : u.tilePart t.val = s.tilePart t.val := by rw [State.tilePart, h.tile]; rfl
  have hdelivered (w : Wait) : u.delivered t.val w y = s.delivered t.val w y := by
    unfold State.delivered
    rw [hpart, h.only.1]
    rfl
  have hcore : u.coreOf t.val = s.coreOf t.val := by rw [h.only.1]; rfl
  simp only [State.wokenCtx, h.satisfied, hcore, hdelivered]

/-- A satisfied wait delivers into its context, and changes no other. -/
theorem deliver_made (s : State) (t : TileId) (c : Nat) (w : Wait) :
    CtxMade t c s (s.deliver t.val c w) (s.delivered t.val w ((s.tile t.val).ctx c)) := by
  unfold State.deliver State.delivered
  cases w with
  | verdict v =>
    cases hp : s.tilePart t.val with
    | none => exact CtxMade.refl t c s
    | some p => exact (CtxMade.refl t c s).modCtx _
  | _ => exact CtxMade.refl t c s

/-- The evaluation of the wait of one context. -/
theorem wakeCtx_made (s : State) (t : TileId) (c : Nat) :
    CtxMade t c s (s.wakeCtx t.val c) (s.wokenCtx t.val ((s.tile t.val).ctx c)) := by
  unfold State.wakeCtx State.wokenCtx
  dsimp only
  generalize hz : (s.tile t.val).ctx c = z
  have hrefl : CtxMade t c s s z := hz ▸ CtxMade.refl t c s
  cases z.run with
  | waiting w since =>
    have hwait : CtxMade t c s
        (if !w.timed || !s.satisfied t.val w then s
        else if expired since (s.coreOf t.val) z.tmo.toNat then s.modCtx t.val c (fun y => endWait y 1)
        else (s.deliver t.val c w).modCtx t.val c (fun y => endWait y (waitRes (s.coreOf t.val - since) y.tmo.toNat)))
        (if !w.timed || !s.satisfied t.val w then z
        else if expired since (s.coreOf t.val) z.tmo.toNat then endWait z 1
        else endWait (s.delivered t.val w z) (waitRes (s.coreOf t.val - since) (s.delivered t.val w z).tmo.toNat)) := by
      split
      · exact hrefl
      · split
        · exact hrefl.modCtx _
        · exact (hz ▸ deliver_made s t c w).modCtx (fun y => endWait y (waitRes (s.coreOf t.val - since) y.tmo.toNat))
    cases w <;> exact hwait
  | _ => exact hrefl

/-- The evaluation of the waits of other contexts leaves a context as it is. -/
theorem foldl_wakeCtx_ne (t : TileId) (c : Nat) (l : List Nat) (s : State) (hc : c ∉ l) :
    CtxsOnly t s (l.foldl (fun s c => s.wakeCtx t.val c) s)
      ∧ ((l.foldl (fun s c => s.wakeCtx t.val c) s).tile t.val).ctx c = (s.tile t.val).ctx c := by
  induction l generalizing s with
  | nil => exact ⟨CtxsOnly.refl t s, rfl⟩
  | cons b r ih =>
    obtain ⟨hb, hr⟩ := not_or.1 (mt List.mem_cons.2 hc)
    have hone := wakeCtx_made s t b
    obtain ⟨honly, hctx⟩ := ih (s.wakeCtx t.val b) hr
    exact ⟨hone.toCtxsOnly.trans honly, hctx.trans (hone.others c hb)⟩

/-- The waits of a tile are evaluated each on its own. -/
theorem wake_ctx (s : State) (t : TileId) {c : Nat} (hc : c < 8) :
    ((s.wake t.val).tile t.val).ctx c = s.wokenCtx t.val ((s.tile t.val).ctx c) := by
  obtain ⟨l, r, hsplit⟩ := List.append_of_mem (List.mem_range.2 hc)
  have hnodup : (l ++ c :: r).Nodup := hsplit ▸ List.nodup_range
  obtain ⟨-, hr, hlr⟩ := List.nodup_append.1 hnodup
  have hl : c ∉ l := fun h => hlr c h c (List.mem_cons_self) rfl
  unfold State.wake
  rw [hsplit, List.foldl_append, List.foldl_cons]
  obtain ⟨honly, hctx⟩ := foldl_wakeCtx_ne t c l s hl
  have hone := wakeCtx_made (l.foldl (fun s c => s.wakeCtx t.val c) s) t c
  rw [(foldl_wakeCtx_ne t c r _ (List.nodup_cons.1 hr).1).2, hone.ctx, hctx, wokenCtx_congr honly]

/-! The end of a core cycle (R125). -/

/-- The increments due in this core cycle have been applied. -/
def State.incsApplied (s : State) (t : Nat) : State :=
  if (s.tile t).incs = [] then s else s.modTile t (fun x => x.applyIncs (s.coreOf t))

/-- To apply them changes the counters and the increments that are still to come. -/
theorem incsApplied_made (s : State) (t : TileId) : ∃ x, TileMade t s (s.incsApplied t.val) x
    ∧ x = { s.tile t.val with counters := x.counters, incs := x.incs }
    ∧ ∀ k : Fin 64, x.counter k.val = ((s.tile t.val).applyIncs (s.coreOf t.val)).counter k.val := by
  unfold State.incsApplied
  split
  · next hnil => exact ⟨_, TileMade.refl t s, rfl, fun k => by rw [applyIncs_counter, hnil]; rfl⟩
  · exact ⟨_, (TileMade.refl t s).modTile _, applyIncs_frame _ _, fun _ => rfl⟩

/-- With no context waiting on a semaphore, the end of a core cycle evaluates the wait of a context after the increments. -/
theorem settleWaits_ctx (s : State) (t : TileId) {c : Nat} (hc : c < 8) (hsem : (s.tile t.val).semq = []) :
    ((s.settleWaits t.val).tile t.val).ctx c = (s.incsApplied t.val).wokenCtx t.val ((s.tile t.val).ctx c) := by
  obtain ⟨x, hmade, hframe, -⟩ := incsApplied_made s t
  have hsem' : ((s.incsApplied t.val).tile t.val).semq = [] := by rw [hmade.tile, hframe, hsem]
  have hctx : ((s.incsApplied t.val).tile t.val).ctx c = (s.tile t.val).ctx c := by rw [hmade.tile, hframe]; rfl
  have hsettle : s.settleWaits t.val = (s.incsApplied t.val).wake t.val := congrArg (State.wake · t.val) (if_pos hsem')
  rw [hsettle, wake_ctx _ t hc, hctx]

/-! How a wait ends, and when it goes on. -/

section
variable {s : State} {t : TileId} {c : CtxId} {w : Wait} {since : Nat}

/-- A wait whose condition does not hold goes on. -/
theorem settleWaits_goesOn (hsem : (s.tile t.val).semq = []) (hunmet : (s.incsApplied t.val).satisfied t.val w = false)
    (hrun : ((s.tile t.val).ctx c.val).run = .waiting w since) :
    ((s.settleWaits t.val).tile t.val).ctx c.val = (s.tile t.val).ctx c.val := by
  rw [settleWaits_ctx s t c.isLt hsem]
  simp [State.wokenCtx, hrun, hunmet]

/-- One whose condition holds ends with result 0, or 0x80 in the cycle in which its timeout expires (R128). -/
theorem settleWaits_ends (hsem : (s.tile t.val).semq = []) (htimed : w.timed = true)
    (hmet : (s.incsApplied t.val).satisfied t.val w = true) {y : Ctx}
    (hy : s.delivered t.val w ((s.tile t.val).ctx c.val) = y)
    (hrun : ((s.tile t.val).ctx c.val).run = .waiting w since)
    (hopen : ((s.tile t.val).ctx c.val).tmo = 0 ∨ s.coreOf t.val ≤ since + ((s.tile t.val).ctx c.val).tmo.toNat)
    (hsince : since ≤ s.coreOf t.val) :
    ((s.settleWaits t.val).tile t.val).ctx c.val = { y with
      run := .ready
      res := if ((s.tile t.val).ctx c.val).tmo ≠ 0 ∧ s.coreOf t.val = since + ((s.tile t.val).ctx c.val).tmo.toNat
        then 0x80 else 0 } := by
  obtain ⟨x, hmade, hframe, -⟩ := incsApplied_made s t
  have hcore : (s.incsApplied t.val).coreOf t.val = s.coreOf t.val := hmade.coreOf t.val
  have hdelivered : (s.incsApplied t.val).delivered t.val w ((s.tile t.val).ctx c.val) = y := by
    rw [← hy]
    unfold State.delivered State.tilePart
    rw [hmade.tile, hframe, hmade.only.1]
    rfl
  have htmo : y.tmo = ((s.tile t.val).ctx c.val).tmo := by
    rw [← hy]
    unfold State.delivered
    split <;> rfl
  rw [settleWaits_ctx s t c.isLt hsem]
  simp only [State.wokenCtx, hrun, htimed, hmet, hcore, hdelivered, htmo]
  generalize ((s.tile t.val).ctx c.val).tmo = tmo at *
  have hopen' : expired since (s.coreOf t.val) tmo.toNat = false := by
    simp only [expired, Bool.and_eq_false_iff, decide_eq_false_iff_not, bne_eq_false_iff_eq]
    rcases hopen with h | h
    · exact .inl (by simp [h])
    · exact .inr (by omega)
  have hzero : tmo.toNat = 0 ↔ tmo = 0#32 := by simp [← BitVec.toNat_inj]
  have hdue : s.coreOf t.val - since = tmo.toNat ↔ s.coreOf t.val = since + tmo.toNat := by omega
  simp [hopen', endWait, waitRes, hzero, hdue, htmo]

end

/-! The conditions after the increments (R117, R125, R200). -/

section
variable (s : State) (t : TileId)

theorem satisfied_counter_iff (ctr : Fin 64) (v : BitVec 32) : (s.incsApplied t.val).satisfied t.val (.counter ctr v) = true
    ↔ 0 ≤ (((s.tile t.val).applyIncs (s.coreOf t.val)).counter ctr - v).toInt := by
  obtain ⟨x, hmade, -, hcounter⟩ := incsApplied_made s t
  simp only [State.satisfied, counterReached, stampDiff, hmade.tile, hcounter, decide_eq_true_eq]

theorem satisfied_fence_iff (q : Nat) : (s.incsApplied t.val).satisfied t.val (.fence q) = true
    ↔ ((s.tile t.val).queue q).xfers = [] := by
  obtain ⟨x, hmade, hframe, -⟩ := incsApplied_made s t
  have hqueue : x.queue q = (s.tile t.val).queue q := by rw [hframe]; rfl
  simp only [State.satisfied, hmade.tile, hqueue, decide_eq_true_eq]

theorem satisfied_verdict_iff {p : PartId} (hpart : (s.tile t.val).part = some p) (v : BitVec 32) :
    (s.incsApplied t.val).satisfied t.val (.verdict v) = true ↔ 0 ≤ ((s.part p.val).lastStamp - v).toInt := by
  obtain ⟨x, hmade, hframe, -⟩ := incsApplied_made s t
  have htile : (s.incsApplied t.val).tilePart t.val = some p.val := by
    rw [State.tilePart, hmade.tile, hframe]
    exact congrArg (Option.map _) hpart
  have hstamp : (s.incsApplied t.val).part p.val = s.part p.val := hmade.ofState (State.part · p.val) (fun _ _ => rfl)
  simp only [State.satisfied, htile, hstamp, stampDiff, decide_eq_true_eq]

end

/-- An operation that begins to wait from the present core cycle. -/
theorem issueAt_waits {s : State} {t : TileId} {c : CtxId} {k : OpCode} {h : Hdr} {m : Low} {i : Instr} {w : Wait}
    (hb : s.bounded) (hi : exec i s = done (s.issueAt t c k h m (fun u => u.beginWait t.val c.val w)))
    (hw : w.beforeIssue = false) :
    Issued s t c k h m i (fun u =>
      SyncRan s u t c h { s.asIssued t c with run := .waiting w (s.coreOf t.val) } (s.tile t.val).counter) :=
  issueAt_modCtx (fun u y => { y with run := .waiting w (u.coreOf t.val) }) hb hi
    (fun u hu => by rw [hu.coreOf]) rfl hw

/-- Settles O13: how a wait begins, how it ends and when it goes on are a lemma each, and so is each condition. -/
theorem waitsEndWhenTheirConditionHolds : Obligations.WaitsEndWhenTheirConditionHolds := by
  intro s t c h ctr v p q since hb
  refine ⟨issueAt_waits hb rfl rfl, issueAt_waits hb rfl rfl, issueAt_waits hb rfl rfl, applyIncs_counter _ _,
    fun hsem => ⟨⟨fun hmet => ?_, fun hunmet => ?_⟩, fun hmet => ?_, fun hunmet => ?_,
      fun hpart => ⟨fun hmet => ?_, fun hunmet => ?_⟩⟩⟩
  · exact settleWaits_ends hsem rfl ((satisfied_counter_iff s t ctr v).2 hmet) rfl
  · exact settleWaits_goesOn hsem (Bool.eq_false_iff.2 fun hmet => absurd ((satisfied_counter_iff s t ctr v).1 hmet) (by omega))
  · exact settleWaits_ends hsem rfl ((satisfied_fence_iff s t q).2 hmet) rfl
  · exact settleWaits_goesOn hsem (Bool.eq_false_iff.2 fun hmet => hunmet ((satisfied_fence_iff s t q).1 hmet))
  · exact settleWaits_ends hsem rfl ((satisfied_verdict_iff s t hpart v).2 hmet) (by simp [State.delivered, State.tilePart, hpart])
  · exact settleWaits_goesOn hsem (Bool.eq_false_iff.2 fun hmet => absurd ((satisfied_verdict_iff s t hpart v).1 hmet) (by omega))

end Sys2Proof.Machine
end

section
/-! SUPPORT. YIELD, END and the step marker; what the recording of an event leaves of the objects (O16). -/
namespace Sys2Proof.Machine

/-! The objects that the recording of an event does not touch (R417–R419). -/

/-- The objects of every index but 0x9000 hold in u what they hold in s. -/
def ObjsKept (s u : State) : Prop := ∀ i b n, okey i b n / 2 ^ 24 ≠ 0x9000 → u.obj i b n = s.obj i b n

namespace ObjsKept
variable {s u v : State}

theorem of_dict (h : u.dict = s.dict) : ObjsKept s u := fun _ _ _ _ => by simp only [State.obj, h]

theorem trans (h : ObjsKept s u) (k : ObjsKept u v) : ObjsKept s v := fun i b n hi => (k i b n hi).trans (h i b n hi)

theorem foldl {α : Type} {f : State → α → State} (hf : ∀ s a, ObjsKept s (f s a)) (l : List α) (s : State) :
    ObjsKept s (l.foldl f s) := by
  induction l generalizing s with
  | nil => exact of_dict rfl
  | cons a r ih => exact (hf s a).trans (ih _)

theorem setObj (s : State) {b : Nat} (hb : b < 256) (v : Nat) : ObjsKept s (s.setObj 0x9000 b 0 v) := by
  intro i c n hi
  refine State.obj_setObj_idx s fun he => hi ?_
  rw [he]
  simp only [okey]
  omega

theorem readWordEv (s : State) (e : Fin 32) (w reader : Nat) : ObjsKept s (s.readWordEv (.stack e) w reader).1 := by
  have hnote (s : State) (a : Nat) : (s.noteCorrected (.stack e) a).1.dict = s.dict := by
    simp only [State.noteCorrected]
    split <;> split <;> rfl
  simp only [State.readWordEv]
  refine of_dict ?_
  split
  · rfl
  · split
    · rfl
    · split
      · rfl
      · rw [hnote]; rfl
      · rfl

theorem storeEv (s : State) (e : Fin 32) (a : Nat) (bs : List Byte) : ObjsKept s (s.storeEv (.stack e) a bs).1 := by
  have hword (x : State × List Ev) (w : Nat) : ObjsKept x.1 (State.storeWordEv (.stack e) a bs.length x w).1 := by
    unfold State.storeWordEv
    split
    · exact of_dict rfl
    · exact readWordEv _ e w 9
  have hwords (l : List Nat) (x : State × List Ev) :
      ObjsKept x.1 (l.foldl (State.storeWordEv (.stack e) a bs.length) x).1 := by
    induction l generalizing x with
    | nil => exact of_dict rfl
    | cons w r ih => exact (hword x w).trans (ih _)
  exact (hwords _ (s, [])).trans (of_dict rfl)

theorem listRecord (s : State) (r : Record) : ObjsKept s (s.listRecord r) := by
  unfold State.listRecord
  simp only
  split
  · exact (setObj { s with ring := r :: s.ring } (b := 1) (by omega) _).trans
      (setObj { ({ s with ring := r :: s.ring } : State).setObj 0x9000 1 0 _ with log := r :: s.log } (b := 6) (by omega) _)
  · exact setObj { s with ring := r :: s.ring } (b := 1) (by omega) _

theorem listEvent (s : State) (e : Ev) : ObjsKept s (s.listEvent e) := foldl listRecord _ s

theorem mirrored (s : State) (i : Nat) : ObjsKept s { s with mirrored := i } := of_dict rfl

theorem mirror (n : Nat) (s : State) : ObjsKept s (State.mirror n s) := by
  induction n generalizing s with
  | zero => exact of_dict rfl
  | succ n ih =>
    unfold State.mirror
    simp only
    split
    · exact of_dict rfl
    · split
      · exact of_dict rfl
      · split
        · exact of_dict rfl
        · split
          · exact (mirrored s _).trans (ih _)
          · exact (((storeEv s 0 _ _).trans (mirrored _ _)).trans (foldl listEvent _ _)).trans (ih _)

theorem raise (s : State) (code src : Nat) (stp : BitVec 32) (data : List Byte) : ObjsKept s (s.raise code src stp data) := by
  unfold State.raise
  simp only
  split
  · split
    · exact of_dict rfl
    · exact setObj s (by omega) _
  · exact (foldl listRecord _ s).trans (mirror _ _)

end ObjsKept

/-! The step marker (R73, R192). -/

/-- The passes of an array keep generators of their own: no more of the tile changes than its operations (R74). -/
theorem forkPasses_made {t : TileId} {s u : State} {x : Tile} (h : TileMade t s u x) (a : Nat) :
    ∃ y, TileMade t s (u.forkPasses t.val a) y ∧ y = { x with ops := y.ops } := by
  obtain rfl := h.tile
  exact ⟨_, h.setTile _, rfl⟩

/-- The generators that a seeding gives an array (R73). -/
def seeded (seed : BitVec 64) (stream : BitVec 32) (t a : Nat) : Map (BitVec 64) :=
  (List.range 32).map (fun j => (j, pepperSeed seed stream t a j))

theorem mfind_map_of_mem {α : Type} (f : Nat → α) {l : List Nat} {j : Nat} (hj : j ∈ l) :
    mfind j (l.map (fun i => (i, f i))) = some (f j) := by
  induction l with
  | nil => cases hj
  | cons i r ih =>
    rw [List.map_cons, mfind]
    split
    · next h => rw [h]
    · next h => exact ih ((List.mem_cons.1 hj).resolve_left (Ne.symm h))

theorem seeded_lane (seed : BitVec 64) (stream : BitVec 32) (t a : Nat) {j : Nat} (hj : j < 32) :
    mget 0 (seeded seed stream t a) j = pepperSeed seed stream t a j := by
  rw [mget, seeded, mfind_map_of_mem _ (List.mem_range.2 hj), Option.getD_some]

/-- A tile whose three arrays have been seeded. -/
def Tile.reseeded (x : Tile) (seed : BitVec 64) (stream : BitVec 32) (t : Nat) : Tile :=
  (List.range 3).foldl (fun x a => x.setArray a { x.array a with pepper := seeded seed stream t a }) x

theorem reseeded_pepper (x : Tile) (seed : BitVec 64) (stream : BitVec 32) (t : Nat) {a : Nat} (ha : a < 3) :
    ((x.reseeded seed stream t).array a).pepper = seeded seed stream t a := by
  interval_cases a <;> simp [Tile.reseeded, List.range_succ, Tile.array_setArray]

theorem reseeded_frame (x : Tile) (seed : BitVec 64) (stream : BitVec 32) (t : Nat) :
    x.reseeded seed stream t = { x with arrays := (x.reseeded seed stream t).arrays } := by
  simp only [Tile.reseeded, List.range_succ, List.range_zero, List.nil_append, List.cons_append, List.foldl_cons, List.foldl_nil,
    Tile.setArray]

theorem reseed_eq (s : State) (t : Nat) (stream : BitVec 32) :
    s.reseed t stream = s.modTile t (fun x => x.reseeded (BitVec.ofNat 64 (s.obj 0x8000 1 0)) stream t) := by
  simp only [State.reseed, Tile.reseeded, seeded]

theorem reseed_made {t : TileId} {s u : State} {x : Tile} (h : TileMade t s u x) (n : BitVec 32) :
    ∃ y, TileMade t s (u.reseed t.val n) y ∧ y = { x with arrays := y.arrays }
      ∧ ∀ a, a < 3 → (y.array a).pepper = seeded (BitVec.ofNat 64 (s.obj 0x8000 1 0)) n t.val a := by
  have hseed : u.obj 0x8000 1 0 = s.obj 0x8000 1 0 := h.ofState (State.obj · 0x8000 1 0) (fun _ _ => rfl)
  rw [reseed_eq, hseed]
  exact ⟨_, h.modTile _, reseeded_frame _ _ _ _, fun _ => reseeded_pepper _ _ _ _⟩

/-- What a step marker makes of its tile x, where the seed is that of 0x8000:01. -/
structure Tile.Marked (x y : Tile) (seed : BitVec 64) (t : Nat) : Prop where
  stamp : y.stamp = x.stamp + 1
  poison : y.poison = false
  ctxs : y.ctxs = x.ctxs
  part : y.part = x.part
  pepper : ∀ a, a < 3 → (y.array a).pepper = seeded seed (x.stamp + 1) t a

/-- The step begun of a partition rises to a later stamp, whether or not cold-scale mode ends with it (R216, R260). -/
theorem stepBegun_rises (s : State) {p : Nat} (hp : p < 16) {stamp : BitVec 32}
    (h : 0 < stampDiff stamp (BitVec.ofNat 32 (s.obj 0x8600 (0x11 + p) 0))) :
    (s.stepBegun p stamp).obj 0x8600 (0x11 + p) 0 = stamp.toNat := by
  have hraise (u : State) (code src : Nat) (stp : BitVec 32) (data : List Byte) :
      (u.raise code src stp data).obj 0x8600 (0x11 + p) 0 = u.obj 0x8600 (0x11 + p) 0 :=
    ObjsKept.raise u code src stp data _ _ _ (by simp only [okey]; omega)
  have hcold (u : State) (v : Nat) : (u.setObj 0x8130 (p + 2) 0 v).obj 0x8600 (0x11 + p) 0 = u.obj 0x8600 (0x11 + p) 0 :=
    State.obj_setObj_idx u (by simp only [okey]; omega)
  simp only [State.stepBegun, Int.not_le.2 h, if_false]
  split
  · split
    · rw [hraise, hcold, State.obj_setObj_same]
    · exact State.obj_setObj_same _ _ _ _ _
  · exact State.obj_setObj_same _ _ _ _ _

/-- It changes no tile. -/
theorem stepBegun_tile (s : State) (p : Nat) (stamp : BitVec 32) (j : Nat) : (s.stepBegun p stamp).tile j = s.tile j := by
  simp only [State.stepBegun]
  split
  · rfl
  · split
    · split
      · rw [(Recorded.raise _ _ _ _ _).tile]; rfl
      · rfl
    · rfl

/-- A step marker clears the poison latch, the tags reported and, where 0x5200:08 asks for it, the counts of the histograms. -/
def State.latchesCleared (s : State) (t : Nat) : State :=
  s.modTile t (fun x => { x with
    hist := if s.obj 0x5200 8 t = 1 then clearHist x.hist else x.hist, poison := false, reported := [] })

theorem latchesCleared_made {t : TileId} {s u : State} {x : Tile} (h : TileMade t s u x) :
    ∃ y, TileMade t s (u.latchesCleared t.val) y ∧ y = { x with hist := y.hist, poison := false, reported := [] } :=
  ⟨_, h.modTile _, rfl⟩

/-- The tile of a step marker before its latches are cleared: it has the next stamp, and its generators are those of a seeding. -/
def State.stampedAt (s : State) (t : Nat) (n : BitVec 32) : State :=
  ([0, 1, 2].foldl (fun (s : State) a => s.forkPasses t a) (s.modTile t (fun x => { x with stamp := n }))).reseed t n

theorem stampedAt_made {t : TileId} {s u : State} {x : Tile} (h : TileMade t s u x) (n : BitVec 32) :
    ∃ y, TileMade t s (u.stampedAt t.val n) y ∧ y = { x with stamp := n, ops := y.ops, arrays := y.arrays }
      ∧ ∀ a, a < 3 → (y.array a).pepper = seeded (BitVec.ofNat 64 (s.obj 0x8000 1 0)) n t.val a := by
  obtain ⟨y, hy, hstamp⟩ : ∃ y, TileMade t s (u.modTile t.val (fun z => { z with stamp := n })) y
      ∧ y = { x with stamp := n } := ⟨_, h.modTile _, rfl⟩
  obtain ⟨y0, h0, hops0⟩ := forkPasses_made hy 0
  obtain ⟨y1, h1, hops1⟩ := forkPasses_made h0 1
  obtain ⟨y2, h2, hops2⟩ := forkPasses_made h1 2
  obtain ⟨y3, h3, harrays, hpepper⟩ := reseed_made h2 n
  exact ⟨y3, h3, by rw [harrays, hops2, hops1, hops0, hstamp], hpepper⟩

/-- A step marker on a tile of partition p marks the tile, and has the partition's step begun rise (R192). -/
theorem stepMarker_spec {t : TileId} {s u : State} {x : Tile} {p : PartId} (h : TileMade t s u x) (hp : x.part = some p) :
    x.Marked ((u.stepMarker t.val).tile t.val) (BitVec.ofNat 64 (s.obj 0x8000 1 0)) t.val
      ∧ (0 < stampDiff (x.stamp + 1) (BitVec.ofNat 32 (s.obj 0x8600 (0x11 + p.val) 0)) →
          (u.stepMarker t.val).obj 0x8600 (0x11 + p.val) 0 = (x.stamp + 1).toNat) := by
  obtain ⟨z, hz, hstamped, hpepper⟩ := stampedAt_made h (x.stamp + 1)
  obtain ⟨y, hy, hcleared⟩ := latchesCleared_made hz
  have harray (a : Nat) : y.array a = z.array a := by rw [hcleared]; rfl
  have hmark : x.Marked y (BitVec.ofNat 64 (s.obj 0x8000 1 0)) t.val :=
    ⟨by rw [hcleared, hstamped], by rw [hcleared], by rw [hcleared, hstamped], by rw [hcleared, hstamped],
      fun a ha => by rw [harray]; exact hpepper a ha⟩
  have hpart : ((u.stampedAt t.val (x.stamp + 1)).latchesCleared t.val).tilePart t.val = some p.val := by
    rw [State.tilePart, hy.tile, hmark.part, hp]
    rfl
  have hobj := hy.ofState (State.obj · 0x8600 (0x11 + p.val) 0) (fun _ _ => rfl)
  have hmarker : u.stepMarker t.val
      = ((u.stampedAt t.val (x.stamp + 1)).latchesCleared t.val).stepBegun p.val (x.stamp + 1) := by
    obtain rfl := h.tile
    unfold State.stepMarker
    dsimp only
    split
    · next q hq =>
      obtain rfl : p.val = q := Option.some.inj (hpart.symm.trans hq)
      rfl
    · next hq => cases hpart.symm.trans hq
  rw [hmarker, stepBegun_tile, hy.tile]
  exact ⟨hmark, fun hlater => stepBegun_rises _ p.isLt (by rw [hobj]; exact hlater)⟩

/-- A context that has to wait for its instruction to issue has cost no issue cycle (R97, R114, R121, R276). -/
theorem waits_of_beforeIssue {s w : State} {t : TileId} {c : CtxId} (hw : Begun s w t c) {a : Wait}
    (ha : a.beforeIssue = true) : Waits s ((w.hold t.val c.val a).unissue s t.val c.val) t c a := by
  have hunissue (u : State) {n : Nat} (h : ((u.tile t.val).ctx c.val).run = .waiting a n) : u.unissue s t.val c.val
      = u.setTile t.val { u.tile t.val with last := (s.tile t.val).last, issued := (s.tile t.val).issued } := by
    cases a <;> simp_all [Wait.beforeIssue, State.unissue]
  have hctx (x : Tile) (l : Nat) (i : Option Nat) (j : Nat) : ({ x with last := l, issued := i } : Tile).ctx j = x.ctx j := rfl
  rw [hold_eq, hunissue _ (n := w.coreOf t.val) (by simp), State.setTile_setTile, State.tile_setTile_same]
  refine ⟨only_setTile hw.only _, fun j hj => ?_, ?_, ?_⟩
  · rw [State.tile_setTile_same, hctx, Tile.ctx_setCtx, if_neg hj, hw.others j hj]
  · rw [State.tile_setTile_same, Tile.setCtx, hw.tile]
    rfl
  · rw [State.tile_setTile_same, hctx, Tile.ctx_setCtx_same, hw.ctx, hw.coreOf, State.asIssued]

section
variable {s : State} {t : TileId} {c : CtxId} {h : Hdr}

theorem pausing_of_begun {w : State} {p : PartId} (hw : Begun s w t c) (hpart : (s.tile t.val).part = some p) :
    w.pausing t.val = ((s.part p.val).pauses != []) := by
  have hpauses : w.part p.val = s.part p.val := hw.ofState (State.part · p.val) (fun _ _ => rfl)
  rw [State.pausing, State.tilePart, hw.part, hpart]
  simp [hpauses]

/-- END leaves its context idle, with no partial result (R117). -/
theorem ctrlEnd_idle (hb : s.bounded) (hstore : (s.asIssued t c).store = none) :
    Issued s t c (5, 8) h noLow (.ctrlEnd t c h) (fun u =>
      ContextIs s u t c h { s.asIssued t c with run := .idle, asm := [] }) :=
  issued_of_only hb rfl fun w hw _ => by
    have hend : w.endRun t.val c.val = w := by
      simp only [State.endRun, hw.ctx, hstore]
    have hmade := (hw.made.modCtx c.val (fun y => { y with run := .idle, asm := [] })).signal (sigOf h)
    rw [hw.ctx] at hmade
    rw [hend]
    have hgoes := contextIs_of_tileMade (h := h) hw hmade
    rw [unissue_of_issued (by rw [hgoes.2.2.2]; rfl)]
    exact ⟨hgoes.1, hgoes⟩

/-- What a step marker leaves of its tile t, of partition p, and of the partition's step begun (R73, R192). -/
def StepMarked (s u : State) (t : TileId) (c : CtxId) (p : PartId) (n : BitVec 32) : Prop :=
  (u.tile t.val).stamp = n ∧ (u.tile t.val).poison = false
    ∧ (∀ a j, a < 3 → j < 32 →
        mget 0 ((u.tile t.val).array a).pepper j = pepperSeed (BitVec.ofNat 64 (s.obj 0x8000 1 0)) n t.val a j)
    ∧ ((u.tile t.val).ctx c.val).pc = (s.asIssued t c).pc + 1
    ∧ (0 < stampDiff n (BitVec.ofNat 32 (s.obj 0x8600 (0x11 + p.val) 0)) → u.obj 0x8600 (0x11 + p.val) 0 = n.toNat)

/-- A marker on a tile that is not guarded and whose partition is not pausing. -/
theorem ctrlStep_marks {p : PartId} (hguard : (s.tile t.val).guarded = false) (hpart : (s.tile t.val).part = some p)
    (hpauses : (s.part p.val).pauses = []) :
    Issued s t c (5, 6) h noLow (.ctrlStep t c h) (fun u => StepMarked s u t c p ((s.tile t.val).stamp + 1)) :=
  issued_of_begun rfl fun w hw hpc => by
    have hpausing : w.pausing t.val = false := by simp [pausing_of_begun hw hpart, hpauses]
    have hstamp : (w.tile t.val).stamp = (s.tile t.val).stamp := hw.field Tile.stamp (fun _ _ _ _ => rfl) _
    obtain ⟨hmark, hrises⟩ := stepMarker_spec hw.made ((hw.part _).trans hpart)
    simp only [hw.guarded, hguard, hpausing, Bool.false_eq_true, if_false]
    rw [hstamp] at hrises
    generalize w.stepMarker t.val = v at hmark hrises
    have hctx : (v.tile t.val).ctx c.val = s.asIssued t c := by
      rw [Tile.ctx, hmark.ctxs]
      exact hw.ctx
    have hend := ((TileMade.refl t v).signal (sigOf h)).advance (c := c.val) (by
      show ((v.tile t.val).ctx c.val).pc < 8191
      rw [hctx]
      exact hpc)
    generalize (v.signal t.val (sigOf h)).advance t.val c.val = u at hend
    have hrun : (u.tile t.val).ctx c.val = { s.asIssued t c with pc := (s.asIssued t c).pc + 1 } := by
      rw [hend.tile, Tile.ctx_setCtx_same, ← hctx]
      rfl
    have hframe : u.tile t.val = { v.tile t.val with ctxs := (u.tile t.val).ctxs, incs := (u.tile t.val).incs } := by
      rw [hend.tile]
      rfl
    have harrays : (u.tile t.val).arrays = (v.tile t.val).arrays := by rw [hframe]
    rw [unissue_of_issued (by rw [hrun]; rfl)]
    refine ⟨_, done_next _, (congrArg Tile.stamp hframe).trans (hmark.stamp.trans (by rw [hstamp])),
      (congrArg Tile.poison hframe).trans hmark.poison, fun a j ha hj => ?_, congrArg Ctx.pc hrun,
      fun hlater => (hend.ofState (State.obj · 0x8600 (0x11 + p.val) 0) (fun _ _ => rfl)).trans (hrises hlater)⟩
    have hlanes : mget 0 ((u.tile t.val).array a).pepper j = mget 0 ((v.tile t.val).array a).pepper j :=
      by rw [Tile.array, harrays, Tile.array]
    exact hlanes.trans (by rw [hmark.pepper a ha, seeded_lane _ _ _ _ hj, hstamp])

/-- At a pause of its partition the marker waits to issue (R276). -/
theorem ctrlStep_waits {p : PartId} (hb : s.bounded) (hguard : (s.tile t.val).guarded = false)
    (hpart : (s.tile t.val).part = some p) (hpauses : (s.part p.val).pauses ≠ []) :
    Issued s t c (5, 6) h noLow (.ctrlStep t c h) (fun u => Waits s u t c .step) :=
  issued_of_only hb rfl fun w hw _ => by
    have hpausing : w.pausing t.val = true := by simp [pausing_of_begun hw hpart, hpauses]
    have hwaits := waits_of_beforeIssue hw (a := .step) rfl
    simp only [hw.guarded, hguard, hpausing, Bool.false_eq_true, if_false, if_true]
    exact ⟨hwaits.1, hwaits⟩

/-- Within a guard the marker stops its context (R263). -/
theorem ctrlStep_faults (hguard : (s.tile t.val).guarded = true) :
    Issued s t c (5, 6) h noLow (.ctrlStep t c h) (fun u => Faulted s u t c 1) :=
  issued_of_begun rfl fun w hw _ => by
    obtain ⟨u, hu, hfault, -⟩ := faulted_of_begun hw 1
    simp only [hw.guarded, hguard, if_true]
    exact ⟨u, hu, hfault⟩

end

/-- Settles O16: YIELD, END and the step marker's three cases are a lemma each. -/
theorem yieldEndAndStepMarkers : Obligations.YieldEndAndStepMarkers := by
  intro s t c h p hb
  exact ⟨issueAt_modCtx (fun _ y => { y with yielded := true }) hb rfl (fun _ _ => rfl) rfl rfl,
    ctrlEnd_idle hb, ctrlStep_marks, ctrlStep_waits hb, ctrlStep_faults⟩

end Sys2Proof.Machine
end

section
/-! SUPPORT. What an issue does in a context that cannot issue, and for an instruction that is not legal (O18). -/
namespace Sys2Proof.Machine

/-- An instruction whose whole meaning is an issue of an operation code outside class 0. -/
def Issuing (i : Instr) (t : TileId) (c : CtxId) (h : Hdr) : Prop :=
  ∃ (k : OpCode) (m : Low) (f : State → State), k.1 ≠ 0 ∧ ∀ s, exec i s = done (s.issue t c k h m f)

theorem issuing {i : Instr} {t : TileId} {c : CtxId} {h : Hdr} (k : OpCode) (m : Low) (f : State → State)
    (hi : ∀ s, exec i s = done (s.issue t c k h m f)) (hk : k.1 ≠ 0 := by decide) : Issuing i t c h := ⟨k, m, f, hk, hi⟩

/-- A context stopped by an illegal instruction keeps its registers (R115, R131). -/
def Illegal (s u : State) (t : TileId) (c : CtxId) : Prop :=
  Faulted s u t c 2 ∧ ((u.tile t.val).ctx c.val).v = ((s.tile t.val).ctx c.val).v
    ∧ ((u.tile t.val).ctx c.val).s = ((s.tile t.val).ctx c.val).s

section
variable {s : State} {t : TileId} {c : CtxId} {h : Hdr} {i : Instr}

theorem illegal_of_mayIssue (hmay : s.mayIssue t.val c.val = true) :
    ∃ u, done ((s.begin t c).fault t.val c.val 2) = .next u ∧ Illegal s u t c := by
  have hw := begun_begin (t := t) (c := c) (mayIssue_ready hmay)
  have hctx := fault_ctx (s.begin t c) t.val c.val 2
  rw [hw.ctx] at hctx
  obtain ⟨u, hu, hfault, -⟩ := faulted_of_begun hw 2
  rw [unissue_of_issued (by rw [hctx]; rfl)] at hu
  obtain rfl := Host.Outcome.next.inj ((done_next _).symm.trans hu)
  have hv : (((s.begin t c).fault t.val c.val 2 |>.tile t.val).ctx c.val).v = ((s.tile t.val).ctx c.val).v := by rw [hctx]; rfl
  have hs : (((s.begin t c).fault t.val c.val 2 |>.tile t.val).ctx c.val).s = ((s.tile t.val).ctx c.val).s := by rw [hctx]; rfl
  exact ⟨_, hu, hfault, hv, hs⟩

/-- A context that cannot issue. -/
theorem Issuing.idle (hi : Issuing i t c h) (hb : s.bounded) (hmay : s.mayIssue t.val c.val = false) :
    exec i s = .next s := by
  obtain ⟨k, m, f, -, hexec⟩ := hi
  rw [hexec]
  simp only [State.issue, hmay, Bool.not_false, if_true]
  exact done_bounded hb

/-- An instruction that the store does not hold, with a reserved bit set. -/
theorem Issuing.reserved (hi : Issuing i t c h) (hmay : s.mayIssue t.val c.val = true)
    (hword : (s.tile t.val).code[((s.tile t.val).ctx c.val).pc]? = none) (hrsvd : h.rsvd ≠ 0) :
    Gives i s (fun u => Illegal s u t c) := by
  obtain ⟨k, m, f, -, hexec⟩ := hi
  have hhdr : hdrOk k h = false := by
    rw [hdrOk, decide_eq_false hrsvd, Bool.false_and]
  obtain ⟨u, hu, hillegal⟩ := illegal_of_mayIssue hmay
  refine ⟨u, ?_, hillegal⟩
  rw [hexec, ← hu]
  simp only [State.issue, hmay, hword, hhdr, Bool.not_true, Bool.false_eq_true, if_false]

section
variable {word : BitVec 64}

/-- A stored word that spells no operation. -/
theorem Issuing.illegal (hi : Issuing i t c h) (hmay : s.mayIssue t.val c.val = true)
    (hword : (s.tile t.val).code[((s.tile t.val).ctx c.val).pc]? = some word) (hok : wordOk word = false) :
    Gives i s (fun u => Illegal s u t c) := by
  obtain ⟨k, m, f, -, hexec⟩ := hi
  obtain ⟨u, hu, hillegal⟩ := illegal_of_mayIssue hmay
  refine ⟨u, ?_, hillegal⟩
  rw [hexec, ← hu]
  simp only [State.issue, hmay, hword, hok, Bool.not_true, Bool.not_false, Bool.false_eq_true, if_false, if_true]

/-- A stored word of class 0 spells another operation than one outside that class. -/
theorem Issuing.other (hi : Issuing i t c h) (hb : s.bounded) (hmay : s.mayIssue t.val c.val = true)
    (hword : (s.tile t.val).code[((s.tile t.val).ctx c.val).pc]? = some word) (hok : wordOk word = true)
    (hclass : (wordOp word).1 = 0) : exec i s = .next s := by
  obtain ⟨k, m, f, hk, hexec⟩ := hi
  have hop : wordOp word ≠ k := fun he => hk (he ▸ hclass)
  rw [hexec]
  simp only [State.issue, hmay, hword, hok, wordNames, hop, decide_false, Bool.false_and, Bool.not_true, Bool.not_false,
    Bool.false_eq_true, if_false, if_true]
  exact done_bounded hb

end

end

/-- Settles O18: each of the operations named is an issue, and an issue does the same in all of them. -/
theorem onlyReadyContextsIssue : Obligations.OnlyReadyContextsIssue := by
  intro s t c h d a b e ctr v route far hb is
  have hissuing : ∀ i ∈ is, Issuing i t c h := by
    simp only [is, List.forall_mem_cons]
    exact ⟨issuing _ _ _ fun _ => rfl, issuing _ _ _ fun _ => rfl, issuing _ _ _ fun _ => rfl, issuing _ _ _ fun _ => rfl,
      issuing _ _ _ fun _ => rfl, issuing _ _ _ fun _ => rfl, issuing _ _ _ fun _ => rfl, issuing _ _ _ fun _ => rfl,
      issuing _ _ _ fun _ => rfl, issuing _ _ _ fun _ => rfl, issuing _ _ _ fun _ => rfl, issuing _ _ _ fun _ => rfl,
      issuing _ _ _ fun _ => rfl, issuing _ _ _ fun _ => rfl, issuing _ _ _ fun _ => rfl, issuing _ _ _ fun _ => rfl,
      issuing _ _ _ fun _ => rfl, issuing _ _ _ fun _ => rfl, fun _ h => absurd h List.not_mem_nil⟩
  exact ⟨fun hmay i hi => (hissuing i hi).idle hb hmay, fun hmay =>
    ⟨fun hword hrsvd i hi => (hissuing i hi).reserved hmay hword hrsvd,
     fun _ hword hok i hi => (hissuing i hi).illegal hmay hword hok,
     fun _ hword hok hclass i hi => (hissuing i hi).other hb hmay hword hok hclass⟩⟩

end Sys2Proof.Machine
end

section
/-! SUPPORT. Operations of the vector unit that work on registers only: elementwise operations, reductions and helpers (O4, O5,
O6). -/
namespace Sys2Proof.Machine

theorem TileMade.addOp {t : TileId} {s u : State} {x : Tile} (h : TileMade t s u x) (c : CtxId) (k : OpKind)
    (sig : Option (Fin 64)) : TileMade t s (u.addOp t.val c k sig)
      { x with ops := x.ops ++ [{ id := x.nextId, ctx := c, kind := k, sig := sig }], nextId := x.nextId + 1 } :=
  h.modTile _

/-- A change of a context that leaves all but its vector registers as they are. -/
def LanesOnly (f : Ctx → Ctx) : Prop := ∀ y, f y = { y with v := (f y).v }

theorem lanesOnly_elementwise (d : Nat) (g : Ctx → Nat → Num) : LanesOnly (fun y => y.elementwise d (g y)) :=
  fun _ => putLanes_frame _ _ _ _

/-- A vector operation that makes f of the registers, and is then in progress on the vector unit. -/
def State.vectorWork (t : TileId) (c : CtxId) (h : Hdr) (f : Ctx → Ctx) (s : State) : State :=
  ((s.modCtx t.val c.val f).addOp t.val c .vector (sigOf h)).advance t.val c.val

/-- A vector operation has run and has made y of its context's registers. -/
def VectorMade (s u : State) (t : TileId) (c : CtxId) (h : Hdr) (y : Ctx) : Prop :=
  VectorRan s u t c h { (s.tile t.val).ctx c.val with v := ((u.tile t.val).ctx c.val).v }
    ∧ ∀ v l, ((u.tile t.val).ctx c.val).lane v l = y.lane v l

section
variable {s w : State} {t : TileId} {c : CtxId} {h : Hdr} {f : Ctx → Ctx}

theorem vectorWork_made (hw : Begun s w t c) (hpc : ((s.tile t.val).ctx c.val).pc < 8191) (hf : LanesOnly f) :
    VectorMade s ((w.vectorWork t c h f).unissue s t.val c.val) t c h (f (s.asIssued t c)) := by
  have hctx : ((w.tile t.val).setCtx c.val (f ((w.tile t.val).ctx c.val))).ctx c.val = f (s.asIssued t c) := by
    rw [Tile.ctx_setCtx_same, hw.ctx]
  have hfpc : (f (s.asIssued t c)).pc = ((s.tile t.val).ctx c.val).pc := by rw [hf]; rfl
  have hmade := ((hw.made.modCtx c.val f).addOp c .vector (sigOf h)).advance (c := c.val) (by
    show (((w.tile t.val).setCtx c.val (f ((w.tile t.val).ctx c.val))).ctx c.val).pc < 8191
    rw [hctx, hfpc]
    exact hpc)
  change TileMade t s (w.vectorWork t c h f) _ at hmade
  generalize w.vectorWork t c h f = u at hmade
  have hlast : (u.tile t.val).ctx c.val = { f (s.asIssued t c) with pc := ((s.tile t.val).ctx c.val).pc + 1 } := by
    rw [hmade.tile, Tile.ctx_setCtx_same, ← hfpc, ← hctx]
    rfl
  rw [unissue_of_issued (by rw [hlast, hf]; rfl)]
  refine ⟨⟨hmade.only, hw.othersKeep hmade fun j hj => ?_, ?_, ?_⟩, fun v l => by rw [hlast]; rfl⟩
  · rw [Tile.ctx_setCtx, if_neg hj]
    exact (Tile.ctx_setCtx _ _ _ _).trans (if_neg hj)
  · rw [hmade.tile, hw.tile]
    rfl
  · rw [hlast, hf]
    rfl

/-- A vector operation waits while the vector unit is not ready for its context, and runs otherwise (R105, R123). -/
theorem onVector_made (hw : Begun s w t c) (hpc : ((s.tile t.val).ctx c.val).pc < 8191) (hf : LanesOnly f) :
    let u := (w.onVector t c (State.vectorWork t c h f)).unissue s t.val c.val
    OnlyTile t s u ∧ if (s.tile t.val).engaged c.val .vector then Waits s u t c (.swap .vector)
      else VectorMade s u t c h (f (s.asIssued t c)) := by
  have hengaged : (w.tile t.val).engaged c.val .vector = (s.tile t.val).engaged c.val .vector := by rw [hw.tile]; rfl
  simp only [State.onVector, hengaged]
  split
  · have hwaits := waits_of_swap hw .vector
    exact ⟨hwaits.1, hwaits⟩
  · have hmade := vectorWork_made (h := h) hw hpc hf
    exact ⟨hmade.1.1, hmade⟩

/-- An elementwise operation writes the lanes of its destination. -/
theorem wroteLanes_of_made {u : State} {d : Fin 32} {g : Nat → Num}
    (hmade : VectorMade s u t c h ((s.asIssued t c).elementwise d g)) : WroteLanes s u t c h d g := by
  obtain ⟨hran, hlane⟩ := hmade
  refine ⟨hran, fun l hl => ?_, fun v l hv hl => ?_⟩
  · rw [hlane, elementwise_lane _ _ _ _ _ hl, if_pos rfl]
  · rw [hlane, elementwise_lane _ _ _ _ _ hl, if_neg hv]
    rfl

/-- What every elementwise operation does. -/
theorem elementwise_issued {i : Instr} {op : Nat} {d : Fin 32} (g : Ctx → Nat → Num) (hb : s.bounded)
    (hi : exec i s = done (s.vec t c op h (fun y => y.elementwise d (g y))))
    (hg : g (s.asIssued t c) = g ((s.tile t.val).ctx c.val)) :
    Issued s t c (1, op) h noLow i (fun u => if (s.tile t.val).engaged c.val .vector then Waits s u t c (.swap .vector)
      else WroteLanes s u t c h d (g ((s.tile t.val).ctx c.val))) :=
  issued_of_only hb hi fun w hw hpc => by
    obtain ⟨honly, hdid⟩ := onVector_made (h := h) hw hpc (lanesOnly_elementwise d g)
    refine ⟨honly, ?_⟩
    split at hdid
    · rwa [if_pos ‹_›]
    · rw [if_neg ‹_›, ← hg]
      exact wroteLanes_of_made hdid

end

/-- Settles O4: all eleven are elementwise. -/
theorem vectorElementwiseWritesLanes : Obligations.VectorElementwiseWritesLanes := by
  intro s t c h d a b e k hb
  exact ⟨elementwise_issued (fun x l => Num.rne (prec h) ((x.val a l).add (x.val b l))) hb rfl rfl,
    elementwise_issued (fun x l => Num.rne (prec h) ((x.val a l).sub (x.val b l))) hb rfl rfl,
    elementwise_issued (fun x l => Num.rne (prec h) ((x.val a l).mul (x.val b l))) hb rfl rfl,
    elementwise_issued (fun x l => Num.rne (prec h) (Num.fma (x.val a l) (x.val b l) (x.val e l))) hb rfl rfl,
    elementwise_issued (fun x l => (x.val a l).max2 (x.val b l)) hb rfl rfl,
    elementwise_issued (fun x l => (x.val a l).min2 (x.val b l)) hb rfl rfl,
    elementwise_issued (fun x l => if cmpHolds k (x.val a l) (x.val b l) then .one else .zero) hb rfl rfl,
    elementwise_issued (fun x l => Num.rne (prec h) ((x.val a l).exp2 (prec h))) hb rfl rfl,
    elementwise_issued (fun x l => Num.rne (prec h) ((x.val a l).log2 (prec h))) hb rfl rfl,
    elementwise_issued (fun x l => Num.rne (prec h) (x.val a l).rsqrt) hb rfl rfl,
    elementwise_issued (fun x l => Num.rne (prec h) (x.val a l).rcp) hb rfl rfl⟩

/-! Reductions (R78, R433). -/

theorem regsOf_eq (n : Nat) : regsOf n = (n + 63) / 64 := rfl

section
variable {s : State} {t : TileId} {c : CtxId} {h : Hdr} {i : Instr} {op n : Nat} {d first : Fin 32} {f : List Num → Num}

/-- A reduction over elements that its registers hold. -/
theorem reduction_issued (hb : s.bounded) (hi : exec i s = done (s.reduceVec t c op h d first n f)) (hone : 1 ≤ n)
    (hmost : n ≤ 2048) (hrange : first.val + (n + 63) / 64 ≤ 32) :
    Issued s t c (1, op) h noLow i (fun u => if (s.tile t.val).engaged c.val .vector then Waits s u t c (.swap .vector)
      else WroteLanes s u t c h d (fun _ => f (((s.tile t.val).ctx c.val).run64 first n))) :=
  issued_of_only hb hi fun w hw hpc => by
    have hok : (n = 0 || 2048 < n || 32 < first.val + regsOf n) = false := by
      have hregs := regsOf_eq n
      simp only [Bool.or_eq_false_iff, decide_eq_false_iff_not]
      omega
    obtain ⟨honly, hdid⟩ := onVector_made (h := h) hw hpc (lanesOnly_elementwise d (fun x _ => f (x.run64 first n)))
    simp only [hok, Bool.false_eq_true, if_false]
    refine ⟨honly, ?_⟩
    split at hdid
    · rwa [if_pos ‹_›]
    · rw [if_neg ‹_›]
      exact wroteLanes_of_made hdid

/-- A reduction over none, over too many or past the last register stops its context. -/
theorem reduction_faults (hi : exec i s = done (s.reduceVec t c op h d first n f))
    (hbad : n = 0 ∨ 2048 < n ∨ 32 < first.val + (n + 63) / 64) :
    Issued s t c (1, op) h noLow i (fun u => Faulted s u t c 1) :=
  issued_of_begun hi fun w hw _ => by
    have hnok : (n = 0 || 2048 < n || 32 < first.val + regsOf n) = true := by
      have hregs := regsOf_eq n
      simp only [Bool.or_eq_true, decide_eq_true_eq]
      omega
    obtain ⟨u, hu, hfault, -⟩ := faulted_of_begun hw 1
    simp only [hnok, if_true]
    exact ⟨u, hu, hfault⟩

end

theorem Issued.imp {s : State} {t : TileId} {c : CtxId} {k : OpCode} {h : Hdr} {m : Low} {i : Instr} {P Q : State → Prop}
    (hi : Issued s t c k h m i P) (hPQ : ∀ u, P u → Q u) : Issued s t c k h m i Q := fun hm =>
  have ⟨u, hu, hP⟩ := hi hm
  ⟨u, hu, hPQ u hP⟩

/-- Settles O5: a reduction within range, which waits for the vector unit or runs, and one out of range. -/
theorem vectorReductionsWriteOneValue : Obligations.VectorReductionsWriteOneValue := by
  intro s t c h d first n hb
  refine ⟨fun hone hmost hrange => ⟨fun hfree => ?_, fun hengaged => ?_⟩, fun hbad => ?_⟩
  · have hran {i : Instr} {op : Nat} {f : List Num → Num} (hi : exec i s = done (s.reduceVec t c op h d first n.toNat f)) :=
      (reduction_issued hb hi hone hmost hrange).imp fun u hu => And.intro trivial ((if_neg (by simp [hfree])).mp hu)
    exact ⟨hran rfl, hran rfl, hran rfl⟩
  · have hwaits {i : Instr} {op : Nat} {f : List Num → Num} (hi : exec i s = done (s.reduceVec t c op h d first n.toNat f)) :=
      (reduction_issued hb hi hone hmost hrange).imp fun u hu => And.intro ((if_pos hengaged).mp hu) trivial
    exact ⟨hwaits rfl, hwaits rfl, hwaits rfl⟩
  · have hfaults {i : Instr} {op : Nat} {f : List Num → Num} (hi : exec i s = done (s.reduceVec t c op h d first n.toNat f)) :=
      (reduction_faults hi hbad).imp fun u hu => And.intro hu trivial
    exact ⟨hfaults rfl, hfaults rfl, hfaults rfl⟩

end Sys2Proof.Machine
end

section
/-! SUPPORT. The helpers NSTAT, NAPPLY and SMAX (O6). -/
namespace Sys2Proof.Machine

theorem lanesOnly_elementwise_twice (d e : Nat) (g k : Ctx → Nat → Num) :
    LanesOnly (fun y => (y.elementwise d (g y)).elementwise e (k y)) := fun y =>
  (putLanes_frame _ _ _ _).trans
    (congrArg (fun z : Ctx => { z with v := ((y.elementwise d (g y)).elementwise e (k y)).v }) (putLanes_frame y d lanes (g y)))

/-! A run of elements in consecutive registers (R433). -/

theorem putRun_concat (y : Ctx) (first : Nat) (xs : List Num) (x : Num) :
    y.putRun first (xs ++ [x]) = (y.putRun first xs).setVal (first + xs.length / 64) (xs.length % 64) x := by
  simp only [Ctx.putRun, List.length_append, List.length_singleton, List.range_succ]
  rw [List.zip_append (by simp), List.foldl_append]
  rfl

theorem lanesOnly_putRun (first : Nat) (g : Ctx → List Num) : LanesOnly (fun y => y.putRun first (g y)) := fun y => by
  show y.putRun first (g y) = { y with v := (y.putRun first (g y)).v }
  induction g y using List.reverseRecOn with
  | nil => rfl
  | append_singleton xs x ih => rw [putRun_concat, Ctx.setVal, Ctx.setLane, ih]

/-- The elements of a run go to consecutive lanes, and no other lane changes. -/
theorem putRun_lane (y : Ctx) (first : Nat) (xs : List Num) (v : Nat) {l : Nat} (hl : l < 64) :
    (y.putRun first xs).lane v l = if first ≤ v ∧ (v - first) * 64 + l < xs.length
      then Fmt.w40.encode .nearestEven (xs.getD ((v - first) * 64 + l) .zero) else y.lane v l := by
  induction xs using List.reverseRecOn with
  | nil => simp [Ctx.putRun]
  | append_singleton xs x ih =>
    rw [putRun_concat, Ctx.setVal, Ctx.lane_setLane, ih, List.length_append, List.length_singleton]
    by_cases hlast : first ≤ v ∧ (v - first) * 64 + l = xs.length
    · obtain ⟨hv, hlen⟩ := hlast
      rw [if_pos (by omega), if_pos (by omega), hlen]
      simp
    · rw [if_neg (by omega)]
      by_cases hin : first ≤ v ∧ (v - first) * 64 + l < xs.length
      · rw [if_pos hin, if_pos (by omega), List.getD_append _ _ _ _ hin.2]
      · rw [if_neg hin, if_neg (by omega)]

theorem run64_length (y : Ctx) (first n : Nat) : (y.run64 first n).length = n := by simp [Ctx.run64]

theorem napply_length (p : Fmt) (mu r : Nat → Num) {xs gs bs : List Num} {n : Nat} (hx : xs.length = n) (hg : gs.length = n)
    (hb : bs.length = n) : (napply p mu r xs gs bs).length = n := by simp [napply, hx, hg, hb]

theorem smax_length (p : Fmt) (xs : List Num) : (smax p xs).length = xs.length := by simp [smax]

/-! What a helper does. -/

/-- N values stand in the lanes from a first register on, and every other lane is as in y. -/
def WroteRun (s u : State) (t : TileId) (c : CtxId) (first n : Nat) (ys : List Num) : Prop :=
  (∀ i, i < n → ((u.tile t.val).ctx c.val).lane (first + i / 64) (i % 64) = Fmt.w40.encode .nearestEven (ys.getD i .zero))
    ∧ ∀ v l, l < 64 → ¬(first ≤ v ∧ (v - first) * 64 + l < n) →
        ((u.tile t.val).ctx c.val).lane v l = ((s.tile t.val).ctx c.val).lane v l

section
variable {s : State} {t : TileId} {c : CtxId} {h : Hdr} {i : Instr} {op a : Nat} {m : Low} {uses : HelperUse} {d : Helper}
  {f : Helper → Ctx → Ctx}

/-- A helper whose descriptor can be read and is legal. -/
theorem helper_made (hb : s.bounded) (haddr : descAddrOk a = true) (hclean : (s.mem (.sram t)).errs = [])
    (hfree : (s.tile t.val).engaged c.val .vector = false) (hd : helperOf uses (s.bytes (.sram t) a 32) = some d)
    (hi : exec i s = done (s.helper t c op h m uses a f)) (hf : LanesOnly (f d)) :
    Issued s t c (1, op) h m i (fun u => VectorMade s u t c h (f d (s.asIssued t c))) :=
  issued_of_only hb hi fun w hw hpc => by
    have hwclean : (w.mem (.sram t)).errs = [] := by rw [hw.ofState (State.mem · (.sram t)) (fun _ _ => rfl), hclean]
    obtain ⟨honly, hdid⟩ := onVector_made (h := h) hw hpc hf
    simp only [haddr, State.touch_clean hwclean, State.anyMarked_clean hwclean, hw.bytes, hd, Bool.not_true, Bool.false_eq_true,
      if_false]
    exact ⟨honly, (if_neg (by simp [hfree])).mp hdid⟩

theorem wroteRun_of_made {u : State} {first n : Nat} {ys : List Num}
    (hmade : VectorMade s u t c h ((s.asIssued t c).putRun first ys)) (hn : ys.length = n) : WroteRun s u t c first n ys := by
  obtain ⟨-, hlane⟩ := hmade
  refine ⟨fun i hi => ?_, fun v l hl hout => ?_⟩
  · have hindex : (first + i / 64 - first) * 64 + i % 64 = i := by omega
    rw [hlane, putRun_lane _ _ _ _ (by omega), hindex, if_pos ⟨by omega, by omega⟩]
  · rw [hlane, putRun_lane _ _ _ _ hl, hn, if_neg hout]
    rfl

end

/-- Settles O6: NSTAT writes two registers in turn, the others a run. -/
theorem vectorHelpersFollowTheirDescriptor : Obligations.VectorHelpersFollowTheirDescriptor := by
  intro s t c h rms desc d hb haddr hclean hfree x
  have hasIssued (v l : Nat) : (s.asIssued t c).lane v l = x.lane v l := rfl
  refine ⟨fun hd => ?_, fun hd => ?_, fun hd => ?_⟩
  · refine (helper_made hb haddr hclean hfree hd rfl fun y => ?_).imp fun u hu => ⟨hu.1, fun v l hl => ?_⟩
    · exact lanesOnly_elementwise_twice d.mu (d.mu + 1)
        (fun y _ => (nstat (prec h) rms (Fmt.a32.decode d.eps) (y.run64 d.x d.n)).1)
        (fun y _ => (nstat (prec h) rms (Fmt.a32.decode d.eps) (y.run64 d.x d.n)).2) y
    · refine (hu.2 v l).trans ?_
      rw [elementwise_lane _ _ _ _ _ hl, elementwise_lane _ _ _ _ _ hl, hasIssued]
      by_cases hmu : v = d.mu
      · rw [if_neg (by omega), if_pos hmu, if_pos hmu]
        rfl
      · rw [if_neg hmu, if_neg hmu]
        rfl
  · exact (helper_made hb haddr hclean hfree hd rfl (lanesOnly_putRun _ _)).imp fun u hu =>
      ⟨hu.1, wroteRun_of_made hu (napply_length _ _ _ (run64_length _ _ _) (run64_length _ _ _) (run64_length _ _ _))⟩
  · exact (helper_made hb haddr hclean hfree hd rfl (lanesOnly_putRun _ _)).imp fun u hu =>
      ⟨hu.1, wroteRun_of_made hu ((smax_length _ _).trans (run64_length _ _ _))⟩

end Sys2Proof.Machine
end

section
/-! SUPPORT. How operations, transfers and waits end, and how late operations halt, are suspended and go on (O19). -/
namespace Sys2Proof.Machine

/-- An instruction whose outcome changes its tile only. -/
theorem gives_of_only {s u : State} {t : TileId} {i : Instr} {P : State → Prop} (hb : s.bounded) (hi : exec i s = done u)
    (hu : OnlyTile t s u) (hP : P u) : Gives i s P := ⟨u, hi.trans (done_bounded (only_bounded hb hu)), hP⟩

/-- A MOVE that waits for its bound data (R123). -/
def OpKind.IsMove (k : OpKind) : Prop := ∃ a b r q, k = .move a b r q

/-! Completion (R105, R116, R121). -/

/-- The vector unit completes the operations of a context in program order. -/
theorem opDone_iff (x : Tile) (o : Op) : x.opDone o = true ↔ o.kind.steps ≤ o.pos ∧ ¬o.kind.IsMove
    ∧ (o.kind.isVector = true → ∀ p ∈ x.ops, p.id < o.id → p.ctx = o.ctx → p.kind.isVector = false) := by
  obtain ⟨id, ctx, kind, sig, pos, from', late, pepper⟩ := o
  cases kind <;> simp [Tile.opDone, Op.ran, OpKind.IsMove, OpKind.isVector]

section
variable {s : State} {t : TileId} {o : Op}

/-- No slot counts an untagged write: its end reports nothing (R82). -/
theorem endWrite_untagged (s : State) (t : Nat) : s.endWrite t 0 = s := by
  have hslots : s.histSlots t 0 = [] := by simp [State.histSlots, below]
  simp only [State.endWrite, hslots, List.filterMap_nil]

/-- An operation whose write carries no tag. -/
def Op.Untagged (o : Op) : Prop :=
  (∀ a d pass part, o.kind = .drain a d pass part → d.tag = 0)
    ∧ ∀ d bs ms r, o.kind = .vectorSt d bs ms (some r) → r.tag = 0

/-- An operation that completes leaves the operations in progress and signals. -/
theorem completeOp_untagged (ho : o.Untagged) : s.completeOp t o
    = (s.modTile t.val (fun x => { x with ops := x.ops.filter (fun p => p.id != o.id) })).signal t.val o.sig := by
  obtain ⟨hdrain, hstore⟩ := ho
  unfold State.completeOp
  cases hk : o.kind with
  | drain a d pass part => simp only [hdrain a d pass part hk, endWrite_untagged]
  | vectorSt d bs ms r =>
    cases r with
    | none => rfl
    | some r => simp only [hstore d bs ms r hk, endWrite_untagged]
  | _ => rfl

theorem completeOp_made (ho : o.Untagged) : TileMade t s (s.completeOp t o)
    { s.tile t.val with ops := (s.tile t.val).ops.filter (fun p => p.id != o.id),
                        incs := (s.tile t.val).incs ++ s.owed t o.sig } := by
  rw [completeOp_untagged ho]
  exact ((TileMade.refl t s).modTile _).signal o.sig

/-- A transfer that completes leaves its queue, and signals unless a packet of it was refused (R146). -/
theorem completeXfer_made {q : Nat} {z : Xfer} (hdone : s.xferDone t.val z = true) :
    TileMade t s (s.completeXfer t q z)
      { (s.tile t.val).setQueue q { (s.tile t.val).queue q with
          xfers := ((s.tile t.val).queue q).xfers.filter (fun w => w.id != z.id), done := ((s.tile t.val).queue q).done + 1 } with
        incs := if z.refused then (s.tile t.val).incs else (s.tile t.val).incs ++ s.owed t z.sig } := by
  have hmade := (TileMade.refl t s).modTile (fun x => x.setQueue q { x.queue q with
    xfers := (x.queue q).xfers.filter (fun w => w.id != z.id), done := (x.queue q).done + 1 })
  simp only [State.completeXfer, hdone, Bool.not_true, Bool.false_eq_true, if_false]
  split
  · exact hmade
  · exact hmade.signal z.sig

section
variable (hclock : (s.region (regionOf t.val)).clocked = true) (hreset : s.inReset t.val = false)
include hclock hreset

theorem operationComplete_of_op {id : Nat} (ho : (s.tile t.val).ops.find? (fun p => p.id = id) = some o) :
    exec (.operationComplete t id) s = done (if (s.tile t.val).opDone o then s.completeOp t o else s) := by
  simp only [exec, execOperationComplete, hclock, hreset, ho, Bool.not_true, Bool.or_self, Bool.false_eq_true, if_false]

theorem operationComplete_of_xfer {id q : Nat} {z : Xfer} (ho : (s.tile t.val).ops.find? (fun p => p.id = id) = none)
    (hz : (s.tile t.val).heads.find? (fun w => w.2.id = id && w.2.phase != .waiting) = some (q, z)) :
    exec (.operationComplete t id) s = done (s.completeXfer t q z) := by
  simp only [exec, execOperationComplete, hclock, hreset, ho, hz, Bool.not_true, Bool.or_self, Bool.false_eq_true, if_false]

end

/-! The timeout of a wait (R128). -/

/-- A wait that a timeout ends. -/
def Wait.timesOut : Wait → Bool
  | .counter .. | .sem _ | .fence _ | .verdict _ => true
  | _ => false

theorem syncTimeout_eq {c : CtxId} {w : Wait} {since : Nat} (hrun : ((s.tile t.val).ctx c.val).run = .waiting w since)
    (hw : w.timesOut = true) (hclock : (s.region (regionOf t.val)).clocked = true) :
    exec (.syncTimeout t c) s = done (
      if expired since (s.coreOf t.val) ((s.tile t.val).ctx c.val).tmo.toNat then
        s.modTile t.val (fun x => { x.modCtx c.val (fun y => endWait y 1) with semq := x.semq.filter (fun e => e.2 != c.val) })
      else s) := by
  simp only [exec, execSyncTimeout, hrun, hclock, Bool.and_true]
  cases w <;> simp_all [Wait.timesOut]

theorem timesOut_of {w : Wait} {ctr : Fin 64} {n : BitVec 32} {q : Nat} {m : Fin 16}
    (hw : w = .counter ctr n ∨ w = .sem m ∨ w = .fence q ∨ w = .verdict n) : w.timesOut = true := by
  rcases hw with rfl | rfl | rfl | rfl <;> rfl

theorem expired_iff {since now : Nat} {tmo : BitVec 32} (htmo : tmo ≠ 0) :
    expired since now tmo.toNat = true ↔ since + tmo.toNat < now := by
  have hne : tmo.toNat ≠ 0 := fun h => htmo (BitVec.eq_of_toNat_eq h)
  simp [expired, hne]

/-! Late operations (R123). -/

/-- Where an operation has a number of its own, a change by its number is a change of itself alone. -/
theorem modOp_ops (x : Tile) (f : Op → Op) (huniq : ∀ p ∈ x.ops, p.id = o.id → p = o) :
    (x.modOp o.id f).ops = x.ops.map (fun p => if p.id = o.id then f o else p) :=
  List.map_congr_left fun p hp => by
    split
    · next h => rw [huniq p hp h]
    · rfl

/-- An operation with a number of its own is found by it. -/
theorem find_op {ops : List Op} (ho : o ∈ ops) (huniq : ∀ p ∈ ops, p.id = o.id → p = o) :
    ops.find? (fun p => p.id = o.id) = some o := by
  cases hfind : ops.find? (fun p => p.id = o.id) with
  | none => simpa using List.find?_eq_none.1 hfind o ho
  | some p => rw [huniq p (List.mem_of_find?_eq_some hfind) (by simpa using List.find?_some hfind)]

/-- Operation o has become late, and no other has changed; whichever generators it has are its own. -/
def Lated (x y : Tile) (o : Op) (l : Late) : Prop :=
  ∃ pepper, y.ops = x.ops.map (fun p => if p.id = o.id then { o with late := l, pepper := pepper } else p)

theorem Lated.ops {x y : Tile} {l : Late} (h : Lated x y o l) (ho : o ∈ x.ops) (huniq : ∀ p ∈ x.ops, p.id = o.id → p = o) :
    y.ops = x.ops.map (fun p =>
      if p.id = o.id then { p with late := l, pepper := (y.ops.find? (fun p => p.id = o.id)).bind (·.pepper) } else p) := by
  obtain ⟨pepper, hy⟩ := h
  have hkept : (y.ops.find? (fun p => p.id = o.id)).bind (·.pepper) = pepper := by
    have hid (p : Op) : (if p.id = o.id then { o with late := l, pepper := pepper } else p).id = p.id := by
      split
      · next hp => exact hp.symm
      · rfl
    rw [hy, List.find?_map]
    simp only [Function.comp_def, hid, find_op ho huniq]
    simp
  rw [hkept, hy]
  refine List.map_congr_left fun p hp => ?_
  split
  · next h => rw [huniq p hp h]
  · rfl

/-- A pass that is suspended keeps its generators; no more changes than its array and the operation itself (R74, R123). -/
theorem forkPass_made (s : State) (t : TileId) (o : Op) (huniq : ∀ p ∈ (s.tile t.val).ops, p.id = o.id → p = o) :
    ∃ x pepper, TileMade t s (s.forkPass t.val o) x ∧ (∀ i b n, (s.forkPass t.val o).count i b n = s.count i b n)
      ∧ x.ops = (s.tile t.val).ops.map (fun p => if p.id = o.id then { o with pepper := pepper } else p) := by
  have hsame : (s.tile t.val).ops.map (fun p => if p.id = o.id then { o with pepper := o.pepper } else p)
      = (s.tile t.val).ops :=
    (List.map_congr_left fun p hp => by
      split
      · next h => exact (huniq p hp h).symm
      · rfl).trans (List.map_id _)
  have hkeep : ∃ x pepper, TileMade t s s x ∧ (∀ i b n, s.count i b n = s.count i b n)
      ∧ x.ops = (s.tile t.val).ops.map (fun p => if p.id = o.id then { o with pepper := pepper } else p) :=
    ⟨_, o.pepper, TileMade.refl t s, fun _ _ _ => rfl, hsame.symm⟩
  unfold State.forkPass
  split
  · split
    · exact hkeep
    · exact ⟨_, _, (TileMade.refl t s).modTile _, fun _ _ _ => rfl, modOp_ops _ _ huniq⟩
  · exact hkeep

theorem setLate_suspended {q : Nat} (huniq : ∀ p ∈ (s.tile t.val).ops, p.id = o.id → p = o)
    (hclass : s.obj 0x5100 (0x21 + q) t.val = 1) : Lated (s.tile t.val) ((s.setLate t o q).tile t.val) o (.suspended q) := by
  obtain ⟨x, pepper, hx, -, hops⟩ := forkPass_made s t o huniq
  refine ⟨pepper, ?_⟩
  simp only [State.setLate, hclass, if_true]
  have hmade := hx.modTile (fun x =>
    (x.modOp o.id (fun o => { o with late := .suspended q })).switch o.kind (s.coreOf t.val + 3))
  refine (congrArg Tile.ops hmade.tile).trans ?_
  show x.ops.map (fun p => if p.id = o.id then { p with late := .suspended q } else p) = _
  rw [hops, List.map_map]
  refine List.map_congr_left fun p _ => ?_
  simp only [Function.comp_apply]
  by_cases hp : p.id = o.id
  · simp [hp]
  · simp [hp]

theorem setLate_counts {q : Nat} (hclass : s.obj 0x5100 (0x21 + q) t.val = 1) :
    (s.setLate t o q).count 0x7200 0x10 t.val = s.count 0x7200 0x10 t.val + 1 := by
  have hfork (i b n : Nat) : (s.forkPass t.val o).count i b n = s.count i b n := by
    unfold State.forkPass
    split
    · split <;> rfl
    · rfl
  simp only [State.setLate, hclass, if_true, State.count_bump_same, State.modTile_eq, State.count_setTile, hfork]

theorem setLate_halted {q : Nat} (hclass : s.obj 0x5100 (0x21 + q) t.val ≠ 1) :
    TileMade t s (s.setLate t o q) ((s.tile t.val).modOp o.id (fun o => { o with late := .halted q })) := by
  simp only [State.setLate, hclass, if_false]
  exact (TileMade.refl t s).modTile _

theorem lated_of_modOp {x : Tile} {l : Late} (huniq : ∀ p ∈ x.ops, p.id = o.id → p = o) :
    Lated x (x.modOp o.id (fun o => { o with late := l })) o l := ⟨o.pepper, modOp_ops x _ huniq⟩

/-- An operation whose next data has not arrived becomes late (R123). -/
theorem checkOp_setLate {q : Nat} (hlate : o.late = .no) (hq : (s.tile t.val).lateOn o = some q)
    (hhead : (s.tile t.val).atHead o = true) (hran : o.ran = false ∨ o.kind.IsMove) : s.checkOp t o = s.setLate t o q := by
  unfold State.checkOp
  rcases hran with hran | ⟨a, b, r, k, hk⟩
  · simp only [hran, hhead, hlate, hq, Bool.false_and, Bool.not_true, Bool.or_self, Bool.false_eq_true, if_false]
  · simp only [hk, hhead, hlate, hq, Bool.not_true, Bool.and_false, Bool.or_self, Bool.false_eq_true, if_false]

/-- A context with a late operation issues nothing. -/
theorem not_ready_of_lateOp {c : Nat} (h : (s.tile t.val).lateOp c ≠ none) : s.ready t.val c = false := by
  cases hlate : (s.tile t.val).lateOp c with
  | none => exact absurd hlate h
  | some p => simp [State.ready, hlate]

section
variable {c : CtxId} {q : Nat}

theorem suspendedContextResume_eq (hexec : s.executes t.val = true) (ho : (s.tile t.val).lateOp c.val = some o)
    (hlate : o.late = .suspended q) : exec (.suspendedContextResume t c) s
      = done (if (s.tile t.val).lateOn o = none then s.unlate t o else s) := by
  simp only [exec, execSuspendedContextResume, hexec, ho, hlate, Bool.not_true, Bool.false_eq_true, if_false]
  cases (s.tile t.val).lateOn o <;> rfl

/-- A suspended operation goes on, and takes its engine back by a switch. -/
theorem unlate_suspended (hmove : ¬o.kind.IsMove) (hlate : o.late = .suspended q) : TileMade t s (s.unlate t o)
    (((s.tile t.val).modOp o.id (fun o => { o with late := .no })).switch o.kind (s.coreOf t.val + 2)) := by
  unfold State.unlate
  split
  · next a b r k hk => exact absurd ⟨a, b, r, k, hk⟩ hmove
  · rw [hlate]
    exact (TileMade.refl t s).modTile _

end

end

/-- Settles O19: completion, arrival, timeout, the check of an operation and its resumption are a lemma each. -/
theorem completionsAndWakeups : Obligations.CompletionsAndWakeups := by
  intro s t c o n ctr q z w since hb hclock hreset x y isMove
  refine ⟨opDone_iff x o, fun ho => ⟨fun hdone hdrain hstore => ?_, fun hnot => ?_⟩,
    fun ho hz => ⟨fun hdone => ?_, fun hnot => ?_⟩, ?_, fun hrun hw htmo => ⟨fun hlate => ?_, fun hopen => ?_⟩,
    fun hlate hq hhead hmem hran => ⟨fun hclass => ?_, fun hclass => ?_⟩,
    not_ready_of_lateOp, fun hexec ho hlate => ⟨fun hthere hmove => ?_, fun hnot => ?_⟩⟩
  · have hmade := completeOp_made (s := s) (t := t) ⟨hdrain, hstore⟩
    exact gives_of_only hb ((operationComplete_of_op hclock hreset ho).trans (congrArg done (if_pos hdone))) hmade.only
      ⟨hmade.only, hmade.tile⟩
  · have hnotDone : ¬(s.tile t.val).opDone o = true := fun h => Bool.false_ne_true (hnot.symm.trans h)
    rw [operationComplete_of_op hclock hreset ho, if_neg hnotDone]
    exact done_bounded hb
  · have hmade := completeXfer_made (q := q) hdone
    refine gives_of_only hb (operationComplete_of_xfer hclock hreset ho hz) hmade.only ⟨hmade.only, ?_, ?_, fun j hj => ?_⟩
    · rw [hmade.tile]; rfl
    · rw [hmade.tile]; exact Tile.queue_setQueue_same _ _ _
    · rw [hmade.tile]; exact (Tile.queue_setQueue _ _ _ _).trans (if_neg hj)
  · rw [operationComplete_of_xfer hclock hreset ho hz]
    simp only [State.completeXfer, hnot, Bool.not_false, if_true]
    exact done_bounded hb
  · have hmade := ((TileMade.refl t s).modTile (fun x => { x with inbox := dropCounterMsgs ctr n.toNat x.inbox })).modTile
      (fun x => { x with incs := x.incs ++ [(ctr, n, s.coreOf t.val + 1)] })
    refine gives_of_only hb ?_ hmade.only ⟨hmade.only, hmade.tile⟩
    simp only [exec, execCounterIncrementArrival, hreset, Bool.false_eq_true, if_false]
    rfl
  · have hmade := (TileMade.refl t s).modTile
      (fun x => { x.modCtx c.val (fun y => endWait y 1) with semq := x.semq.filter (fun e => e.2 != c.val) })
    refine gives_of_only hb ((syncTimeout_eq hrun (timesOut_of hw) hclock).trans
      (congrArg done (if_pos ((expired_iff htmo).2 hlate)))) hmade.only ⟨hmade.only, ?_, ?_, fun j hj => ?_⟩
    · rw [hmade.tile]; rfl
    · rw [hmade.tile]; exact Tile.ctx_setCtx_same _ _ _
    · rw [hmade.tile]; exact (Tile.ctx_setCtx _ _ _ _).trans (if_neg hj)
  · have hnot : ¬expired since (s.coreOf t.val) y.tmo.toNat = true := fun h => absurd ((expired_iff htmo).1 h) (by omega)
    rw [syncTimeout_eq hrun (timesOut_of hw) hclock, if_neg hnot]
    exact done_bounded hb
  · rw [checkOp_setLate hlate hq hhead hran]
    exact ⟨fun huniq => (setLate_suspended huniq hclass).ops hmem huniq, setLate_counts hclass⟩
  · have hmade := setLate_halted (o := o) hclass
    rw [checkOp_setLate hlate hq hhead hran]
    refine ⟨fun huniq => ?_, hmade.only, ?_⟩
    · rw [hmade.tile]
      exact (lated_of_modOp huniq).ops hmem huniq
    · rw [hmade.tile]; rfl
  · have hmade := unlate_suspended (s := s) (t := t) hmove hlate
    exact gives_of_only hb ((suspendedContextResume_eq hexec ho hlate).trans (congrArg done (if_pos hthere))) hmade.only
      ⟨hmade.only, hmade.tile⟩
  · rw [suspendedContextResume_eq hexec ho hlate, if_neg hnot]
    exact done_bounded hb

end Sys2Proof.Machine
end

section
/-! SUPPORT. Loads and stores of the vector unit: how they begin, and what their steps do (O7). -/
namespace Sys2Proof.Machine

/-! How they begin (R104, R119, R435). -/

theorem joined_ctxs (x : Tile) (c : CtxId) (k : OpKind) (sig : Option (Fin 64)) (d : Desc) (n : Nat) :
    (x.joined c k sig d n).ctxs = x.ctxs := by
  unfold Tile.joined Tile.bindTo
  cases d.bound <;> rfl

section
variable {s w : State} {t : TileId} {c : CtxId} {h : Hdr} {desc : BitVec 32} {d : Desc} {v : Fin 32}

/-- An operation whose operand may be bound begins, once it has changed its context. -/
theorem opBegun_of_modCtx (hw : Begun s w t c) (hpc : ((s.tile t.val).ctx c.val).pc < 8191) (f : Ctx → Ctx)
    (hf : ∀ y, (f y).pc = y.pc ∧ (f y).run = y.run) (k : OpKind) (n : Nat) :
    OpBegun s ((((w.modCtx t.val c.val f).addBound t.val c k (sigOf h) d n).advance t.val c.val).unissue s t.val c.val) t c
      (s.opIssued t c h k d) ((s.issuedTile t c).bindTo d n) (f (s.asIssued t c)) := by
  obtain ⟨hfpc, hfrun⟩ := hf (s.asIssued t c)
  have hbase := hw.made.modCtx c.val f
  have hjoined := hbase.setTile (((w.tile t.val).setCtx c.val (f ((w.tile t.val).ctx c.val))).joined c k (sigOf h) d n)
  rw [← hbase.tile, ← addBound_eq, hbase.tile, hw.ctx] at hjoined
  have hctx (j : Nat) : (((w.tile t.val).setCtx c.val (f (s.asIssued t c))).joined c k (sigOf h) d n).ctx j
      = ((w.tile t.val).setCtx c.val (f (s.asIssued t c))).ctx j := by rw [Tile.ctx, joined_ctxs, Tile.ctx]
  have hmade := hjoined.advance (c := c.val) (by
    rw [hctx, Tile.ctx_setCtx_same, hfpc]
    exact hpc)
  generalize ((w.modCtx t.val c.val f).addBound t.val c k (sigOf h) d n).advance t.val c.val = u at hmade ⊢
  have hlast : (u.tile t.val).ctx c.val = { f (s.asIssued t c) with pc := ((s.tile t.val).ctx c.val).pc + 1 } := by
    rw [hmade.tile, Tile.ctx_setCtx_same, hctx, Tile.ctx_setCtx_same, hfpc]
    rfl
  rw [unissue_of_issued (by rw [hlast]; show (f (s.asIssued t c)).run.unissued = false; rw [hfrun]; rfl)]
  refine ⟨hmade.only, hw.othersKeep hmade fun j hj => ?_, ?_, ?_⟩
  · rw [Tile.ctx_setCtx, if_neg hj, hctx, Tile.ctx_setCtx, if_neg hj]
  · rw [hmade.tile, hw.tile]
    unfold Tile.joined Tile.bindTo State.opIssued
    cases d.bound <;> rfl
  · rw [hlast, ← show (f (s.asIssued t c)).run = .ready from hfrun]

theorem Begun.engaged (hw : Begun s w t c) : (w.tile t.val).engaged c.val .vector = (s.tile t.val).engaged c.val .vector := by
  rw [hw.tile]
  rfl

theorem vectorLd_begun (hb : s.bounded) (hd : s.hasDesc t desc.toNat d) (hok : d.vecFault = false)
    (hfree : (s.tile t.val).engaged c.val .vector = false) :
    Issued s t c (1, 0) h (lowOp desc) (.vectorLd t c h v desc) (fun u =>
      OpBegun s u t c (s.opIssued t c h (.vectorLd v (bitOf h.unit.toNat 2) d) d) ((s.issuedTile t c).bindTo d 1)
        (s.asIssued t c)) :=
  issued_of_only hb rfl fun w hw hpc => by
    simp only [withDesc_of_hasDesc (hw.hasDesc hd), hok, State.onVector, hw.engaged, hfree, Bool.false_eq_true, if_false,
      addBound_eq]
    have harrays : (w.tile t.val).arrays = (s.issuedTile t c).arrays := hw.field Tile.arrays (fun _ _ _ _ => rfl) _
    have hbegun := opBegun_of_joined hw hpc (x := w.tile t.val) rfl h (.vectorLd v (bitOf h.unit.toNat 2) d) d 1
    rw [harrays] at hbegun
    exact ⟨hbegun.1, hbegun⟩

/-- A load or store waits while the vector unit is not ready for its context. -/
theorem vectorLd_waits (hb : s.bounded) (hd : s.hasDesc t desc.toNat d) (hok : d.vecFault = false)
    (hengaged : (s.tile t.val).engaged c.val .vector = true) :
    Issued s t c (1, 0) h (lowOp desc) (.vectorLd t c h v desc) (fun u => Waits s u t c (.swap .vector)) :=
  issued_of_only hb rfl fun w hw _ => by
    have hwaits := waits_of_swap hw .vector
    simp only [withDesc_of_hasDesc (hw.hasDesc hd), hok, State.onVector, hw.engaged, hengaged, Bool.false_eq_true, if_false,
      if_true]
    exact ⟨hwaits.1, hwaits⟩

theorem vectorSt_waits (hb : s.bounded) (hd : s.hasDesc t desc.toNat d) (hok : d.vecFault = false)
    (hengaged : (s.tile t.val).engaged c.val .vector = true) :
    Issued s t c (1, 1) h (lowOp desc) (.vectorSt t c h v desc) (fun u => Waits s u t c (.swap .vector)) :=
  issued_of_only hb rfl fun w hw _ => by
    have hwaits := waits_of_swap hw .vector
    simp only [withDesc_of_hasDesc (hw.hasDesc hd), hok, State.onVector, hw.engaged, hengaged, Bool.false_eq_true, if_false,
      if_true]
    exact ⟨hwaits.1, hwaits⟩

/-- What a store of values into a result with block scale leaves in the assembly buffer, where it holds asm (R436). -/
def Ctx.placed (z : Ctx) (d : Desc) (f : Fmt) (asm : List Assembly) (xs : List ((Nat × Nat) × Num)) : Ctx :=
  if d.bs then { z with asm := keepOpen d (formReady f d asm xs).2.1 (formReady f d asm xs).2.2 } else z

/-- What an untagged store then writes. -/
def storeKind (d : Desc) (f : Fmt) (asm : List Assembly) (xs : List ((Nat × Nat) × Num)) : OpKind :=
  if d.bs then .vectorSt d (formReady f d asm xs).1 [] none else .vectorSt d [] (formDirect f xs) none

/-- An untagged store by a context with no open run of stores begins no run (R82). -/
theorem placeSt_untagged {f : Fmt} {y : Ctx} (hy : (w.tile t.val).ctx c.val = y) (htag : d.tag = 0) (hstore : y.store = none)
    (hf : Fmt.ofCode d.fmt = some f) :
    w.placeSt t c h v d
      = (w.modCtx t.val c.val (fun z => z.placed d f y.asm (storeVals y (prec h) d v))).addBound t.val c
          (storeKind d f y.asm (storeVals y (prec h) d v)) (sigOf h) d 1 := by
  have hrun : w.storeRun t.val c.val d = w := by
    simp only [State.storeRun, hy, hstore, State.endRun, htag, reduceCtorEq, if_false, if_true]
  simp only [State.placeSt, hrun, hy, hf, htag, storeKind, Ctx.placed, bne_self_eq_false, Bool.and_false, Bool.false_eq_true,
    if_false, Option.isSome_none]

theorem vectorSt_begun {f : Fmt} (hb : s.bounded) (hd : s.hasDesc t desc.toNat d) (hok : d.vecFault = false)
    (hfree : (s.tile t.val).engaged c.val .vector = false) (htag : d.tag = 0) (hstore : (s.asIssued t c).store = none)
    (hf : Fmt.ofCode d.fmt = some f)
    (hroom : (s.tile t.val).asmFull c.val d (d.groupLanes.map (fun j => (d.first, 64 * d.second + j))) = false) :
    Issued s t c (1, 1) h (lowOp desc) (.vectorSt t c h v desc) (fun u =>
      let y := s.asIssued t c
      let xs := storeVals y (prec h) d v
      OpBegun s u t c (s.opIssued t c h (storeKind d f y.asm xs) d) ((s.issuedTile t c).bindTo d 1) (y.placed d f y.asm xs)) :=
  issued_of_only hb rfl fun w hw hpc => by
    have hwroom := hroom
    rw [← asmFull_congr (hw.field Tile.ops (fun _ _ _ _ => rfl) t.val)
      (show ((w.tile t.val).ctx c.val).asm = _ by rw [hw.ctx]; rfl)] at hwroom
    simp only [withDesc_of_hasDesc (hw.hasDesc hd), hok, State.onVector, hw.engaged, hfree, hwroom, Bool.false_eq_true, if_false,
      placeSt_untagged hw.ctx htag hstore hf]
    generalize storeVals (s.asIssued t c) (prec h) d v = xs
    have hbegun := opBegun_of_modCtx (h := h) (d := d) hw hpc (fun z => z.placed d f (s.asIssued t c).asm xs)
      (fun y => by unfold Ctx.placed; split <;> exact ⟨rfl, rfl⟩) (storeKind d f (s.asIssued t c).asm xs) 1
    exact ⟨hbegun.1, hbegun⟩

end

/-! What their steps do. -/

section
variable {s : State} {t : TileId} {o : Op} {d : Desc}

theorem Stepped.produced {u v : State} {k : OpKind} (h : Stepped s u t o k) (hp : Produced t u v) : Stepped s v t o k := by
  obtain ⟨hothers, hdict, hmem, hqueues, hids, hop⟩ := h
  have hops : (v.tile t.val).ops = (u.tile t.val).ops := by rw [hp.tile]
  refine ⟨fun j hj => (hp.others j hj).trans (hothers j hj), by rw [hp.frame]; exact hdict,
    fun m hm => (hp.mem m hm).trans (hmem m hm), by rw [hp.tile]; exact hqueues, by rw [hops]; exact hids, ?_⟩
  rw [hops]
  exact hop

/-- An operation does one step more. -/
def State.stepNext (s : State) (t : TileId) (o : Op) : State :=
  s.modTile t.val (fun x => x.modOp o.id (fun p => { p with pos := p.pos + 1 }))

theorem stepped_next (s : State) (t : TileId) (o : Op) :
    Stepped s (s.stepNext t o) t o o.kind := by
  rw [State.stepNext, State.modTile_eq]
  exact stepped_of_modOp (g := fun p => { p with pos := p.pos + 1 }) rfl rfl (fun _ => rfl) rfl

/-- A change of a context beside a step. -/
theorem Stepped.modCtx {u : State} {k : OpKind} (h : Stepped s u t o k) (c : Nat) (f : Ctx → Ctx) :
    Stepped s (u.modCtx t.val c f) t o k := by
  obtain ⟨hothers, hdict, hmem, hqueues, hids, hop⟩ := h
  rw [State.modCtx_eq]
  refine ⟨fun j hj => (State.tile_setTile_ne _ hj _).trans (hothers j hj), hdict, hmem, ?_⟩
  rw [State.tile_setTile_same]
  exact ⟨hqueues, hids, hop⟩

/-- With its last step a load writes the lanes of its register (R435). -/
theorem ldStep_spec (hclean : (s.mem (.sram t)).errs = []) (v : Fin 32) (p : Fmt) :
    let u := s.ldStep t o v p d
    Stepped s u t o o.kind ∧ u.mems = s.mems
      ∧ ∀ w l, l < 64 → ((u.tile t.val).ctx o.ctx.val).lane w l = if w = v.val ∧ o.kind.steps ≤ o.pos + 1 then
          Fmt.w40.encode .nearestEven (s.loadLane t d p l) else ((s.tile t.val).ctx o.ctx.val).lane w l := by
  have hnext := stepped_next s t o
  have hctx : ((s.stepNext t o).tile t.val).ctx o.ctx.val = (s.tile t.val).ctx o.ctx.val := by
    rw [State.stepNext, State.modTile_eq, State.tile_setTile_same]
    rfl
  have hmems : (s.stepNext t o).mems = s.mems := rfl
  have hlane (j : Nat) : (s.stepNext t o).loadLane t d p j = s.loadLane t d p j := rfl
  have heq : s.ldStep t o v p d = if o.pos + 1 < o.kind.steps then s.stepNext t o
      else let w := (s.stepNext t o).touchSegs (.sram t) d.vecSegs 0
        w.modCtx t.val o.ctx.val (fun x => x.elementwise v (fun j => w.loadLane t d p j)) := rfl
  simp only [heq]
  generalize s.stepNext t o = w at *
  by_cases hlast : o.pos + 1 < o.kind.steps
  · simp only [hlast, if_true]
    refine ⟨hnext, hmems, fun w l _ => ?_⟩
    rw [hctx, if_neg (by omega)]
  · have hwclean : (w.mem (.sram t)).errs = [] := by rwa [State.mem, hmems]
    simp only [hlast, if_false, State.touchSegs_clean hwclean]
    refine ⟨hnext.modCtx _ _, hmems, fun w' l hl => ?_⟩
    have hsteps : o.kind.steps ≤ o.pos + 1 := by omega
    rw [State.modCtx_eq, State.tile_setTile_same, Tile.ctx_setCtx_same, elementwise_lane _ _ _ _ _ hl, hlane, hctx]
    simp only [hsteps, and_true]

/-- With its last step a store has its bytes written (R435, R436). -/
theorem stStep_spec (hclean : (s.mem (.sram t)).errs = []) (bs : List FormedBlock) (ms : List Made) :
    let u := s.stStep t o d bs ms
    Stepped s u t o o.kind ∧ u.mems = if o.kind.steps ≤ o.pos + 1 then (s.writeMade t d bs ms).mems else s.mems := by
  have hnext := stepped_next s t o
  have hmems : (s.stepNext t o).mems = s.mems := rfl
  have heq : s.stStep t o d bs ms = if o.pos + 1 < o.kind.steps then s.stepNext t o
      else (s.stepNext t o).writeMade t d bs ms := rfl
  simp only [heq]
  generalize s.stepNext t o = w at *
  have hwclean : (w.mem (.sram t)).errs = [] := by rwa [State.mem, hmems]
  by_cases hlast : o.pos + 1 < o.kind.steps
  · simp only [hlast, if_true]
    exact ⟨hnext, by rw [if_neg (by omega), hmems]⟩
  · simp only [hlast, if_false]
    exact ⟨hnext.produced (writeMade_produced hwclean d bs ms),
      by rw [if_pos (by omega), writeMade_mems_congr hclean hmems]⟩

end

/-- Settles O7: how a load and a store begin, how they wait, and the step of each. -/
theorem vectorLoadsAndStoresMoveElements : Obligations.VectorLoadsAndStoresMoveElements := by
  intro s t c h v desc d f o hb hd hok
  have hclean : (s.mem (.sram t)).errs = [] := hd.2.1
  refine ⟨fun hfree => ⟨vectorLd_begun hb hd hok hfree,
      fun htag hstore hf hroom => vectorSt_begun hb hd hok hfree htag hstore hf hroom⟩,
    fun hengaged => ⟨vectorLd_waits hb hd hok hengaged, vectorSt_waits hb hd hok hengaged⟩,
    fun w40 hk => ?_, fun bs ms run hk => ?_⟩
  · have hstep : s.opStep t o = s.ldStep t o v (if w40 then .w40 else .a32) d := by simp only [State.opStep, hk]
    rw [hstep]
    exact ldStep_spec hclean v _
  · have hstep : s.opStep t o = s.stStep t o d bs ms := by simp only [State.opStep, hk]
    rw [hstep]
    exact stStep_spec hclean bs ms

end Sys2Proof.Machine
end

section
/-! SUPPORT. How flits enter a router, and how a transfer starts (O20, O21). -/
namespace Sys2Proof.Machine

/-! Flits of a tile enter its router (R133, R138). -/

/-- Flits as they enter the router of tile t: with the net cycle in which they do (R139). -/
def State.entering (s : State) (t : Nat) (fs : List Flit) : List Flit := fs.map (fun f => { f with came := s.netOf t })

theorem setBuf_buf (r : Router) (port vc : Nat) (fs : List Flit) : (r.setBuf port vc fs).buf port vc = fs := by
  unfold Router.buf Router.setBuf putFlits
  split
  · next h => rw [mget_mdel, if_pos rfl, h]
  · exact mget_mset_same _ _ _ _

theorem pushFlits_buf (s : State) (t port vc : Nat) (fs : List Flit) :
    ((s.pushFlits t port vc fs).router t).buf port vc = (s.router t).buf port vc ++ s.entering t fs := by
  unfold State.pushFlits
  dsimp only
  rw [State.router_setRouter_same]
  split <;> exact setBuf_buf _ _ _ _

/-- The data of a transfer's flits is the transfer's, in order (R134). -/
theorem flatMap_chunks {α : Type} (m : Nat) (l : List α) (k : Nat) :
    (List.range k).flatMap (fun i => (l.drop (m * i)).take m) = l.take (m * k) := by
  induction k with
  | zero => simp
  | succ k ih => rw [List.range_succ, List.flatMap_append, ih, List.flatMap_singleton, ← List.take_add, Nat.mul_succ]

theorem flitsFrom_data (f : Flit) (total off : Nat) (bs : List Byte) (bad : List Bool) :
    (flitsFrom f total off bs bad).flatMap (·.data) = bs := by
  simp only [flitsFrom, List.flatMap_map]
  rw [flatMap_chunks, List.take_of_length_le (by omega)]

theorem entering_data (s : State) (t : Nat) (fs : List Flit) : (s.entering t fs).flatMap (·.data) = fs.flatMap (·.data) := by
  simp only [State.entering, List.flatMap_map]

/-- What holds of each of a transfer's flits from the header that they carry. -/
theorem flitsFrom_mem {f g : Flit} {total off : Nat} {bs : List Byte} {bad : List Bool} (h : g ∈ flitsFrom f total off bs bad) :
    g.vc = f.vc ∧ g.ty = f.ty ∧ g.dst = f.dst ∧ g.src = f.src ∧ g.route = f.route ∧ g.xid = f.xid ∧ g.data.length ≤ 128 := by
  obtain ⟨i, -, rfl⟩ := List.mem_map.1 h
  exact ⟨rfl, rfl, rfl, rfl, rfl, rfl, by simp⟩

/-- The same of them as they enter a router. -/
theorem entering_mem {s : State} {t : Nat} {fs : List Flit} {g : Flit} (h : g ∈ s.entering t fs) :
    ∃ f ∈ fs, g = { f with came := s.netOf t } := by
  obtain ⟨f, hf, rfl⟩ := List.mem_map.1 h
  exact ⟨f, hf, rfl⟩

/-! Transfers of a tile. -/

/-- The first transfer of queue q that waits to start is z, and may start now (R121). -/
structure MayStart (s : State) (t : TileId) (q : Fin 32) (z : Xfer) (p : PartId) : Prop where
  executes : s.executes t.val = true
  part : (s.tile t.val).part = some p
  first : ((s.tile t.val).queue q).xfers.find? (fun w => w.phase = .waiting) = some z
  running : ((s.tile t.val).ctx z.ctx.val).isStopped = false
  limit : (((s.tile t.val).queue q).xfers.filter (fun w => w.phase != .waiting)).length < s.tileObj 0x5100 (q.val + 1) t.val

section
variable {s : State} {t : TileId} {q : Fin 32} {z : Xfer} {p : PartId}

theorem queueTransferStart_eq (h : MayStart s t q z p) : exec (.queueTransferStart t q) s = done (s.startXfer t q.val z p) := by
  obtain ⟨hexec, hpart, hfirst, hrun, hlimit⟩ := h
  simp only [exec, execQueueTransferStart, hfirst, hpart, hexec, hrun, hlimit, Bool.not_false, decide_true, Bool.and_self,
    if_true]

/-- A queue at its limit starts no more. -/
theorem queueTransferStart_limit (hb : s.bounded) (hlimit : s.tileObj 0x5100 (q.val + 1) t.val
      ≤ (((s.tile t.val).queue q).xfers.filter (fun w => w.phase != .waiting)).length) :
    exec (.queueTransferStart t q) s = .next s := by
  have hfull : decide ((((s.tile t.val).queue q).xfers.filter (fun w => w.phase != .waiting)).length
      < s.tileObj 0x5100 (q.val + 1) t.val) = false := decide_eq_false (Nat.not_lt.2 hlimit)
  have hkept : exec (.queueTransferStart t q) s = done s := by
    simp only [exec, execQueueTransferStart, hfull, Bool.and_false, Bool.false_eq_true, if_false]
    split <;> rfl
  exact hkept.trans (done_bounded hb)

/-- A queue after a change of its transfers with the number id. -/
def Queue.modXfer (y : Queue) (id : Nat) (f : Xfer → Xfer) : Queue :=
  { y with xfers := y.xfers.map (fun w => if w.id = id then f w else w) }

theorem modXfer_queue (x : Tile) (q id : Nat) (f : Xfer → Xfer) : (x.modXfer q id f).queue q = (x.queue q).modXfer id f :=
  Tile.queue_setQueue_same _ _ _

/-- The transfer has started, and its queue holds the others as before. -/
def Started (s u : State) (t : TileId) (q : Fin 32) (z : Xfer) : Prop :=
  (u.tile t.val).queue q = ((s.tile t.val).queue q).modXfer z.id (fun w => { w with phase := .started })

theorem setPhase_made (s : State) (t : TileId) (q : Nat) (id : Nat) : TileMade t s (s.setPhase t.val q id .started)
    ((s.tile t.val).modXfer q id (fun w => { w with phase := .started })) := (TileMade.refl t s).modTile _

/-- One flit has entered the router of tile t from the tile, on VC1. -/
def SentOne (s u : State) (t : TileId) (z : Xfer) (p : PartId) (P : Flit → Prop) : Prop :=
  ∃ f : Flit, (u.router t.val).buf 4 1 = (s.router t.val).buf 4 1 ++ [f] ∧ f.vc = 1 ∧ f.head = true ∧ f.tail = true
    ∧ f.part = p ∧ f.src = t.val ∧ f.xid = z.id ∧ P f

/-- An end-of-transfer signal starts as one flit (R117). -/
theorem signal_starts {route : Nat} {dest : TileId} {ctr : Fin 64} (hb : s.bounded) (h : MayStart s t q z p)
    (hk : z.kind = .signal route dest ctr) : Gives (.queueTransferStart t q) s (fun u => Started s u t q z
      ∧ SentOne s u t z p (fun f => f.ty = .signal ∧ f.route = route ∧ f.dst = dest.val
          ∧ f.dests = [⟨dest, 0, 0, some ctr⟩])) := by
  refine ⟨s.startXfer t q.val z p, (queueTransferStart_eq h).trans (done_bounded ?_), ?_⟩
  all_goals simp only [State.startXfer, hk]
  · exact bounded_congr hb rfl rfl
  · refine ⟨?_, _, pushFlits_buf s t.val 4 1 _, rfl, rfl, rfl, rfl, rfl, rfl, rfl, rfl, rfl, rfl⟩
    show ((State.setPhase _ t.val q.val z.id .started).tile t.val).queue q = _
    rw [(setPhase_made _ t q.val z.id).tile, modXfer_queue]
    rfl

/-- A transfer of one packet begins at offset 0. -/
theorem chunksOf_packet {n : Nat} (hpos : 0 < n) (hmost : n ≤ 4096) : chunksOf n = [0] := by
  have hone : (n + 4095) / 4096 = 1 := by omega
  rw [chunksOf, hone]
  rfl

/-- A MOVE starts once its transfer has: a source in SRAM is read later, another is asked for its bytes. -/
theorem move_starts {src dst : Desc} (h : MayStart s t q z p) (hk : z.kind = .move src dst) :
    exec (.queueTransferStart t q) s = done ((s.setPhase t.val q.val z.id .started).startMove t z src) := by
  rw [queueTransferStart_eq h]
  simp only [State.startXfer, hk]

theorem setPhase_started (s : State) (t : TileId) (q : Fin 32) (z : Xfer) :
    Started s (s.setPhase t.val q.val z.id .started) t q z := by
  rw [Started, (setPhase_made s t q.val z.id).tile, modXfer_queue]

/-- A source in SRAM is read as its banks serve it (R107). -/
theorem sramMove_starts {src dst : Desc} (hb : s.bounded) (h : MayStart s t q z p) (hk : z.kind = .move src dst)
    (hsrc : src.space = 0) : Gives (.queueTransferStart t q) s (fun u => OnlyTile t s u ∧ Started s u t q z) := by
  have hmade := setPhase_made s t q.val z.id
  refine gives_of_only (u := s.setPhase t.val q.val z.id .started) hb ?_ hmade.only ⟨hmade.only, setPhase_started s t q z⟩
  rw [move_starts h hk]
  simp only [State.startMove, hsrc, if_true]

/-- A source in the tile's vault is asked of its interface (R110). -/
theorem vaultMove_starts {src dst : Desc} (hb : s.bounded) (h : MayStart s t q z p) (hk : z.kind = .move src dst)
    (hsrc : src.space = 1) (hpos : 0 < z.len) (hmost : z.len ≤ 4096) :
    Gives (.queueTransferStart t q) s (fun u => OnlyTile t s u ∧ Started s u t q z
      ∧ (u.tile t.val).vreqs = (s.tile t.val).vreqs
          ++ [⟨true, true, .move t z.id, 0, z.len, piecesOf src.segments 0 z.len, 0, [], []⟩]) := by
  have hmade := (setPhase_made s t q.val z.id).modTile
    (fun x => { x with vreqs := x.vreqs ++ [⟨true, true, .move t z.id, 0, z.len, piecesOf src.segments 0 z.len, 0, [], []⟩] })
  refine gives_of_only hb ?_ hmade.only ⟨hmade.only, ?_, ?_⟩
  · rw [move_starts h hk]
    simp only [State.startMove, hsrc, chunksOf_packet hpos hmost, State.vaultAsk, List.foldl_cons, List.foldl_nil, Nat.sub_zero,
      Nat.min_eq_right hmost, Nat.succ_ne_self, if_false, if_true]
  · rw [Started, hmade.tile]
    exact modXfer_queue _ _ _ _
  · rw [hmade.tile]
    rfl

/-- A source beyond the tile is asked for over the network (R137). -/
theorem farMove_starts {src dst : Desc} (hb : s.bounded) (h : MayStart s t q z p) (hk : z.kind = .move src dst)
    (hsrc : 2 ≤ src.space) (hpos : 0 < z.len) (hmost : z.len ≤ 4096) :
    Gives (.queueTransferStart t q) s (fun u => Started s u t q z
      ∧ SentOne s u t z p (fun f => f.ty = .readReq ∧ f.route = z.route ∧ f.dst = src.first ∧ f.len = z.len
          ∧ f.addr = some (src.where', piecesOf src.segments 0 z.len))) := by
  have hmade := setPhase_made s t q.val z.id
  have hpart : (((s.setPhase t.val q.val z.id .started).tile t.val).part).getD 0 = p := by
    rw [hmade.tile]
    exact congrArg (·.getD 0) h.part
  have hrouter : (s.setPhase t.val q.val z.id .started).router t.val = s.router t.val := rfl
  have hstarted := setPhase_started s t q z
  have hmove := move_starts h hk
  have hbounded : (s.setPhase t.val q.val z.id .started).bounded := bounded_congr hb rfl rfl
  generalize s.setPhase t.val q.val z.id .started = w at *
  refine ⟨w.startMove t z src, hmove.trans (done_bounded ?_), ?_⟩
  all_goals simp only [State.startMove, show src.space ≠ 0 by omega, show src.space ≠ 1 by omega, chunksOf_packet hpos hmost,
    List.foldl_cons, List.foldl_nil, Nat.sub_zero, Nat.min_eq_right hmost, if_false]
  · exact bounded_congr hbounded rfl rfl
  · exact ⟨hstarted, _, (pushFlits_buf w t.val 4 1 _).trans (by rw [hrouter]; rfl), rfl, rfl, rfl, hpart, rfl, rfl, rfl, rfl,
      rfl, rfl, rfl⟩

/-- A reduce-put starts on VC3 (R117). -/
theorem reduce_starts {src : Desc} {route : Nat} {od : Option Dest} {tail : Option TailHdr} (hb : s.bounded)
    (h : MayStart s t q z p) (hk : z.kind = .reduce src route od tail) :
    Gives (.queueTransferStart t q) s (fun u => OnlyTile t s u
      ∧ (u.tile t.val).queue q = ((s.tile t.val).queue q).modXfer z.id (fun w => { w with vc := 3, phase := .started })) := by
  have hmade := (TileMade.refl t s).modTile (fun x => x.modXfer q.val z.id (fun w => { w with vc := 3, phase := .started }))
  refine gives_of_only hb ?_ hmade.only ⟨hmade.only, ?_⟩
  · rw [queueTransferStart_eq h]
    simp only [State.startXfer, hk]
    rfl
  · rw [hmade.tile]
    exact modXfer_queue _ _ _ _

end

end Sys2Proof.Machine
end

section
/-! SUPPORT. The bytes of a transfer on their way, landing slots, slot credits and refusals (O20). -/
namespace Sys2Proof.Machine

/-! A tile that holds one transfer. -/

/-- The tile's only transfer is z, in queue q. -/
def Tile.HoldsOne (x : Tile) (q : Nat) (z : Xfer) : Prop := x.queues = [(q, { xfers := [z] })]

section
variable {x : Tile} {q : Nat} {z : Xfer}

theorem Tile.HoldsOne.modXfer (h : x.HoldsOne q z) (f : Xfer → Xfer) :
    x.modXfer q z.id f = { x with queues := [(q, { xfers := [f z] })] } := by
  simp [Tile.modXfer, Tile.setQueue, Tile.queue, mget, mfind, mset, mdel, minsert, show x.queues = _ from h]

theorem Tile.HoldsOne.xfer (h : x.HoldsOne q z) : x.xfer? z.id = some (q, z) := by
  simp [Tile.xfer?, show x.queues = _ from h]

theorem Tile.HoldsOne.queue (h : x.HoldsOne q z) : x.queue q = { xfers := [z] } := by
  simp [Tile.queue, mget, mfind, show x.queues = _ from h]

end

/-- Bytes of a MOVE that have been written, or refused, are counted of it. -/
theorem ackXfer_one {s : State} {t : TileId} {q : Nat} {z : Xfer} (h : (s.tile t.val).HoldsOne q z) (hz : z.isMove = true) (n : Nat)
    (refused : Bool) : TileMade t s (s.ackXfer t.val z.id n refused)
      { s.tile t.val with queues := [(q, { xfers := [{ z with acked := z.acked + n, refused := z.refused || refused }] })] } := by
  have hmade := (TileMade.refl t s).modTile (fun x => x.modXfer q z.id
    (fun z => if z.isMove then { z with acked := z.acked + n, refused := z.refused || refused } else z))
  rw [h.modXfer, if_pos hz] at hmade
  simp only [State.ackXfer, State.modXfer, h.xfer]
  exact hmade

/-- Of a transfer that the tile no longer holds nothing is counted; no more of the tile changes than its queues. -/
theorem ackXfer_made {s u : State} {t : TileId} {x : Tile} (h : TileMade t s u x) (id n : Nat) (refused : Bool) :
    ∃ y, TileMade t s (u.ackXfer t.val id n refused) y ∧ y = { x with queues := y.queues } := by
  unfold State.ackXfer State.modXfer
  split
  · exact ⟨_, h.modTile _, rfl⟩
  · exact ⟨_, h, rfl⟩

/-! The next bytes of a source in SRAM (R107, R134). -/

section
variable {s : State} {t : TileId} {q : Nat} {z : Xfer} {src : Desc}

theorem gatherBad_clean {u : MemUnit} (h : (s.mem u).errs = []) (segs : List (Nat × Nat)) : s.gatherBad u segs = [] := if_pos h

/-- n more bytes of the tile's only transfer have been read. -/
def Tile.sentMore (x : Tile) (q : Nat) (z : Xfer) (n : Nat) : Tile :=
  { x with queues := [(q, { xfers := [{ z with sent := z.sent + n }] })] }

theorem sentMore_made (h : (s.tile t.val).HoldsOne q z) (n : Nat) :
    TileMade t s (s.modTile t.val (fun x => x.modXfer q z.id (fun w => { w with sent := w.sent + n })))
      ((s.tile t.val).sentMore q z n) := by
  have hmade := (TileMade.refl t s).modTile (fun x => x.modXfer q z.id (fun w => { w with sent := w.sent + n }))
  rwa [h.modXfer] at hmade

/-- A MOVE within SRAM writes them in its turn. -/
theorem sendStep_sramMove {dst : Desc} (hclean : (s.mem (.sram t)).errs = []) (hone : (s.tile t.val).HoldsOne q z)
    (hk : z.kind = .move src dst) (hdst : dst.space = 0) :
    let bs := s.gather (.sram t) (z.nextSegs src)
    let segs := piecesOf dst.segments z.sent bs.length
    TileMade t s (s.sendStep t q z src) { (s.tile t.val).sentMore q z bs.length with
      accs := (s.tile t.val).accs ++ [⟨.write false segs bs [] (.ack t.val z.id), banksOf true segs, 0⟩] } := by
  intro bs segs
  have hmade := (sentMore_made hone bs.length).modTile
    (fun x => x.addAccess (.write false segs bs [] (.ack t.val z.id)) segs)
  simp only [State.sendStep, State.touchSegs_clean hclean, gatherBad_clean hclean, hk, State.moveTo, hdst, if_true]
  exact hmade

/-- The flits of a put carry its transfer's header. -/
theorem head_of_put {route : Nat} {d : Dest} (hk : z.kind = .put src route d) (p : PartId) :
    (z.head t p).vc = z.vc ∧ (z.head t p).dst = d.tile.val ∧ (z.head t p).route = z.route ∧ (z.head t p).xid = z.id := by
  simp [Xfer.head, hk]

/-- A put sends them as flits. -/
theorem sendStep_put {route : Nat} {d : Dest} (hclean : (s.mem (.sram t)).errs = []) (hone : (s.tile t.val).HoldsOne q z)
    (hk : z.kind = .put src route d) :
    let bs := s.gather (.sram t) (z.nextSegs src)
    let u := s.sendStep t q z src
    u.tile t.val = (s.tile t.val).sentMore q z bs.length ∧ u.mems = s.mems
      ∧ ∃ fs : List Flit, (u.router t.val).buf 4 z.vc.val = (s.router t.val).buf 4 z.vc.val ++ fs
        ∧ fs.flatMap (·.data) = bs ∧ ∀ f ∈ fs, f.vc = z.vc ∧ f.dst = d.tile.val ∧ f.route = z.route ∧ f.xid = z.id
            ∧ f.data.length ≤ 128 := by
  intro bs
  have hmade := sentMore_made hone bs.length
  have hrouter : (s.modTile t.val (fun x => x.modXfer q z.id (fun w => { w with sent := w.sent + bs.length }))).router t.val
      = s.router t.val := rfl
  have hmems : (s.modTile t.val (fun x => x.modXfer q z.id (fun w => { w with sent := w.sent + bs.length }))).mems = s.mems := rfl
  simp only [State.sendStep, State.touchSegs_clean hclean, gatherBad_clean hclean, hk]
  change _ ∧ _ ∧ _
  generalize s.modTile t.val (fun x => x.modXfer q z.id (fun w => { w with sent := w.sent + bs.length })) = w at *
  refine ⟨hmade.tile, hmems, _, (pushFlits_buf w t.val 4 z.vc.val _).trans (by rw [hrouter]), ?_, fun g hg => ?_⟩
  · rw [entering_data, flitsFrom_data]
  · obtain ⟨f, hf, rfl⟩ := entering_mem hg
    obtain ⟨hvc, -, hdst, -, hroute, hxid, hlen⟩ := flitsFrom_mem hf
    obtain ⟨kvc, kdst, kroute, kxid⟩ := head_of_put (t := t) hk (((w.tile t.val).part).getD 0)
    exact ⟨hvc.trans kvc, hdst.trans kdst, hroute.trans kroute, hxid.trans kxid, hlen⟩

/-- In a memory without changed symbols a scatter of bytes that are not poisoned writes them, and nothing else (R179). -/
theorem scatter_produced (hclean : (s.mem (.sram t)).errs = []) (segs : List (Nat × Nat)) (bs : List Byte) :
    Produced t s (s.scatter (.sram t) segs bs []) ∧ ((s.scatter (.sram t) segs bs []).tiles = s.tiles) := by
  induction segs generalizing s bs with
  | nil => exact ⟨Produced.refl t s, rfl⟩
  | cons g r ih =>
    have hpoke := Produced.poke s t g.1 (bs.take g.2)
    have hclean' : ((s.poke (.sram t) g.1 (bs.take g.2)).mem (.sram t)).errs = [] := by simpa [State.poke] using hclean
    obtain ⟨hprod, htiles⟩ := ih hclean' (bs.drop g.2)
    have hno : below g.2 (fun i => ([] : List Bool).getD i false) = [] := by simp [below]
    have hstep : s.scatter (.sram t) (g :: r) bs [] = (s.poke (.sram t) g.1 (bs.take g.2)).scatter (.sram t) r (bs.drop g.2) [] := by
      simp only [State.scatter, State.store_clean hclean, hno, List.foldl_nil, List.drop_nil]
    rw [hstep]
    exact ⟨hpoke.trans hprod, htiles⟩

/-- An access of a MOVE that writes is acknowledged by what it has written (R107, R116). -/
theorem serveAccess_write (hclean : (s.mem (.sram t)).errs = []) (hone : (s.tile t.val).HoldsOne q z) (hz : z.isMove = true)
    {segs : List (Nat × Nat)} {bs : List Byte} {a : Access} (ha : a.use = .write false segs bs [] (.ack t.val z.id)) :
    let u := s.serveAccess t a
    u.mems = (s.scatter (.sram t) segs bs []).mems ∧ (∀ m, m ≠ .sram t → u.mem m = s.mem m)
      ∧ ((u.tile t.val).queue q).xfers = [{ z with acked := z.acked + bs.length }] := by
  obtain ⟨hprod, htiles⟩ := scatter_produced hclean segs bs
  have hstep : s.serveAccess t a = (s.scatter (.sram t) segs bs []).ackXfer t.val z.id bs.length false := by
    simp only [State.serveAccess, ha, State.afterWrite]
  have hone' : ((s.scatter (.sram t) segs bs []).tile t.val).HoldsOne q z := by rw [State.tile, htiles]; exact hone
  have hack := ackXfer_one hone' hz bs.length false
  have hmems := hack.ofState State.mems (fun _ _ => rfl)
  simp only [hstep]
  refine ⟨hmems, fun m hm => ?_, ?_⟩
  · rw [State.mem, hmems]
    exact hprod.mem m hm
  · rw [hack.tile, Bool.or_false]
    simp [Tile.queue, mget, mfind]

end

/-! Landing slots (R127). -/

theorem slot_setSlot (x : Tile) {b i a j : Nat} (hi : i < 64) (hj : j < 64) (v : Slot) :
    (x.setSlot a j v).slot b i = if b = a ∧ i = j then v else x.slot b i := by
  have hkey : b * 64 + i = a * 64 + j ↔ b = a ∧ i = j := by omega
  rw [Tile.slot, Tile.setSlot, mget_mset]
  simp only [hkey]
  rfl

section
variable {s : State} {t : TileId} {buf : Fin 16} {slot : Fin 64}

/-- A transfer that is wholly in its slot fills it, and its counter is owed one. -/
theorem landingDelivery_fills (hb : s.bounded) {y : Slot} (hy : (s.tile t.val).slot buf slot = y) (hst : y.st ≠ .filled)
    (hlen : y.len ≠ 0) (hgot : y.len ≤ y.got) : Gives (.landingDelivery t buf slot) s (fun u => OnlyTile t s u
      ∧ u.tile t.val = { s.tile t.val with
          slots := (u.tile t.val).slots, incs := (s.tile t.val).incs ++ s.owed t y.ctr }
      ∧ (u.tile t.val).slot buf slot = { y with st := .filled }
      ∧ ∀ b i, i < 64 → ¬(b = buf.val ∧ i = slot.val) → (u.tile t.val).slot b i = (s.tile t.val).slot b i) := by
  have hmade := ((TileMade.refl t s).setTile ((s.tile t.val).setSlot buf.val slot.val { y with st := .filled })).signal y.ctr
  refine gives_of_only hb ?_ hmade.only ⟨hmade.only, ?_, ?_, fun b i hi hne => ?_⟩
  · simp only [exec, execLandingDelivery, hy, hst, hlen, Nat.not_lt.2 hgot, decide_false, Bool.or_self, Bool.false_eq_true,
      if_false, State.signal]
    cases y.ctr <;> rfl
  · rw [hmade.tile]
    rfl
  · rw [hmade.tile]
    exact (slot_setSlot _ slot.isLt slot.isLt _).trans (if_pos ⟨rfl, rfl⟩)
  · rw [hmade.tile]
    exact (slot_setSlot _ hi slot.isLt _).trans (if_neg hne)

/-! Slot credits (R127, R153). -/

/-- A credit that has come back to a router, or an edge unit, opens its slot. -/
theorem slotCreditArrival_beyond (hb : s.bounded) {y : Slot} (hy : (s.tile t.val).slot buf slot = y) {h : Nat}
    (hst : y.st = .returning) (hh : y.holder = some h) (hbeyond : y.beyond = true) :
    ((s.router h).credits.contains (t, buf.val, slot.val) = true → Gives (.slotCreditArrival t buf slot) s (fun u =>
      u = { s with tiles := u.tiles, routers := u.routers } ∧ (u.tile t.val).slot buf slot = {}
      ∧ (u.router h).credits = (s.router h).credits.erase (t, buf.val, slot.val)
      ∧ (∀ j, j ≠ t.val → u.tile j = s.tile j) ∧ ∀ j, j ≠ h → u.router j = s.router j))
    ∧ ((s.router h).credits.contains (t, buf.val, slot.val) = false → exec (.slotCreditArrival t buf slot) s = .next s) := by
  have heq : exec (.slotCreditArrival t buf slot) s = done (if (s.router h).credits.contains (t, buf.val, slot.val) then
      (s.modRouter h (fun r => { r with credits := r.credits.erase (t, buf.val, slot.val) })).modTile t.val
        (fun x => x.setSlot buf.val slot.val {}) else s) := by
    simp only [exec, execSlotCreditArrival, hy, hh, hst, hbeyond, bne_self_eq_false, Bool.false_eq_true, if_false, if_true]
  refine ⟨fun hthere => ?_, fun hnot => ?_⟩
  · rw [if_pos hthere] at heq
    refine ⟨_, heq.trans (done_bounded (bounded_congr hb rfl rfl)), rfl, ?_, ?_, fun j hj => ?_, fun j hj => ?_⟩
    · rw [State.modTile_eq, State.tile_setTile_same, slot_setSlot _ slot.isLt slot.isLt, if_pos ⟨rfl, rfl⟩]
    · show ((s.setRouter h _).router h).credits = _
      rw [State.router_setRouter_same]
    · rw [State.modTile_eq, State.tile_setTile_ne _ hj]
      rfl
    · exact State.router_setRouter_ne s hj _
  · rw [heq, hnot]
    exact done_bounded hb

/-- A credit that has come back to a tile opens its slot. -/
theorem slotCreditArrival_tile (hb : s.bounded) {y : Slot} (hy : (s.tile t.val).slot buf slot = y) {h : Nat}
    (hst : y.st = .returning) (hh : y.holder = some h) (hbeyond : y.beyond = false) :
    ((s.tile h).inbox.contains (.credit t buf slot) = true → Gives (.slotCreditArrival t buf slot) s (fun u =>
      u = { s with tiles := u.tiles } ∧ (u.tile t.val).slot buf slot = {}
      ∧ (u.tile h).inbox = (s.tile h).inbox.erase (.credit t buf slot)
      ∧ ∀ j, j ≠ t.val → j ≠ h → u.tile j = s.tile j))
    ∧ ((s.tile h).inbox.contains (.credit t buf slot) = false → exec (.slotCreditArrival t buf slot) s = .next s) := by
  have heq : exec (.slotCreditArrival t buf slot) s = done (if (s.tile h).inbox.contains (.credit t buf slot) then
      (s.modTile h (fun x => { x with inbox := x.inbox.erase (.credit t buf slot) })).modTile t.val
        (fun x => x.setSlot buf.val slot.val {}) else s) := by
    simp only [exec, execSlotCreditArrival, hy, hh, hst, hbeyond, bne_self_eq_false, Bool.false_eq_true, if_false]
  refine ⟨fun hthere => ?_, fun hnot => ?_⟩
  · rw [if_pos hthere] at heq
    refine ⟨_, heq.trans (done_bounded (bounded_congr hb rfl rfl)), rfl, ?_, ?_, fun j hj hjh => ?_⟩
    · rw [State.modTile_eq, State.tile_setTile_same, slot_setSlot _ slot.isLt slot.isLt, if_pos ⟨rfl, rfl⟩]
    · have hinbox : (((s.modTile h (fun x => { x with inbox := x.inbox.erase (.credit t buf slot) })).modTile t.val
          (fun x => x.setSlot buf.val slot.val {})).tile h).inbox
          = ((s.modTile h (fun x => { x with inbox := x.inbox.erase (.credit t buf slot) })).tile h).inbox := by
        by_cases hht : h = t.val
        · subst hht
          rw [State.modTile_eq _ t.val, State.tile_setTile_same]
          rfl
        · rw [State.modTile_eq _ t.val, State.tile_setTile_ne _ hht]
      rw [hinbox, State.modTile_eq, State.tile_setTile_same]
    · rw [State.modTile_eq _ t.val, State.tile_setTile_ne _ hj, State.modTile_eq, State.tile_setTile_ne _ hjh]
  · rw [heq, hnot]
    exact done_bounded hb

/-! Refusals (R146). -/

/-- A refusal response has left the inbox of tile t, and is counted and recorded as v. -/
def State.refusalNoted (s : State) (t : TileId) (v : Nat) : State :=
  ((s.setTile t.val { s.tile t.val with inbox := [] }).bump 0x7300 0xF t.val 1).setObj 0x5300 8 t.val v

theorem refusalNoted_tile (s : State) (t : TileId) (v : Nat) :
    (s.refusalNoted t v).tile t.val = { s.tile t.val with inbox := [] } := State.tile_setTile_same _ _ _

theorem refusalNoted_obj (s : State) (t : TileId) (v : Nat) : (s.refusalNoted t v).obj 0x5300 8 t.val = v :=
  State.obj_setObj_same _ _ _ _ _

theorem refusalNoted_count (s : State) (t : TileId) (v : Nat) :
    (s.refusalNoted t v).count 0x7300 0xF t.val = s.count 0x7300 0xF t.val + 1 := State.count_bump_same _ _ _ _ _

/-- The source counts and records a refusal response, and the bytes that it refuses. -/
theorem refusalResponse_recorded (hb : s.bounded) {code route by' part n : Nat} {q : Nat} {z : Xfer} (hcode : code < 16)
    (hinbox : (s.tile t.val).inbox = [.refusal code route by' part z.id n]) :
    Gives (.refusalResponseReceive t) s (fun u =>
      u.count 0x7300 0xF t.val = s.count 0x7300 0xF t.val + 1 ∧ (u.tile t.val).inbox = []
      ∧ u.obj 0x5300 8 t.val = code + route * 2 ^ 4 + by' * 2 ^ 13 + part * 2 ^ 26
      ∧ ((s.tile t.val).HoldsOne q z → z.isMove = true →
          ((u.tile t.val).queue q).xfers = [{ z with acked := z.acked + n, refused := true }])) := by
  generalize hv : code + route * 2 ^ 4 + by' * 2 ^ 13 + part * 2 ^ 26 = v
  have heq : exec (.refusalResponseReceive t) s = done ((s.refusalNoted t v).ackXfer t.val z.id n true) := by
    simp only [exec, execRefusalResponseReceive, hinbox, List.find?_cons_of_pos, List.erase_cons_head, Nat.mod_eq_of_lt hcode, hv,
      State.refusalNoted]
  have hbounded : (s.refusalNoted t v).bounded := bounded_congr hb rfl rfl
  obtain ⟨y, hack, hframe⟩ := ackXfer_made (TileMade.refl t (s.refusalNoted t v)) z.id n true
  refine ⟨_, heq.trans (done_bounded (only_bounded hbounded hack.only)), ?_, ?_, ?_, fun hone hz => ?_⟩
  · rw [hack.ofState (State.count · 0x7300 0xF t.val) (fun _ _ => rfl), refusalNoted_count]
  · rw [hack.tile, hframe, refusalNoted_tile]
  · rw [hack.ofState (State.obj · 0x5300 8 t.val) (fun _ _ => rfl), refusalNoted_obj]
  · have hone' : ((s.refusalNoted t v).tile t.val).HoldsOne q z := by rw [refusalNoted_tile]; exact hone
    rw [(ackXfer_one hone' hz n true).tile, Bool.or_true]
    simp [Tile.queue, mget, mfind]

end

/-- Settles O20: the starts, the bytes on their way, landing, credits and refusals are a lemma each. -/
theorem transfersStartAndLand : Obligations.TransfersStartAndLand := by
  intro s t q z p route dest ctr src dst buf slot code by' part n hb
  refine ⟨fun hexec hpart hfirst hrun hlimit => ?_,
    fun hclean _ hone => ⟨fun hk hdst => ?_, fun d hk => ?_, fun segs bs a ha hz => ?_⟩,
    queueTransferStart_limit hb, fun hst hlen hgot => landingDelivery_fills hb rfl hst hlen hgot,
    fun h hst hh hbeyond => slotCreditArrival_beyond hb rfl hst hh hbeyond,
    fun h hst hh hbeyond => slotCreditArrival_tile hb rfl hst hh hbeyond,
    fun hcode hinbox => refusalResponse_recorded hb hcode hinbox⟩
  · have hstart : MayStart s t q z p := ⟨hexec, hpart, hfirst, hrun, hlimit⟩
    exact ⟨signal_starts hb hstart,
      fun hk hpos hmost => ⟨fun hsrc => farMove_starts hb hstart hk hsrc hpos hmost,
        fun hsrc => vaultMove_starts hb hstart hk hsrc hpos hmost⟩,
      fun hk hsrc => sramMove_starts hb hstart hk hsrc,
      fun od tail hk => reduce_starts hb hstart hk⟩
  · have hmade := sendStep_sramMove hclean hone hk hdst
    exact ⟨hmade.only, hmade.tile⟩
  · exact sendStep_put hclean hone hk
  · exact serveAccess_write hclean hone hz ha

end Sys2Proof.Machine
end

section
/-! SUPPORT. Spills and remote reads; what the recording of an event leaves at the head of the event ring (O21). -/
namespace Sys2Proof.Machine

/-! The newest record of the event ring (R417, R419). -/

/-- With no changed symbols in the stack that holds the mirror, SC0 writes the mirror and finds nothing to record (R180). -/
theorem mirror_ring (n : Nat) {s : State} (hclean : (s.mem (.stack 0)).errs = []) : (State.mirror n s).ring = s.ring := by
  induction n generalizing s with
  | zero => rfl
  | succ n ih =>
    unfold State.mirror
    simp only [State.storeEv_clean hclean, List.foldl_nil]
    split
    · rfl
    · split
      · rfl
      · split
        · rfl
        · split
          · exact ih hclean
          · refine ih ?_
            show ((s.poke _ _ _).mem _).errs = []
            simpa [State.poke] using hclean

theorem listRecord_ring (s : State) (r : Record) : (s.listRecord r).ring = r :: s.ring ∧ (s.listRecord r).mems = s.mems := by
  unfold State.listRecord
  simp only
  split <;> exact ⟨rfl, rfl⟩

/-- An event whose data one record holds is the newest record of the ring. -/
theorem raise_ring {s : State} {code src : Nat} {step : BitVec 32} {data : List Byte} (hdown : (s.core 0).down = false)
    (hdata : data.length ≤ 16) (hclean : (s.mem (.stack 0)).errs = []) :
    (s.raise code src step data).ring = { code, src, step, tick := s.tick, data } :: s.ring := by
  obtain ⟨hring, hmems⟩ := listRecord_ring s { code, src, step, tick := s.tick, data }
  simp only [State.raise, hdown, eventRecords, hdata, if_true, Bool.false_eq_true, if_false, State.records, List.foldl_cons,
    List.foldl_nil]
  rw [mirror_ring _ (by rwa [State.mem, hmems]), hring]

/-! Spill requests and grants (R129). -/

/-- One flit has entered the router of tile n from the tile, on VC v. -/
def SentOn (s u : State) (n : Nat) (v : Fin 6) (P : Flit → Prop) : Prop :=
  ∃ f : Flit, (u.router n).buf 4 v.val = (s.router n).buf 4 v.val ++ [f] ∧ f.vc = v ∧ f.src = n ∧ P f

section
variable {s : State} {t r : TileId} {q : Fin 32} {z : Xfer} {src : Desc} {route since : Nat} {dest : Dest} {p : PartId}

/-- A PUT that waits for its slot's credit, and has asked for no spill. -/
structure AwaitsCredit (s : State) (t : TileId) (q : Fin 32) (z : Xfer) (src : Desc) (route since : Nat) (dest : Dest)
    (p : PartId) : Prop where
  put : z.kind = .put src route dest
  part : (s.tile t.val).part = some p
  inside : s.endsAtGate p.val route (s.putVc t.val q.val).val t.val = false
  first : ((s.tile t.val).queue q).xfers.find? (fun w => w.phase = .waiting) = some z
  since : z.since = some since
  asked : z.asked = false

theorem spillRequest_eq (h : AwaitsCredit s t q z src route since dest p) : exec (.spillRequest t q) s = done
    (if since + s.tileObj 0x5100 0x41 t.val < s.coreOf t.val then
      (s.setTile t.val ((s.tile t.val).modXfer q.val z.id (fun z => { z with asked := true }))).pushFlits t.val 4 0
        [spillFlit p t.val dest 0 q.val dest.tile.val]
    else s) := by
  obtain ⟨hput, hpart, hinside, hfirst, hsince, hasked⟩ := h
  simp only [exec, execSpillRequest, hfirst, hpart, hput, hsince, hinside, hasked, Bool.not_false, Bool.and_true,
    decide_eq_true_eq]

/-- One that has waited longer than the threshold asks its receiver. -/
theorem spillRequest_asks (hb : s.bounded) (h : AwaitsCredit s t q z src route since dest p)
    (hlong : since + s.tileObj 0x5100 0x41 t.val < s.coreOf t.val) : Gives (.spillRequest t q) s (fun u =>
      SentOn s u t.val 0 (fun f => f.ty = .control ∧ f.dst = dest.tile.val ∧ f.q = q.val ∧ f.dests = [dest] ∧ f.data = [0])
      ∧ (u.tile t.val).queue q = ((s.tile t.val).queue q).modXfer z.id (fun w => { w with asked := true })) := by
  have heq := spillRequest_eq h
  rw [if_pos hlong] at heq
  refine ⟨_, heq.trans (done_bounded (bounded_congr hb rfl rfl)),
    ⟨_, pushFlits_buf _ t.val 4 0 _, rfl, rfl, rfl, rfl, rfl, rfl, rfl⟩, ?_⟩
  show ((s.setTile t.val ((s.tile t.val).modXfer q.val z.id (fun z => { z with asked := true }))).tile t.val).queue q = _
  rw [State.tile_setTile_same, modXfer_queue]

theorem spillRequest_waits (hb : s.bounded) (h : AwaitsCredit s t q z src route since dest p)
    (hshort : s.coreOf t.val ≤ since + s.tileObj 0x5100 0x41 t.val) : exec (.spillRequest t q) s = .next s := by
  rw [spillRequest_eq h, if_neg (Nat.not_lt.2 hshort)]
  exact done_bounded hb

/-- The tile after it has granted a spill of a landing buffer. -/
def Tile.granting (x : Tile) (buf : Nat) (first : Bool) : Tile :=
  { x with inbox := [], episodes := if first then x.episodes ++ [(buf, false)] else x.episodes }

/-- The grant of a spill, as a flit. -/
def grantFlit (p : PartId) (t : TileId) (buf : Fin 16) (src : TileId) : Flit := spillFlit p t.val ⟨t, buf, 0, none⟩ 1 0 src.val

theorem spillGrant_eq {buf : Fin 16} (hinbox : (s.tile t.val).inbox = [.spillRequest r q buf])
    (hpart : (s.tile t.val).part = some p) (hreset : s.inReset t.val = false) :
    let first := !(s.tile t.val).episodes.any (fun e => e.1 = buf.val)
    let w := s.setTile t.val ((s.tile t.val).granting buf first)
    exec (.spillGrant t buf r) s = done ((if first then
      w.raise 0x3020 t.val (s.tile t.val).stamp (leBytes 1 buf.val ++ leBytes 2 r.val ++ [0]) else w).pushFlits t.val 4 0
        [grantFlit p t buf r]) := by
  simp only [exec, execSpillGrant, hinbox, hpart, hreset, Tile.granting, grantFlit, decide_true, Bool.and_self,
    List.find?_cons_of_pos, List.erase_cons_head, Bool.false_eq_true, if_false]

/-- What a grant leaves of the receiver: its inbox empty and the grant on its way. -/
def Grants (s u : State) (t r : TileId) (buf : Fin 16) : Prop :=
  (u.tile t.val).inbox = [] ∧ SentOn s u t.val 0 (fun f => f.ty = .control ∧ f.dst = r.val
    ∧ f.dests = [⟨t, buf, 0, none⟩] ∧ f.data = [1])

theorem grants_of_push {w : State} {buf : Fin 16} (hinbox : (w.tile t.val).inbox = []) (hrouter : w.router t.val = s.router t.val) :
    Grants s (w.pushFlits t.val 4 0 [grantFlit p t buf r]) t r buf :=
  ⟨hinbox, _, (pushFlits_buf w t.val 4 0 _).trans (by rw [hrouter]; rfl), rfl, rfl, rfl, rfl, rfl, rfl⟩

/-- A grant that begins an episode is told as E3020. -/
theorem spillGrant_begins {buf : Fin 16} (hinbox : (s.tile t.val).inbox = [.spillRequest r q buf])
    (hpart : (s.tile t.val).part = some p) (hreset : s.inReset t.val = false) (hdown : (s.core 0).down = false)
    (hnone : (s.tile t.val).episodes.any (fun e => e.1 = buf.val) = false) : Gives (.spillGrant t buf r) s (fun u =>
      (u.tile t.val).episodes = (s.tile t.val).episodes ++ [(buf.val, false)] ∧ Grants s u t r buf ∧ Told s u 0x3020 t.val) := by
  have heq := spillGrant_eq hinbox hpart hreset
  simp only [hnone, Bool.not_false, if_true] at heq
  have hrec := Recorded.raise (s.setTile t.val ((s.tile t.val).granting buf true)) 0x3020 t.val (s.tile t.val).stamp
    (leBytes 1 buf.val ++ leBytes 2 r.val ++ [0])
  have hring := raise_ring (s := s.setTile t.val ((s.tile t.val).granting buf true)) (code := 0x3020) (src := t.val)
    (step := (s.tile t.val).stamp) (data := leBytes 1 buf.val ++ leBytes 2 r.val ++ [0]) hdown (by simp [leBytes])
  generalize (s.setTile t.val ((s.tile t.val).granting buf true)).raise 0x3020 t.val (s.tile t.val).stamp
    (leBytes 1 buf.val ++ leBytes 2 r.val ++ [0]) = w at *
  have htile : w.tile t.val = (s.tile t.val).granting buf true := (hrec.tile t.val).trans (State.tile_setTile_same _ _ _)
  have hrouter : w.router t.val = s.router t.val := by rw [hrec.frame]; rfl
  have hgrants := grants_of_push (s := s) (p := p) (r := r) (buf := buf) (congrArg Tile.inbox htile) hrouter
  refine ⟨_, heq.trans (done_next _), congrArg Tile.episodes htile, hgrants, fun hclean => ?_⟩
  show (w.ring.take 4096).head?.map (fun r => (r.code, r.src)) = _
  rw [hring hclean]
  rfl

/-- A grant within an episode is recorded no more. -/
theorem spillGrant_goesOn {buf : Fin 16} (hb : s.bounded) (hinbox : (s.tile t.val).inbox = [.spillRequest r q buf])
    (hpart : (s.tile t.val).part = some p) (hreset : s.inReset t.val = false)
    (hsome : (s.tile t.val).episodes.any (fun e => e.1 = buf.val) = true) : Gives (.spillGrant t buf r) s (fun u =>
      (u.tile t.val).episodes = (s.tile t.val).episodes ∧ Grants s u t r buf ∧ u.ring = s.ring) := by
  have heq := spillGrant_eq hinbox hpart hreset
  simp only [hsome, Bool.not_true, Bool.false_eq_true, if_false] at heq
  have htile : (s.setTile t.val ((s.tile t.val).granting buf false)).tile t.val = (s.tile t.val).granting buf false :=
    State.tile_setTile_same _ _ _
  have hepisodes : ((s.setTile t.val ((s.tile t.val).granting buf false)).tile t.val).episodes = (s.tile t.val).episodes := by
    rw [htile]; rfl
  exact ⟨_, heq.trans (done_bounded (bounded_congr hb rfl rfl)), hepisodes,
    grants_of_push (congrArg Tile.inbox htile) rfl, rfl⟩

end

/-! The overflow area (R129, R130). -/

/-- The flits with which a spilled transfer goes to the partner's vault. -/
def State.spillFlits (s : State) (t : TileId) (v : Nat) (i : SpillIn) (area : List (Nat × Nat)) : List Flit :=
  (flitsFrom (s.overFlit t v .spill area) i.len 0 i.data i.bad).map (fun g =>
    { g with addr := some (2, piecesOf area g.off g.data.length) })

theorem spillFlits_data (s : State) (t : TileId) (v : Nat) (i : SpillIn) (area : List (Nat × Nat)) :
    (s.spillFlits t v i area).flatMap (·.data) = i.data := by
  simp only [State.spillFlits, List.flatMap_map]
  exact flitsFrom_data _ _ _ _ _

theorem spillFlits_mem {s : State} {t : TileId} {v : Nat} {i : SpillIn} {area : List (Nat × Nat)} {g : Flit}
    (h : g ∈ s.spillFlits t v i area) : g.vc = 5 ∧ g.ty = .spill ∧ g.dst = v ∧ g.src = t.val := by
  obtain ⟨f, hf, rfl⟩ := List.mem_map.1 h
  obtain ⟨hvc, hty, hdst, hsrc, -⟩ := flitsFrom_mem hf
  exact ⟨hvc, hty, hdst, hsrc⟩

section
variable {s : State} {t r : TileId} {q : Fin 32} {i : SpillIn} {segs : List (Nat × Nat)}

/-- The tile once the record has been made, before the transfer leaves those that come in. -/
def Tile.recording (x : Tile) (i : SpillIn) (segs : List (Nat × Nat)) : Tile :=
  { x with
    spilled := x.spilled ++ [⟨i.dest.buf.val, i.dest.slot.val, i.src.val, segs, i.len, i.dest.ctr, false⟩],
    episodes := x.episodes.map (fun e => if e.1 = i.dest.buf.val then (e.1, true) else e) }

/-- The bytes of a recorded transfer go to the overflow area: a request to the tile's own vault, or to its partner's. -/
def State.spillOut (s : State) (t : TileId) (i : SpillIn) (v : Nat) (area : List (Nat × Nat)) : State :=
  if v = t.val then s.vaultAsk v ⟨false, false, .spill, 0, i.len, area, 0, i.data, i.bad⟩
  else s.pushFlits t.val 4 5 (s.spillFlits t v i area)

/-- A transfer to a slot that is filled stays in the overflow area. -/
theorem recordSpill_filled (hfilled : ((s.tile t.val).slot i.dest.buf i.dest.slot).st = .filled) : s.recordSpill t i segs
    = (s.setTile t.val ((s.tile t.val).recording i segs)).spillOut t i (s.overVault t.val) (s.overSegs t.val segs) := by
  have hslot (w : State) (hw : (w.tile t.val).slots = (s.tile t.val).slots) :
      ((w.tile t.val).slot i.dest.buf i.dest.slot).st = .filled := by rw [← hfilled, Tile.slot, hw, Tile.slot]
  have hout := hslot ((s.setTile t.val ((s.tile t.val).recording i segs)).spillOut t i (s.overVault t.val) (s.overSegs t.val segs)) (by
    unfold State.spillOut
    split
    · next hv => simp [State.vaultAsk, hv, Tile.recording]
    · show ((s.setTile t.val ((s.tile t.val).recording i segs)).tile t.val).slots = _
      rw [State.tile_setTile_same]
      rfl)
  have heq : s.recordSpill t i segs
      = let w := (s.setTile t.val ((s.tile t.val).recording i segs)).spillOut t i (s.overVault t.val) (s.overSegs t.val segs)
        let st := ((w.tile t.val).slot i.dest.buf.val i.dest.slot.val).st
        if st = .avail || st = .returning then
          match (w.tile t.val).spilled.find? (fun p => p.buf = i.dest.buf.val && !p.moving) with
          | some p => w.refill t i.dest.buf.val i.dest.slot.val p
          | none => w
        else w := rfl
  rw [heq]
  simp only [hout, reduceCtorEq, decide_false, Bool.or_self, Bool.false_eq_true, if_false]

/-- A spilled transfer that has come in whole while its slot is filled is recorded, and written to the overflow area. -/
theorem spilledTransferArrival_eq (hone : (s.tile t.val).spillIn = [i]) (hsrc : i.src = r) (hq : i.q = q.val)
    (hwhole : i.len ≤ i.data.length) (hroom : s.overRoom t.val i.len = some segs)
    (hfilled : ((s.tile t.val).slot i.dest.buf i.dest.slot).st = .filled) :
    exec (.spilledTransferArrival t r q) s
      = done ((s.setTile t.val ({ (s.tile t.val).recording i segs with spillIn := [] } : Tile)).spillOut t i (s.overVault t.val)
          (s.overSegs t.val segs)) := by
  have hfind : (s.tile t.val).spillIn.find? (fun i => i.src = r && i.q = q.val && decide (i.len ≤ i.data.length)) = some i := by
    simp [hone, hsrc, hq, hwhole]
  have htile : (s.modTile t.val (fun x => { x with spillIn := x.spillIn.erase i })).tile t.val
      = { s.tile t.val with spillIn := [] } := by
    rw [State.modTile_eq, State.tile_setTile_same, hone, List.erase_cons_head]
  have hroom' : (s.modTile t.val (fun x => { x with spillIn := x.spillIn.erase i })).overRoom t.val i.len = some segs := by
    rw [← hroom, State.overRoom, htile]
    rfl
  have hrecord := recordSpill_filled (s := s.modTile t.val (fun x => { x with spillIn := x.spillIn.erase i })) (segs := segs)
    (i := i) (t := t) (by rw [htile]; exact hfilled)
  rw [htile, State.modTile_eq, State.setTile_setTile] at hrecord
  simp only [exec, execSpilledTransferArrival, hfind, hroom']
  exact congrArg done hrecord

/-- What the arrival leaves: the record of the transfer, and no other tile changed. -/
def Kept (s u : State) (t : TileId) (i : SpillIn) (segs : List (Nat × Nat)) : Prop :=
  (u.tile t.val).spilled = (s.tile t.val).spilled ++
      [⟨i.dest.buf, i.dest.slot, i.src.val, segs, i.len, i.dest.ctr, false⟩] ∧ (u.tile t.val).spillIn = []
    ∧ ∀ j, j ≠ t.val → u.tile j = s.tile j

section
variable (hone : (s.tile t.val).spillIn = [i]) (hsrc : i.src = r) (hq : i.q = q.val) (hwhole : i.len ≤ i.data.length)
  (hroom : s.overRoom t.val i.len = some segs) (hfilled : ((s.tile t.val).slot i.dest.buf i.dest.slot).st = .filled)
include hone hsrc hq hwhole hroom hfilled

/-- Into the tile's own vault it goes as a request from the network. -/
theorem spilledTransferArrival_own (hb : s.bounded) (hown : s.overVault t.val = t.val) :
    Gives (.spilledTransferArrival t r q) s (fun u => u = { s with tiles := u.tiles } ∧ Kept s u t i segs
      ∧ (u.tile t.val).vreqs = (s.tile t.val).vreqs
          ++ [⟨false, false, .spill, 0, i.len, s.overSegs t.val segs, 0, i.data, i.bad⟩]) := by
  have hmade := ((TileMade.refl t s).setTile ({ (s.tile t.val).recording i segs with spillIn := [] } : Tile)).modTile
    (fun x => { x with vreqs := x.vreqs ++ [⟨false, false, .spill, 0, i.len, s.overSegs t.val segs, 0, i.data, i.bad⟩] })
  refine gives_of_only hb ((spilledTransferArrival_eq hone hsrc hq hwhole hroom hfilled).trans ?_) hmade.only
    ⟨hmade.only.1, ⟨?_, ?_, hmade.only.2⟩, ?_⟩
  · rw [hown, State.spillOut, if_pos rfl]
    rfl
  · rw [hmade.tile]
    rfl
  · rw [hmade.tile]
  · rw [hmade.tile]
    rfl

/-- Into the partner's it goes on VC5. -/
theorem spilledTransferArrival_partner (hb : s.bounded) (hpartner : s.overVault t.val ≠ t.val) :
    Gives (.spilledTransferArrival t r q) s (fun u => Kept s u t i segs ∧ (u.tile t.val).vreqs = (s.tile t.val).vreqs
      ∧ ∃ fs : List Flit, (u.router t.val).buf 4 5 = (s.router t.val).buf 4 5 ++ fs ∧ fs.flatMap (·.data) = i.data
        ∧ ∀ f ∈ fs, f.vc = 5 ∧ f.ty = .spill ∧ f.dst = s.overVault t.val ∧ f.src = t.val) := by
  have hmade := (TileMade.refl t s).setTile ({ (s.tile t.val).recording i segs with spillIn := [] } : Tile)
  have heq := spilledTransferArrival_eq hone hsrc hq hwhole hroom hfilled
  rw [State.spillOut, if_neg hpartner] at heq
  have hrouter : (s.setTile t.val ({ (s.tile t.val).recording i segs with spillIn := [] } : Tile)).router t.val
      = s.router t.val := rfl
  have hbounded := only_bounded hb hmade.only
  have hvreqs : ((s.setTile t.val ({ (s.tile t.val).recording i segs with spillIn := [] } : Tile)).tile t.val).vreqs
      = (s.tile t.val).vreqs := by rw [hmade.tile]; rfl
  generalize s.setTile t.val ({ (s.tile t.val).recording i segs with spillIn := [] } : Tile) = w at *
  refine ⟨_, heq.trans (done_bounded (bounded_congr hbounded rfl rfl)),
    ⟨congrArg Tile.spilled hmade.tile, congrArg Tile.spillIn hmade.tile, hmade.only.2⟩, hvreqs, _,
    (pushFlits_buf w t.val 4 5 _).trans (by rw [hrouter]), ?_, fun g hg => ?_⟩
  · rw [entering_data, spillFlits_data]
  · obtain ⟨f, hf, rfl⟩ := entering_mem hg
    have hheader := spillFlits_mem hf
    exact hheader

end

end

/-! Remote reads (R107, R110, R137). -/

section
variable {s : State} {t r : TileId} {id off space : Nat} {segs : List (Nat × Nat)}

/-- The only tile that has state is r, and a remote read has come to it. -/
def Asked (s : State) (t r : TileId) (id off space : Nat) (segs : List (Nat × Nat)) : Prop :=
  s.tiles = [(r.val, { s.tile r.val with inbox := [.readRequest t id off space segs] })]

theorem Asked.inbox (h : Asked s t r id off space segs) : (s.tile r.val).inbox = [.readRequest t id off space segs] := by
  have htile : s.tile r.val = { s.tile r.val with inbox := [.readRequest t id off space segs] } := by
    conv_lhs => rw [State.tile, show s.tiles = _ from h]
    simp [mget, mfind]
  rw [htile]

theorem remoteReadRequest_eq (h : Asked s t r id off space segs) : exec (.remoteReadRequest t id) s
    = done (if space = 2 && s.vaultPass r.val then s
        else (s.setTile r.val { s.tile r.val with inbox := [] }).serveRemote r t.val id off space segs) := by
  have hfin : Fin.ofNat 6912 r.val = r := Fin.ext (Nat.mod_eq_of_lt r.isLt)
  have htiles : s.tiles = [(r.val, { s.tile r.val with inbox := [.readRequest t id off space segs] })] := h
  simp only [exec, execRemoteReadRequest, htiles, List.findSome?_cons, decide_true, Bool.and_self, List.find?_cons_of_pos,
    Option.map_some, hfin, State.modTile_eq, h.inbox, List.erase_cons_head]

/-- One of SRAM waits for its banks (R107). -/
theorem remoteReadRequest_sram (hb : s.bounded) (h : Asked s t r id off 3 segs) : Gives (.remoteReadRequest t id) s (fun u =>
    (u.tile r.val).inbox = [] ∧ u.mems = s.mems ∧ (u.tile r.val).accs = (s.tile r.val).accs
      ++ [⟨.reply t.val id off 0 segs, banksOf false (piecesOf segs 0 128), 0⟩]) := by
  have hmade := ((TileMade.refl r s).setTile { s.tile r.val with inbox := [] }).modTile
    (fun x => x.addAccess (.reply t.val id off 0 segs) (piecesOf segs 0 128))
  refine gives_of_only hb ((remoteReadRequest_eq h).trans ?_) hmade.only ⟨?_, rfl, ?_⟩
  · rfl
  · rw [hmade.tile]
    rfl
  · rw [hmade.tile]
    rfl

/-- One of a vault goes to its interface, and waits while the vaults of its region retrain (R110, R183). -/
theorem remoteReadRequest_vault (hb : s.bounded) (h : Asked s t r id off 2 segs) (hpass : s.vaultPass r.val = false) :
    Gives (.remoteReadRequest t id) s (fun u => (u.tile r.val).inbox = [] ∧ (u.tile r.val).vreqs = (s.tile r.val).vreqs
      ++ [⟨false, true, .move t.val id, off, (segs.map (·.2)).sum, segs, 0, [], []⟩]) := by
  have hmade := ((TileMade.refl r s).setTile { s.tile r.val with inbox := [] }).modTile
    (fun x => { x with vreqs := x.vreqs ++ [⟨false, true, .move t.val id, off, (segs.map (·.2)).sum, segs, 0, [], []⟩] })
  refine gives_of_only hb ((remoteReadRequest_eq h).trans ?_) hmade.only ⟨?_, ?_⟩
  · simp only [hpass, Bool.and_false, Bool.false_eq_true, if_false]
    rfl
  all_goals rw [hmade.tile]

theorem remoteReadRequest_waits (hb : s.bounded) (h : Asked s t r id off 2 segs) (hpass : s.vaultPass r.val = true) :
    exec (.remoteReadRequest t id) s = .next s := by
  rw [remoteReadRequest_eq h]
  simp only [hpass, decide_true, Bool.and_self, if_true]
  exact done_bounded hb

theorem gather_length (u : MemUnit) : (s.gather u segs).length = (segs.map (·.2)).sum := by
  simp [State.gather, State.bytes, List.length_flatMap]

/-- Ranges of no more than n bytes are all among their first n bytes. -/
theorem gather_pieces (u : MemUnit) {n : Nat} (hn : (segs.map (·.2)).sum ≤ n) :
    s.gather u (piecesOf segs 0 n) = s.gather u segs := by
  induction segs generalizing n with
  | nil => rfl
  | cons g rest ih =>
    obtain ⟨a, l⟩ := g
    have hrest : (rest.map (·.2)).sum ≤ n - l ∧ l ≤ n := by
      simp only [List.map_cons, List.sum_cons] at hn
      omega
    obtain ⟨hrest, hl⟩ := hrest
    have hhead : s.gather u ((a, l) :: rest) = s.bytes u a l ++ s.gather u rest := rfl
    rw [hhead, ← ih hrest, piecesOf]
    by_cases hzero : l = 0
    · subst hzero
      have hnone : s.bytes u a 0 = [] := rfl
      rw [hnone, List.nil_append]
      split
      · next h => rw [h]; cases rest <;> rfl
      · rw [if_pos (Nat.le_refl 0)]
        rfl
    · rw [if_neg (by omega), if_neg (by omega), Nat.sub_zero, Nat.min_eq_right hl]
      rfl

/-- The bytes of a remote read of SRAM go back on VC5, 128 at a time. -/
theorem replyStep_one (hclean : (s.mem (.sram r)).errs = []) (hpos : 0 < (s.gather (.sram r) segs).length)
    (hmost : (s.gather (.sram r) segs).length ≤ 128) :
    let u := s.replyStep r t.val id off 0 segs
    u.tiles = s.tiles ∧ SentOn s u r.val 5 (fun f => f.ty = .response ∧ f.dst = t.val ∧ f.xid = id ∧ f.off = off
      ∧ f.head = true ∧ f.tail = true ∧ f.data = s.gather (.sram r) segs) := by
  have hsum := gather_length (s := s) (segs := segs) (.sram r)
  have hbytes := gather_pieces (s := s) (segs := segs) (.sram r) (n := 128) (by omega)
  have hone : ((s.gather (.sram r) segs).length + 127) / 128 = 1 := by omega
  have hdata : (s.gather (.sram r) segs).take 128 = s.gather (.sram r) segs := List.take_of_length_le hmost
  have hlast : (segs.map (·.2)).sum ≤ 0 + 128 := by omega
  simp only [State.replyStep, State.touchSegs_clean hclean, gatherBad_clean hclean, hbytes, hlast, if_true]
  refine ⟨rfl, _, (pushFlits_buf s r.val 4 5 _).trans (by rw [flitsFrom, hone]; rfl), rfl, rfl, rfl, rfl, rfl, rfl, rfl,
    rfl, hdata⟩

end

/-- Settles O21: the request, the grant, the arrival of a spill and the remote reads are a lemma each. -/
theorem spillsAndRemoteReads : Obligations.SpillsAndRemoteReads := by
  intro s t r q z src route since dest p i segs off hb _
  refine ⟨fun hput hpart hdest hinside hfirst hsince hasked => ?_, fun hinbox hpart hreset hdown => ?_,
    fun hone hsrc hq hwhole hroom hfilled => ?_, remoteReadRequest_sram hb,
    fun h => ⟨remoteReadRequest_vault hb h, remoteReadRequest_waits hb h⟩, replyStep_one⟩
  · have hawaits : AwaitsCredit s t q z src route since dest p := ⟨hput, hpart, hinside, hfirst, hsince, hasked⟩
    subst hdest
    exact ⟨spillRequest_asks hb hawaits, spillRequest_waits hb hawaits⟩
  · exact ⟨spillGrant_begins hinbox hpart hreset hdown, spillGrant_goesOn hb hinbox hpart hreset⟩
  · subst hsrc
    refine ⟨fun hown => ?_, spilledTransferArrival_partner hone rfl hq hwhole hroom hfilled hb⟩
    rw [hown]
    exact spilledTransferArrival_own hone rfl hq hwhole hroom hfilled hb hown

end Sys2Proof.Machine
end

section
/-! SUPPORT. What a router holds after a flit has left it, and what the next one holds after a link (O22, O23). -/
namespace Sys2Proof.Machine

/-! The buffers of a router (R138). -/

theorem bufKey_ne_of_vc {p q v w : Nat} (hv : v < 8) (hw : w < 8) (h : v ≠ w) : bufKey p v ≠ bufKey q w := by
  simp only [bufKey]
  omega

theorem bufKey_ne_of_port {p q v w : Nat} (hv : v < 8) (hw : w < 8) (h : p ≠ q) : bufKey p v ≠ bufKey q w := by
  simp only [bufKey]
  omega

theorem setBuf_buf_ne (r : Router) {p v q w : Nat} (fs : List Flit) (h : bufKey q w ≠ bufKey p v) :
    (r.setBuf p v fs).buf q w = r.buf q w := by
  unfold Router.buf Router.setBuf putFlits
  split
  · rw [mget_mdel, if_neg h]
  · exact mget_mset_ne _ h _ _

theorem neighbour_ne {t d u : Nat} (h : neighbour t d = some u) : u ≠ t := by
  rintro rfl
  unfold neighbour at h
  split at h
  case h_5 => cases h
  all_goals
    split at h
    · next hin =>
      simp only [tileX, tileY, Option.some.injEq] at hin h
      omega
    · cases h

/-! From one state of a router to the next. -/

/-- From s to u nothing has changed but router t, which has become x. -/
structure RouterMade (t : Nat) (s u : State) (x : Router) : Prop where
  frame : u = { s with routers := u.routers }
  others : ∀ j, j ≠ t → u.router j = s.router j
  router : u.router t = x

namespace RouterMade
variable {t : Nat} {s u : State} {x : Router}

theorem refl (t : Nat) (s : State) : RouterMade t s s (s.router t) := ⟨rfl, fun _ _ => rfl, rfl⟩

theorem setRouter (h : RouterMade t s u x) (y : Router) : RouterMade t s (u.setRouter t y) y :=
  ⟨by rw [h.frame]; rfl, fun j hj => (State.router_setRouter_ne u hj y).trans (h.others j hj),
    State.router_setRouter_same _ _ _⟩

theorem modRouter (h : RouterMade t s u x) (f : Router → Router) : RouterMade t s (u.modRouter t f) (f x) := by
  rw [State.modRouter_eq, h.router]
  exact h.setRouter _

/-- What a state holds beside its routers is as before. -/
theorem ofState {α : Type} (h : RouterMade t s u x) (f : State → α) (hf : ∀ s rs, f { s with routers := rs } = f s) :
    f u = f s := by
  rw [h.frame]
  exact hf _ _

theorem netOf (h : RouterMade t s u x) (j : Nat) : u.netOf j = s.netOf j := h.ofState (State.netOf · j) (fun _ _ => rfl)

theorem region (h : RouterMade t s u x) (j : Nat) : u.region j = s.region j := h.ofState (State.region · j) (fun _ _ => rfl)

theorem count (h : RouterMade t s u x) (i b n : Nat) : u.count i b n = s.count i b n :=
  h.ofState (State.count · i b n) (fun _ _ => rfl)

end RouterMade

/-- A router from which the oldest flit of an input has gone in net cycle n. -/
def Router.popped (r : Router) (port vc n : Nat) : Router :=
  let fs := enterEighth n ((r.buf port vc).drop 1)
  { r.setBuf port vc fs with
    since := if fs = [] then mdel (bufKey port vc) r.since else mset (bufKey port vc) n r.since,
    paused := mdel (bufKey port vc) r.paused }

theorem RouterMade.popFlit {t : Nat} {s u : State} {x : Router} (h : RouterMade t s u x) (port vc : Nat) :
    RouterMade t s (u.popFlit t port vc) (x.popped port vc (s.netOf t)) := by
  rw [← h.netOf, ← h.router]
  exact h.setRouter _

theorem popped_buf (r : Router) (port vc n : Nat) :
    (r.popped port vc n).buf port vc = enterEighth n ((r.buf port vc).drop 1) := setBuf_buf r _ _ _

theorem popped_buf_ne (r : Router) {port vc p v : Nat} (n : Nat) (h : bufKey p v ≠ bufKey port vc) :
    (r.popped port vc n).buf p v = r.buf p v := setBuf_buf_ne r _ h

/-! A flit on a link (R133, R138, R164). -/

theorem pushFlits_router_ne (s : State) {t j : Nat} (port vc : Nat) (fs : List Flit) (h : j ≠ t) :
    (s.pushFlits t port vc fs).router j = s.router j := State.router_setRouter_ne _ h _

section
variable {s : State} {t o u : Nat} {f : Flit} (ho : o < 4) (hn : neighbour t o = some u)
  (hup : (s.region (regionOf u)).netUp = true)
include ho hn hup

theorem sendFlit_link : s.sendFlit t o f = ((s.bump 0x7300 (o + 1) t 1).pushFlits u (opposite o) f.vc.val [f]).modRouter u
    (fun r => { r with got := mset (opposite o) (s.netOf u) r.got }) := by
  have hup' : ((s.bump 0x7300 (o + 1) t 1).region (regionOf u)).netUp = true := hup
  simp only [State.sendFlit, if_neg (Nat.ne_of_lt ho), hn, State.linkFlit, hup', if_true]
  rfl

/-- Only the neighbour's router changes. -/
theorem sendFlit_router_ne {j : Nat} (hj : j ≠ u) : (s.sendFlit t o f).router j = s.router j := by
  rw [sendFlit_link ho hn hup, State.modRouter_eq, State.router_setRouter_ne _ hj, pushFlits_router_ne _ _ _ _ hj]
  rfl

/-- The flit stands last at the neighbour's input. -/
theorem sendFlit_buf : ((s.sendFlit t o f).router u).buf (opposite o) f.vc.val
    = (s.router u).buf (opposite o) f.vc.val ++ [{ f with came := s.netOf u }] := by
  rw [sendFlit_link ho hn hup, State.modRouter_eq, State.router_setRouter_same]
  exact pushFlits_buf (s.bump 0x7300 (o + 1) t 1) u (opposite o) f.vc.val [f]

theorem sendFlit_count (i b n : Nat) :
    (s.sendFlit t o f).count i b n = (s.bump 0x7300 (o + 1) t 1).count i b n := by
  rw [sendFlit_link ho hn hup]
  rfl

end

end Sys2Proof.Machine
end

section
/-! SUPPORT. What a router bids depends on how often a flit has been received badly, and not on whether a count of none is
listed (O22, O25). -/
namespace Sys2Proof.Machine

/-- From s to u nothing has changed but how the counts of failed receptions are listed; each reads as before (R136). -/
structure SameCounts (s u : State) : Prop where
  frame : u = { s with routers := u.routers }
  router : ∀ j, u.router j = { s.router j with replays := (u.router j).replays }
  replays : ∀ j k, mget 0 (u.router j).replays k = mget 0 (s.router j).replays k

/-- A router without the count of an input. -/
def State.cleared (s : State) (t k : Nat) : State := s.modRouter t (fun r => { r with replays := mdel k r.replays })

theorem sameCounts_cleared {s : State} {t k : Nat} (h : mget 0 (s.router t).replays k = 0) : SameCounts s (s.cleared t k) := by
  have hrouter (j : Nat) : (s.cleared t k).router j
      = if j = t then { s.router t with replays := mdel k (s.router t).replays } else s.router j :=
    State.router_setRouter _ _ _ _
  refine ⟨rfl, fun j => ?_, fun j i => ?_⟩
  · rw [hrouter]
    split
    · next hj => rw [hj]
    · rfl
  · rw [hrouter]
    split
    · next hj =>
      rw [hj, mget_mdel]
      split
      · next hi => rw [hi, h]
      · rfl
    · rfl

namespace SameCounts
variable {s u : State} (h : SameCounts s u)
include h

theorem ofRouter {α : Type} (f : Router → α) (hf : ∀ r m, f { r with replays := m } = f r) (j : Nat) :
    f (u.router j) = f (s.router j) := by
  rw [h.router j]
  exact hf _ _

theorem ofState {α : Type} (f : State → α) (hf : ∀ s rs, f { s with routers := rs } = f s) : f u = f s := by
  rw [h.frame]
  exact hf _ _

theorem buf (j port vc : Nat) : (u.router j).buf port vc = (s.router j).buf port vc := h.ofRouter (·.buf port vc) (fun _ _ => rfl) j
theorem entry (j p route : Nat) : (u.router j).entry p route = (s.router j).entry p route :=
  h.ofRouter (·.entry p route) (fun _ _ => rfl) j
theorem dec (j : Nat) : (u.router j).dec = (s.router j).dec := h.ofRouter Router.dec (fun _ _ => rfl) j
theorem dead (j : Nat) : (u.router j).dead = (s.router j).dead := h.ofRouter Router.dead (fun _ _ => rfl) j
theorem sent (j : Nat) : (u.router j).sent = (s.router j).sent := h.ofRouter Router.sent (fun _ _ => rfl) j
theorem drops (j k : Nat) : (u.router j).drops? k = (s.router j).drops? k := h.ofRouter (·.drops? k) (fun _ _ => rfl) j
theorem netOf (j : Nat) : u.netOf j = s.netOf j := h.ofState (State.netOf · j) (fun _ _ => rfl)
theorem flushes (t p : Nat) : u.flushes t p = s.flushes t p := h.ofRouter (·.flushing.contains p) (fun _ _ => rfl) t
theorem broadcastMask (t : Nat) : u.broadcastMask t = s.broadcastMask t := h.ofState (State.broadcastMask · t) (fun _ _ => rfl)

theorem ageNow (t : Nat) (f : Flit) : u.ageNow t f = s.ageNow t f := by
  rw [State.ageNow, h.netOf, State.ageNow]

theorem plan (t port vc : Nat) (f : Flit) : u.plan t port vc f = s.plan t port vc f := by
  have hnext : u.nextDir t f.dst = s.nextDir t f.dst := h.ofState (State.nextDir · t f.dst) (fun _ _ => rfl)
  simp only [State.plan, State.headPlan, h.flushes, h.drops, h.entry, h.dec, hnext]

theorem outRefusal (t out : Nat) (f : Flit) : u.outRefusal t out f = s.outRefusal t out f := by
  have hlocal : u.localRefusal t f = s.localRefusal t f := h.ofState (State.localRefusal · t f) (fun _ _ => rfl)
  simp only [State.outRefusal, hlocal, h.dead]

theorem room (t out vc : Nat) (f : Flit) : u.room t out vc f = s.room t out vc f := by
  have hlocal : u.localRoom t f = s.localRoom t f := h.ofState (State.localRoom · t f) (fun _ _ => rfl)
  have hgate : (u.router t).gateBuf out vc = (s.router t).gateBuf out vc := h.ofRouter (·.gateBuf out vc) (fun _ _ => rfl) t
  have hgot (j : Nat) : (u.router j).got = (s.router j).got := h.ofRouter Router.got (fun _ _ => rfl) j
  simp only [State.room, hlocal, h.buf, hgate, hgot, h.netOf]

theorem canSend (t out vc who : Nat) (f : Flit) : u.canSend t out vc who f = s.canSend t out vc who f := by
  have hlock : (u.router t).lock = (s.router t).lock := h.ofRouter Router.lock (fun _ _ => rfl) t
  simp only [State.canSend, hlock, h.room]

theorem inputBid (t port vc : Nat) : u.inputBid t port vc = s.inputBid t port vc := by
  simp only [State.inputBid, h.buf, h.replays, h.plan, h.outRefusal, h.canSend, h.ageNow, h.dec]

theorem castBids (t port : Nat) : u.castBids t port = s.castBids t port := by
  simp only [State.castBids, h.broadcastMask, h.dead, h.buf, h.canSend, h.ageNow]

theorem routeEnd (part route vc n t : Nat) : u.routeEnd part route vc n t = s.routeEnd part route vc n t := by
  induction n generalizing t with
  | zero => rfl
  | succ n ih => simp only [State.routeEnd, h.entry, ih]

theorem leafCredit (t : Nat) (d : Hold) (f : Flit) : (u.leafCredit t d f).isNone = (s.leafCredit t d f).isNone := by
  have hdest : u.leafDest t d.out f = s.leafDest t d.out f := by
    simp only [State.leafDest, State.branchEnd, h.routeEnd]
  have htake (x : Dest) : (u.takeSlot x t true true).isNone = (s.takeSlot x t true true).isNone := by
    have htile : u.tile x.tile.val = s.tile x.tile.val := h.ofState (State.tile · x.tile.val) (fun _ _ => rfl)
    simp only [State.takeSlot, htile]
    split <;> rfl
  simp only [State.leafCredit, hdest]
  split
  · split
    · exact htake _
    · rfl
  · rfl

theorem holdBid (t : Nat) (d : Hold) : u.holdBid t d = s.holdBid t d := by
  simp only [State.holdBid, h.drops, h.outRefusal, h.leafCredit, h.canSend, h.ageNow]

theorem operandFlit (t p route port : Nat) : u.operandFlit t p route port = s.operandFlit t p route port := by
  simp only [State.operandFlit, h.buf, h.drops, h.replays]

theorem mergeBid (t p route : Nat) : u.mergeBid t p route = s.mergeBid t p route := by
  have hmerging : (u.router t).merging = (s.router t).merging := h.ofRouter Router.merging (fun _ _ => rfl) t
  have hready : u.mergeReady t p route = s.mergeReady t p route := by
    simp only [State.mergeReady, State.newMerge, h.flushes, h.operandFlit, hmerging, h.entry, h.ageNow]
  simp only [State.mergeBid, hready, h.drops, h.outRefusal, h.canSend]

theorem bids (t : Nat) : u.bids t = s.bids t := by
  have hholds : (u.router t).holds = (s.router t).holds := h.ofRouter Router.holds (fun _ _ => rfl) t
  have hmerges : (u.router t).mergesHere = (s.router t).mergesHere := h.ofRouter Router.mergesHere (fun _ _ => rfl) t
  simp only [State.bids, hholds, hmerges, funext (h.inputBid t _), h.castBids, funext (h.holdBid t), h.mergeBid]

theorem wins (t : Nat) (b : Bid) : u.wins t b = s.wins t b := by
  simp only [State.wins, h.bids, h.sent, h.netOf]

end SameCounts

end Sys2Proof.Machine
end

section
/-! SUPPORT. A flit that a router receives: granted, withheld, refused or received badly (O22). -/
namespace Sys2Proof.Machine

section
variable {s : State} {t u : TileId} {port : Fin 5} {vc : Fin 6} {o : Nat} {f : Flit} {rest : List Flit}

/-- A head flit of VC1 to VC4 stands first at an input of a powered router that does not flush its partition. -/
structure HeadWaits (s : State) (t : TileId) (port : Fin 5) (vc : Fin 6) (f : Flit) (rest : List Flit) : Prop where
  up : (s.region (regionOf t.val)).netUp = true
  buf : (s.router t.val).buf port vc = f :: rest
  head : f.head = true
  first : 1 ≤ vc.val
  last : vc.val ≤ 4
  same : f.vc = vc
  kept : s.flushes t.val f.part.val = false

/-- An even count of failed receptions: no replay is awaited (R136). -/
theorem flitReceive_good (hup : (s.region (regionOf t.val)).netUp = true) (hbuf : (s.router t.val).buf port vc = f :: rest)
    (hzero : mget 0 (s.router t.val).replays (bufKey port vc) = 0) : exec (.flitReceive t port vc true) s
      = done ((s.cleared t.val (bufKey port vc)).routeFlit t.val port vc f) := by
  simp only [exec, execFlitReceive, hup, hbuf, hzero, Nat.zero_mod, Nat.zero_ne_one, Bool.not_true, Bool.false_and,
    Bool.false_eq_true, if_false]
  rfl

theorem flitReceive_bad (hup : (s.region (regionOf t.val)).netUp = true) (hbuf : (s.router t.val).buf port vc = f :: rest)
    (heven : mget 0 (s.router t.val).replays (bufKey port vc) % 2 = 0) (hn : neighbour t.val port.val = some u.val) :
    exec (.flitReceive t port vc false) s = done (s.badCrc t.val port vc) := by
  simp only [exec, execFlitReceive, hup, hbuf, heven, hn, Nat.zero_ne_one, Option.isSome_some, Bool.not_true, Bool.not_false,
    Bool.and_self, Bool.false_eq_true, if_false, if_true]

namespace HeadWaits
variable (h : HeadWaits s t port vc f rest)
include h

/-- It is routed by its entry (R142, R143). -/
theorem plan (hdrops : (s.router t.val).drops? (dropKey port vc 7) = false) : s.plan t.val port vc f
    = let e := (s.router t.val).entry f.part f.route
      if !entryOk e vc then .refuse refuseNoRoute
      else if entryMerge e then (if (entryOperands e).contains port.val then .merge else .refuse refuseNoRoute)
      else planOf (entryOuts e) (if vc.val = 2 then (entryOuts e).filter (entryLeaf e) else []) := by
  have hfirst := h.first
  have hlast := h.last
  have hcast : f.isCast = false := by
    have hvc : f.vc ≠ 0 := by
      rw [h.same]
      rintro rfl
      exact absurd hfirst (by decide)
    simp [Flit.isCast, hvc]
  have hnot0 : vc.val ≠ 0 := by omega
  have hnot5 : vc.val ≠ 5 := by omega
  simp only [State.plan, State.headPlan, h.kept, hdrops, h.head, hcast, hnot0, hnot5, decide_false, Bool.false_and,
    Bool.or_self, Bool.false_eq_true, if_false, if_true]

end HeadWaits

/-- Where a head flit goes by one link that takes it now. -/
structure GoesOn (s : State) (t u : TileId) (port : Fin 5) (vc : Fin 6) (o : Nat) (f : Flit) : Prop where
  plan : s.plan t.val port vc f = .one o
  link : o < 4
  neighbour : neighbour t.val o = some u.val
  alive : (s.router t.val).dead.contains o = false
  credit : s.canSend t.val o vc port f = true
  far : (s.region (regionOf u.val)).netUp = true

/-- What it bids (R139). -/
def State.headBid (s : State) (t : TileId) (port : Fin 5) (vc : Fin 6) (o : Nat) (f : Flit) : Bid :=
  ⟨o, port.val, rankOf vc.val (s.ageNow t.val f) port.val false⟩

theorem HeadWaits.goesOn (h : HeadWaits s t port vc f rest) (hdrops : (s.router t.val).drops? (dropKey port vc 7) = false)
    (hok : entryOk ((s.router t.val).entry f.part f.route) vc = true)
    (hmerge : entryMerge ((s.router t.val).entry f.part f.route) = false)
    (houts : entryOuts ((s.router t.val).entry f.part f.route) = [o])
    (hleaf : entryLeaf ((s.router t.val).entry f.part f.route) o = false) (ho : o < 4)
    (hn : Machine.neighbour t.val o = some u.val) (hdead : (s.router t.val).dead.contains o = false)
    (hsend : s.canSend t.val o vc port f = true) (hfar : (s.region (regionOf u.val)).netUp = true) :
    GoesOn s t u port vc o f := by
  refine ⟨(h.plan hdrops).trans ?_, ho, hn, hdead, hsend, hfar⟩
  have hfilter : [o].filter (entryLeaf ((s.router t.val).entry f.part f.route)) = [] := by simp [hleaf]
  simp only [hok, hmerge, houts, hfilter, ite_self, Bool.not_true, Bool.false_eq_true, if_false]
  rfl

/-- A router whose input has handed a flit on to an output in net cycle n (R134, R142). -/
def Router.handedOn (r : Router) (port vc o n age : Nat) (f : Flit) : Router :=
  { r.sentBy o port n f with
    dec := if f.tail then mdel (bufKey port vc) r.dec else mset (bufKey port vc) ⟨f.part.val, [o], [], age⟩ r.dec }

/-- The flit has left its input, stands at its neighbour's, and is counted. -/
def Forwarded (s w : State) (t u : TileId) (port : Fin 5) (vc : Fin 6) (o : Nat) (f : Flit) (rest : List Flit) : Prop :=
  (w.router t.val).buf port vc = enterEighth (s.netOf t.val) rest
    ∧ (w.router u.val).buf (opposite o) vc = (s.router u.val).buf (opposite o) vc ++
        [{ f with age := s.ageNow t.val f, came := s.netOf u.val }]
    ∧ mfind o (w.router t.val).sent = some (s.netOf t.val)
    ∧ w.count 0x7300 (o + 1) t.val = s.count 0x7300 (o + 1) t.val + 1

namespace GoesOn
variable (g : GoesOn s t u port vc o f)
include g

theorem outRefusal : s.outRefusal t.val o f = none := by
  have hne : o ≠ 4 := Nat.ne_of_lt g.link
  simp only [State.outRefusal, hne, g.alive, Bool.false_eq_true, if_false]

theorem inputBid (h : HeadWaits s t port vc f rest) (hzero : mget 0 (s.router t.val).replays (bufKey port vc) = 0) :
    s.inputBid t.val port vc = some (s.headBid t port vc o f) := by
  simp only [State.inputBid, h.buf, hzero, g.plan, g.outRefusal, g.credit, h.head, Nat.zero_mod, Nat.zero_ne_one, Option.isNone_none,
    Bool.and_self, if_false, if_true]
  rfl

/-- It is sent if its output grants it, and else stays. -/
theorem receive_eq (h : HeadWaits s t port vc f rest) (hzero : mget 0 (s.router t.val).replays (bufKey port vc) = 0) :
    exec (.flitReceive t port vc true) s = done (
      let c := s.cleared t.val (bufKey port vc)
      if s.wins t.val (s.headBid t port vc o f) then c.forward t.val port vc o f else c) := by
  have hsame := sameCounts_cleared hzero
  rw [flitReceive_good h.up h.buf hzero]
  generalize s.cleared t.val (bufKey port vc) = c at hsame
  simp only [State.routeFlit, hsame.plan, g.plan, State.routeUnicast, hsame.outRefusal, g.outRefusal, hsame.inputBid,
    g.inputBid h hzero, hsame.wins]

theorem forwarded {c : State} {x : Router} (h : HeadWaits s t port vc f rest) (hc : RouterMade t.val s c x)
    (hx : x = { s.router t.val with replays := x.replays }) : Forwarded s (c.forward t.val port vc o f) t u port vc o f rest := by
  have hbuf : x.buf port vc = f :: rest := by
    rw [hx]
    exact h.buf
  have hne : u.val ≠ t.val := neighbour_ne g.neighbour
  have hage : c.ageNow t.val f = s.ageNow t.val f := by simp only [State.ageNow, hc.netOf]
  have hsent := (hc.popFlit port vc).modRouter (·.handedOn port vc o (s.netOf t.val) (s.ageNow t.val f) f)
  have hforward : c.forward t.val port vc o f
      = ((c.popFlit t.val port vc).modRouter t.val (·.handedOn port vc o (s.netOf t.val) (s.ageNow t.val f) f)).sendFlit
          t.val o { f with age := s.ageNow t.val f } := by
    simp only [State.forward, h.head, if_true, hage, Router.handedOn, hc.netOf]
  rw [hforward]
  generalize (c.popFlit t.val port vc).modRouter t.val _ = p at hsent
  have hfar : (p.region (regionOf u.val)).netUp = true := by rw [hsent.region]; exact g.far
  refine ⟨?_, ?_, ?_, ?_⟩
  · rw [sendFlit_router_ne g.link g.neighbour hfar (Ne.symm hne), hsent.router]
    exact (popped_buf x port vc _).trans (by rw [hbuf]; rfl)
  · have harrived := sendFlit_buf (f := { f with age := s.ageNow t.val f }) g.link g.neighbour hfar
    rw [hsent.others _ hne, hsent.netOf] at harrived
    simpa only [h.same] using harrived
  · rw [sendFlit_router_ne g.link g.neighbour hfar (Ne.symm hne), hsent.router]
    exact (mfind_mset _ _ _ _).trans (if_pos rfl)
  · rw [sendFlit_count g.link g.neighbour hfar, State.count_bump_same, hsent.count]

end GoesOn

end

theorem wins_iff (s : State) (t : Nat) (b : Bid) : s.wins t b = true
    ↔ mfind b.out (s.router t).sent ≠ some (s.netOf t) ∧ ∀ c ∈ s.bids t, c.out = b.out → b.rank ≤ c.rank := by
  simp only [State.wins, Bool.and_eq_true, bne_iff_ne, List.all_eq_true, Bool.or_eq_true, decide_eq_true_eq, ne_eq,
    ← imp_iff_not_or]

section
variable {s : State} {t u : TileId} {port : Fin 5} {vc : Fin 6} {o : Nat} {f : Flit} {rest : List Flit}

section
variable (h : HeadWaits s t port vc f rest) (g : GoesOn s t u port vc o f)
  (hzero : mget 0 (s.router t.val).replays (bufKey port vc) = 0)
include h g hzero

theorem flitReceive_granted (hfree : mfind o (s.router t.val).sent ≠ some (s.netOf t.val))
    (hbest : ∀ b ∈ s.bids t.val, b.out = o → (s.headBid t port vc o f).rank ≤ b.rank) :
    Gives (.flitReceive t port vc true) s (fun w => Forwarded s w t u port vc o f rest) := by
  have hwins : s.wins t.val (s.headBid t port vc o f) = true := (wins_iff _ _ _).2 ⟨hfree, hbest⟩
  have heq := g.receive_eq h hzero
  simp only [hwins, if_true] at heq
  exact ⟨_, heq.trans (done_next _), g.forwarded h ((RouterMade.refl t.val s).modRouter _) rfl⟩

theorem flitReceive_withheld (hlost : mfind o (s.router t.val).sent = some (s.netOf t.val)
      ∨ ∃ b ∈ s.bids t.val, b.out = o ∧ b.rank < (s.headBid t port vc o f).rank) :
    Gives (.flitReceive t port vc true) s (fun w => (w.router t.val).buf port vc = f :: rest
      ∧ (w.router u.val).buf (opposite o) vc = (s.router u.val).buf (opposite o) vc) := by
  have hwins : ¬ s.wins t.val (s.headBid t port vc o f) = true := by
    intro hwin
    obtain ⟨hfree, hbest⟩ := (wins_iff _ _ _).1 hwin
    rcases hlost with hsent | ⟨b, hb, hout, hrank⟩
    · exact hfree hsent
    · exact absurd (hbest b hb hout) (Nat.not_le.2 hrank)
  have heq := g.receive_eq h hzero
  have hsame := sameCounts_cleared hzero
  simp only [hwins] at heq
  exact ⟨_, heq.trans (done_next _), (hsame.buf _ _ _).trans h.buf, hsame.buf _ _ _⟩

end

/-! A packet without a valid entry (R146). -/

theorem pushFlits_buf_ne (s : State) (t : Nat) {port vc p v : Nat} (fs : List Flit) (h : bufKey p v ≠ bufKey port vc) :
    ((s.pushFlits t port vc fs).router t).buf p v = (s.router t).buf p v := by
  unfold State.pushFlits
  dsimp only
  rw [State.router_setRouter_same]
  split <;> exact setBuf_buf_ne _ _ h

/-- A discarded flit leaves its input; of the buffers nothing else changes. -/
theorem discard_made {t : Nat} {s u : State} {x : Router} (h : RouterMade t s u x) (port vc : Nat) (f : Flit) :
    ∃ y, RouterMade t s (u.discard t port vc f) y ∧ y.buf = (x.popped port vc (s.netOf t)).buf := by
  refine ⟨_, (h.popFlit port vc).modRouter _, ?_⟩
  unfold Router.dropRest Router.addDrop Router.delDrop
  split
  · rfl
  · split <;> rfl

/-- A response has been sent to the source of a flit with a code. -/
def Answered (s w : State) (t : TileId) (f : Flit) (code : Nat) : Prop :=
  ∃ a : Flit, (w.router t.val).buf 4 5 = (s.router t.val).buf 4 5 ++ [a] ∧ a.ty = .response ∧ a.dst = f.src ∧ a.xid = f.xid
    ∧ a.data = [BitVec.ofNat 8 code]

/-- A refusal for want of a route is counted and answered, and changes nothing else, where the packet comes from a tile. -/
theorem refuse_noRoute {w : State} {n : Nat} (hty : f.ty ≠ .response) (hedge : f.edge = 0) :
    w.refuse n refuseNoRoute f = (w.bump 0x7300 9 n 1).respond n refuseNoRoute f := by
  have hrefund (v : State) : v.refundSlot n f = v := by
    simp only [State.refundSlot, hedge, bne_self_eq_false, Bool.false_and, Bool.false_eq_true, if_false]
    split <;> rfl
  have hcodes : refuseNoRoute ≠ refuseResetting ∧ refuseNoRoute ≠ refuseUnreachable ∧ refuseNoRoute % 16 = refuseNoRoute := by
    decide
  obtain ⟨hreset, hunreachable, hroute⟩ := hcodes
  simp only [State.refuse, hty, hreset, hunreachable, hroute, decide_false, Bool.false_and, Bool.false_eq_true, if_false, if_true,
    hrefund, State.tellRefusal, hedge, decide_true, Bool.true_or]

theorem flitReceive_noRoute (h : HeadWaits s t port vc f rest)
    (hzero : mget 0 (s.router t.val).replays (bufKey port vc) = 0)
    (hdrops : (s.router t.val).drops? (dropKey port vc 7) = false)
    (hno : entryOk ((s.router t.val).entry f.part f.route) vc = false) (hedge : f.edge = 0) (hty : f.ty ≠ .response) :
    Gives (.flitReceive t port vc true) s (fun w => (w.router t.val).buf port vc = enterEighth (s.netOf t.val) rest
      ∧ w.count 0x7300 9 t.val = s.count 0x7300 9 t.val + 1 ∧ Answered s w t f 4) := by
  have hsame := sameCounts_cleared hzero
  have hmade : RouterMade t.val s (s.cleared t.val (bufKey port vc)) _ := (RouterMade.refl t.val s).modRouter _
  have heq := flitReceive_good h.up h.buf hzero
  have hkey : bufKey port.val vc.val ≠ bufKey 4 5 := by
    have hlast := h.last
    exact bufKey_ne_of_vc (by omega) (by omega) (by omega)
  have hplan : s.plan t.val port vc f = .refuse refuseNoRoute := by
    rw [h.plan hdrops]
    simp only [hno, Bool.not_false, if_true]
  simp only [State.routeFlit, hsame.plan, hplan, State.discardRefuse, refuse_noRoute hty hedge] at heq
  obtain ⟨x, hgone, hx⟩ := discard_made hmade port vc f
  generalize (s.cleared t.val (bufKey port vc)).discard t.val port vc f = p at heq hgone
  have hbuf (q v : Nat) : (p.router t.val).buf q v
      = ({ s.router t.val with replays := mdel (bufKey port vc) (s.router t.val).replays }.popped port vc (s.netOf t.val)).buf q v := by
    rw [hgone.router]
    exact congrFun (congrFun hx q) v
  refine ⟨_, heq.trans (done_next _), ?_, ?_, { answerFlit t.val refuseNoRoute f with came := p.netOf t.val }, ?_, rfl, rfl, rfl,
    rfl⟩
  · refine (pushFlits_buf_ne _ t.val _ hkey).trans ((hbuf _ _).trans ((popped_buf _ _ _ _).trans ?_))
    exact congrArg (fun fs => enterEighth (s.netOf t.val) (fs.drop 1)) h.buf
  · refine (State.count_bump_same p 0x7300 9 t.val 1).trans ?_
    rw [hgone.count]
  · refine (pushFlits_buf (p.bump 0x7300 9 t.val 1) t.val 4 5 _).trans (congrArg (· ++ _) ?_)
    exact (hbuf _ _).trans (popped_buf_ne _ _ (Ne.symm hkey))

end

/-! A flit whose CRC fails (R136). -/

theorem Recorded.router {s u : State} (h : Recorded s u) (t : Nat) : u.router t = s.router t := by
  rw [h.frame]
  rfl

theorem Recorded.part {s u : State} (h : Recorded s u) (p : Nat) : u.part p = s.part p := by
  rw [h.frame]
  rfl

/-- Links found dead stop no partition that has no binary (R162). -/
theorem stopRouted_unloaded {s : State} (h : ∀ q, q < 16 → (s.part q).bin = none) (p : Nat → Bool) (region : Nat) :
    s.stopRouted p region = s := by
  have hstep : ∀ q ∈ List.range 16, s.routesUse q p = false := fun q hq => by
    simp [State.routesUse, h q (List.mem_range.1 hq)]
  unfold State.stopRouted
  generalize List.range 16 = l at hstep
  induction l with
  | nil => rfl
  | cons q l ih =>
    rw [List.foldl_cons, hstep q List.mem_cons_self]
    exact ih fun q hq => hstep q (List.mem_cons_of_mem _ hq)

/-- A link that brings nothing more fills no buffer. -/
theorem cutInput_buf_nil {r : Router} {d p v : Nat} (h : r.buf p v = []) : (r.cutInput d).buf p v = [] := by
  unfold Router.cutInput
  generalize List.range 6 = l
  induction l generalizing r with
  | nil => exact h
  | cons vc l ih =>
    rw [List.foldl_cons]
    refine ih ?_
    have hput : (r.setBuf d vc (wholePackets (r.buf d vc))).buf p v = [] := by
      by_cases hkey : bufKey p v = bufKey d vc
      · have hsame (x : Router) : x.buf p v = x.buf d vc := by simp only [Router.buf, hkey]
        rw [hsame, setBuf_buf, ← hsame, h]
        rfl
      · rw [setBuf_buf_ne _ _ hkey, h]
    dsimp only
    split <;> exact hput

theorem markDead_buf_nil {r : Router} {d p v : Nat} (h : r.buf p v = []) : (r.markDead d).buf p v = [] := by
  have hcut := cutInput_buf_nil (d := d) h
  unfold Router.markDead
  generalize r.cutInput d = x at hcut
  exact hcut

theorem markDead_dead (r : Router) (d : Nat) : (r.markDead d).dead.contains d = true := by
  unfold Router.markDead
  dsimp only
  split
  · assumption
  · simp

section
variable {s : State} {t u : TileId} {port : Fin 5} {vc : Fin 6} {f : Flit} {rest : List Flit} {n : Nat}

theorem flitReceive_again (hup : (s.region (regionOf t.val)).netUp = true) (hbuf : (s.router t.val).buf port vc = f :: rest)
    (hfailed : mget 0 (s.router t.val).replays (bufKey port vc) = 2 * n) (hn : neighbour t.val port.val = some u.val)
    (hfew : n < 16) : Gives (.flitReceive t port vc false) s (fun w => (w.router t.val).buf port vc = f :: rest
      ∧ mget 0 (w.router t.val).replays (bufKey port vc) = 2 * (n + 1) + 1) := by
  have heq := flitReceive_bad hup hbuf (by rw [hfailed]; exact Nat.mul_mod_right 2 n) hn
  have hmade := (RouterMade.refl t.val s).modRouter (fun r =>
    { r with replays := mset (bufKey port vc) (2 * (n + 1) + 1) r.replays })
  have hcount : 2 * n / 2 = n := Nat.mul_div_cancel_left n (by omega)
  have hless : n + 1 ≤ 16 := hfew
  simp only [State.badCrc, hfailed, hcount, hless, if_true] at heq
  generalize s.modRouter t.val _ = w at heq hmade
  refine ⟨_, heq.trans (done_next _), ?_, ?_⟩
  · show (w.router t.val).buf port vc = _
    rw [hmade.router]
    exact hbuf
  · show mget 0 (w.router t.val).replays _ = _
    rw [hmade.router]
    exact mget_mset_same _ _ _ _

/-- The seventeenth failure of the same flit: the link is dead in both directions (R136). -/
theorem flitReceive_linkDead (hup : (s.region (regionOf t.val)).netUp = true) (hbuf : (s.router t.val).buf port vc = f :: rest)
    (hfailed : mget 0 (s.router t.val).replays (bufKey port vc) = 2 * 16) (hn : neighbour t.val port.val = some u.val)
    (hdown : (s.core 0).down = false) (hbin : ∀ q, q < 16 → (s.part q).bin = none) :
    Gives (.flitReceive t port vc false) s (fun w => (w.router t.val).buf port vc = []
      ∧ (w.router t.val).dead.contains port.val = true ∧ (w.router u.val).dead.contains (opposite port.val) = true
      ∧ Told s w 0x3060 t.val) := by
  have heq := flitReceive_bad hup hbuf (by rw [hfailed]) hn
  have hne : u.val ≠ t.val := neighbour_ne hn
  have hcut := (RouterMade.refl t.val s).modRouter (fun r => { r with bufs := mdel (bufKey port vc) r.bufs })
  have hempty : ({ s.router t.val with bufs := mdel (bufKey port vc) (s.router t.val).bufs } : Router).buf port vc = [] :=
    (mget_mdel _ _ _ _).trans (if_pos rfl)
  have hlimit : ¬ 2 * 16 / 2 + 1 ≤ 16 := by decide
  have hmine := hcut.modRouter (fun r => r.markDead port)
  simp only [State.badCrc, hfailed, hlimit, if_false, State.killLink, hn] at heq
  generalize (s.modRouter t.val _).modRouter t.val _ = v at heq hmine
  have hboth := (RouterMade.refl u.val v).modRouter (fun r => r.markDead (opposite port))
  generalize v.modRouter u.val _ = w at heq hboth
  have hframe : w = { s with routers := w.routers } := by rw [hboth.frame, hmine.frame]
  have hrecorded := Recorded.raise w 0x3060 t.val 0 (leBytes 1 port)
  have hquiet (p : Nat → Bool) (i : Nat) : (w.raise 0x3060 t.val 0 (leBytes 1 port)).stopRouted p i
      = w.raise 0x3060 t.val 0 (leBytes 1 port) :=
    stopRouted_unloaded (fun q hq => by rw [hrecorded.part, hframe]; exact hbin q hq) _ _
  rw [hquiet] at heq
  refine ⟨_, heq.trans (done_next _), ?_, ?_, ?_, fun hclean => ?_⟩
  · show ((w.raise 0x3060 t.val 0 (leBytes 1 port)).router t.val).buf port vc = []
    rw [hrecorded.router, hboth.others _ (Ne.symm hne), hmine.router]
    exact markDead_buf_nil hempty
  · show ((w.raise 0x3060 t.val 0 (leBytes 1 port)).router t.val).dead.contains port.val = true
    rw [hrecorded.router, hboth.others _ (Ne.symm hne), hmine.router]
    exact markDead_dead _ _
  · show ((w.raise 0x3060 t.val 0 (leBytes 1 port)).router u.val).dead.contains _ = true
    rw [hrecorded.router, hboth.router]
    exact markDead_dead _ _
  · have hring := raise_ring (s := w) (code := 0x3060) (src := t.val) (step := 0) (data := leBytes 1 port)
      (by rw [hframe]; exact hdown) (by simp [leBytes]) (by rw [hframe]; exact hclean)
    show ((w.raise 0x3060 t.val 0 (leBytes 1 port)).ring.take 4096).head?.map _ = _
    rw [hring]
    rfl

/-- A replay is sent once more, and counted at the router that sends it. -/
theorem hopReplayRequest_sends {v : TileId} {dir : Fin 4} (hn : neighbour v.val dir.val = some t.val)
    (hport : port.val = opposite dir.val) (hfailed : mget 0 (s.router t.val).replays (bufKey port vc) = 2 * n + 1) :
    Gives (.hopReplayRequest v dir vc) s (fun w => mget 0 (w.router t.val).replays (bufKey port vc) = 2 * n
      ∧ w.count 0x7300 6 v.val = s.count 0x7300 6 v.val + 1) := by
  have hmade := (RouterMade.refl t.val s).modRouter (fun r => { r with replays := mset (bufKey port vc) (2 * n) r.replays })
  have hodd : (2 * n + 1) % 2 ≠ 0 := by omega
  have heq : exec (.hopReplayRequest v dir vc) s
      = done ((s.modRouter t.val (fun r => { r with replays := mset (bufKey port vc) (2 * n) r.replays })).bump 0x7300 6 v.val 1) := by
    simp only [exec, execHopReplayRequest, hn, ← hport, hfailed, hodd, if_false, Nat.add_sub_cancel]
  generalize s.modRouter t.val _ = w at heq hmade
  refine ⟨_, heq.trans (done_next _), ?_, ?_⟩
  · show mget 0 (w.router t.val).replays _ = _
    rw [hmade.router]
    exact mget_mset_same _ _ _ _
  · refine (State.count_bump_same w 0x7300 6 v.val 1).trans ?_
    rw [hmade.count]

end

/-! The order of grants (R139). -/

/-- The place of a VC among those that an output grants: VC0, VC5, and the others by age. -/
def vcClass (c : Fin 6) : Nat := if c = 0 then 0 else if c = 5 then 1 else 2

theorem rankOf_eq (c : Fin 6) (a i : Nat) :
    rankOf c a i false = vcClass c * 2 ^ 20 + (255 - a) * 2 ^ 12 + c.val * 2 ^ 8 + inputOrder i * 2 + 1 := by
  have hclass : (if c.val = 0 then 0 else if c.val = 5 then 1 else 2) = vcClass c := by
    simp only [vcClass, Fin.ext_iff]
    rfl
  simp only [rankOf, hclass, Bool.false_eq_true, if_false]

/-- An output grants by class, then the highest age, then the lower VC, then the inputs in their order. -/
theorem rankOf_lt_iff (c d : Fin 6) (i j : Fin 5) {a b : Nat} (ha : a ≤ 255) (hb : b ≤ 255) :
    rankOf c a i false < rankOf d b j false ↔ vcClass c < vcClass d ∨ (vcClass c = vcClass d ∧ (b < a ∨ (b = a ∧
      (c < d ∨ (c = d ∧ inputOrder i < inputOrder j))))) := by
  have hc := c.isLt
  have hd := d.isLt
  have hi : inputOrder i < 5 := Nat.mod_lt _ (by omega)
  have hj : inputOrder j < 5 := Nat.mod_lt _ (by omega)
  rw [rankOf_eq, rankOf_eq, Fin.lt_def, Fin.ext_iff]
  omega

/-- Settles O22: a flit received good that is granted, withheld or without an entry, a flit received badly, the replay and the
order of grants are a lemma each. -/
theorem flitsFollowTheirRouteEntry : Obligations.FlitsFollowTheirRouteEntry := by
  intro s t u v port vc dir o f rest n hb r e k bid
  refine ⟨fun hup hbuf hhead hvc hsame hkept => ⟨fun hzero hdrops => ⟨?_, ?_⟩, fun hfailed hn => ⟨?_, ?_⟩⟩,
    hopReplayRequest_sends, fun c d a b i j ha hb => rankOf_lt_iff c d i j ha hb⟩
  · intro hok hmerge houts hleaf ho hn hdead hsend hfar
    have hwaits : HeadWaits s t port vc f rest := ⟨hup, hbuf, hhead, hvc.1, hvc.2, hsame, hkept⟩
    have hgoes := hwaits.goesOn hdrops hok hmerge houts hleaf ho hn hdead hsend hfar
    exact ⟨flitReceive_granted hwaits hgoes hzero, flitReceive_withheld hwaits hgoes hzero⟩
  · exact flitReceive_noRoute ⟨hup, hbuf, hhead, hvc.1, hvc.2, hsame, hkept⟩ hzero hdrops
  · exact flitReceive_again hup hbuf hfailed hn
  · rintro rfl
    exact flitReceive_linkDead hup hbuf hfailed hn

end Sys2Proof.Machine
end

section
/-! SUPPORT. How a merge takes one flit of each of its two operands, and what it sends (O23). -/
namespace Sys2Proof.Machine

/-! Flits of two inputs leave a router. -/

theorem addDrop_bufs (r : Router) (k p : Nat) : (r.addDrop k p).bufs = r.bufs := by
  unfold Router.addDrop
  split <;> rfl

/-- The rest of a longer operand is given up: no buffer changes (R158). -/
theorem foldl_addDrop_bufs (l : List Nat) (p : Nat) (r : Router) :
    (l.foldl (fun r i => { r with dec := mdel (bufKey i 3) r.dec }.addDrop (dropKey i 3 7) p) r).bufs = r.bufs := by
  induction l generalizing r with
  | nil => rfl
  | cons i l ih =>
    rw [List.foldl_cons, ih, addDrop_bufs]

/-- Whether the packet at input i goes on after a flit that a merge has taken (R134, R142). -/
def Router.followed (r : Router) (p i age : Nat) (f : Flit) : Router :=
  { r with dec := if f.tail then mdel (bufKey i 3) r.dec else mset (bufKey i 3) ⟨p, [], [], age⟩ r.dec }

/-- A router from which a merge has taken a flit of input i in net cycle n. -/
def Router.operandTaken (r : Router) (p i n age : Nat) (f : Flit) : Router := (r.popped i 3 n).followed p i age f

theorem operandTaken_buf (r : Router) (p i n age : Nat) (f : Flit) :
    (r.operandTaken p i n age f).buf i 3 = enterEighth n ((r.buf i 3).drop 1) := popped_buf r i 3 n

theorem operandTaken_buf_ne (r : Router) {i j : Nat} (p n age : Nat) (f : Flit) (h : j ≠ i) :
    (r.operandTaken p i n age f).buf j 3 = r.buf j 3 :=
  popped_buf_ne r n (bufKey_ne_of_port (by omega) (by omega) h)

section
variable {s u : State} {x : Router} {t p route i j : Nat} {m : MergeSt} {f g : Flit}

/-- Each operand of a merge loses its oldest flit. -/
theorem takeOperands_made (h : RouterMade t s u x) (hij : i ≠ j) (last : Bool) :
    ∃ y, RouterMade t s (u.takeOperands t p route m [(i, f), (j, g)] last) y
      ∧ y.buf i 3 = enterEighth (s.netOf t) ((x.buf i 3).drop 1) ∧ y.buf j 3 = enterEighth (s.netOf t) ((x.buf j 3).drop 1) := by
  have hpair : [(i, f), (j, g)].pwFilter (fun x y => x.1 ≠ y.1) = [(i, f), (j, g)] := by
    rw [List.pwFilter_eq_self]
    simpa using hij
  have htaken {v : State} {z : Router} (hz : RouterMade t s v z) (k : Nat) (e : Flit) : RouterMade t s
      ((v.popFlit t k 3).modRouter t (·.followed p k m.age e)) (z.operandTaken p k (s.netOf t) m.age e) :=
    (hz.popFlit k 3).modRouter _
  have hboth := htaken (htaken h i f) j g
  simp only [State.takeOperands, hpair, List.foldl_cons, List.foldl_nil]
  refine ⟨_, hboth.modRouter _, ?_⟩
  have hbuf (y : Router) (hy : y.bufs = ((x.operandTaken p i (s.netOf t) m.age f).operandTaken p j (s.netOf t) m.age g).bufs) :
      y.buf i 3 = enterEighth (s.netOf t) ((x.buf i 3).drop 1) ∧ y.buf j 3 = enterEighth (s.netOf t) ((x.buf j 3).drop 1) := by
    have hread (k : Nat) : y.buf k 3
        = ((x.operandTaken p i (s.netOf t) m.age f).operandTaken p j (s.netOf t) m.age g).buf k 3 := by
      rw [Router.buf, hy, Router.buf]
    rw [hread, hread, operandTaken_buf_ne _ _ _ _ _ hij, operandTaken_buf, operandTaken_buf,
      operandTaken_buf_ne _ _ _ _ _ (Ne.symm hij)]
    exact ⟨rfl, rfl⟩
  cases last with
  | true => exact hbuf _ (foldl_addDrop_bufs _ _ _)
  | false => exact hbuf _ rfl

end

theorem RouterMade.bump {t : Nat} {s u : State} {x : Router} (h : RouterMade t s u x) (i b n v : Nat) :
    RouterMade t (s.bump i b n v) (u.bump i b n v) x :=
  ⟨by rw [h.frame]; rfl, h.others, h.router⟩

/-! A merge of two operands that its output grants (R156–R158). -/

/-- Two operands whose head flits stand first at their inputs, and the one link on which their merge goes on. -/
structure TwoOperands (s : State) (t u : TileId) (p : PartId) (route : Fin 512) (i j o : Nat) (f g : Flit) (fs gs : List Flit) :
    Prop where
  up : (s.region (regionOf t.val)).netUp = true
  far : (s.region (regionOf u.val)).netUp = true
  ok : entryOk ((s.router t.val).entry p route) 3 = true
  merge : entryMerge ((s.router t.val).entry p route) = true
  kept : s.flushes t.val p = false
  operands : entryOperands ((s.router t.val).entry p route) = [i, j]
  two : i ≠ j
  outs : entryOuts ((s.router t.val).entry p route) = [o]
  link : o < 4
  neighbour : neighbour t.val o = some u.val
  credit : s.canSend t.val o 3 (mergeWho p route) f = true
  alive : (s.router t.val).dead.contains o = false
  begins : mfind (p.val * 512 + route.val) (s.router t.val).merging = none
  drops : (s.router t.val).drops = []
  good : mget 0 (s.router t.val).replays (bufKey i 3) = 0 ∧ mget 0 (s.router t.val).replays (bufKey j 3) = 0
  bufs : (s.router t.val).buf i 3 = f :: fs ∧ (s.router t.val).buf j 3 = g :: gs
  parts : f.part = p ∧ g.part = p
  routes : f.route = route.val ∧ g.route = route.val
  heads : f.head = true ∧ g.head = true
  vc : f.vc = 3
  granted : s.wins t.val ⟨o, mergeWho p route, rankOf 3 (s.ageNow t.val f) i false⟩ = true

/-- Two packets that differ in length, in flits or in bytes (R158). -/
def unevenPair (f g : Flit) : Bool := (g.pktLen, g.pktBytes) != (f.pktLen, f.pktBytes)

theorem unevenPair_iff (f g : Flit) : unevenPair f g = true ↔ g.pktLen ≠ f.pktLen ∨ g.pktBytes ≠ f.pktBytes := by
  simp only [unevenPair, bne_iff_ne, ne_eq, Prod.mk.injEq, not_and_or]

section
variable {s : State} {t u : TileId} {p : PartId} {route : Fin 512} {i j o : Nat} {f g : Flit} {fs gs : List Flit}

/-- The merge as it begins (R145). -/
def State.pairMerge (s : State) (t : TileId) (p : PartId) (route : Fin 512) (i j o : Nat) (f g : Flit) : MergeSt :=
  { ports := [i, j], fp16 := ((s.router t.val).entry p route).getLsbD 30, out := o, uneven := unevenPair f g,
    age := s.ageNow t.val f }

/-- The flit that it sends first. -/
def State.pairFlit (s : State) (t : TileId) (p : PartId) (route : Fin 512) (f g : Flit) : Flit :=
  let fp16 := ((s.router t.val).entry p route).getLsbD 30
  if unevenPair f g then nanFlit fp16 f else mergeFlits fp16 [f, g] f

/-- The state once the merge has taken its flits, and has counted a pair that differs. -/
def State.pairTaken (s : State) (t : TileId) (p : PartId) (route : Fin 512) (i j o : Nat) (f g : Flit) : State :=
  let w := s.takeOperands t.val p route (s.pairMerge t p route i j o f g) [(i, f), (j, g)] f.tail
  if unevenPair f g then w.bump 0x7300 0xE t.val 1 else w

/-- The operands have lost their flits, and the merged flit stands at the neighbour's input. -/
def Merged (s w : State) (t u : TileId) (i j o : Nat) (f : Flit) (fs gs : List Flit) (m : Flit) : Prop :=
  (w.router t.val).buf i 3 = enterEighth (s.netOf t.val) fs ∧ (w.router t.val).buf j 3 = enterEighth (s.netOf t.val) gs
    ∧ (w.router u.val).buf (opposite o) 3 = (s.router u.val).buf (opposite o) 3 ++
        [{ m with age := s.ageNow t.val f, came := s.netOf u.val }]

theorem pairFlit_vc : (s.pairFlit t p route f g).vc = f.vc := by
  unfold State.pairFlit
  dsimp only
  split <;> rfl

/-- A pair that differs is counted (R158). -/
def State.pairCounted (s : State) (t : TileId) (f g : Flit) : State := if unevenPair f g then s.bump 0x7300 0xE t.val 1 else s

theorem pairCounted_frame : s.pairCounted t f g = { s with live := (s.pairCounted t f g).live } := by
  unfold State.pairCounted
  split <;> rfl

theorem pairTaken_made (hij : i ≠ j) : ∃ x, RouterMade t (s.pairCounted t f g) (s.pairTaken t p route i j o f g) x
    ∧ x.buf i 3 = enterEighth (s.netOf t.val) (((s.router t.val).buf i 3).drop 1)
    ∧ x.buf j 3 = enterEighth (s.netOf t.val) (((s.router t.val).buf j 3).drop 1) := by
  obtain ⟨x, hx, hbufs⟩ := takeOperands_made (p := p.val) (route := route.val) (m := s.pairMerge t p route i j o f g)
    (f := f) (g := g) (RouterMade.refl t.val s) hij f.tail
  refine ⟨x, ?_, hbufs⟩
  unfold State.pairTaken State.pairCounted
  cases unevenPair f g with
  | true => exact hx.bump _ _ _ _
  | false => exact hx

namespace TwoOperands
variable (h : TwoOperands s t u p route i j o f g fs gs)
include h

theorem mergeReady : s.mergeReady t.val p route = some (s.pairMerge t p route i j o f g, [(i, f), (j, g)]) := by
  obtain ⟨hgoodf, hgoodg⟩ := h.good
  obtain ⟨hbuff, hbufg⟩ := h.bufs
  obtain ⟨hpartf, hpartg⟩ := h.parts
  obtain ⟨hroutef, hrouteg⟩ := h.routes
  obtain ⟨hheadf, hheadg⟩ := h.heads
  have hnone (k : Nat) : (s.router t.val).drops? k = false := by simp [Router.drops?, h.drops]
  have hf : s.operandFlit t.val p route i = some f := by simp [State.operandFlit, hbuff, hpartf, hroutef, hnone, hgoodf]
  have hg : s.operandFlit t.val p route j = some g := by simp [State.operandFlit, hbufg, hpartg, hrouteg, hnone, hgoodg]
  simp [State.mergeReady, State.newMerge, State.pairMerge, unevenPair, bne, h.kept, h.begins, h.ok, h.merge, h.operands, h.outs,
    hf, hg, hheadf, hheadg]

theorem outRefusal (e : Flit) : s.outRefusal t.val o e = none := by
  have hne : o ≠ 4 := Nat.ne_of_lt h.link
  simp only [State.outRefusal, hne, h.alive, Bool.false_eq_true, if_false]

theorem drops? (k : Nat) : (s.router t.val).drops? k = false := by
  simp [Router.drops?, h.drops]

theorem mergeBid : s.mergeBid t.val p route = some ⟨o, mergeWho p route, rankOf 3 (s.ageNow t.val f) i false⟩ := by
  simp only [State.mergeBid, h.mergeReady]
  simp [State.pairMerge, h.drops?, h.outRefusal, h.credit]

theorem mergeEmit_eq : exec (.mergeEmit t p route) s = done
    (((s.pairTaken t p route i j o f g).modRouter t.val (fun r => r.sentBy o (mergeWho p route) (s.netOf t.val) f)).sendFlit
      t.val o { s.pairFlit t p route f g with age := s.ageNow t.val f }) := by
  simp only [exec, execMergeEmit, h.up, h.mergeReady, h.mergeBid]
  simp only [State.pairMerge]
  simp only [h.drops?, h.outRefusal, h.granted, h.heads.1]
  simp [State.pairFlit, State.pairTaken, State.pairMerge]

/-- What it sends leaves its operands and stands at the neighbour; only a pair that differs is counted (R157, R158). -/
theorem merges (hb : s.bounded) : Gives (.mergeEmit t p route) s (fun w => Merged s w t u i j o f fs gs (s.pairFlit t p route f g)
    ∧ (unevenPair f g = true → w.count 0x7300 0xE t.val = s.count 0x7300 0xE t.val + 1)) := by
  obtain ⟨hbuff, hbufg⟩ := h.bufs
  obtain ⟨x, hx, hxi, hxj⟩ := pairTaken_made (s := s) (t := t) (p := p) (route := route) (o := o) (f := f) (g := g) h.two
  have hsent := hx.modRouter (·.sentBy o (mergeWho p route) (s.netOf t.val) f)
  have hne : u.val ≠ t.val := neighbour_ne h.neighbour
  have hcounted := pairCounted_frame (s := s) (t := t) (f := f) (g := g)
  have hcount (hu : unevenPair f g = true) : (s.pairCounted t f g).count 0x7300 0xE t.val = s.count 0x7300 0xE t.val + 1 := by
    rw [State.pairCounted, if_pos hu, State.count_bump_same]
  rw [Gives, h.mergeEmit_eq]
  generalize (s.pairTaken t p route i j o f g).modRouter t.val _ = v at hsent
  generalize s.pairCounted t f g = c at hsent hcounted hcount
  have hfar : (v.region (regionOf u.val)).netUp = true := by
    rw [hsent.region, hcounted]
    exact h.far
  refine ⟨_, done_bounded ?_, ⟨?_, ?_, ?_⟩, fun hu => ?_⟩
  · rw [sendFlit_link h.link h.neighbour hfar, hsent.frame, hcounted]
    exact hb
  · rw [sendFlit_router_ne h.link h.neighbour hfar (Ne.symm hne), hsent.router]
    exact hxi.trans (by rw [hbuff]; rfl)
  · rw [sendFlit_router_ne h.link h.neighbour hfar (Ne.symm hne), hsent.router]
    exact hxj.trans (by rw [hbufg]; rfl)
  · have hthree : ({ s.pairFlit t p route f g with age := s.ageNow t.val f } : Flit).vc.val = 3 :=
      congrArg Fin.val (pairFlit_vc.trans h.vc)
    have harrived := sendFlit_buf (f := { s.pairFlit t p route f g with age := s.ageNow t.val f }) h.link h.neighbour hfar
    rw [hthree, hsent.others _ hne, hsent.netOf, hcounted] at harrived
    exact harrived
  · have hother : o + 1 ≠ 0xE := by
      have := h.link
      omega
    have hkey : okey 0x7300 0xE t.val ≠ okey 0x7300 (o + 1) t.val := by
      simp only [okey]
      omega
    rw [sendFlit_count h.link h.neighbour hfar, State.count_bump, if_neg hkey, hsent.count, hcount hu]

end TwoOperands

end

/-- Settles O23: the merged flit is sent by the link's rule after each operand has lost its flit. -/
theorem mergesCombineTheirOperands : Obligations.MergesCombineTheirOperands := by
  intro s t u p route i j o f g fs gs hb r e who now hup hfar hok hmerge hkept hoperands hij houts ho hn hsend hdead hnone hdrops
    hgoodf hgoodg hbuff hbufg hpartf hpartg hroutef hrouteg hheadf hheadg hvc hwins sent
  have h : TwoOperands s t u p route i j o f g fs gs :=
    ⟨hup, hfar, hok, hmerge, hkept, hoperands, hij, houts, ho, hn, hsend, hdead, hnone, hdrops, ⟨hgoodf, hgoodg⟩, ⟨hbuff, hbufg⟩,
      ⟨hpartf, hpartg⟩, ⟨hroutef, hrouteg⟩, ⟨hheadf, hheadg⟩, hvc, hwins⟩
  obtain ⟨w, hw, hmerged, hcount⟩ := h.merges hb
  refine ⟨fun hsame => ⟨w, hw, ?_⟩, fun hdiff => ⟨w, hw, ?_, hcount ((unevenPair_iff f g).2 hdiff)⟩⟩
  · have heven : unevenPair f g = false := by simp [unevenPair, hsame]
    rw [State.pairFlit, heven] at hmerged
    exact hmerged
  · rw [State.pairFlit, (unevenPair_iff f g).2 hdiff] at hmerged
    exact hmerged

end Sys2Proof.Machine
end

section
/-! SUPPORT. The buffers of a router that a flush reaches, and a router for which the statement fails (O25). -/
namespace Sys2Proof.Machine

/-! With one list of flits a key, a flush leaves at each key what it keeps of that list (R161). -/

theorem mfind_eq_none {α : Type} {k : Nat} {m : Map α} (h : k ∉ m.map (·.1)) : mfind k m = none := by
  induction m with
  | nil => rfl
  | cons b m ih =>
    rw [List.map_cons, List.mem_cons, not_or] at h
    rw [mfind, if_neg (Ne.symm h.1), ih h.2]

/-- Lists that are empty need not be listed. -/
theorem mget_filter_nonempty {α : Type} [BEq α] [LawfulBEq α] {m : Map (List α)} (h : (m.map (·.1)).Nodup) (k : Nat) :
    mget [] (m.filter (fun b => b.2 != [])) k = mget [] m k := by
  induction m with
  | nil => rfl
  | cons b m ih =>
    obtain ⟨j, fs⟩ := b
    rw [List.map_cons, List.nodup_cons] at h
    obtain ⟨hj, hm⟩ := h
    have hrest := ih hm
    simp only [mget] at hrest ⊢
    by_cases hfs : fs = []
    · subst hfs
      rw [List.filter_cons_of_neg (by simp), hrest, mfind]
      split
      · next hk =>
        rw [mfind_eq_none (hk ▸ hj)]
        rfl
      · rfl
    · rw [List.filter_cons_of_pos (by simpa using hfs), mfind, mfind]
      split
      · rfl
      · exact hrest

theorem flush_buf {r : Router} (h : (r.bufs.map (·.1)).Nodup) (p now port vc : Nat) :
    (r.flush p now).buf port vc = flushBuf p (r.buf port vc) := by
  have hkeys : ((r.bufs.map (fun b => (b.1, flushBuf p b.2))).map (·.1)).Nodup := by
    rw [List.map_map]
    exact h
  calc (r.flush p now).buf port vc
      = mget [] (r.bufs.map (fun b => (b.1, flushBuf p b.2))) (bufKey port vc) := mget_filter_nonempty hkeys _
    _ = flushBuf p (r.buf port vc) := by
      rw [mget, mfind_map (fun _ => flushBuf p), Router.buf, mget]
      cases mfind (bufKey port vc) r.bufs with
      | none => rfl
      | some fs => rfl

/-- A router that a flush reaches keeps the other flits. -/
theorem flushHere_buf {s : State} {t p : Nat} (hlive : s.isLive p = false) (h : ((s.router t).bufs.map (·.1)).Nodup)
    (port vc : Nat) : ((s.flushHere t p).router t).buf port vc = flushBuf p ((s.router t).buf port vc) := by
  have hcounted (w : State) (n : Nat) : (if n = 0 then w else w.bump 0x7300 0xA t n).router t = w.router t := by
    split <;> rfl
  have hrouter : ((s.flushHere t p).router t).bufs = ((s.router t).flush p (s.netOf t)).bufs := by
    simp only [State.flushHere, hlive, Bool.false_eq_true, if_false, hcounted, State.router_setRouter_same]
  rw [Router.buf, hrouter]
  exact flush_buf h p _ port vc

/-! A router whose buffers name a key twice. -/

/-- A flit of a partition. -/
def plainFlit (p : PartId) : Flit :=
  { vc := 0, ty := .control, part := p, route := 0, dst := 0, src := 0, head := true, tail := true }

/-- After reset, router 0 with two lists for input 0 of VC0: the flit of partition 0 stands before that of partition 1. -/
def twiceListed : State := { State.reset with routers := [(0, { bufs := [(0, [plainFlit 0]), (0, [plainFlit 1])] })] }

theorem twiceListed_flushed : twiceListed.isLive 0 = false
    ∧ ((twiceListed.flushHere 0 0).router 0).buf 0 0 = [plainFlit 1]
    ∧ flushBuf 0 ((twiceListed.router 0).buf 0 0) = [] := by decide +kernel

/-- Refutes O25: the part about a router that a flush reaches takes any state of bounded records, and does not say that a
router's buffers name each key once. Where the first of two lists of a key becomes empty, the second is read. With each key
named once, that part's last clause holds: `flushHere_buf`. -/
theorem not_flushesDeadLinksAndTables : ¬ Obligations.FlushesDeadLinksAndTables := by
  intro hall
  obtain ⟨hstopped, hafter, hkept⟩ := twiceListed_flushed
  obtain ⟨-, -, ⟨-, hflush⟩, -⟩ := hall twiceListed 0 0 0 0 0 0 (plainFlit 0) [] (by decide)
  obtain ⟨-, -, -, hbufs⟩ := hflush hstopped
  have hsame : [plainFlit 1] = [] := hafter.symm.trans ((hbufs 0 0).trans hkept)
  cases hsame

end Sys2Proof.Machine
end

section
/-! SUPPORT. How a write that is taken ends: with the effect of its value and a response, or with an abort and a response
(O51). -/
namespace Sys2Proof.Machine

/-! Bytes (R325). -/

theorem leVal_leBytes (n v : Nat) (h : v < 256 ^ n) : leVal (leBytes n v) = v := by
  induction n generalizing v with
  | zero =>
    have hv : v = 0 := by simpa using h
    subst hv
    rfl
  | succ n ih =>
    have hrest : v / 256 < 256 ^ n := by
      rw [Nat.div_lt_iff_lt_mul (by decide), ← Nat.pow_succ]
      exact h
    rw [leBytes, leVal, ih _ hrest, BitVec.toNat_ofNat]
    omega

theorem leBytes_length (n v : Nat) : (leBytes n v).length = n := by
  induction n generalizing v with
  | zero => rfl
  | succ n ih => rw [leBytes, List.length_cons, ih]

/-! The end of a transition bounds the records of events; a packet that goes out neither reads nor writes them. -/

/-- A state with its newest records alone (R418, R420). -/
def State.trimmed (s : State) : State := { s with ring := s.ring.take 4096, log := s.log.take 65536 }

theorem done_trimmed (s : State) : done s = .next s.trimmed := rfl

theorem trimmed_of_bounded {s : State} (h : s.bounded) : s.trimmed = s := by
  obtain ⟨hring, hlog⟩ := h
  rw [State.trimmed, List.take_of_length_le hring, List.take_of_length_le hlog]

@[simp] theorem obj_trimmed (s : State) (i b n : Nat) : s.trimmed.obj i b n = s.obj i b n := rfl
@[simp] theorem tile_trimmed (s : State) (j : Nat) : s.trimmed.tile j = s.tile j := rfl
@[simp] theorem region_trimmed (s : State) (j : Nat) : s.trimmed.region j = s.region j := rfl
@[simp] theorem engine_trimmed (s : State) (j : Nat) : s.trimmed.engine j = s.engine j := rfl

theorem pump_trimmed (p b n : Nat) (s : State) : (s.pump p b n).trimmed = s.trimmed.pump p b n := by
  induction n generalizing s with
  | zero => rfl
  | succ n ih =>
    unfold State.pump
    have hsub : s.trimmed.sub p b = s.sub p b := rfl
    dsimp only
    rw [hsub]
    cases (s.sub p b).queue with
    | nil => rfl
    | cons k r =>
      have hcredit : (s.trimmed.linkUp p b && (s.sub p b).hasCredit (splitLanes (s.trimmed.obj 0x6000 3 p)) k)
          = (s.linkUp p b && (s.sub p b).hasCredit (splitLanes (s.obj 0x6000 3 p)) k) := rfl
      dsimp only
      rw [hcredit]
      split
      · exact ih _
      · rfl

theorem sendOn_trimmed (s : State) (p b : Nat) (k : Pkt) : (s.sendOn p b k).trimmed = s.trimmed.sendOn p b k := by
  unfold State.sendOn
  have hholds : s.trimmed.holdsNew p k.hdr = s.holdsNew p k.hdr := rfl
  rw [hholds]
  split
  · rfl
  · exact pump_trimmed _ _ _ _

/-- A packet of no job that is no far request. -/
structure Plain (k : Pkt) : Prop where
  job : k.hdr.job = 0
  ty : k.hdr.ty = 0

theorem toHostOutF_trimmed (s : State) {k : Pkt} (hk : Plain k) :
    (s.toHostOutF k).2 = [] ∧ (s.toHostOutF k).1.trimmed = (s.trimmed.toHostOutF k).1 := by
  unfold State.toHostOutF
  have hhost : s.trimmed.hostSub = s.hostSub := rfl
  rw [hhost]
  split
  · cases s.hostSub with
    | none => exact ⟨rfl, rfl⟩
    | some x =>
      obtain ⟨p, b⟩ := x
      have hsub : s.trimmed.sub p b = s.sub p b := rfl
      dsimp only
      rw [hsub]
      split
      · exact ⟨rfl, sendOn_trimmed _ _ _ _⟩
      · exact ⟨by rw [jobFailure, if_pos hk.job], rfl⟩
  · exact ⟨rfl, rfl⟩

theorem sendLocalF_trimmed (s : State) {k : Pkt} (hk : Plain k) :
    (s.sendLocalF k).2 = [] ∧ (s.sendLocalF k).1.trimmed = (s.trimmed.sendLocalF k).1 := by
  unfold State.sendLocalF
  have hroute : s.trimmed.linkRoute 6 k.hdr = s.linkRoute 6 k.hdr := rfl
  rw [hroute]
  cases s.linkRoute 6 k.hdr with
  | out p b l =>
    have hholds : s.trimmed.holdsNew p k.hdr = s.holdsNew p k.hdr := rfl
    dsimp only
    rw [hholds]
    split
    · exact ⟨rfl, rfl⟩
    · exact ⟨rfl, sendOn_trimmed _ _ _ _⟩
  | self =>
    have hnear (w : State) : w.selfOut k = w.toHostOutF k := by simp [State.selfOut, hk.ty]
    dsimp only
    rw [hnear, hnear]
    exact toHostOutF_trimmed s hk
  | noRoute => exact ⟨rfl, rfl⟩
  | down p b => exact ⟨by dsimp only; rw [jobFailure, if_pos hk.job], rfl⟩

/-- The failures of no job end nothing. -/
theorem sendLocal_eq (s : State) {k : Pkt} (hk : Plain k) : s.sendLocal k = (s.sendLocalF k).1 := by
  rw [State.sendLocal, settleFailures, (sendLocalF_trimmed s hk).1]
  rfl

theorem answer_trimmed (s : State) (r : Reply) : (s.answer r).trimmed = s.trimmed.answer r := by
  unfold State.answer
  cases r.path with
  | coe => rfl
  | inband src tag p b h hops =>
    dsimp only
    rw [sendLocal_eq _ ⟨rfl, rfl⟩, sendLocal_eq _ ⟨rfl, rfl⟩]
    exact (sendLocalF_trimmed _ ⟨rfl, rfl⟩).2

/-! A write of an object of one block (R323–R326). -/

/-- An object whose table takes a write of a number of n bytes, at a block of its kind. -/
structure Writable (idx sub inst n : Nat) (ty : OTy) : Prop where
  known : knownIndex idx = true
  row : (objType idx sub).map (·.1) = some ty
  write : (objType idx sub).all (fun x => !(x.2 = .ro || x.2 = .const || x.2 = .bw)) = true
  kind : kindOf idx ≠ .none
  inst : inst < (kindOf idx).count
  few : (kindOf idx).count ≤ 0xFFFF
  len : ty.fits n = true
  scale : idx ≠ 0x8100

section
variable {s w : State} {rq : Path} {idx sub inst n v : Nat} {ty : OTy} {a : Abort}

theorem Writable.accessOf (h : Writable idx sub inst n ty) (rq : Path) : accessOf rq true idx sub inst = .ok ty := by
  obtain ⟨hknown, hrow, hwrite, hkind, hinst, -, -, -⟩ := h
  cases htype : objType idx sub with
  | none => simp [htype] at hrow
  | some x =>
    obtain ⟨ty', acc⟩ := x
    rw [htype] at hrow hwrite
    have hin : ¬ (kindOf idx).count ≤ objInst idx inst := by
      rw [objInst, if_neg hkind]
      omega
    simp at hrow hwrite
    simp [Machine.accessOf, hknown, htype, hin, hwrite, hrow]

theorem takeSegment_whole (bs : List Byte) : s.takeSegment rq ty idx sub inst 0 true bs = (s, some (.ok bs)) := by
  simp [State.takeSegment]

/-- Once it is taken, the value is accepted or not, and the object takes it or not (R325). -/
theorem put_eq (h : Writable idx sub inst n ty) (ht : s.takesWrite rq idx sub inst) :
    s.put rq idx sub inst n v = s.finishWrite (s.fromPath rq) idx sub inst 0 false
      (if accepted ty idx sub (leBytes n v) then s.writeValue (s.fromPath rq) ty idx sub inst (leBytes n v)
       else (s, .abort .valueRange)) := by
  obtain ⟨⟨harrives, hnear, hfree⟩, hpowered⟩ := ht
  have hchecked : s.checked (s.fromPath rq) true idx sub inst 0 false = .ok ty := by
    simp only [State.checked, harrives, hnear, hfree, h.accessOf]
    rfl
  have hfew := h.few
  have hinst := h.inst
  have hone : toAll (s.fromPath rq) idx inst = false := by
    have hne : inst ≠ 0xFFFF := by omega
    simp [toAll, hne]
  have hobj : objInst idx inst = inst := by rw [objInst, if_neg h.kind]
  have hscale : s.scaleHeld idx sub = false := by simp [State.scaleHeld, h.scale]
  simp only [State.put, State.writeObject, hchecked, takeSegment_whole, leBytes_length, h.len, hone, hobj, State.applyOne, hpowered,
    hscale]
  cases accepted ty idx sub (leBytes n v) <;> rfl

/-- A write that ends without abort. -/
theorem put_done (h : Writable idx sub inst n ty) (ht : s.takesWrite rq idx sub inst)
    (hok : accepted ty idx sub (leBytes n v) = true)
    (hw : s.writeValue (s.fromPath rq) ty idx sub inst (leBytes n v) = (w, .done)) :
    done (s.put rq idx sub inst n v)
      = .next (w.trimmed.answer (writeReply (s.fromPath rq) idx sub inst 0 true false none)) := by
  rw [put_eq h ht, if_pos hok, hw, done_trimmed, ← answer_trimmed]
  rfl

/-- A write that its object refuses. -/
theorem put_aborted (hb : s.bounded) (h : Writable idx sub inst n ty) (ht : s.takesWrite rq idx sub inst)
    (hw : accepted ty idx sub (leBytes n v) = true → s.writeValue (s.fromPath rq) ty idx sub inst (leBytes n v) = (s, .abort a))
    (hrange : accepted ty idx sub (leBytes n v) = false → a = .valueRange) :
    done (s.put rq idx sub inst n v)
      = .next (s.answer (writeReply (s.fromPath rq) idx sub inst 0 true false (some a))) := by
  rw [put_eq h ht]
  have hend : (if accepted ty idx sub (leBytes n v) then s.writeValue (s.fromPath rq) ty idx sub inst (leBytes n v)
      else (s, .abort .valueRange)) = (s, .abort a) := by
    cases hok : accepted ty idx sub (leBytes n v) with
    | true => exact hw hok
    | false =>
      rw [hrange hok]
      rfl
  rw [hend, done_trimmed]
  exact congrArg _ ((answer_trimmed _ _).trans (by rw [trimmed_of_bounded hb]))

end

/-! The objects, and what a value at each of them does. -/

section
variable (s : State) (q : Path) (bs : List Byte)

theorem writable_routeEntry (t : TileId) : Writable 0x5300 3 t.val 4 (.u 4) :=
  ⟨by decide, by decide, by decide, by decide, t.isLt, by decide, by decide, by decide⟩

theorem writeValue_routeEntry (t : Nat) : s.writeValue q (.u 4) 0x5300 3 t bs
    = (s.modRouter t (fun x => { x with
        sets := mset (s.obj 0x5300 1 t * 512 + s.obj 0x5300 2 t) (BitVec.ofNat 32 (leVal bs)) x.sets }), .done) := rfl

theorem writable_tileReset (t : TileId) : Writable 0x5000 1 t.val 1 (.u 1) :=
  ⟨by decide, by decide, by decide, by decide, t.isLt, by decide, by decide, by decide⟩

theorem writeValue_tileReset (t : Nat) : s.writeValue q (.u 1) 0x5000 1 t bs = attempt s (s.actTileReset t (leVal bs)) := rfl

theorem writable_vaultClear (r : RegionId) : Writable 0x4040 4 r.val 1 (.u 1) :=
  ⟨by decide, by decide, by decide, by decide, r.isLt, by decide, by decide, by decide⟩

theorem writeValue_vaultClear (r : Nat) : s.writeValue q (.u 1) 0x4040 4 r bs = attempt s (s.actVaultClear r (leVal bs)) := rfl

theorem writable_vaultRetrain (r : RegionId) : Writable 0x4040 1 r.val 1 (.u 1) :=
  ⟨by decide, by decide, by decide, by decide, r.isLt, by decide, by decide, by decide⟩

theorem writeValue_vaultRetrain (r : Nat) : s.writeValue q (.u 1) 0x4040 1 r bs = attempt s (s.actVaultRetrain r (leVal bs)) := rfl

theorem writable_channelRetrain (e : EngineId) : Writable 0x6830 1 e.val 1 (.u 1) :=
  ⟨by decide, by decide, by decide, by decide, e.isLt, by decide, by decide, by decide⟩

theorem writeValue_channelRetrain (e : Nat) :
    s.writeValue q (.u 1) 0x6830 1 e bs = attempt s (s.actChannelRetrain e (leVal bs)) := rfl

theorem writable_regionRearm (r : RegionId) : Writable 0x4000 1 r.val 1 (.u 1) :=
  ⟨by decide, by decide, by decide, by decide, r.isLt, by decide, by decide, by decide⟩

theorem writeValue_regionRearm (r : Nat) : s.writeValue q (.u 1) 0x4000 1 r bs = attempt s (s.actRegionRearm r (leVal bs)) := rfl

theorem writable_clockStop (r : RegionId) : Writable 0x4000 4 r.val 1 .bool :=
  ⟨by decide, by decide, by decide, by decide, r.isLt, by decide, by decide, by decide⟩

theorem writeValue_clockStop (r : Nat) : s.writeValue q .bool 0x4000 4 r bs
    = (let keep := s.setObj 0x4000 4 r (leVal bs)
       if leVal bs = 1 then (if (s.region r).netUp then keep.stopClock r .request else keep)
       else keep.freeClock r .request, .done) := rfl

theorem writable_threshold (r : RegionId) (k : Fin 4) : Writable 0x4020 (0x12 + k.val) r.val 2 .i16 := by
  have hrows : ∀ k : Fin 4, (objType 0x4020 (0x12 + k.val)).map (·.1) = some .i16
      ∧ (objType 0x4020 (0x12 + k.val)).all (fun x => !(x.2 = .ro || x.2 = .const || x.2 = .bw)) = true := by decide
  exact ⟨by decide, (hrows k).1, (hrows k).2, by decide, r.isLt, by decide, by decide, by decide⟩

theorem writeValue_threshold (r : Nat) (k : Fin 4) : s.writeValue q .i16 0x4020 (0x12 + k.val) r bs
    = attempt s (s.actThreshold r k.val (leVal bs)) := by
  have hsub : 0x12 + k.val - 0x12 = k.val := Nat.add_sub_cancel_left _ _
  have hwrite : s.writeValue q .i16 0x4020 (0x12 + k.val) r bs
      = attempt s (s.actThreshold r (0x12 + k.val - 0x12) (leVal bs)) := rfl
  rw [hwrite, hsub]

end

/-! A write by the instruction that puts a value of n bytes. -/

section
variable {s w : State} {i : Instr} {rq : Path} {idx sub inst n v : Nat} {ty : OTy} {a : Abort} {P : State → Prop}
  (hi : exec i s = done (s.put rq idx sub inst n v)) (h : Writable idx sub inst n ty) (ht : s.takesWrite rq idx sub inst)
  (hv : v < 256 ^ n)
include hi h ht hv

theorem wrote_of_put (hok : (ty != .bool || v ≤ 1) = true) (hval : valueOk idx sub v = true)
    (hw : leVal (leBytes n v) = v → s.writeValue (s.fromPath rq) ty idx sub inst (leBytes n v) = (w, .done))
    (hP : P w.trimmed) : Wrote i s rq idx sub inst P := by
  have hread := leVal_leBytes n v hv
  have haccepted : accepted ty idx sub (leBytes n v) = true := by
    rw [accepted, hread, hok, hval]
    simp
  exact ⟨_, hi.trans (put_done h ht haccepted (hw hread)), w.trimmed, hP, rfl⟩

theorem aborted_of_put (hb : s.bounded) (hok : (ty != .bool || v ≤ 1) = true) (hval : valueOk idx sub v = true)
    (hw : leVal (leBytes n v) = v → s.writeValue (s.fromPath rq) ty idx sub inst (leBytes n v) = (s, .abort a)) :
    Aborted i s rq idx sub inst a := by
  have hread := leVal_leBytes n v hv
  refine hi.trans (put_aborted hb h ht (fun _ => hw hread) (fun hno => ?_))
  rw [accepted, hread, hok, hval] at hno
  simp at hno

theorem aborted_of_putValue (hb : s.bounded) (hnum : ty.isNum = true) (hval : valueOk idx sub v = false) :
    Aborted i s rq idx sub inst .valueRange := by
  have hread := leVal_leBytes n v hv
  refine hi.trans (put_aborted hb h ht (fun hyes => ?_) (fun _ => rfl))
  rw [accepted, hread, hnum, hval] at hyes
  simp at hyes

end

section
variable {s : State} {rq : Path} {t : TileId} {r : RegionId} {e : EngineId}

/-! The route window (R163). -/

theorem routeEntryWrite_wrote {y : BitVec 32} (hb : s.bounded) (ht : s.takesWrite rq 0x5300 3 t.val) (hy : y.toNat < 2 ^ 31) :
    Wrote (.routeEntryWrite rq t y) s rq 0x5300 3 t.val (fun w => w = s.modRouter t.val (fun z =>
      { z with sets := mset (s.obj 0x5300 1 t.val * 512 + s.obj 0x5300 2 t.val) y z.sets })) := by
  refine wrote_of_put rfl (writable_routeEntry t) ht y.isLt rfl (decide_eq_true hy) (fun hread => ?_) (trimmed_of_bounded hb)
  rw [writeValue_routeEntry, hread, BitVec.ofNat_toNat, BitVec.setWidth_eq]

theorem routeEntryWrite_aborted {y : BitVec 32} (hb : s.bounded) (ht : s.takesWrite rq 0x5300 3 t.val) (hy : 2 ^ 31 ≤ y.toNat) :
    Aborted (.routeEntryWrite rq t y) s rq 0x5300 3 t.val .valueRange :=
  aborted_of_putValue rfl (writable_routeEntry t) ht y.isLt hb rfl (decide_eq_false (Nat.not_lt.2 hy))

/-! Tile reset (R379). -/

theorem tileResetWrite_wrote (ht : s.takesWrite rq 0x5000 1 t.val) (hpart : s.partOf t.val = none) :
    Wrote (.tileResetWrite rq t 1) s rq 0x5000 1 t.val (fun w => w.obj 0x5000 1 t.val = 1 ∧ (w.tile t.val).ctxs = []
      ∧ (w.tile t.val).counters = [] ∧ (w.tile t.val).queues = []) := by
  refine wrote_of_put (w := (s.resetTile t.val).setObj 0x5000 1 t.val 1) rfl (writable_tileReset t) ht (by decide) rfl rfl
    (fun hread => ?_) ?_
  · rw [writeValue_tileReset, hread]
    simp [State.actTileReset, hpart, attempt]
  · have htile : (s.resetTile t.val).tile t.val = (s.discardTile t.val).tile t.val := by
      generalize hd : s.discardTile t.val = d
      rw [State.resetTile, hd]
      rfl
    rw [obj_trimmed, State.obj_setObj_same, tile_trimmed, State.tile_setObj, htile, State.discardTile, State.modTile_eq,
      State.tile_setTile_same]
    exact ⟨rfl, rfl, rfl, rfl⟩

theorem tileResetWrite_aborted {p : PartId} (hb : s.bounded) (ht : s.takesWrite rq 0x5000 1 t.val)
    (hpart : s.partOf t.val = some p) (hlive : s.isLive p.val = true) :
    Aborted (.tileResetWrite rq t 1) s rq 0x5000 1 t.val .stateConflict := by
  refine aborted_of_put rfl (writable_tileReset t) ht (by decide) hb rfl rfl (fun hread => ?_)
  rw [writeValue_tileReset, hread]
  simp [State.actTileReset, hpart, hlive, attempt]

theorem tileResetWrite_freed (hb : s.bounded) (ht : s.takesWrite rq 0x5000 1 t.val) :
    Wrote (.tileResetWrite rq t 0) s rq 0x5000 1 t.val (fun w => w = s.setObj 0x5000 1 t.val 0) := by
  refine wrote_of_put rfl (writable_tileReset t) ht (by decide) rfl rfl (fun hread => ?_) (trimmed_of_bounded hb)
  rw [writeValue_tileReset, hread]
  simp [State.actTileReset, attempt]

/-! Vault clear (R182). -/

theorem vaultClear_wrote (hb : s.bounded) (ht : s.takesWrite rq 0x4040 4 r.val) (hup : (s.region r.val).netUp = true)
    (hreset : ∀ j ∈ s.regionVaults r.val, s.inReset j = true) (hidle : (s.region r.val).clearing = none) :
    Wrote (.vaultClear rq r 1) s rq 0x4040 4 r.val (fun w =>
      w = s.setRegion r.val { s.region r.val with clearing := some (s.region r.val).net }) := by
  refine wrote_of_put rfl (writable_vaultClear r) ht (by decide) rfl rfl (fun hread => ?_) (trimmed_of_bounded hb)
  have hall : (s.regionVaults r.val).all s.inReset = true := List.all_eq_true.2 hreset
  rw [writeValue_vaultClear, hread]
  simp only [State.actVaultClear, hup, hall, hidle]
  rfl

theorem vaultClear_aborted (hb : s.bounded) (ht : s.takesWrite rq 0x4040 4 r.val)
    (hrun : ∃ j ∈ s.regionVaults r.val, s.inReset j = false) : Aborted (.vaultClear rq r 1) s rq 0x4040 4 r.val .stateConflict := by
  refine aborted_of_put rfl (writable_vaultClear r) ht (by decide) hb rfl rfl (fun hread => ?_)
  have hall : (s.regionVaults r.val).all s.inReset = false := by simpa using hrun
  rw [writeValue_vaultClear, hread]
  simp [State.actVaultClear, hall, attempt]

/-! Retraining requests (R183, R184). -/

theorem vaultRetrainRequest_asked (ht : s.takesWrite rq 0x4040 1 r.val) (hidle : (s.region r.val).retrain = .idle) :
    Wrote (.vaultRetrainRequest rq r 1) s rq 0x4040 1 r.val (fun w =>
      (w.region r.val).retrain = .pending ∧ w.passes = s.passes ++ [r.val]) := by
  refine wrote_of_put (w := s.askVaultPass r.val) rfl (writable_vaultRetrain r) ht (by decide) rfl rfl (fun hread => ?_) ?_
  · rw [writeValue_vaultRetrain, hread]
    rfl
  · rw [State.askVaultPass, if_pos hidle]
    exact ⟨congrArg Region.retrain (State.region_setRegion_same _ _ _), rfl⟩

theorem vaultRetrainRequest_ignored (hb : s.bounded) (ht : s.takesWrite rq 0x4040 1 r.val)
    (hbusy : (s.region r.val).retrain ≠ .idle) :
    Wrote (.vaultRetrainRequest rq r 1) s rq 0x4040 1 r.val (fun w => w = s) := by
  refine wrote_of_put rfl (writable_vaultRetrain r) ht (by decide) rfl rfl (fun hread => ?_) (trimmed_of_bounded hb)
  rw [writeValue_vaultRetrain, hread]
  simp [State.actVaultRetrain, State.askVaultPass, hbusy, attempt]

theorem channelRetrainRequest_asked {v : BitVec 8} (ht : s.takesWrite rq 0x6830 1 e.val) (hv : v.toNat ≤ 15)
    (hidle : (s.engine e.val).pass v.toNat = .idle) :
    Wrote (.channelRetrainRequest rq e v) s rq 0x6830 1 e.val (fun w =>
      (w.engine e.val).pass v.toNat = .pending ∧ w.chPasses = s.chPasses ++ [(e.val, v.toNat)]) := by
  refine wrote_of_put (w := s.askChannelPass e.val v.toNat) rfl (writable_channelRetrain e) ht v.isLt rfl (decide_eq_true hv)
    (fun hread => ?_) ?_
  · rw [writeValue_channelRetrain, hread, State.actChannelRetrain, if_neg (Nat.not_lt.2 hv)]
    rfl
  · rw [State.askChannelPass, if_pos hidle]
    refine ⟨?_, rfl⟩
    refine (congrArg (Engine.pass · v.toNat) (State.engine_setEngine_same _ _ _)).trans ?_
    exact mget_mset_same _ _ _ _

theorem channelRetrainRequest_aborted {v : BitVec 8} (hb : s.bounded) (ht : s.takesWrite rq 0x6830 1 e.val) (hv : 15 < v.toNat) :
    Aborted (.channelRetrainRequest rq e v) s rq 0x6830 1 e.val .valueRange :=
  aborted_of_putValue rfl (writable_channelRetrain e) ht v.isLt hb rfl (decide_eq_false (Nat.not_le.2 hv))

/-! The re-arm (R348, R356). -/

theorem applyRegion_region (s : State) (r : Nat) : ((s.applyRegion r).region r).st = (s.region r).st
    ∧ ((s.applyRegion r).region r).rising = (s.region r).rising := by
  have hmv (g : Region) (v : Nat) : (g.setMv v).st = g.st ∧ (g.setMv v).rising = g.rising := by
    unfold Region.setMv
    split <;> exact ⟨rfl, rfl⟩
  have hstep (g : Region) (v : Nat) : (g.setStep v).st = g.st ∧ (g.setStep v).rising = g.rising := by
    unfold Region.setStep
    split <;> exact ⟨rfl, rfl⟩
  rw [State.applyRegion, State.modRegion_eq, State.region_setRegion_same]
  exact ⟨(hmv _ _).1.trans ((hstep _ _).1.trans (hmv _ _).1), (hmv _ _).2.trans ((hstep _ _).2.trans (hmv _ _).2)⟩

theorem regionOn_region (s : State) (r : Nat) : ((s.regionOn r).region r).st = .powering
    ∧ ((s.regionOn r).region r).rising = some s.tick := by
  obtain ⟨hst, hrising⟩ := applyRegion_region { s.modRegion r (fun g => { g with
    st := .powering, rising := some s.tick, stops := s.stopsNow r, step := 3, level := 0, index := 0, indexAt := s.tick }) with
    power := { s.power with locked := s.power.locked || rootRegions.contains r } } r
  exact ⟨hst.trans (congrArg Region.st (State.region_setRegion_same _ _ _)),
    hrising.trans (congrArg Region.rising (State.region_setRegion_same _ _ _))⟩

theorem markHoles_frame (ts : List Nat) (s : State) : s.markHoles ts = { s with routers := (s.markHoles ts).routers } := by
  induction ts generalizing s with
  | nil => rfl
  | cons t ts ih =>
    rw [State.markHoles, List.foldl_cons]
    refine (ih _).trans ?_
    dsimp only
    split <;> rfl

/-- The region powers up, and the time of the re-arm is noted. -/
theorem rearm_region (s : State) (r : Nat) (hot : Bool) : ((s.rearm r hot).region r).st = .powering
    ∧ ((s.rearm r hot).region r).rising = some s.tick ∧ ((s.rearm r hot).region r).rearmed = some s.tick := by
  obtain ⟨hst, hrising⟩ := regionOn_region s r
  have hmarked := markHoles_frame (regionTiles r) (s.regionOn r)
  have hregion : (s.rearm r hot).region r
      = { (s.regionOn r).region r with rearmed := some s.tick, hot := hot, firstReading := hot, vaultsUp := true } := by
    unfold State.rearm
    rw [hmarked]
    exact State.region_setRegion_same _ _ _
  rw [hregion]
  exact ⟨hst, hrising, rfl⟩

/-- What a re-arm makes of a region: it powers up now. -/
def Rearmed (s w : State) (r : Nat) : Prop :=
  (w.region r).st = .powering ∧ (w.region r).rising = some s.tick ∧ (w.region r).rearmed = some s.tick

theorem regionRearm_wrote (ht : s.takesWrite rq 0x4000 1 r.val) (hoff : (s.region r.val).st = .latched
      ∨ ((s.region r.val).st = .offT4 ∧ (s.region r.val).offAt + 1175000000 ≤ s.tick)) :
    Wrote (.regionRearm rq r 1) s rq 0x4000 1 r.val (Rearmed s · r.val) := by
  have hrearm (hot : Bool) (hact : s.actRegionRearm r.val 1 = .ok (s.rearm r.val hot)) :
      Wrote (.regionRearm rq r 1) s rq 0x4000 1 r.val (Rearmed s · r.val) := by
    refine wrote_of_put (w := s.rearm r.val hot) rfl (writable_regionRearm r) ht (by decide) rfl rfl (fun hread => ?_) ?_
    · rw [writeValue_regionRearm, hread]
      exact congrArg (attempt s) hact
    · rw [Rearmed, region_trimmed]
      exact rearm_region s r.val hot
  obtain hlatched | ⟨hhot, hcool⟩ := hoff
  · exact hrearm false (by simp [State.actRegionRearm, hlatched])
  · have hlate : ¬ s.tick < (s.region r.val).offAt + 10000 * msTicks := Nat.not_lt.2 hcool
    exact hrearm true (by simp [State.actRegionRearm, hhot, hlate])

theorem regionRearm_aborted (hb : s.bounded) (ht : s.takesWrite rq 0x4000 1 r.val) (hkept : (s.region r.val).st = .dead
      ∨ ((s.region r.val).st = .offT4 ∧ s.tick < (s.region r.val).offAt + 1175000000)) :
    Aborted (.regionRearm rq r 1) s rq 0x4000 1 r.val .stateConflict := by
  refine aborted_of_put rfl (writable_regionRearm r) ht (by decide) hb rfl rfl (fun hread => ?_)
  rw [writeValue_regionRearm, hread]
  obtain hdead | ⟨hhot, hearly⟩ := hkept
  · simp [State.actRegionRearm, hdead, attempt]
  · have hlate : s.tick < (s.region r.val).offAt + 10000 * msTicks := hearly
    simp [State.actRegionRearm, hhot, hlate, attempt]

theorem regionRearm_ignored (hb : s.bounded) (ht : s.takesWrite rq 0x4000 1 r.val) (hst : (s.region r.val).st = .running
      ∨ (s.region r.val).st = .railOff ∨ (s.region r.val).st = .off ∨ (s.region r.val).st = .powering) :
    Wrote (.regionRearm rq r 1) s rq 0x4000 1 r.val (fun w => w = s) := by
  refine wrote_of_put rfl (writable_regionRearm r) ht (by decide) rfl rfl (fun hread => ?_) (trimmed_of_bounded hb)
  rw [writeValue_regionRearm, hread]
  obtain hst | hst | hst | hst := hst
  all_goals simp [State.actRegionRearm, hst, attempt]

/-! The clock stop (R103). -/

theorem computeClockStopWrite_stops (ht : s.takesWrite rq 0x4000 4 r.val) (hup : (s.region r.val).netUp = true) :
    Wrote (.computeClockStopWrite rq r 1) s rq 0x4000 4 r.val (fun w =>
      w.obj 0x4000 4 r.val = 1 ∧ (w.region r.val).clocked = false) := by
  refine wrote_of_put (w := (s.setObj 0x4000 4 r.val 1).stopClock r.val .request) rfl (writable_clockStop r) ht (by decide) rfl rfl
    (fun hread => ?_) ⟨?_, ?_⟩
  · rw [writeValue_clockStop, hread]
    simp [hup]
  · rw [obj_trimmed, State.stopClock, State.modRegion_eq, State.obj_setRegion, State.obj_setObj_same]
  · have hstops (l : List StopCause) : (if l.contains .request then l else .request :: l).isEmpty = false := by
      cases l with
      | nil => rfl
      | cons c l => split <;> rfl
    rw [region_trimmed, State.stopClock, State.modRegion_eq, State.region_setRegion_same, Region.clocked, hstops, Bool.and_false]

theorem computeClockStopWrite_frees (ht : s.takesWrite rq 0x4000 4 r.val) (honly : (s.region r.val).stops = [.request]) :
    Wrote (.computeClockStopWrite rq r 0) s rq 0x4000 4 r.val (fun w =>
      w.obj 0x4000 4 r.val = 0 ∧ (w.region r.val).stops = []) := by
  refine wrote_of_put (w := (s.setObj 0x4000 4 r.val 0).freeClock r.val .request) rfl (writable_clockStop r) ht (by decide) rfl rfl
    (fun hread => ?_) ⟨?_, ?_⟩
  · rw [writeValue_clockStop, hread]
    rfl
  · rw [obj_trimmed, State.freeClock, State.modRegion_eq, State.obj_setRegion, State.obj_setObj_same]
  · rw [region_trimmed, State.freeClock, State.modRegion_eq, State.region_setRegion_same, State.region_setObj, honly]
    rfl

/-! Thresholds (R357). -/

/-- A threshold of a region once x is written to threshold k. -/
def State.thresholdWith (s : State) (r k x i : Nat) : Int := if i = k then i16 x else s.threshold r (i + 1)

theorem actThreshold_eq (r k x : Nat) : s.actThreshold r k x =
    if hwThreshold k < i16 x || i16 x < hwThreshold k - 250 then .error .valueRange
    else if (List.range 3).any (fun i => s.thresholdWith r k x (i + 1) < s.thresholdWith r k x i + 50) then .error .valueRange
    else .ok (s.setObj 0x4020 (0x12 + k) r x) := rfl

theorem thresholdWrite_wrote {k : Fin 4} {x : BitVec 16} (hb : s.bounded) (ht : s.takesWrite rq 0x4020 (0x12 + k.val) r.val)
    (hhigh : i16 x.toNat ≤ hwThreshold k.val) (hlow : hwThreshold k.val - 250 ≤ i16 x.toNat)
    (horder : ∀ i, i < 3 → s.thresholdWith r.val k.val x.toNat i + 50 ≤ s.thresholdWith r.val k.val x.toNat (i + 1)) :
    Wrote (.thresholdWrite rq r k x) s rq 0x4020 (0x12 + k.val) r.val (fun w =>
      w = s.setObj 0x4020 (0x12 + k.val) r.val x.toNat) := by
  refine wrote_of_put rfl (writable_threshold r k) ht x.isLt rfl rfl (fun hread => ?_) (trimmed_of_bounded hb)
  have hrange : (decide (hwThreshold k.val < i16 x.toNat) || decide (i16 x.toNat < hwThreshold k.val - 250)) = false := by
    simp only [Bool.or_eq_false_iff, decide_eq_false_iff_not]
    omega
  have hsorted : (List.range 3).any (fun i => decide (s.thresholdWith r.val k.val x.toNat (i + 1)
      < s.thresholdWith r.val k.val x.toNat i + 50)) = false := by
    simp only [List.any_eq_false, List.mem_range, decide_eq_true_eq, Int.not_lt]
    exact horder
  rw [writeValue_threshold, hread, actThreshold_eq, hrange, hsorted]
  rfl

theorem thresholdWrite_aborted {k : Fin 4} {x : BitVec 16} (hb : s.bounded) (ht : s.takesWrite rq 0x4020 (0x12 + k.val) r.val)
    (hbad : hwThreshold k.val < i16 x.toNat ∨ i16 x.toNat < hwThreshold k.val - 250
      ∨ ∃ i, i < 3 ∧ s.thresholdWith r.val k.val x.toNat (i + 1) < s.thresholdWith r.val k.val x.toNat i + 50) :
    Aborted (.thresholdWrite rq r k x) s rq 0x4020 (0x12 + k.val) r.val .valueRange := by
  refine aborted_of_put rfl (writable_threshold r k) ht x.isLt hb rfl rfl (fun hread => ?_)
  rw [writeValue_threshold, hread, actThreshold_eq]
  have hsorted : (∃ i, i < 3 ∧ s.thresholdWith r.val k.val x.toNat (i + 1) < s.thresholdWith r.val k.val x.toNat i + 50) →
      (List.range 3).any (fun i => decide (s.thresholdWith r.val k.val x.toNat (i + 1)
        < s.thresholdWith r.val k.val x.toNat i + 50)) = true := by
    simp only [List.any_eq_true, List.mem_range, decide_eq_true_eq, imp_self]
  obtain hhigh | hlow | horder := hbad
  · rw [decide_eq_true hhigh]
    rfl
  · rw [decide_eq_true hlow, Bool.or_true]
    rfl
  · rw [hsorted horder, if_pos rfl, ite_self]
    rfl

end

/-- Settles O51: each write is taken as its object's type and table say, and ends with the effect that the object gives it. -/
theorem tileAndRegionWritesAct : Obligations.TileAndRegionWritesAct := by
  intro s rq t r e v x y k hb g window
  refine ⟨fun ht => ⟨routeEntryWrite_wrote hb ht, routeEntryWrite_aborted hb ht⟩, ?_, ?_, ?_, ?_,
    fun ht => ⟨channelRetrainRequest_asked ht, channelRetrainRequest_aborted hb ht⟩, ?_, fun ht => ⟨?_, ?_⟩,
    fun ht => ⟨thresholdWrite_wrote hb ht, thresholdWrite_aborted hb ht⟩⟩
  · rintro ht rfl
    exact ⟨tileResetWrite_wrote ht, fun p => tileResetWrite_aborted hb ht⟩
  · rintro ht rfl
    exact tileResetWrite_freed hb ht
  · rintro ht rfl hup
    exact ⟨vaultClear_wrote hb ht hup, vaultClear_aborted hb ht⟩
  · rintro ht rfl
    exact ⟨vaultRetrainRequest_asked ht, vaultRetrainRequest_ignored hb ht⟩
  · rintro ht rfl
    exact ⟨regionRearm_wrote ht, regionRearm_aborted hb ht, regionRearm_ignored hb ht⟩
  · rintro rfl
    exact computeClockStopWrite_stops ht
  · rintro rfl
    exact computeClockStopWrite_frees ht

end Sys2Proof.Machine
end

section
/-! SUPPORT. What a partition stop leaves of the objects: the states and stop causes of the other partitions (O24). -/
namespace Sys2Proof.Machine

/-! Packets that go out touch no object. -/

theorem pump_dict (p b n : Nat) (s : State) : (s.pump p b n).dict = s.dict := by
  induction n generalizing s with
  | zero => rfl
  | succ n ih =>
    unfold State.pump
    dsimp only
    split
    · rfl
    · split
      · exact ih _
      · rfl

theorem sendOn_dict (s : State) (p b : Nat) (k : Pkt) : (s.sendOn p b k).dict = s.dict := by
  unfold State.sendOn
  split
  · rfl
  · exact pump_dict _ _ _ _

theorem toHostOutF_dict (s : State) (k : Pkt) : (s.toHostOutF k).1.dict = s.dict := by
  unfold State.toHostOutF
  split
  · split
    · split
      · exact sendOn_dict _ _ _ _
      · rfl
    · rfl
  · rfl

theorem selfOut_dict (s : State) (k : Pkt) : (s.selfOut k).1.dict = s.dict := by
  unfold State.selfOut
  dsimp only
  split
  · split
    · split
      · exact sendOn_dict _ _ _ _
      · rfl
    · rfl
  · exact toHostOutF_dict _ _

theorem sendLocalF_dict (s : State) (k : Pkt) : (s.sendLocalF k).1.dict = s.dict := by
  unfold State.sendLocalF
  split
  · split
    · rfl
    · exact sendOn_dict _ _ _ _
  · exact selfOut_dict _ _
  · rfl
  · rfl

/-! The objects that the service firmware keeps of its own work: turnover answers, rings, held norms, events and trace. -/

def serviceIndexes : List Nat := [0x2110, 0x2300, 0x8130, 0x9000, 0x9100]

/-- The objects of every other index hold in u what they hold in s. -/
def ServiceOnly (s u : State) : Prop := ∀ i b n, okey i b n / 2 ^ 24 ∉ serviceIndexes → u.obj i b n = s.obj i b n

namespace ServiceOnly
variable {s u v : State}

theorem of_dict (h : u.dict = s.dict) : ServiceOnly s u := fun _ _ _ _ => by simp only [State.obj, h]

theorem refl (s : State) : ServiceOnly s s := of_dict rfl

theorem trans (h : ServiceOnly s u) (k : ServiceOnly u v) : ServiceOnly s v := fun i b n hi => (k i b n hi).trans (h i b n hi)

theorem foldl {α : Type} {f : State → α → State} (hf : ∀ s a, ServiceOnly s (f s a)) (l : List α) (s : State) :
    ServiceOnly s (l.foldl f s) := by
  induction l generalizing s with
  | nil => exact refl s
  | cons a r ih => exact (hf s a).trans (ih _)

theorem of_kept (h : ObjsKept s u) : ServiceOnly s u :=
  fun i b n hi => h i b n (fun he => hi (by rw [he]; decide))

theorem setObj (s : State) {i b : Nat} (hi : i ∈ serviceIndexes) (hb : b < 256) (v : Nat) : ServiceOnly s (s.setObj i b 0 v) := by
  intro j c n hj
  refine State.obj_setObj_idx s fun he => hj ?_
  have hidx : okey i b 0 / 2 ^ 24 = i := by
    simp only [okey]
    omega
  rwa [he, hidx]

theorem raise (s : State) (code src : Nat) (stp : BitVec 32) (data : List Byte) : ServiceOnly s (s.raise code src stp data) :=
  of_kept (ObjsKept.raise s code src stp data)

theorem tracePoint (s : State) (kind src : Nat) (stp : BitVec 32) : ServiceOnly s (s.tracePoint kind src stp) := by
  unfold State.tracePoint State.tracePointOf
  split
  · unfold State.traceOut
    dsimp only
    split
    · exact refl s
    · split
      · exact setObj { s with free := s.free + 48 } (i := 0x9100) (by decide) (by decide) _
      · exact refl s
  · exact refl s

/-! Completions and notices (R385–R388). -/

theorem store (s : State) (e : Fin 32) (a : Nat) (bs : List Byte) : ServiceOnly s (s.store (.stack e) a bs) :=
  (of_kept (ObjsKept.storeEv s e a bs)).trans (foldl (fun w _ => raise w _ _ _ _) _ _)

theorem checkFull (s : State) : ServiceOnly s s.checkFull := by
  unfold State.checkFull
  split
  · refine (raise { s with ringFull := true } _ _ _ _).trans (foldl (fun w p => ?_) _ _)
    split
    · exact refl w
    · exact refl w
  · exact refl s

theorem writeCompletion (s : State) (c : Completion) : ServiceOnly s (s.writeCompletion c) :=
  (((store s 0 _ _).trans (setObj _ (i := 0x2300) (by decide) (by decide) _)).trans (tracePoint _ _ _ _)).trans (checkFull _)

theorem flushCompletions (n : Nat) (s : State) : ServiceOnly s (s.flushCompletions n) := by
  induction n generalizing s with
  | zero => exact refl s
  | succ n ih =>
    unfold State.flushCompletions
    split
    · exact refl s
    · next c r hw =>
      split
      · exact refl s
      · exact (writeCompletion { s with waiting := r } c).trans (ih _)

theorem complete (s : State) (c : Completion) : ServiceOnly s (s.complete c) := flushCompletions _ { s with waiting := _ }

theorem completeTaken (s : State) (c : Taken) (code tile : Nat) : ServiceOnly s (s.completeTaken c code tile) :=
  complete { s with taken := s.taken.erase c } _

theorem endPausing (s : State) (p : Nat) : ServiceOnly s (s.endPausing p) := by
  unfold State.endPausing State.endDispatched
  split
  · split
    · exact refl s
    · exact (completeTaken s _ _ _).trans (foldl (fun w c => completeTaken w c 3 0xFFFF) _ _)
  · exact refl s

/-! Answers and stop frames. -/

theorem answerAllF (s : State) (p status : Nat) : ServiceOnly s (s.answerAllF p status).1 := by
  have hreply (w : State) (r : Request) : ServiceOnly w (w.statusReplyF p r status).1 := of_dict (sendLocalF_dict w _)
  have hreplies (rs : List Request) (x : State × List Failure) : ServiceOnly x.1 (rs.foldl (fun (x : State × List Failure) r =>
      let y := x.1.statusReplyF p r status; (y.1, x.2 ++ y.2)) x).1 := by
    induction rs generalizing x with
    | nil => exact refl x.1
    | cons r rs ih => exact (hreply x.1 r).trans (ih _)
  refine (hreplies (s.part p).requests (s, [])).trans ?_
  unfold State.answerAllF
  dsimp only
  split
  · exact (refl _).trans (setObj _ (i := 0x2110) (by decide) (by decide) _)
  · exact refl _

theorem floodStop (s : State) (w : Way) (job origin cause : Nat) (but : Option (Nat × Nat)) :
    ServiceOnly s (s.floodStop w job origin cause but) := by
  refine foldl (fun v x => ?_) _ _
  split
  · exact refl v
  · exact of_dict (sendOn_dict _ _ _ _)

/-! The stop of a tile (R131). -/

theorem endRun (s : State) (t c : Nat) : ServiceOnly s (s.endRun t c) := by
  unfold State.endRun
  split
  · exact refl s
  · unfold State.endWrite
    dsimp only
    split
    · exact refl s
    · split
      · exact refl s
      · exact (refl s).trans (raise _ _ _ _ _)

theorem modTile (s : State) (t : Nat) (f : Tile → Tile) : ServiceOnly s (s.modTile t f) := of_dict rfl

theorem stopCtx (s : State) (t c : Nat) : ServiceOnly s (s.stopCtx t c) := (endRun s t c).trans (modTile _ _ _)

theorem stopTile (s : State) (t : Nat) : ServiceOnly s (s.stopTile t) := by
  unfold State.stopTile
  refine (foldl (fun w c => ?_) (List.range 8) s).trans (modTile _ _ _)
  dsimp only
  split
  · exact refl w
  · exact (stopCtx w t c).trans (modTile _ _ _)

end ServiceOnly

/-- A partition stands Stopped, by a cause (R274). -/
structure StoppedBy (p cause : Nat) (s : State) : Prop where
  state : s.pstate p = 6
  cause : s.obj 0x2103 (p + 1) 0 = cause

/-- The one step of a stop that writes the partition's state and stop cause. -/
def State.stoppedAs (s : State) (p cause : Nat) : State := (s.toPstate p 6).setObj 0x2103 (p + 1) 0 cause

section
variable {s u : State} {p q cause : Nat}

theorem ServiceOnly.pstate (h : ServiceOnly s u) (hp : p < 16) : u.pstate p = s.pstate p := by
  refine h _ _ _ ?_
  have hidx : okey 0x2101 (p + 1) 0 / 2 ^ 24 = 0x2101 := by
    simp only [okey]
    omega
  rw [hidx]
  decide

theorem ServiceOnly.stopCause (h : ServiceOnly s u) (hp : p < 16) : u.obj 0x2103 (p + 1) 0 = s.obj 0x2103 (p + 1) 0 := by
  refine h _ _ _ ?_
  have hidx : okey 0x2103 (p + 1) 0 / 2 ^ 24 = 0x2103 := by
    simp only [okey]
    omega
  rw [hidx]
  decide

theorem ServiceOnly.isLive (h : ServiceOnly s u) (hp : p < 16) : u.isLive p = s.isLive p := by
  simp only [State.isLive, h.pstate hp]

theorem ServiceOnly.stoppedBy (h : ServiceOnly s u) (hp : p < 16) (hs : StoppedBy p cause s) : StoppedBy p cause u :=
  ⟨(h.pstate hp).trans hs.state, (h.stopCause hp).trans hs.cause⟩

theorem StoppedBy.not_live (h : StoppedBy p cause s) : s.isLive p = false := by
  simp [State.isLive, h.state]

theorem stoppedAs_same (s : State) (hp : p < 16) (cause : Nat) : StoppedBy p cause (s.stoppedAs p cause) := by
  refine ⟨?_, State.obj_setObj_same _ _ _ _ _⟩
  have hkey : okey 0x2101 (p + 1) 0 ≠ okey 0x2103 (p + 1) 0 := by
    simp only [okey]
    omega
  have htraced : (s.toPstate p 6).pstate p = (s.setPstate p 6).pstate p :=
    (ServiceOnly.tracePoint (s.setPstate p 6) 1 p 0).pstate hp
  exact (State.obj_setObj_idx _ hkey).trans (htraced.trans (State.obj_setObj_same _ _ _ _ _))

theorem stoppedAs_other {c : Nat} (hp : p < 16) (hq : q < 16) (hne : p ≠ q) (hs : StoppedBy p cause s) :
    StoppedBy p cause (s.stoppedAs q c) := by
  have htraced := (ServiceOnly.tracePoint (s.setPstate q 6) 1 q 0).stoppedBy (cause := cause) hp
  have hkey (i j : Nat) (hi : i = 0x2101 ∨ i = 0x2103) (hj : j = 0x2101 ∨ j = 0x2103) : okey i (p + 1) 0 ≠ okey j (q + 1) 0 := by
    simp only [okey]
    omega
  obtain ⟨hstate, hcause⟩ := htraced
    ⟨(State.obj_setObj_idx _ (hkey _ _ (.inl rfl) (.inl rfl))).trans hs.state,
      (State.obj_setObj_idx _ (hkey _ _ (.inr rfl) (.inl rfl))).trans hs.cause⟩
  exact ⟨(State.obj_setObj_idx _ (hkey _ _ (.inl rfl) (.inr rfl))).trans hstate,
    (State.obj_setObj_idx _ (hkey _ _ (.inr rfl) (.inr rfl))).trans hcause⟩

/-- A stop of a live partition: its tiles first, then its state and cause, then what it holds elsewhere (R274). -/
theorem stopPartF_live (hp : p < 16) (hlive : s.isLive p = true) (cause : Nat) (tell : Bool) :
    ∃ v, ServiceOnly s v ∧ ServiceOnly (v.stoppedAs p cause) (s.stopPartF p cause tell).1 := by
  refine ⟨(s.tilesOf p).foldl State.stopTile s, ServiceOnly.foldl ServiceOnly.stopTile _ _, ?_⟩
  unfold State.stopPartF
  rw [hlive]
  generalize (s.tilesOf p).foldl State.stopTile s = v
  have hreleased (w : State) : ServiceOnly w (((w.dropHeldReads p).dropInputs p).releaseRelays p) := ServiceOnly.of_dict rfl
  have hcleared (w : State) : ServiceOnly w (w.modPart p (fun x => { x with pauses := [], joined := [], cold := none })) :=
    ServiceOnly.of_dict rfl
  have hanswered (w : State) (status : Nat) : ServiceOnly w (if tell then (w.answerAllF p status).1.notice 0x8001 p cause
      else (w.answerAllF p status).1) := by
    split
    · exact (ServiceOnly.answerAllF w p status).trans (ServiceOnly.complete _ _)
    · exact ServiceOnly.answerAllF w p status
  have hnorms := ServiceOnly.setObj (v.stoppedAs p cause) (i := 0x8130) (by decide) (show p + 2 < 256 by omega) 0
  exact hnorms.trans ((hreleased _).trans ((ServiceOnly.endPausing _ p).trans ((hcleared _).trans (hanswered _ _))))

theorem stopPartF_dead (hdead : s.isLive p = false) (cause : Nat) (tell : Bool) : s.stopPartF p cause tell = (s, []) := by
  simp [State.stopPartF, hdead]

theorem stopPartF_stops (hp : p < 16) (hlive : s.isLive p = true) (cause : Nat) (tell : Bool) :
    StoppedBy p cause (s.stopPartF p cause tell).1 := by
  obtain ⟨v, -, hafter⟩ := stopPartF_live hp hlive cause tell
  exact hafter.stoppedBy hp (stoppedAs_same v hp cause)

namespace StoppedBy

theorem stopPartF (hp : p < 16) (hq : q < 16) (h : StoppedBy p cause s) (c : Nat) (tell : Bool) :
    StoppedBy p cause (s.stopPartF q c tell).1 := by
  cases hlive : s.isLive q with
  | false => rwa [stopPartF_dead hlive]
  | true =>
    have hne : p ≠ q := by
      rintro rfl
      rw [h.not_live] at hlive
      cases hlive
    obtain ⟨v, hbefore, hafter⟩ := stopPartF_live hq hlive c tell
    exact hafter.stoppedBy hp (stoppedAs_other hp hq hne (hbefore.stoppedBy hp h))

theorem stopJobF (hp : p < 16) (h : StoppedBy p cause s) (job c : Nat) : StoppedBy p cause (s.stopJobF job c).1 := by
  have hturns (l : List Nat) (hl : ∀ q ∈ l, q < 16) (x : State × List Failure) (hx : StoppedBy p cause x.1) :
      StoppedBy p cause (l.foldl (fun (x : State × List Failure) q =>
        if x.1.isLive q && x.1.obj 0x2102 (q + 1) 0 = job then
          let y := x.1.stopPartF q c true; (y.1, x.2 ++ y.2)
        else x) x).1 := by
    induction l generalizing x with
    | nil => exact hx
    | cons q l ih =>
      refine ih (fun r hr => hl r (List.mem_cons_of_mem _ hr)) _ ?_
      dsimp only
      split
      · exact hx.stopPartF hp (hl q List.mem_cons_self) c true
      · exact hx
  exact hturns _ (fun q hq => List.mem_range.1 hq) (s, []) h

theorem failAll (hp : p < 16) (n : Nat) (h : StoppedBy p cause s) (fs : List Failure) (told : List Nat) :
    StoppedBy p cause (s.failAll n fs told) := by
  induction n generalizing s fs told with
  | zero =>
    unfold State.failAll
    exact h
  | succ n ih =>
    cases fs with
    | nil =>
      unfold State.failAll
      exact h
    | cons f r =>
      obtain ⟨job, port, b, c⟩ := f
      unfold State.failAll
      split
      · exact ih h r told
      · have hremember (w : State) (me : BitVec 14) : ServiceOnly w (w.rememberStop job me) := ServiceOnly.of_dict rfl
        refine ih ?_ _ _
        exact (((ServiceOnly.raise _ _ _ _ _).trans (hremember _ _)).trans (ServiceOnly.floodStop _ _ _ _ _ _)).stoppedBy hp
          (h.stopJobF hp job 5)

end StoppedBy

/-- A stop leaves a live partition Stopped, by its cause. -/
theorem stopPart_stops (hp : p < 16) (hlive : s.isLive p = true) (cause : Nat) (tell : Bool) :
    StoppedBy p cause (s.stopPart p cause tell) :=
  (stopPartF_stops hp hlive cause tell).failAll hp _ _ _

end

end Sys2Proof.Machine
end

section
/-! SUPPORT. How much the mirror of the event ring can record of its own: one event for each of its words (O24). -/
namespace Sys2Proof.Machine

/-! The changed symbols of a word after some have been written. -/

section
variable {α : Type} {k : Nat} {v : α} {m : Map α} {q : Nat × α → Bool}

theorem filter_mdel (h : ∀ x, q (k, x) = false) : (mdel k m).filter q = m.filter q := by
  rw [mdel, List.filter_filter]
  refine List.filter_congr fun c _ => ?_
  obtain ⟨j, x⟩ := c
  by_cases hj : j = k
  · subst hj
    simp [h]
  · simp [hj]

theorem filter_minsert (h : ∀ x, q (k, x) = false) : (minsert k v m).filter q = m.filter q := by
  induction m with
  | nil => simp [minsert, h]
  | cons c m ih =>
    obtain ⟨j, x⟩ := c
    unfold minsert
    split
    · rw [List.filter_cons_of_neg (by simp [h])]
    · rw [List.filter_cons, List.filter_cons, ih]

theorem filter_mset (h : ∀ x, q (k, x) = false) : (mset k v m).filter q = m.filter q := by
  rw [mset, filter_minsert h, filter_mdel h]

theorem mdel_of_notMem (h : ∀ c ∈ m, c.1 ≠ k) : mdel k m = m := by
  rw [mdel, List.filter_eq_self]
  intro c hc
  simpa using h c hc

theorem minsert_append {a : Map α} (h : ∀ c ∈ a, c.1 < k) : minsert k v (a ++ m) = a ++ minsert k v m := by
  induction a with
  | nil => rfl
  | cons c a ih =>
    obtain ⟨j, x⟩ := c
    have hj : ¬ k < j := Nat.not_lt.2 (Nat.le_of_lt (h _ List.mem_cons_self))
    rw [List.cons_append, minsert, if_neg hj, ih (fun d hd => h d (List.mem_cons_of_mem _ hd)), List.cons_append]

/-- Where a key goes: behind keys that are not above it. -/
theorem minsert_split (k : Nat) (v : α) (m : Map α) : ∃ a b, m = a ++ b ∧ minsert k v m = a ++ (k, v) :: b ∧ ∀ c ∈ a, c.1 ≤ k := by
  induction m with
  | nil => exact ⟨[], [], rfl, rfl, by simp⟩
  | cons c m ih =>
    obtain ⟨j, x⟩ := c
    unfold minsert
    split
    · exact ⟨[], (j, x) :: m, rfl, rfl, by simp⟩
    · next hj =>
      obtain ⟨a, b, hm, hins, ha⟩ := ih
      refine ⟨(j, x) :: a, b, by rw [hm]; rfl, by rw [hins]; rfl, fun c hc => ?_⟩
      obtain rfl | hc := List.mem_cons.1 hc
      · exact Nat.not_lt.1 hj
      · exact ha c hc

end

/-- The changed symbols of word w all stand before position K, and before every symbol beyond it that is listed. -/
def Parted (w K : Nat) (l : List Host.Cell) : Prop :=
  ∃ a b, l = a ++ b ∧ (∀ c ∈ a, c.1 < K) ∧ ∀ c ∈ b, c.1 / 128 ≠ w

theorem parted_mset {w K k : Nat} {v : Byte} {l : List Host.Cell} (h : Parted w K l) (hK : K ≤ k) (hk : k / 128 = w) :
    Parted w (k + 1) (mset k v l)
      ∧ (mset k v l).filter (fun c => decide (c.1 / 128 = w)) = l.filter (fun c => decide (c.1 / 128 = w)) ++ [(k, v)] := by
  obtain ⟨a, b, rfl, ha, hb⟩ := h
  have hnone : ∀ c ∈ a ++ b, c.1 ≠ k := by
    rintro c hc rfl
    obtain hc | hc := List.mem_append.1 hc
    · exact absurd (ha c hc) (by omega)
    · exact hb c hc hk
  obtain ⟨x, y, rfl, hins, hx⟩ := minsert_split k v b
  have hmset : mset k v (a ++ (x ++ y)) = (a ++ x ++ [(k, v)]) ++ y := by
    rw [mset, mdel_of_notMem hnone, minsert_append (fun c hc => Nat.lt_of_lt_of_le (ha c hc) hK), hins]
    simp
  rw [hmset]
  have hfree (z : List Host.Cell) (hz : ∀ c ∈ z, c.1 / 128 ≠ w) : z.filter (fun c => decide (c.1 / 128 = w)) = [] := by
    simpa using hz
  refine ⟨⟨_, y, rfl, fun c hc => ?_, fun c hc => hb c (List.mem_append_right _ hc)⟩, ?_⟩
  · simp only [List.mem_append, List.mem_singleton] at hc
    obtain (hc | hc) | rfl := hc
    · exact Nat.lt_succ_of_le (Nat.le_trans (Nat.le_of_lt (ha c hc)) hK)
    · exact Nat.lt_succ_of_le (hx c hc)
    · exact Nat.lt_succ_self k
  · simp only [List.filter_append, hfree y (fun c hc => hb c (List.mem_append_right _ hc)),
      hfree x (fun c hc => hb c (List.mem_append_left _ hc)), List.append_nil]
    simp [hk]

/-- A flip of a symbol that no other flip precedes adds it behind the word's others. -/
theorem setErrs_range {w : Nat} (c n : Nat) (m : Mem) (h : Parted w (w * 128 + n) m.errs) (hc : n + c ≤ 128) :
    (m.setErrs w ((List.range' n c).map (fun i => (i, (0xFF : Byte))))).wordErrs w
      = m.wordErrs w ++ (List.range' n c).map (fun i => (i, 0xFF)) := by
  induction c generalizing n m with
  | zero => simp [Mem.setErrs]
  | succ c ih =>
    have hkey : (w * 128 + n) / 128 = w := by omega
    have hzero : cget m.errs (w * 128 + n) = 0 := by
      obtain ⟨a, b, hl, ha, hb⟩ := h
      rw [cget, mget, mfind_eq_none]
      · rfl
      · intro hmem
        obtain ⟨c, hc, hck⟩ := List.mem_map.1 hmem
        rw [hl] at hc
        obtain hc | hc := List.mem_append.1 hc
        · exact absurd (ha c hc) (by omega)
        · exact hb c hc (hck ▸ hkey)
    have hset : cset (w * 128 + n) (cget m.errs (w * 128 + n) ^^^ 0xFF) m.errs = mset (w * 128 + n) 0xFF m.errs := by
      rw [hzero]
      rfl
    obtain ⟨hparted, hfilter⟩ := parted_mset (v := 0xFF) h (Nat.le_refl _) hkey
    have hnext := ih (n + 1) { m with errs := mset (w * 128 + n) 0xFF m.errs } hparted (by omega)
    have hword : ({ m with errs := mset (w * 128 + n) 0xFF m.errs } : Mem).wordErrs w = m.wordErrs w ++ [(n, 0xFF)] := by
      have hpos : (w * 128 + n) % 128 = n := by omega
      rw [Mem.wordErrs, hfilter, List.map_append, List.map_singleton, hpos]
      rfl
    rw [hword] at hnext
    rw [List.range'_succ, List.map_cons, Mem.setErrs, List.foldl_cons, hset]
    exact hnext.trans (by simp)

theorem setErrs_other {w x : Nat} (hx : x ≠ w) (es : List (Nat × Byte)) (hes : ∀ e ∈ es, e.1 < 128) (m : Mem) :
    (m.setErrs w es).wordErrs x = m.wordErrs x := by
  induction es generalizing m with
  | nil => rfl
  | cons e es ih =>
    rw [Mem.setErrs, List.foldl_cons]
    refine (ih (fun d hd => hes d (List.mem_cons_of_mem _ hd)) _).trans ?_
    have hlt := hes e List.mem_cons_self
    have hkey (y : Byte) : (fun c : Host.Cell => decide (c.1 / 128 = x)) (w * 128 + e.1, y) = false := by
      have hne : (w * 128 + e.1) / 128 ≠ x := by omega
      simp [hne]
    unfold Mem.wordErrs cset
    dsimp only
    split
    · rw [filter_mdel hkey]
    · rw [filter_mset hkey]

theorem clearWord_same (m : Mem) (w : Nat) : (m.clearWord w).wordErrs w = [] := by
  simp [Mem.clearWord, Mem.wordErrs, List.filter_filter]

theorem clearWord_other (m : Mem) {w x : Nat} (h : x ≠ w) : (m.clearWord w).wordErrs x = m.wordErrs x := by
  rw [Mem.wordErrs, Mem.clearWord, List.filter_filter, Mem.wordErrs]
  refine congrArg _ (List.filter_congr fun c _ => ?_)
  by_cases hc : c.1 / 128 = x <;> simp [hc, h]

theorem mark_same (m : Mem) {n : Nat} (w : Nat) (hn : n ≤ 124) : (m.mark n w).wordErrs w = markerErrs n := by
  have hclear : Parted w (w * 128 + n) (m.clearWord w).errs := by
    refine ⟨[], _, rfl, by simp, fun c hc => ?_⟩
    simpa [Mem.clearWord] using (List.mem_filter.1 hc).2
  have hmarker : markerErrs n = (List.range' n 4).map (fun i => (i, 0xFF)) := rfl
  rw [Mem.mark, hmarker, setErrs_range 4 n _ hclear (by omega), clearWord_same]
  rfl

theorem mark_other (m : Mem) {n w x : Nat} (hn : n ≤ 124) (h : x ≠ w) : (m.mark n w).wordErrs x = m.wordErrs x := by
  have hlow : ∀ e ∈ markerErrs n, e.1 < 128 := by
    intro e he
    obtain ⟨i, hi, rfl⟩ := List.mem_map.1 he
    have := List.mem_range.1 hi
    dsimp only
    omega
  rw [Mem.mark, setErrs_other h _ hlow, clearWord_other m h]

theorem flipData_errs (m : Mem) (n w : Nat) (es : List (Nat × Byte)) : (m.flipData n w es).errs = m.errs := by
  induction es generalizing m with
  | nil => rfl
  | cons e es ih =>
    rw [Mem.flipData, List.foldl_cons]
    refine (ih _).trans ?_
    split <;> rfl

/-! A stored word gives an event once: after it, its symbols are clean or those of the marker (R176, R178). -/

/-- A read of the word finds nothing to tell. -/
def Mem.quiet (m : Mem) (w : Nat) : Bool := m.wordErrs w = [] || likeMarker 64 (m.wordErrs w)

/-- From s to u the words of stack e that are quiet have stayed so, and the ring is as before. -/
structure Quieter (e : Fin 32) (s u : State) : Prop where
  quiet : ∀ w, (s.mem (.stack e)).quiet w = true → (u.mem (.stack e)).quiet w = true
  ring : u.ring = s.ring

namespace Quieter
variable {e : Fin 32} {s u v : State}

theorem trans (h : Quieter e s u) (k : Quieter e u v) : Quieter e s v :=
  ⟨fun w hw => k.quiet w (h.quiet w hw), k.ring.trans h.ring⟩

theorem of_mems (hm : u.mems = s.mems) (hr : u.ring = s.ring) : Quieter e s u :=
  ⟨fun w hw => by rwa [State.mem, hm], hr⟩

theorem setMem {m : Mem} (h : ∀ w, (s.mem (.stack e)).quiet w = true → m.quiet w = true) : Quieter e s (s.setMem (.stack e) m) :=
  ⟨fun w hw => by rw [State.mem_setMem, if_pos rfl]; exact h w hw, rfl⟩

end Quieter

theorem quiet_congr {m n : Mem} {w : Nat} (h : n.wordErrs w = m.wordErrs w) : n.quiet w = m.quiet w := by
  simp only [Mem.quiet, h]

theorem quiet_clearWord (m : Mem) (w : Nat) :
    (m.clearWord w).quiet w = true ∧ ∀ x, x ≠ w → (m.clearWord w).quiet x = m.quiet x :=
  ⟨by simp [Mem.quiet, clearWord_same], fun _ hx => quiet_congr (clearWord_other m hx)⟩

theorem quiet_mark (m : Mem) (w : Nat) : (m.mark 64 w).quiet w = true ∧ ∀ x, x ≠ w → (m.mark 64 w).quiet x = m.quiet x := by
  have hmarker : (m.mark 64 w).wordErrs w = markerErrs 64 := mark_same m w (by decide)
  exact ⟨by simp [Mem.quiet, hmarker, likeMarker], fun x hx => quiet_congr (mark_other m (by decide) hx)⟩

/-- What an access of a word finds: nothing; or one event that one record holds, of a word that is quiet from then on. -/
def FoundOnce (e : Fin 32) (s u : State) (w : Nat) (evs : List Ev) : Prop :=
  evs = [] ∨ (∃ v, evs = [v] ∧ v.2.2.length ≤ 16)
    ∧ (s.mem (.stack e)).quiet w = false ∧ (u.mem (.stack e)).quiet w = true

theorem noteCorrected_found (s : State) (e : Fin 32) (a : Nat) : ((s.noteCorrected (.stack e) a).1.mems = s.mems
      ∧ (s.noteCorrected (.stack e) a).1.ring = s.ring)
    ∧ ((s.noteCorrected (.stack e) a).2 = [] ∨ ∃ v, (s.noteCorrected (.stack e) a).2 = [v] ∧ v.2.2.length ≤ 16) := by
  have hdata (x y : Byte) (n : Nat) : ([x, y] ++ leBytes 4 n ++ leBytes 8 a).length ≤ 16 := by
    simp [leBytes_length]
  unfold State.noteCorrected
  dsimp only
  split
  · exact ⟨⟨rfl, rfl⟩, .inr ⟨_, rfl, hdata _ _ _⟩⟩
  · exact ⟨⟨rfl, rfl⟩, .inl rfl⟩

theorem readWordEv_found (s : State) (e : Fin 32) (w reader : Nat) :
    Quieter e s (s.readWordEv (.stack e) w reader).1
      ∧ FoundOnce e s (s.readWordEv (.stack e) w reader).1 w (s.readWordEv (.stack e) w reader).2 := by
  have hword : MemUnit.word (.stack e) = 64 := rfl
  unfold State.readWordEv
  dsimp only
  rw [hword]
  split
  · exact ⟨.of_mems rfl rfl, .inl rfl⟩
  · next hchanged =>
    split
    · exact ⟨.of_mems rfl rfl, .inl rfl⟩
    · next hmarked =>
      have hloud : (s.mem (.stack e)).quiet w = false := by simp [Mem.quiet, hchanged, hmarked]
      have hflip (m : Mem) (es : List (Nat × Byte)) (x : Nat) : (m.flipData 64 w es).quiet x = m.quiet x :=
        quiet_congr (by rw [Mem.wordErrs, flipData_errs, Mem.wordErrs])
      have hwritten {m n : Mem} (hm : ∀ x, m.quiet x = (s.mem (.stack e)).quiet x)
          (hn : n.quiet w = true ∧ ∀ x, x ≠ w → n.quiet x = m.quiet x) :
          Quieter e s (s.setMem (.stack e) n) ∧ ((s.setMem (.stack e) n).mem (.stack e)).quiet w = true := by
        refine ⟨.setMem fun x hx => ?_, by rw [State.mem_setMem, if_pos rfl]; exact hn.1⟩
        by_cases hxw : x = w
        · exact hxw ▸ hn.1
        · rw [hn.2 x hxw, hm, hx]
      split
      · exact ⟨(hwritten (hflip _ _) (quiet_clearWord _ _)).1, .inl rfl⟩
      · next cs hcs =>
        obtain ⟨hquieter, hquiet⟩ := hwritten (fun x => (hflip _ cs x).trans (hflip (s.mem (.stack e)) _ x)) (quiet_clearWord _ _)
        generalize s.setMem (.stack e) (Mem.clearWord _ w) = u at hquieter hquiet
        obtain ⟨⟨hmems, hring⟩, hevs⟩ := noteCorrected_found (u.countMem (.stack e) 1) e (w * 64)
        refine ⟨hquieter.trans (.of_mems hmems hring), hevs.imp_right fun hone => ⟨hone, hloud, ?_⟩⟩
        rw [State.mem, hmems]
        exact hquiet
      · have hdata (x y z : Byte) : ([x, y, z] ++ leBytes 8 (w * 64)).length ≤ 16 := by simp [leBytes_length]
        obtain ⟨hquieter, hquiet⟩ := hwritten (hflip _ _) (quiet_mark _ _)
        exact ⟨hquieter.trans (.of_mems rfl rfl), .inr ⟨⟨_, rfl, hdata _ _ _⟩, hloud, hquiet⟩⟩

/-! How many of the mirror's words are not quiet. -/

/-- A word of the mirror. -/
def InMirror (w : Nat) : Prop := 0x17F8300000 / 64 ≤ w ∧ w < 0x17F8300000 / 64 + 2048

/-- Words of the mirror that an access may still tell of; it has 2,048 (R173). -/
def State.loud (s : State) : Finset Nat :=
  (Finset.range 2048).filter (fun j => (s.mem (.stack 0)).quiet (0x17F8300000 / 64 + j) = false)

theorem loud_card (s : State) : s.loud.card ≤ 2048 := (Finset.card_filter_le _ _).trans (by simp)

theorem Quieter.loud {s u : State} (h : Quieter 0 s u) : u.loud ⊆ s.loud := by
  intro j hj
  simp only [State.loud, Finset.mem_filter] at hj ⊢
  refine ⟨hj.1, ?_⟩
  cases hq : (s.mem (.stack 0)).quiet (0x17F8300000 / 64 + j) with
  | false => rfl
  | true => exact absurd (h.quiet _ hq) (by simp [hj.2])

/-- From s to u at most so many events have been found as words of the mirror have become quiet. -/
structure FoundFew (s u : State) (evs : List Ev) : Prop where
  quieter : Quieter 0 s u
  few : u.loud.card + evs.length ≤ s.loud.card
  short : ∀ v ∈ evs, v.2.2.length ≤ 16

namespace FoundFew
variable {s u v : State} {xs ys : List Ev}

theorem none (h : Quieter 0 s u) : FoundFew s u [] := by
  have hcard := Finset.card_le_card h.loud
  exact ⟨h, by simpa using hcard, by simp⟩

theorem trans (h : FoundFew s u xs) (k : FoundFew u v ys) : FoundFew s v (xs ++ ys) := by
  obtain ⟨hquieter, hfew, hshort⟩ := h
  obtain ⟨kquieter, kfew, kshort⟩ := k
  refine ⟨hquieter.trans kquieter, ?_, fun w hw => (List.mem_append.1 hw).elim (hshort w) (kshort w)⟩
  rw [List.length_append]
  omega

theorem readWordEv (s : State) {w : Nat} (hw : InMirror w) (reader : Nat) :
    FoundFew s (s.readWordEv (.stack 0) w reader).1 (s.readWordEv (.stack 0) w reader).2 := by
  obtain ⟨hquieter, hnone | ⟨⟨v, hv, hshort⟩, hloud, hquiet⟩⟩ := readWordEv_found s 0 w reader
  · rw [hnone]
    exact none hquieter
  · obtain ⟨hlow, hhigh⟩ := hw
    have hj : 0x17F8300000 / 64 + (w - 0x17F8300000 / 64) = w := by omega
    have hin : w - 0x17F8300000 / 64 ∈ s.loud := by
      rw [State.loud, Finset.mem_filter, hj]
      exact ⟨Finset.mem_range.2 (by omega), hloud⟩
    have hout : w - 0x17F8300000 / 64 ∉ (s.readWordEv (.stack 0) w reader).1.loud := by
      rw [State.loud, Finset.mem_filter, hj, hquiet]
      simp
    have hfewer := Finset.card_lt_card ((Finset.ssubset_iff_of_subset hquieter.loud).2 ⟨_, hin, hout⟩)
    rw [hv]
    exact ⟨hquieter, hfewer, by simpa using hshort⟩

/-- A write within the mirror. -/
theorem storeEv (s : State) (a : Nat) (bs : List Byte) (ha : 0x17F8300000 ≤ a) (hend : a + bs.length ≤ 0x17F8300000 + 131072) :
    FoundFew s (s.storeEv (.stack 0) a bs).1 (s.storeEv (.stack 0) a bs).2 := by
  have hword (v : State) (evs : List Ev) (h : FoundFew s v evs) {w : Nat} (hw : InMirror w) :
      FoundFew s (State.storeWordEv (.stack 0) a bs.length (v, evs) w).1
        (State.storeWordEv (.stack 0) a bs.length (v, evs) w).2 := by
    unfold State.storeWordEv
    split
    · have hclear : Quieter 0 v (v.setMem (.stack 0) ((v.mem (.stack 0)).clearWord w)) := by
        refine .setMem fun x hx => ?_
        obtain ⟨hsame, hother⟩ := quiet_clearWord (v.mem (.stack 0)) w
        by_cases hxw : x = w
        · exact hxw ▸ hsame
        · rw [hother x hxw, hx]
      simpa using h.trans (none hclear)
    · exact h.trans (readWordEv v hw 9)
  have hwords (l : List Nat) (hl : ∀ w ∈ l, InMirror w) (x : State × List Ev) (h : FoundFew s x.1 x.2) :
      FoundFew s (l.foldl (State.storeWordEv (.stack 0) a bs.length) x).1
        (l.foldl (State.storeWordEv (.stack 0) a bs.length) x).2 := by
    induction l generalizing x with
    | nil => exact h
    | cons w l ih =>
      exact ih (fun v hv => hl v (List.mem_cons_of_mem _ hv)) _ (hword x.1 x.2 h (hl w List.mem_cons_self))
  have hin : ∀ w ∈ (s.mem (.stack 0)).badWords (MemUnit.word (.stack 0)) a bs.length, InMirror w := by
    intro w hw
    rw [Mem.badWords, List.mem_eraseDups] at hw
    have hrange := (List.mem_filter.1 hw).2
    have h64 : MemUnit.word (.stack 0) = 64 := rfl
    simp only [h64, Bool.and_eq_true, decide_eq_true_eq] at hrange
    obtain ⟨⟨hlow, hhigh⟩, -⟩ := hrange
    unfold InMirror
    omega
  have hpoked (v : State) : Quieter 0 v (v.poke (.stack 0) a bs) := .setMem fun _ hx => hx
  have hstored := (hwords _ hin (s, []) (none (.of_mems rfl rfl))).trans (none (hpoked _))
  rw [List.append_nil] at hstored
  exact hstored

end FoundFew

/-! What SC0 records as it writes the mirror (R419). -/

theorem recordBytes_length (r : Record) : r.bytes.length = 32 := by
  simp only [Record.bytes, List.length_append, leBytes_length, List.length_take, List.length_replicate]
  omega

/-- From s to u at most so many records have entered the ring as words of the mirror have become quiet. -/
def RecordedFew (s u : State) : Prop := ∃ xs, u.ring = xs ++ s.ring ∧ u.loud.card + xs.length ≤ s.loud.card

theorem RecordedFew.trans {s u v : State} (h : RecordedFew s u) (k : RecordedFew u v) : RecordedFew s v := by
  obtain ⟨xs, hxs, hfew⟩ := h
  obtain ⟨ys, hys, kfew⟩ := k
  refine ⟨ys ++ xs, by rw [hys, hxs, List.append_assoc], ?_⟩
  rw [List.length_append]
  omega

theorem loud_of_mems {s u : State} (hm : u.mems = s.mems) : u.loud = s.loud := by
  have hmem : u.mem (.stack 0) = s.mem (.stack 0) := by
    rw [State.mem, hm]
    rfl
  exact Finset.filter_congr fun _ _ => by rw [hmem]

theorem recordedFew_same {s u : State} (hm : u.mems = s.mems) (hr : u.ring = s.ring) : RecordedFew s u := by
  exact ⟨[], hr, by rw [loud_of_mems hm, List.length_nil, Nat.add_zero]⟩

/-- Events that one record each holds. -/
theorem listEvents_ring (evs : List Ev) (hshort : ∀ v ∈ evs, v.2.2.length ≤ 16) (s : State) :
    (evs.foldl State.listEvent s).mems = s.mems
      ∧ ∃ xs, (evs.foldl State.listEvent s).ring = xs ++ s.ring ∧ xs.length = evs.length := by
  induction evs generalizing s with
  | nil => exact ⟨rfl, [], rfl, rfl⟩
  | cons v evs ih =>
    have hone : s.listEvent v = s.listRecord { code := v.1, src := v.2.1, step := 0, tick := s.tick, data := v.2.2 } := by
      simp only [State.listEvent, eventRecords, hshort v List.mem_cons_self, if_true]
      rfl
    obtain ⟨hmems, xs, hxs, hlen⟩ := ih (fun w hw => hshort w (List.mem_cons_of_mem _ hw)) (s.listEvent v)
    obtain ⟨hring, hkept⟩ := listRecord_ring s { code := v.1, src := v.2.1, step := 0, tick := s.tick, data := v.2.2 }
    rw [← hone] at hring hkept
    refine ⟨hmems.trans hkept, xs ++ [{ code := v.1, src := v.2.1, step := 0, tick := s.tick, data := v.2.2 }], ?_, by simp [hlen]⟩
    rw [List.foldl_cons, hxs, hring, List.append_assoc]
    rfl

/-- One record is written to the mirror; what its write finds is listed. -/
theorem mirrorWord_recordedFew (s : State) (i n : Nat) (r : Record) : RecordedFew s
    ((s.storeEv (.stack 0) (mirrorAt i) r.bytes).2.foldl State.listEvent
      { (s.storeEv (.stack 0) (mirrorAt i) r.bytes).1 with mirrored := n }) := by
  have hlow : 0x17F8300000 ≤ mirrorAt i := Nat.le_add_right _ _
  have hhigh : mirrorAt i + r.bytes.length ≤ 0x17F8300000 + 131072 := by
    rw [recordBytes_length, mirrorAt]
    omega
  obtain ⟨hquieter, hfew, hshort⟩ := FoundFew.storeEv s (mirrorAt i) r.bytes hlow hhigh
  generalize s.storeEv (.stack 0) (mirrorAt i) r.bytes = x at hquieter hfew hshort
  obtain ⟨hmems, xs, hxs, hlen⟩ := listEvents_ring x.2 hshort { x.1 with mirrored := n }
  have hloud : (x.2.foldl State.listEvent { x.1 with mirrored := n }).loud = x.1.loud := loud_of_mems hmems
  refine ⟨xs, hxs.trans (congrArg (xs ++ ·) hquieter.ring), ?_⟩
  rw [hloud, hlen]
  exact hfew

theorem mirror_recordedFew (n : Nat) (s : State) : RecordedFew s (State.mirror n s) := by
  induction n generalizing s with
  | zero => exact recordedFew_same rfl rfl
  | succ n ih =>
    unfold State.mirror
    dsimp only
    split
    · exact recordedFew_same rfl rfl
    · split
      · exact recordedFew_same rfl rfl
      · split
        · exact recordedFew_same rfl rfl
        · split
          · exact (recordedFew_same rfl rfl).trans (ih _)
          · exact (mirrorWord_recordedFew s _ _ _).trans (ih _)

/-- The record of an event that has just entered the ring stays in it, with at most 2,048 after it. -/
theorem raise_ring_mem {s : State} {code src : Nat} {step : BitVec 32} {data : List Byte} (hdown : (s.core 0).down = false)
    (hdata : data.length ≤ 16) : ∃ xs, xs.length ≤ 2048
      ∧ (s.raise code src step data).ring = xs ++ { code, src, step, tick := s.tick, data } :: s.ring := by
  obtain ⟨hring, -⟩ := listRecord_ring s { code, src, step, tick := s.tick, data }
  obtain ⟨xs, hxs, hfew⟩ := mirror_recordedFew 16384 (s.listRecord { code, src, step, tick := s.tick, data })
  have hraise : s.raise code src step data = State.mirror 16384 (s.listRecord { code, src, step, tick := s.tick, data }) := by
    simp only [State.raise, hdown, eventRecords, hdata, if_true, Bool.false_eq_true, if_false, State.records, List.foldl_cons,
      List.foldl_nil]
  have hcard := loud_card (s.listRecord { code, src, step, tick := s.tick, data })
  exact ⟨xs, by omega, by rw [hraise, hxs, hring]⟩

end Sys2Proof.Machine
end

section
/-! SUPPORT. The route watchdog and the fork stall (O24). -/
namespace Sys2Proof.Machine

/-! A record of an event, and trace points. -/

/-- A trace point changes the trace and its counts alone. -/
theorem tracePoint_frame (s : State) (kind src : Nat) (step : BitVec 32) : s.tracePoint kind src step
    = { s with free := (s.tracePoint kind src step).free, dict := (s.tracePoint kind src step).dict,
               trace := (s.tracePoint kind src step).trace, traceBufs := (s.tracePoint kind src step).traceBufs } := by
  unfold State.tracePoint State.tracePointOf
  split
  · unfold State.traceOut
    dsimp only
    split
    · rfl
    · split <;> rfl
  · rfl

section
variable {s : State} {t : TileId} {port : Fin 5} {vc : Fin 6} {f : Flit} {rest : List Flit} {since o : Nat}

/-! The route watchdog (R141). -/

/-- The oldest flit of an input has not advanced for longer than the watchdog allows, and its partition is not paused. -/
structure Stuck (s : State) (t : TileId) (port : Fin 5) (vc : Fin 6) (f : Flit) (rest : List Flit) (since : Nat) : Prop where
  buf : (s.router t.val).buf port vc = f :: rest
  began : mfind (bufKey port vc) (s.router t.val).since = some since
  on : s.obj 0x5300 5 t.val ≠ 0
  long : since + mget 0 (s.router t.val).paused (bufKey port vc) + s.obj 0x5300 5 t.val < s.netOf t.val
  watched : s.pstate f.part.val ≠ 5

/-- The data of E3050 (R141). -/
def watchData (port : Fin 5) (vc : Fin 6) (f : Flit) : List Byte :=
  leBytes 2 f.route ++ leBytes 1 vc.val ++ leBytes 1 port.val ++ leBytes 1 f.part.val

/-- Once E3050 is raised, the watch of the input begins again; a merge that waits is traced. -/
def State.watchTold (s : State) (t : TileId) (port : Fin 5) (vc : Fin 6) (f : Flit) : State :=
  let r := s.router t.val
  let s := s.raise 0x3050 t.val 0 (watchData port vc f)
  let s := s.modRouter t.val (fun r => { r with
    since := mset (bufKey port.val vc.val) (s.netOf t.val) r.since,
    paused := mdel (bufKey port.val vc.val) r.paused })
  if vc.val = 3 && entryMerge (r.entry f.part.val f.route) then s.tracePoint 5 t.val 0 else s

theorem routeWatchdogExpiry_eq (h : Stuck s t port vc f rest since) : exec (.routeWatchdogExpiry t port vc) s
    = done (if vc.val = 0 || vc.val = 5 then s.watchTold t port vc f
        else (s.watchTold t port vc f).stopPart f.part.val 1 true) := by
  have hexpired : (s.obj 0x5300 5 t.val != 0
      && decide (since + mget 0 (s.router t.val).paused (bufKey port vc) + s.obj 0x5300 5 t.val < s.netOf t.val)
      && !s.watchHeld f.part.val) = true := by
    simp [h.on, h.long, State.watchHeld, h.watched]
  simp only [exec, execRouteWatchdogExpiry, h.buf, h.began]
  rw [if_pos hexpired]
  rfl

theorem watchTold_objs : ServiceOnly s (s.watchTold t port vc f) := by
  have hraised := ServiceOnly.raise s 0x3050 t.val 0 (watchData port vc f)
  unfold State.watchTold
  dsimp only
  split
  · exact (hraised.trans (ServiceOnly.of_dict rfl)).trans (ServiceOnly.tracePoint _ _ _ _)
  · exact hraised.trans (ServiceOnly.of_dict rfl)

/-- A stuck flit of service traffic is told of, and its partition goes on. -/
theorem routeWatchdogExpiry_tells (hdown : (s.core 0).down = false) (h : Stuck s t port vc f rest since) (hvc : vc = 0 ∨ vc = 5) :
    Gives (.routeWatchdogExpiry t port vc) s (fun u => Told s u 0x3050 t.val ∧ u.pstate f.part.val = s.pstate f.part.val) := by
  have hservice : (vc.val = 0 || vc.val = 5) = true := by
    obtain rfl | rfl := hvc <;> rfl
  have heq := routeWatchdogExpiry_eq h
  rw [if_pos hservice, done_trimmed] at heq
  refine ⟨_, heq, fun hclean => ?_, watchTold_objs.pstate f.part.isLt⟩
  have hthree : ¬ vc.val = 3 := by
    obtain rfl | rfl := hvc <;> decide
  have hdata : (watchData port vc f).length ≤ 16 := by simp [watchData, leBytes_length]
  have hring : (s.watchTold t port vc f).ring
      = { code := 0x3050, src := t.val, step := 0, tick := s.tick, data := watchData port vc f } :: s.ring := by
    simp only [State.watchTold, hthree, decide_false, Bool.false_and, Bool.false_eq_true, if_false]
    exact raise_ring hdown hdata hclean
  rw [State.trimmed, hring]
  rfl

/-- A stuck flit of a partition stops it. -/
theorem routeWatchdogExpiry_stops (h : Stuck s t port vc f rest since) (h0 : vc ≠ 0) (h5 : vc ≠ 5)
    (hlive : s.isLive f.part.val = true) : Gives (.routeWatchdogExpiry t port vc) s (fun u =>
      u.pstate f.part.val = 6 ∧ u.obj 0x2103 (f.part.val + 1) 0 = 1) := by
  have hown : ¬ (vc.val = 0 || vc.val = 5) = true := by
    simp only [Bool.or_eq_true, decide_eq_true_eq]
    omega
  have hstill : (s.watchTold t port vc f).isLive f.part.val = true := by rw [watchTold_objs.isLive f.part.isLt, hlive]
  obtain ⟨hstate, hcause⟩ := stopPart_stops f.part.isLt hstill 1 true
  have heq := routeWatchdogExpiry_eq h
  rw [if_neg hown, done_trimmed] at heq
  exact ⟨_, heq, hstate, hcause⟩

/-! The fork stall (R154, R155). -/

/-- The router once the episode of its input has been told. -/
def State.stallTold (s : State) (t : TileId) (port : Fin 5) : State :=
  s.setRouter t.val { s.router t.val with forkTold := port.val :: (s.router t.val).forkTold }

theorem forkStallExpiry_eq (hsince : mfind port.val (s.router t.val).forkSince = some since)
    (hlong : since + s.obj 0x5300 6 t.val < s.netOf t.val) (hnew : (s.router t.val).forkTold.contains port.val = false)
    (hfull : s.fullBranch t.val port.val = some o) (hbuf : (s.router t.val).buf port 2 = f :: rest) :
    exec (.forkStallExpiry t port) s = done (((s.stallTold t port).raise 0x3010 t.val (s.tile t.val).stamp
      (leBytes 2 f.route ++ leBytes 1 f.part.val ++ leBytes 1 o)).tracePoint 5 t.val 0) := by
  simp only [exec, execForkStallExpiry, hsince, hlong, hnew, State.withheld, hfull, hbuf]
  rfl

theorem forkStallExpiry_tells (hdown : (s.core 0).down = false)
    (hsince : mfind port.val (s.router t.val).forkSince = some since)
    (hlong : since + s.obj 0x5300 6 t.val < s.netOf t.val) (hnew : (s.router t.val).forkTold.contains port.val = false)
    (hfull : s.fullBranch t.val port.val = some o) (hbuf : (s.router t.val).buf port 2 = f :: rest) :
    Gives (.forkStallExpiry t port) s (fun u => (u.router t.val).forkTold = port.val :: (s.router t.val).forkTold
      ∧ ∃ e ∈ u.ring, e.code = 0x3010 ∧ e.src = t.val ∧ e.data = leBytes 2 f.route ++ leBytes 1 f.part.val ++ leBytes 1 o) := by
  have hdata : (leBytes 2 f.route ++ leBytes 1 f.part.val ++ leBytes 1 o).length ≤ 16 := by simp [leBytes_length]
  obtain ⟨xs, hfew, hring⟩ := raise_ring_mem (s := s.stallTold t port) (code := 0x3010) (src := t.val)
    (step := (s.tile t.val).stamp) hdown hdata
  have hrecorded := Recorded.raise (s.stallTold t port) 0x3010 t.val (s.tile t.val).stamp
    (leBytes 2 f.route ++ leBytes 1 f.part.val ++ leBytes 1 o)
  refine ⟨_, (forkStallExpiry_eq hsince hlong hnew hfull hbuf).trans (done_trimmed _), ?_,
    { code := 0x3010, src := t.val, step := (s.tile t.val).stamp, tick := s.tick,
      data := leBytes 2 f.route ++ leBytes 1 f.part.val ++ leBytes 1 o }, ?_, rfl, rfl, rfl⟩
  · have hrouter : ∀ w : State, (w.tracePoint 5 t.val 0).trimmed.router t.val = w.router t.val := fun w => by
      rw [tracePoint_frame]
      rfl
    rw [hrouter, hrecorded.router]
    exact congrArg Router.forkTold (State.router_setRouter_same _ _ _)
  · have htraced : ∀ w : State, (w.tracePoint 5 t.val 0).trimmed.ring = w.ring.take 4096 := fun w => by
      rw [tracePoint_frame]
      rfl
    rw [htraced, hring, List.take_append]
    refine List.mem_append_right _ ?_
    have hroom : 4096 - xs.length = (4095 - xs.length) + 1 := by omega
    rw [hroom, List.take_succ_cons]
    exact List.mem_cons_self

theorem forkStallExpiry_once (hb : s.bounded) (htold : (s.router t.val).forkTold.contains port.val = true) :
    exec (.forkStallExpiry t port) s = .next s := by
  have heq : exec (.forkStallExpiry t port) s = done s := by
    simp only [exec, execForkStallExpiry, htold]
    split <;> simp
  rw [heq, done_bounded hb]

/-- A fork withholds its input while the hold of one of its branches is full. -/
theorem withheld_iff {os ls : List Nat} (hbuf : (s.router t.val).buf port 2 = f :: rest)
    (hplan : s.plan t.val port 2 f = .fork os ls) :
    s.withheld t.val port.val = true ↔ ∃ o ∈ os, 8 ≤ ((s.router t.val).holdOf port o).flits.length := by
  simp only [State.withheld, State.fullBranch, hbuf, hplan, List.find?_isSome, decide_eq_true_eq]

end

/-- Settles O24: what the watch does is a lemma for service traffic and one for a partition's, and so is each part about a
fork. -/
theorem watchesFindStuckFlits : Obligations.WatchesFindStuckFlits := by
  intro s t port vc f rest since o hb hdown r n
  refine ⟨fun hbuf hsince hon hlong hwatched => ?_, forkStallExpiry_tells hdown, fun os ls => withheld_iff,
    forkStallExpiry_once hb⟩
  have hstuck : Stuck s t port vc f rest since := ⟨hbuf, hsince, hon, hlong, hwatched⟩
  exact ⟨routeWatchdogExpiry_tells hdown hstuck, routeWatchdogExpiry_stops hstuck⟩

end Sys2Proof.Machine
end

section
/-! SUPPORT. What a vault clear leaves of the memories (O27). -/
namespace Sys2Proof.Machine

theorem regionTiles_lt (r : RegionId) {t : Nat} (ht : t ∈ regionTiles r.val) : t < 6912 := by
  have hr := r.isLt
  simp only [regionTiles, List.mem_map, List.mem_range] at ht
  obtain ⟨i, hi, rfl⟩ := ht
  simp only [tileAt]
  omega

theorem mem_zero (s : State) (m n : MemUnit) : (s.zero m).mem n = if n = m then {} else s.mem n := by
  rw [State.zero, State.mem, mget_mdel]
  by_cases h : n = m
  · simp [h]
  · rw [if_neg (fun he => h (MemUnit.key_inj he)), if_neg h]
    rfl

/-- Zeroing the vaults of some tiles changes the memories alone. -/
theorem zeroEach_frame (ts : List TileId) (s : State) : ts.foldl (fun s t => s.zero (.vault t)) s
    = { s with mems := (ts.foldl (fun s t => s.zero (.vault t)) s).mems } := by
  induction ts generalizing s with
  | nil => rfl
  | cons t ts ih =>
    rw [List.foldl_cons, ih]
    rfl

theorem zeroEach_other {ts : List TileId} {m : MemUnit} (hm : ∀ t ∈ ts, m ≠ .vault t) (s : State) :
    (ts.foldl (fun s t => s.zero (.vault t)) s).mem m = s.mem m := by
  induction ts generalizing s with
  | nil => rfl
  | cons t ts ih =>
    rw [List.foldl_cons, ih (fun v hv => hm v (List.mem_cons_of_mem _ hv)), mem_zero, if_neg (hm t List.mem_cons_self)]

theorem zeroEach_same {ts : List TileId} {t : TileId} (ht : t ∈ ts) (s : State) :
    (ts.foldl (fun s t => s.zero (.vault t)) s).mem (.vault t) = {} := by
  induction ts generalizing s with
  | nil => cases ht
  | cons v ts ih =>
    rw [List.foldl_cons]
    by_cases hlater : t ∈ ts
    · exact ih hlater _
    · obtain rfl := (List.mem_cons.1 ht).resolve_right hlater
      have hnone : ∀ v ∈ ts, MemUnit.vault t ≠ .vault v := by
        rintro v hv ⟨⟩
        exact hlater hv
      rw [zeroEach_other hnone, mem_zero, if_pos rfl]

/-- The usable vaults of a region, as tiles. -/
def State.vaultTiles (s : State) (r : Nat) : List TileId := (s.regionVaults r).map (Fin.ofNat 6912)

theorem zeroVaults_eq (s : State) (r : Nat) : s.zeroVaults r = (s.vaultTiles r).foldl (fun s t => s.zero (.vault t)) s := by
  rw [State.zeroVaults, State.vaultTiles, List.foldl_map]

theorem mem_vaultTiles {s : State} {r : RegionId} {t : TileId} :
    t ∈ s.vaultTiles r.val ↔ t.val ∈ regionTiles r.val ∧ s.vaultUsable t.val = true := by
  have hofNat {v : Nat} (hv : v ∈ regionTiles r.val) : (Fin.ofNat 6912 v).val = v := Nat.mod_eq_of_lt (regionTiles_lt r hv)
  simp only [State.vaultTiles, State.regionVaults, List.mem_map, List.mem_filter]
  constructor
  · rintro ⟨v, ⟨hv, husable⟩, rfl⟩
    rw [hofNat hv]
    exact ⟨hv, husable⟩
  · intro ht
    exact ⟨t.val, ht, Fin.ext (hofNat ht.1)⟩

theorem vaultClearDone_eq {s : State} {r : RegionId} {n : Nat} (hb : s.bounded)
    (hclear : (s.region r.val).clearing = some n) : exec (.vaultClearDone r) s = .next (if n + 3145728 ≤ (s.region r.val).net
      then (s.zeroVaults r.val).modRegion r.val (fun g => { g with clearing := none }) else s) := by
  have hexec : exec (.vaultClearDone r) s = done (if n + 3145728 ≤ (s.region r.val).net
      then (s.zeroVaults r.val).modRegion r.val (fun g => { g with clearing := none }) else s) := by
    simp only [exec, execVaultClearDone, hclear]
  rw [hexec]
  refine done_bounded ?_
  split
  · rw [zeroVaults_eq, zeroEach_frame]
    exact hb
  · exact hb

/-- Settles O27: the vaults zeroed are those of the region's tiles that are usable. -/
theorem vaultClearZeroesTheRegion : Obligations.VaultClearZeroesTheRegion := by
  intro s r n hb hclear
  rw [Gives, vaultClearDone_eq hb hclear]
  refine ⟨fun hdue => ⟨_, rfl, ?_⟩, fun hearly => by rw [if_neg (Nat.not_le.2 hearly)]⟩
  rw [if_pos hdue]
  have hmem (m : MemUnit) : ((s.zeroVaults r.val).modRegion r.val (fun g => { g with clearing := none })).mem m
      = ((s.vaultTiles r.val).foldl (fun s t => s.zero (.vault t)) s).mem m := by
    rw [zeroVaults_eq]
    rfl
  refine ⟨congrArg Region.clearing (State.region_setRegion_same _ _ _), fun t a ht husable => ?_, fun m hm => ?_⟩
  · rw [State.peek, hmem, zeroEach_same (mem_vaultTiles.2 ⟨ht, husable⟩)]
    exact ⟨rfl, rfl⟩
  · rw [hmem, zeroEach_other]
    rintro t ht rfl
    exact hm t rfl (mem_vaultTiles.1 ht).1

end Sys2Proof.Machine
end

section
/-! SUPPORT. What holds between two states because each part of the recording of an event keeps it (O26, O28). -/
namespace Sys2Proof.Machine

/-- A relation that every part of the recording of an event keeps: the events that SC0 lists, its writes to the mirror on
stack 0, and what their reads of partly written words find (R178, R180, R417–R419). -/
structure Recording (R : State → State → Prop) : Prop where
  refl : ∀ s, R s s
  trans : ∀ {s u v}, R s u → R u v → R s v
  mem : ∀ s m, R s (s.setMem (.stack 0) m)
  count : ∀ s k, R s (s.countMem (.stack 0) k)
  note : ∀ s a, R s (s.noteCorrected (.stack 0) a).1
  list : ∀ s r, R s (s.listRecord r)
  place : ∀ s i, R s { s with mirrored := i }
  hold : ∀ s rs, R s { s with hwbuf := rs }
  miss : ∀ s n, R s (s.setObj 0x9000 7 0 n)

namespace Recording
variable {R : State → State → Prop}

theorem foldl (h : Recording R) {α : Type} {f : State → α → State} (hf : ∀ s a, R s (f s a)) (l : List α) (s : State) :
    R s (l.foldl f s) := by
  induction l generalizing s with
  | nil => exact h.refl s
  | cons a l ih => exact h.trans (hf s a) (ih _)

theorem readWordEv (h : Recording R) (s : State) (w reader : Nat) : R s (s.readWordEv (.stack 0) w reader).1 := by
  simp only [State.readWordEv]
  split
  · exact h.refl s
  · split
    · exact h.count s 3
    · split
      · exact h.mem s _
      · exact h.trans (h.trans (h.mem s _) (h.count _ 1)) (h.note _ _)
      · exact h.trans (h.mem s _) (h.count _ 2)

theorem storeEv (h : Recording R) (s : State) (a : Nat) (bs : List Byte) : R s (s.storeEv (.stack 0) a bs).1 := by
  have hword (x : State × List Ev) (w : Nat) : R x.1 (State.storeWordEv (.stack 0) a bs.length x w).1 := by
    unfold State.storeWordEv
    split
    · exact h.mem _ _
    · exact h.readWordEv _ w 9
  have hwords (l : List Nat) (x : State × List Ev) : R x.1 (l.foldl (State.storeWordEv (.stack 0) a bs.length) x).1 := by
    induction l generalizing x with
    | nil => exact h.refl _
    | cons w l ih => exact h.trans (hword x w) (ih _)
  exact h.trans (hwords _ (s, [])) (h.mem _ _)

theorem listEvent (h : Recording R) (s : State) (e : Ev) : R s (s.listEvent e) := h.foldl h.list _ s

theorem mirror (h : Recording R) (n : Nat) (s : State) : R s (State.mirror n s) := by
  induction n generalizing s with
  | zero => exact h.refl s
  | succ n ih =>
    unfold State.mirror
    dsimp only
    split
    · exact h.refl s
    · split
      · exact h.place s _
      · split
        · exact h.refl s
        · split
          · exact h.trans (h.place s _) (ih _)
          · exact h.trans (h.trans (h.trans (h.storeEv s _ _) (h.place _ _)) (h.foldl h.listEvent _ _)) (ih _)

theorem raise (h : Recording R) (s : State) (code src : Nat) (stp : BitVec 32) (data : List Byte) :
    R s (s.raise code src stp data) := by
  unfold State.raise
  dsimp only
  split
  · split
    · exact h.hold s _
    · exact h.miss s _
  · exact h.trans (h.foldl h.list _ s) (h.mirror _ _)

end Recording

/-- A correction changes what its engine counts of its own corrections alone (R176, R184). -/
theorem noteCorrected_stack (s : State) (e : Fin 32) (a : Nat) : ∃ x, (s.noteCorrected (.stack e) a).1 = s.setEngine e.val x
    ∧ x = { s.engine e.val with second := x.second, corrected := x.corrected, lastE4 := x.lastE4 } := by
  unfold State.noteCorrected
  dsimp only
  split <;> exact ⟨_, rfl, rfl⟩

/-- SC0 writes the mirror again after an event, where the mirror's stack has no changed symbols: the event stays the newest
record. -/
theorem raise_mirror_ring {s : State} {code src : Nat} {step : BitVec 32} {data : List Byte} (n : Nat)
    (hdown : (s.core 0).down = false) (hdata : data.length ≤ 16) (hclean : (s.mem (.stack 0)).errs = []) :
    (State.mirror n (s.raise code src step data)).ring = { code, src, step, tick := s.tick, data } :: s.ring := by
  obtain ⟨hring, hmems⟩ := listRecord_ring s { code, src, step, tick := s.tick, data }
  have hraise : s.raise code src step data = State.mirror 16384 (s.listRecord { code, src, step, tick := s.tick, data }) := by
    simp only [State.raise, hdown, eventRecords, hdata, if_true, Bool.false_eq_true, if_false, State.records, List.foldl_cons,
      List.foldl_nil]
  have hquiet : (s.listRecord { code, src, step, tick := s.tick, data }).loud = ∅ := by
    rw [loud_of_mems hmems, State.loud, Finset.filter_eq_empty_iff]
    intro j _
    simp [Mem.quiet, Mem.wordErrs, hclean]
  obtain ⟨xs, hxs, hfew⟩ := (mirror_recordedFew 16384 (s.listRecord { code, src, step, tick := s.tick, data })).trans
    (mirror_recordedFew n _)
  rw [hquiet, Finset.card_empty] at hfew
  obtain rfl := List.length_eq_zero_iff.1 (Nat.le_zero.1 (Nat.le_trans (Nat.le_add_left _ _) hfew))
  rw [hraise, hxs, hring]
  rfl

/-- The newest record of the ring is kept when the ring is bounded. -/
theorem told_of_ring {s u : State} {r : Record} {l : List Record} (h : (s.mem (.stack 0)).errs = [] → u.ring = r :: l) :
    Told s u.trimmed r.code r.src := by
  intro hclean
  have hring : u.trimmed.ring = u.ring.take 4096 := rfl
  rw [hring, h hclean]
  rfl

end Sys2Proof.Machine
end

section
/-! SUPPORT. Retraining passes: asked for by the policy, started, and ended (O28). -/
namespace Sys2Proof.Machine

section
variable {s : State} {r : RegionId} {e : EngineId} {ch : Fin 16} {since : Nat}

theorem sameMem_of_mems {s u : State} (h : u.mems = s.mems) : SameMem s u := by
  have hmem (m : MemUnit) : u.mem m = s.mem m := by rw [State.mem, h]; rfl
  exact fun m a => ⟨by rw [State.peek, hmem, State.peek], by rw [hmem]⟩

/-! The policy (R183, R184). -/

theorem retrainPolicyTrigger_vaults (hb : s.bounded) (hidle : (s.region r.val).retrain = .idle)
    (hdown : (s.core 2).down = false) (hpolicy : s.obj 0x4040 3 r.val = 1) (hmany : 1000 < (s.region r.val).corrected) :
    Gives (.retrainPolicyTrigger (.vaults r)) s (fun u =>
      (u.region r.val).retrain = .pending ∧ u.passes = s.passes ++ [r.val] ∧ SameMem s u) := by
  have hexec : exec (.retrainPolicyTrigger (.vaults r)) s
      = done { s.modRegion r.val (fun g => { g with retrain := .pending }) with passes := s.passes ++ [r.val] } := by
    simp [exec, execRetrainPolicyTrigger, hdown, hpolicy, hmany, State.askVaultPass, hidle]
  exact ⟨_, hexec.trans (done_bounded hb), congrArg Region.retrain (State.region_setRegion_same _ _ _), rfl,
    sameMem_of_mems rfl⟩

theorem retrainPolicyTrigger_channel (hb : s.bounded) (hidle : (s.engine e.val).pass ch = .idle)
    (hdown : (s.core 2).down = false) (hpolicy : s.obj 0x6830 3 e.val = 1)
    (hmany : 1000 < mget 0 (s.engine e.val).second ch) :
    Gives (.retrainPolicyTrigger (.channel e ch)) s (fun u =>
      (u.engine e.val).pass ch = .pending ∧ u.chPasses = s.chPasses ++ [(e.val, ch.val)] ∧ SameMem s u) := by
  have hexec : exec (.retrainPolicyTrigger (.channel e ch)) s
      = done { s.modEngine e.val (fun x => { x with retrain := mset ch.val .pending x.retrain, retrainCh := ch.val }) with
        chPasses := s.chPasses ++ [(e.val, ch.val)] } := by
    simp [exec, execRetrainPolicyTrigger, hdown, hpolicy, hmany, State.askChannelPass, hidle]
  refine ⟨_, hexec.trans (done_bounded hb), ?_, rfl, sameMem_of_mems rfl⟩
  exact (congrArg (Engine.pass · ch.val) (State.engine_setEngine_same _ _ _)).trans (mget_mset_same _ _ _ _)

theorem retrainPolicyTrigger_down (hb : s.bounded) (hdown : (s.core 2).down = true) (u : RetrainUnit) :
    exec (.retrainPolicyTrigger u) s = .next s := by
  have hexec : exec (.retrainPolicyTrigger u) s = done s := by
    cases u <;> simp [exec, execRetrainPolicyTrigger, hdown]
  rw [hexec, done_bounded hb]

/-! A pass of a region's vaults (R183). -/

theorem vaultRetrainStart_starts (hb : s.bounded) (hpending : (s.region r.val).retrain = .pending)
    (hon : (s.region r.val).st = .running) (hfirst : s.passes.head? = some r.val)
    (hfree : ∀ q ∈ s.regions, q.2.retrain.isRunning = false) :
    Gives (.vaultRetrainStart r) s (fun u => (u.region r.val).retrain = .running s.tick ∧ u.passes = s.passes.tail) := by
  obtain ⟨ps, hps⟩ := List.head?_eq_some_iff.1 hfirst
  have hnone : s.regions.any (fun q => q.2.retrain.isRunning) = false := List.any_eq_false.2 fun q hq => by simp [hfree q hq]
  have hexec : exec (.vaultRetrainStart r) s = done { s.modRegion r.val (fun g => { g with retrain := .running s.tick }) with
      passes := s.passes.erase r.val } := by
    simp [exec, execVaultRetrainStart, hpending, hon, hnone, hps]
  refine ⟨_, hexec.trans (done_bounded hb), congrArg Region.retrain (State.region_setRegion_same _ _ _), ?_⟩
  simp [hps]

theorem vaultRetrainStart_waits (hb : s.bounded) (hbusy : ∃ q ∈ s.regions, q.2.retrain.isRunning = true) :
    exec (.vaultRetrainStart r) s = .next s := by
  have hany : s.regions.any (fun q => q.2.retrain.isRunning) = true := List.any_eq_true.2 hbusy
  have hexec : exec (.vaultRetrainStart r) s = done s := by
    simp [exec, execVaultRetrainStart, hany]
  rw [hexec, done_bounded hb]

theorem vaultRetrainEnd_tells (hrun : (s.region r.val).retrain = .running since) (hdown : (s.core 0).down = false) (ok : Bool) :
    Gives (.vaultRetrainEnd r ok) s (fun u => (u.region r.val).retrain = .idle ∧ (u.region r.val).retrainBad = !ok
      ∧ u.obj 0x4040 6 r.val = s.tick ∧ Told s u 0x4030 r.val) := by
  generalize hv : (s.modRegion r.val (fun g => { g with
    retrain := .idle, retrainBad := (if ok then 0 else 1) != 0,
    passTemp := if (if ok then 0 else 1) = 2 then g.passTemp else g.temp })).setObj 0x4040 6 r.val s.tick = v
  have hregion : (v.region r.val).retrain = .idle ∧ (v.region r.val).retrainBad = !ok := by
    rw [← hv, State.region_setObj, State.modRegion_eq, State.region_setRegion_same]
    cases ok <;> exact ⟨rfl, rfl⟩
  have hexec : exec (.vaultRetrainEnd r ok) s = .next (v.raise 0x4030 r.val 0
      (leBytes 1 (if ok then 0 else 1) ++ [0xFF] ++ leBytes 4 (s.tick - since))).trimmed := by
    rw [← done_trimmed, ← hv]
    simp only [exec, execVaultRetrainEnd, State.endVaultPass, hrun]
    rfl
  have hrecorded := Recorded.raise v 0x4030 r.val 0 (leBytes 1 (if ok then 0 else 1) ++ [0xFF] ++ leBytes 4 (s.tick - since))
  have hsame : (v.raise 0x4030 r.val 0
      (leBytes 1 (if ok then 0 else 1) ++ [0xFF] ++ leBytes 4 (s.tick - since))).region r.val = v.region r.val := by
    rw [hrecorded.frame]
    rfl
  refine ⟨_, hexec, ?_, ?_, ?_, told_of_ring fun hclean => raise_ring ?_ ?_ ?_⟩
  · rw [region_trimmed, hsame, hregion.1]
  · rw [region_trimmed, hsame, hregion.2]
  · rw [obj_trimmed, ObjsKept.raise _ _ _ _ _ _ _ _ (by simp only [okey]; omega), ← hv, State.obj_setObj_same]
  · rw [← hv]
    exact hdown
  · simp [leBytes_length]
  · rw [← hv]
    exact hclean

/-! A pass of a channel (R184). -/

theorem channelRetrainStart_starts (hb : s.bounded) (hfirst : s.chPasses.head? = some (e.val, ch.val))
    (hup : s.stackUp e.val = true) (hfree : ∀ q ∈ s.engines, ∀ c ∈ q.2.retrain, c.2.isRunning = false) :
    Gives (.channelRetrainStart e) s (fun u =>
      (u.engine e.val).pass ch = .running s.tick ∧ u.chPasses = s.chPasses.tail) := by
  obtain ⟨ps, hps⟩ := List.head?_eq_some_iff.1 hfirst
  have hnone : s.engines.any (fun q => q.2.retrain.any (fun c => c.2.isRunning)) = false :=
    List.any_eq_false.2 fun q hq => by simpa using hfree q hq
  have hexec : exec (.channelRetrainStart e) s = done { s.modEngine e.val (fun x => { x with
      retrain := mset ch.val (.running s.tick) x.retrain, retrainCh := ch.val }) with
      chPasses := s.chPasses.erase (e.val, ch.val) } := by
    simp [exec, execChannelRetrainStart, hps, hup, hnone]
  refine ⟨_, hexec.trans (done_bounded hb), ?_, by simp [hps]⟩
  exact (congrArg (Engine.pass · ch.val) (State.engine_setEngine_same _ _ _)).trans (mget_mset_same _ _ _ _)

/-- The retraining passes of every engine are as before. -/
def PassesKept (s u : State) : Prop :=
  ∀ e, (u.engine e).retrain = (s.engine e).retrain ∧ (u.engine e).retrainBad = (s.engine e).retrainBad

/-- The recording of an event leaves the engines' passes as they are. -/
theorem recording_passesKept : Recording PassesKept := by
  refine ⟨fun s e => ⟨rfl, rfl⟩, fun h k e => ⟨(k e).1.trans (h e).1, (k e).2.trans (h e).2⟩, fun s m e => ⟨rfl, rfl⟩,
    fun s k e => ⟨rfl, rfl⟩, fun s a e => ?_, fun s r e => ?_, fun s i e => ⟨rfl, rfl⟩, fun s rs e => ⟨rfl, rfl⟩,
    fun s n e => ⟨rfl, rfl⟩⟩
  · obtain ⟨x, hnoted, hx⟩ := noteCorrected_stack s 0 a
    rw [hnoted, State.engine_setEngine]
    split
    · next he =>
      rw [hx, he]
      exact ⟨rfl, rfl⟩
    · exact ⟨rfl, rfl⟩
  · unfold State.listRecord
    dsimp only
    split <;> exact ⟨rfl, rfl⟩

theorem channelRetrainEnd_tells
    (hrun : (s.engine e.val).retrain.find? (fun c => c.2.isRunning) = some (ch.val, .running since))
    (hdown : (s.core 0).down = false) (hnone : s.waiting = []) (ok : Bool) :
    Gives (.channelRetrainEnd e ok) s (fun u => (u.engine e.val).pass ch = .idle ∧ (u.engine e.val).retrainBad = !ok
      ∧ Told s u 0x4030 e.val) := by
  generalize hdata : leBytes 1 (if ok then 0 else 1) ++ leBytes 1 ch.val ++ leBytes 4 (s.tick - since) = data
  generalize hv : s.modEngine e.val (fun x => { x with
    retrain := mset ch.val .idle x.retrain, retrainBad := (if ok then 0 else 1) != 0 }) = v
  have hengine : (v.engine e.val).pass ch = .idle ∧ (v.engine e.val).retrainBad = !ok := by
    rw [← hv, State.modEngine_eq, State.engine_setEngine_same]
    exact ⟨mget_mset_same _ _ _ _, by cases ok <;> rfl⟩
  have hwaiting : (v.raise 0x4030 e.val 0 data).waiting = [] := by
    rw [(Recorded.raise v 0x4030 e.val 0 data).frame, ← hv]
    exact hnone
  have hexec : exec (.channelRetrainEnd e ok) s = .next (State.mirror 16384 (v.raise 0x4030 e.val 0 data)).trimmed := by
    rw [← done_trimmed]
    simp only [exec, execChannelRetrainEnd, State.endChannelPass, hrun, hdata, hv, hwaiting]
    rfl
  have hkept := (recording_passesKept.trans (recording_passesKept.raise v 0x4030 e.val 0 data)
    (recording_passesKept.mirror 16384 _)) e.val
  obtain ⟨hretrain, hbad⟩ := hkept
  refine ⟨_, hexec, ?_, ?_, told_of_ring fun hclean => raise_mirror_ring _ ?_ ?_ ?_⟩
  · rw [engine_trimmed, Engine.pass, hretrain]
    exact hengine.1
  · rw [engine_trimmed, hbad, hengine.2]
  · rw [← hv]
    exact hdown
  · simp [← hdata, leBytes_length]
  · rw [← hv]
    exact hclean

end

/-- Settles O28: asking, starting and ending a pass, of a region's vaults and of a channel, is a lemma each. -/
theorem retrainingPassesRunInTurn : Obligations.RetrainingPassesRunInTurn := by
  intro s r e ch ok since hb g x
  exact ⟨retrainPolicyTrigger_vaults hb, retrainPolicyTrigger_channel hb,
    fun hdown => ⟨retrainPolicyTrigger_down hb hdown _, retrainPolicyTrigger_down hb hdown _⟩,
    vaultRetrainStart_starts hb, vaultRetrainStart_waits hb, fun hrun hdown => vaultRetrainEnd_tells hrun hdown ok,
    channelRetrainStart_starts hb, fun hrun hdown hnone => channelRetrainEnd_tells hrun hdown hnone ok⟩

end Sys2Proof.Machine
end

section
/-! SUPPORT. Writes of the module's own objects, pool windows, hold commands and activation stamps (O52). -/
namespace Sys2Proof.Machine

/-! A write of an object of the module (R323–R326). -/

/-- An object of the module whose table takes a write of a number of n bytes. -/
structure WritableHere (idx sub n : Nat) : Prop where
  known : knownIndex idx = true
  row : (objType idx sub).map (·.1) = some (.u n)
  write : (objType idx sub).all (fun x => !(x.2 = .ro || x.2 = .const || x.2 = .bw)) = true
  kind : kindOf idx = .none
  scale : idx ≠ 0x8100

section
variable {s w : State} {i : Instr} {rq : Path} {idx sub n v : Nat} {a : Abort} {P : State → Prop}

theorem WritableHere.accessOf (h : WritableHere idx sub n) (rq : Path) : accessOf rq true idx sub 0 = .ok (.u n) := by
  obtain ⟨hknown, hrow, hwrite, hkind, -⟩ := h
  cases htype : objType idx sub with
  | none => simp [htype] at hrow
  | some x =>
    obtain ⟨ty, acc⟩ := x
    rw [htype] at hrow hwrite
    simp at hrow hwrite
    simp [Machine.accessOf, hknown, htype, objInst, hkind, OKind.count, hwrite, hrow]

/-- Once it is taken, a value that the table accepts goes to the object (R325). -/
theorem putHere_eq (h : WritableHere idx sub n) (ht : s.takesWrite rq idx sub 0) (hok : valueOk idx sub v = true)
    (hv : v < 256 ^ n) : s.put rq idx sub 0 n v
      = s.finishWrite (s.fromPath rq) idx sub 0 0 false (s.writeModule (s.fromPath rq) (.u n) idx sub (leBytes n v)) := by
  obtain ⟨⟨harrives, hnear, hfree⟩, hpowered⟩ := ht
  have hchecked : s.checked (s.fromPath rq) true idx sub 0 0 false = .ok (.u n) := by
    simp only [State.checked, harrives, hnear, hfree, h.accessOf]
    rfl
  have hone : toAll (s.fromPath rq) idx 0 = false := by simp [toAll]
  have hobj : objInst idx 0 = 0 := by rw [objInst, ite_self]
  have hscale : s.scaleHeld idx sub = false := by simp [State.scaleHeld, h.scale]
  have hfits : (OTy.u n).fits n = true := by simp [OTy.fits, OTy.len]
  have haccepted : accepted (.u n) idx sub (leBytes n v) = true := by
    simp [accepted, leVal_leBytes n v hv, hok]
  simp only [State.put, State.writeObject, hchecked, takeSegment_whole, leBytes_length, hfits, hone, hobj, State.applyOne,
    hpowered, hscale, haccepted, State.writeValue, h.kind]
  rfl

section
variable (hi : exec i s = done (s.put rq idx sub 0 n v)) (h : WritableHere idx sub n) (ht : s.takesWrite rq idx sub 0)
  (hok : valueOk idx sub v = true) (hv : v < 256 ^ n)
include hi h ht hok hv

theorem wrote_of_putHere (hw : leVal (leBytes n v) = v →
      s.writeModule (s.fromPath rq) (.u n) idx sub (leBytes n v) = (w, .done)) (hP : P w.trimmed) :
    Wrote i s rq idx sub 0 P := by
  refine ⟨_, hi.trans ?_, w.trimmed, hP, rfl⟩
  rw [putHere_eq h ht hok hv, hw (leVal_leBytes n v hv), done_trimmed]
  exact congrArg _ (answer_trimmed _ _)

theorem aborted_of_putHere (hb : s.bounded) (hw : leVal (leBytes n v) = v →
      s.writeModule (s.fromPath rq) (.u n) idx sub (leBytes n v) = (s, .abort a)) : Aborted i s rq idx sub 0 a := by
  refine hi.trans ?_
  rw [putHere_eq h ht hok hv, hw (leVal_leBytes n v hv), done_trimmed]
  exact congrArg _ ((answer_trimmed _ _).trans (by rw [trimmed_of_bounded hb]))

end

end

/-! Pool windows (R187). -/

/-- Bytes and type of the objects 0x6860:01–03. -/
def poolLen (sub : Fin 3) : Nat := if sub.val < 2 then 8 else 1
def poolType (sub : Fin 3) : OTy := if sub.val < 2 then .u 8 else .bool

theorem writable_pool (e : EngineId) (sub : Fin 3) : Writable 0x6860 (sub.val + 1) e.val (poolLen sub) (poolType sub) := by
  have hrows : ∀ sub : Fin 3, (objType 0x6860 (sub.val + 1)).map (·.1) = some (poolType sub)
      ∧ (objType 0x6860 (sub.val + 1)).all (fun x => !(x.2 = .ro || x.2 = .const || x.2 = .bw)) = true
      ∧ (poolType sub).fits (poolLen sub) = true := by decide
  obtain ⟨hrow, hwrite, hfits⟩ := hrows sub
  exact ⟨by decide, hrow, hwrite, by decide, e.isLt, by decide, hfits, by decide⟩

/-- What the window of a stack would hold at sub-index i, once v is written to another or the same sub-index. -/
def State.poolWith (s : State) (e sub v i : Nat) : Nat := if sub = i then v else s.obj 0x6860 i e

theorem writeValue_pool (s : State) (q : Path) (ty : OTy) (e sub : Nat) (bs : List Byte) :
    s.writeValue q ty 0x6860 sub e bs = attempt s (match s.poolCheck e (s.poolWith e sub (leVal bs) 1)
        (s.poolWith e sub (leVal bs) 2) (s.poolWith e sub (leVal bs) 3) with
      | some a => .error a
      | none => .ok (s.setObj 0x6860 sub e (leVal bs))) := rfl

section
variable {s : State} {rq : Path} {e : EngineId} {sub : Fin 3} {x : BitVec 64}

/-- The value that a write of a window's object carries is one that its type and its table accept. -/
structure PoolValue (sub : Fin 3) (x : BitVec 64) : Prop where
  flag : sub.val = 2 → x.toNat ≤ 1
  whole : sub.val < 2 → x.toNat % 2 ^ 21 = 0

namespace PoolValue

theorem exec_eq (h : PoolValue sub x) (s : State) (rq : Path) (e : EngineId) :
    exec (.poolWindowWrite rq e sub x) s = done (s.put rq 0x6860 (sub.val + 1) e.val (poolLen sub) x.toNat) := by
  by_cases hsub : sub.val < 2
  · simp only [exec, execPoolWindowWrite, poolLen, hsub, if_true]
  · have htwo : sub.val = 2 := by omega
    have hbyte : x.toNat < 256 := Nat.lt_of_le_of_lt (h.flag htwo) (by decide)
    have hlen : poolLen sub = 1 := if_neg hsub
    rw [hlen, htwo]
    simp only [exec, execPoolWindowWrite, if_neg hsub, if_pos hbyte]

theorem lt (h : PoolValue sub x) : x.toNat < 256 ^ poolLen sub := by
  unfold poolLen
  split
  · exact x.isLt
  · exact Nat.lt_of_le_of_lt (h.flag (by omega)) (by decide)

theorem accepted (h : PoolValue sub x) : (poolType sub != .bool || x.toNat ≤ 1) = true := by
  by_cases hsub : sub.val < 2
  · rw [poolType, if_pos hsub]
    rfl
  · rw [decide_eq_true (h.flag (by omega)), Bool.or_true]

theorem ok (h : PoolValue sub x) : valueOk 0x6860 (sub.val + 1) x.toNat = true := by
  by_cases hsub : sub.val < 2
  · have hle : sub.val + 1 ≤ 2 := hsub
    have htable : valueOk 0x6860 (sub.val + 1) x.toNat = decide (x.toNat % 0x200000 = 0) := by
      simp [valueOk, hle]
    rw [htable]
    exact decide_eq_true (h.whole hsub)
  · have hlast : ¬ sub.val + 1 ≤ 2 := hsub
    simp [valueOk, hlast]

end PoolValue

theorem poolWindowWrite_wrote (hb : s.bounded) (ht : s.takesWrite rq 0x6860 (sub.val + 1) e.val) (hx : PoolValue sub x)
    (hcheck : s.poolCheck e.val (s.poolWith e.val (sub.val + 1) x.toNat 1) (s.poolWith e.val (sub.val + 1) x.toNat 2)
      (s.poolWith e.val (sub.val + 1) x.toNat 3) = none) :
    Wrote (.poolWindowWrite rq e sub x) s rq 0x6860 (sub.val + 1) e.val
      (fun w => w = s.setObj 0x6860 (sub.val + 1) e.val x.toNat) := by
  refine wrote_of_put (hx.exec_eq s rq e) (writable_pool e sub) ht hx.lt hx.accepted hx.ok (fun hread => ?_)
    (trimmed_of_bounded hb)
  rw [writeValue_pool, hread, hcheck]
  rfl

theorem poolWindowWrite_aborted {a : Abort} (hb : s.bounded) (ht : s.takesWrite rq 0x6860 (sub.val + 1) e.val)
    (hx : PoolValue sub x)
    (hcheck : s.poolCheck e.val (s.poolWith e.val (sub.val + 1) x.toNat 1) (s.poolWith e.val (sub.val + 1) x.toNat 2)
      (s.poolWith e.val (sub.val + 1) x.toNat 3) = some a) :
    Aborted (.poolWindowWrite rq e sub x) s rq 0x6860 (sub.val + 1) e.val a := by
  refine aborted_of_put (hx.exec_eq s rq e) (writable_pool e sub) ht hx.lt hb hx.accepted hx.ok (fun hread => ?_)
  rw [writeValue_pool, hread, hcheck]
  rfl

end

/-! Hold commands (R239). -/

/-- The command that a write of 1 to 0x8720:06 makes of 0x8720:02–05, with an action and a result. -/
def State.heldCommand (s : State) (action result : Nat) : HoldCmd :=
  { action, group := Fin.ofNat 12 (s.obj 0x8720 2 0), step := BitVec.ofNat 32 (s.obj 0x8720 3 0),
    factor := BitVec.ofNat 32 (s.obj 0x8720 4 0), target := BitVec.ofNat 32 (s.obj 0x8720 5 0), result }

/-- The entries that it names; a merge names those that a drop would. -/
def State.heldEntries (s : State) (action : Nat) : List (Nat × JobPlan × EnginePlan × BlockPlan × Nat × Entry64) :=
  (List.range 32).flatMap (s.commandEntries (s.heldCommand (if action = 3 then 4 else action) 3))

/-- A merge comes too late for the block of an entry: its target has settled. -/
def State.lateEntry (s : State) (x : Nat × JobPlan × EnginePlan × BlockPlan × Nat × Entry64) : Bool :=
  match mfind (ekey x.1 (Fin.ofNat 12 (s.obj 0x8720 2 0)).val x.2.2.2.1.block) (s.engine x.2.2.1.engine.val).settled with
  | some n => decide (stampDiff (BitVec.ofNat 32 (s.obj 0x8720 5 0)) n ≤ 0)
  | none => false

theorem lateEntry_iff {s : State} {x : Nat × JobPlan × EnginePlan × BlockPlan × Nat × Entry64} : s.lateEntry x = true ↔
    ∃ n, mfind (ekey x.1 (Fin.ofNat 12 (s.obj 0x8720 2 0)).val x.2.2.2.1.block) (s.engine x.2.2.1.engine.val).settled = some n
      ∧ stampDiff (BitVec.ofNat 32 (s.obj 0x8720 5 0)) n ≤ 0 := by
  unfold State.lateEntry
  cases mfind (ekey x.1 (Fin.ofNat 12 (s.obj 0x8720 2 0)).val x.2.2.2.1.block) (s.engine x.2.2.1.engine.val).settled with
  | none => simp
  | some n => simp

theorem actHoldCommand_eq (s : State) : s.actHoldCommand 1 =
    if s.obj 0x8720 1 0 = 0 then .error .valueRange
    else if s.holdCmd.isSome then .error .stateConflict
    else if s.obj 0x8720 1 0 = 3 && (s.heldEntries (s.obj 0x8720 1 0)).any s.lateEntry then .error .stateConflict
    else .ok ({ s with holdCmd := some (s.heldCommand (s.obj 0x8720 1 0)
      (if s.heldEntries (s.obj 0x8720 1 0) = [] then 3 else 2)) }.setObj 0x8720 7 0 1) := rfl

theorem writableHere_holdCommand : WritableHere 0x8720 6 1 := ⟨by decide, by decide, by decide, by decide, by decide⟩

theorem writeModule_holdCommand (s : State) (q : Path) (bs : List Byte) :
    s.writeModule q (.u 1) 0x8720 6 bs = attempt s (s.actHoldCommand (leVal bs)) := rfl

section
variable {s : State} {rq : Path} {i : Instr} {action : Nat}

/-- The write of a command that 0x8720:01 holds. -/
theorem putCommand_eq (hi : exec i s = done (s.putCommand rq action)) (haction : s.obj 0x8720 1 0 = action) :
    exec i s = done (s.put rq 0x8720 6 0 1 1) := by
  rw [hi, State.putCommand, if_pos haction]

theorem holdCommand_wrote (hb : s.bounded) (ht : s.takesWrite rq 0x8720 6 0) (hi : exec i s = done (s.putCommand rq action))
    (haction : s.obj 0x8720 1 0 = action) (hpos : action ≠ 0) (hfree : s.holdCmd = none)
    (hearly : action = 3 → (s.heldEntries 3).any s.lateEntry = false) :
    Wrote i s rq 0x8720 6 0 (fun w => w = { s with
      holdCmd := some (s.heldCommand action (if s.heldEntries action = [] then 3 else 2)) }.setObj 0x8720 7 0 1) := by
  refine wrote_of_putHere (putCommand_eq hi haction) writableHere_holdCommand ht rfl (by decide) (fun hread => ?_)
    (trimmed_of_bounded (s := { s with holdCmd := _ }.setObj 0x8720 7 0 1) hb)
  have hnotLate : (decide (action = 3) && (s.heldEntries action).any s.lateEntry) = false := by
    by_cases hmerge : action = 3
    · rw [hmerge, hearly hmerge, Bool.and_false]
    · rw [decide_eq_false hmerge, Bool.false_and]
  rw [writeModule_holdCommand, hread, actHoldCommand_eq, haction, hnotLate, if_neg hpos, hfree]
  rfl

theorem holdCommand_aborted (hb : s.bounded) (ht : s.takesWrite rq 0x8720 6 0) (hi : exec i s = done (s.putCommand rq action))
    (haction : s.obj 0x8720 1 0 = action) (hpos : action ≠ 0)
    (hbad : s.holdCmd ≠ none ∨ (action = 3 ∧ (s.heldEntries 3).any s.lateEntry = true)) :
    Aborted i s rq 0x8720 6 0 .stateConflict := by
  refine aborted_of_putHere (putCommand_eq hi haction) writableHere_holdCommand ht rfl (by decide) hb (fun hread => ?_)
  rw [writeModule_holdCommand, hread, actHoldCommand_eq, haction, if_neg hpos]
  obtain hbusy | ⟨rfl, hlate⟩ := hbad
  · rw [if_pos (Option.isSome_iff_ne_none.2 hbusy)]
    rfl
  · rw [hlate, decide_eq_true rfl, Bool.and_self, if_pos rfl, ite_self]
    rfl

end

/-! The engines work on a command (R239). -/

section
variable {s : State} {e : EngineId} {k : HoldCmd} {c : Nat × JobPlan × EnginePlan × BlockPlan × Nat × Entry64}

/-- A controller without requests has nothing to catch up with. -/
theorem catchUp_idle (h : (s.engine e.val).reqs = []) : s.catchUp e = s := by rw [State.catchUp, h, List.foldl_nil]

theorem holdStep_reads (hcmd : s.holdCmd = some k) (hruns : s.engineRuns e.val = true) (hidle : (s.engine e.val).reqs = [])
    (hunread : k.read.contains e = false) (hfree : (s.holdHeads k e.val).any (fun x => s.segsBusy e.val x.2) = false) :
    s.holdStep e = s.readHeads k e := by
  simp only [State.holdStep, hcmd, hruns, hunread, hfree, catchUp_idle hidle]
  rfl

theorem holdStep_entry (hcmd : s.holdCmd = some k) (hruns : s.engineRuns e.val = true) (hidle : (s.engine e.val).reqs = [])
    (hread : k.read.contains e = true) (hone : s.commandEntries k e.val = [c]) (hready : s.holdWaits k c = false)
    (hfree : (s.engine e.val).working (Fin.ofNat 16 c.1) c.2.2.2.1.group c.2.2.2.1.block = false)
    (hroom : k.action = 1 → (s.engine e.val).holdOpen k = false ∧ (s.engine e.val).busy < 64) :
    s.holdStep e = s.holdEntry k c := by
  have hgo : (decide (k.action = 1) && ((s.engine e.val).holdOpen k || decide (64 ≤ (s.engine e.val).busy))) = false := by
    by_cases happly : k.action = 1
    · obtain ⟨hopen, hbusy⟩ := hroom happly
      rw [hopen, decide_eq_false (Nat.not_le.2 hbusy), Bool.or_self, Bool.and_false]
    · rw [decide_eq_false happly, Bool.false_and]
  simp only [State.holdStep, hcmd, hruns, hread, hone, hready, hfree, hgo, catchUp_idle hidle]
  rfl

theorem holdStep_none (hcmd : s.holdCmd = some k) (hread : k.read.contains e = true)
    (hnone : s.commandEntries k e.val = []) : s.holdStep e = s := by
  simp only [State.holdStep, hcmd, hread, hnone]
  split
  · rfl
  · rfl

end

/-! Activation stamps (R226). -/

section
variable {s : State} {rq : Path} {g : GroupId} {y : BitVec 32}

theorem writableHere_activation (g : GroupId) : WritableHere 0x8706 (g.val + 1) 4 := by
  have hrows : ∀ g : Fin 12, (objType 0x8706 (g.val + 1)).map (·.1) = some (.u 4)
      ∧ (objType 0x8706 (g.val + 1)).all (fun x => !(x.2 = .ro || x.2 = .const || x.2 = .bw)) = true := by decide
  exact ⟨by decide, (hrows g).1, (hrows g).2, by decide, by decide⟩

theorem writeModule_activation (s : State) (q : Path) (g : Nat) (bs : List Byte) :
    s.writeModule q (.u 4) 0x8706 (g + 1) bs = attempt s (s.actActivate g (BitVec.ofNat 32 (leVal bs))) := rfl

/-- The activations of a group that a new one does not replace: one that no step has reached is replaced. -/
def State.keptActs (s : State) (g : Nat) : List Act :=
  match mget [] s.acts g with
  | a :: _ => if a.reached then mget [] s.acts g else (mget [] s.acts g).drop 1
  | [] => []

/-- A group's activation stamp has been written: its pending values stand before the activations kept. -/
def State.withAct (s : State) (g : Nat) (y : BitVec 32) : State :=
  { s with acts := mset g (((⟨y, s.pendingVals g, false⟩ : Act) :: s.keptActs g).take 2) s.acts }.setObj
    0x8706 (g + 1) 0 y.toNat

/-- Blocks of a group that this module owns for its jobs. -/
def State.groupBlocks (s : State) (g : Nat) : List (Nat × BlockPlan) :=
  s.admittedJobs.flatMap (fun x => ((s.ownedHere x.2).filter (fun b => b.group.val = g)).map (fun b => (x.1, b)))

/-- The handling of a step that a stamp reaches has begun for a block. -/
def State.handled (s : State) (g : Nat) (y : BitVec 32) (b : Nat × BlockPlan) : Bool :=
  match mfind (ekey b.1 g b.2.block) (s.engine b.2.engine.val).expected with
  | some n => decide (0 < stampDiff n y)
  | none => false

theorem actActivate_free {g : Nat} (hjobs : s.admittedJobs = []) (hengines : s.engines = []) :
    s.actActivate g y = .ok (s.withAct g y) := by
  unfold State.actActivate
  refine if_neg ?_
  simp only [hjobs, hengines]
  split <;> simp

theorem actActivate_handled {g : Nat} (h : (s.groupBlocks g).any (s.handled g y) = true) :
    s.actActivate g y = .error .stateConflict := by
  unfold State.actActivate
  refine if_pos ?_
  simp only [Bool.or_eq_true]
  exact .inl (.inl (.inl h))

theorem activationStampWrite_wrote (ht : s.takesWrite rq 0x8706 (g.val + 1) 0) (hjobs : s.admittedJobs = [])
    (hengines : s.engines = []) : Wrote (.activationStampWrite rq g y) s rq 0x8706 (g.val + 1) 0 (fun w =>
      w.obj 0x8706 (g.val + 1) 0 = y.toNat ∧ (mget [] w.acts g.val).head? = some ⟨y, s.pendingVals g.val, false⟩
      ∧ ∀ h, h ≠ g.val → mget [] w.acts h = mget [] s.acts h) := by
  refine wrote_of_putHere (w := s.withAct g.val y) rfl (writableHere_activation g) ht rfl y.isLt (fun hread => ?_)
    ⟨?_, ?_, fun h hne => ?_⟩
  · rw [writeModule_activation, hread, BitVec.ofNat_toNat, BitVec.setWidth_eq, actActivate_free hjobs hengines]
    rfl
  · rw [obj_trimmed, State.withAct, State.obj_setObj_same]
  · exact congrArg List.head? (mget_mset_same [] g.val _ s.acts)
  · exact mget_mset_ne [] hne _ s.acts

theorem activationStampWrite_aborted {pid : Nat} {j : JobPlan} {b : BlockPlan} {n : BitVec 32} (hb : s.bounded)
    (ht : s.takesWrite rq 0x8706 (g.val + 1) 0) (hjob : (pid, j) ∈ s.admittedJobs) (hblock : b ∈ s.ownedHere j)
    (hgroup : b.group = g) (hnext : mfind (ekey pid g.val b.block) (s.engine b.engine.val).expected = some n)
    (hbegun : 0 < stampDiff n y) : Aborted (.activationStampWrite rq g y) s rq 0x8706 (g.val + 1) 0 .stateConflict := by
  refine aborted_of_putHere rfl (writableHere_activation g) ht rfl y.isLt hb (fun hread => ?_)
  have hmine : (pid, b) ∈ s.groupBlocks g.val :=
    List.mem_flatMap.2 ⟨_, hjob, List.mem_map.2 ⟨b, List.mem_filter.2 ⟨hblock, by simp [hgroup]⟩, rfl⟩⟩
  have hhandled : s.handled g.val y (pid, b) = true := by simp [State.handled, hnext, hbegun]
  rw [writeModule_activation, hread, BitVec.ofNat_toNat, BitVec.setWidth_eq,
    actActivate_handled (List.any_eq_true.2 ⟨_, hmine, hhandled⟩)]
  rfl

end

end Sys2Proof.Machine
end

section
/-! SUPPORT. What packets that go out, and the stops that their failures cause, leave of a snapshot shipment and of a turnover
(O52). -/
namespace Sys2Proof.Machine

/-! Packets that go out change the ports and their counters alone. -/

/-- From s to u only the ports, their sub-ports and their counters 0x7500 have changed. -/
structure PortsOnly (s u : State) : Prop where
  frame : u = { s with ports := u.ports, subs := u.subs, live := u.live }
  count : ∀ i b n, okey i b n < 0x7500 * 2 ^ 24 → u.count i b n = s.count i b n

namespace PortsOnly
variable {s u v : State}

theorem of_live (hframe : u = { s with ports := u.ports, subs := u.subs, live := u.live }) (hlive : u.live = s.live) :
    PortsOnly s u :=
  ⟨hframe, fun _ _ _ _ => by simp only [State.count, hlive]⟩

theorem refl (s : State) : PortsOnly s s := of_live rfl rfl

theorem trans (h : PortsOnly s u) (k : PortsOnly u v) : PortsOnly s v := by
  refine ⟨?_, fun i b n hi => (k.count i b n hi).trans (h.count i b n hi)⟩
  calc v = { u with ports := v.ports, subs := v.subs, live := v.live } := k.frame
    _ = { s with ports := v.ports, subs := v.subs, live := v.live } := by rw [h.frame]

theorem bump (s : State) (b p n : Nat) : PortsOnly s (s.bump 0x7500 b p n) := by
  refine ⟨rfl, fun i c m hi => ?_⟩
  refine (State.count_bump _ _ _ _ _ _ _ _).trans (if_neg fun he => ?_)
  rw [he, okey] at hi
  omega

theorem pump (p b n : Nat) (s : State) : PortsOnly s (s.pump p b n) := by
  induction n generalizing s with
  | zero => exact refl s
  | succ n ih =>
    unfold State.pump
    dsimp only
    split
    · exact refl s
    · next k r hqueue =>
      split
      · have hsent : PortsOnly s ((s.setSub p b { s.sub p b with queue := r }).frameOut p b k) := by
          refine trans ?_ (bump _ _ _ _)
          exact of_live rfl rfl
        exact hsent.trans (ih _)
      · exact refl s

theorem sendOn (s : State) (p b : Nat) (k : Pkt) : PortsOnly s (s.sendOn p b k) := by
  unfold State.sendOn
  split
  · exact of_live rfl rfl
  · have hqueued : PortsOnly s (s.modSub p b (fun x => { x with queue := x.queue ++ [k] })) := of_live rfl rfl
    exact hqueued.trans (pump _ _ _ _)

theorem toHostOutF (s : State) (k : Pkt) : PortsOnly s (s.toHostOutF k).1 := by
  unfold State.toHostOutF
  split
  · split
    · split
      · exact sendOn _ _ _ _
      · exact bump _ _ _ _
    · exact refl s
  · exact refl s

theorem selfOut (s : State) (k : Pkt) : PortsOnly s (s.selfOut k).1 := by
  unfold State.selfOut
  dsimp only
  split
  · split
    · split
      · exact sendOn _ _ _ _
      · exact bump _ _ _ _
    · exact bump _ _ _ _
  · exact toHostOutF _ _

theorem sendLocalF (s : State) (k : Pkt) : PortsOnly s (s.sendLocalF k).1 := by
  unfold State.sendLocalF
  split
  · split
    · exact of_live rfl rfl
    · exact sendOn _ _ _ _
  · exact selfOut _ _
  · exact bump _ _ _ _
  · exact bump _ _ _ _

end PortsOnly

/-! The shipment and the turnover. -/

/-- The objects in which a shipment and a turnover show how far they are: 0x6900:06–07 and 0x2110:04. -/
def stageObjects : List (Nat × Nat) := [(0x6900, 6), (0x6900, 7), (0x2110, 4)]

/-- From s to u the snapshot shipment and the turnover under way have stayed as they are. -/
def StagesKept (s u : State) : Prop :=
  u.shipping = s.shipping ∧ u.turn = s.turn ∧ ∀ x ∈ stageObjects, u.obj x.1 x.2 0 = s.obj x.1 x.2 0

namespace StagesKept
variable {s u v : State}

theorem of_dict (hship : u.shipping = s.shipping) (hturn : u.turn = s.turn) (hdict : u.dict = s.dict) : StagesKept s u :=
  ⟨hship, hturn, fun _ _ => by simp only [State.obj, hdict]⟩

theorem refl (s : State) : StagesKept s s := of_dict rfl rfl rfl

theorem trans (h : StagesKept s u) (k : StagesKept u v) : StagesKept s v := by
  obtain ⟨hship, hturn, hobj⟩ := h
  obtain ⟨kship, kturn, kobj⟩ := k
  exact ⟨kship.trans hship, kturn.trans hturn, fun x hx => (kobj x hx).trans (hobj x hx)⟩

theorem foldl {α : Type} {f : State → α → State} (l : List α) (hf : ∀ a ∈ l, ∀ s, StagesKept s (f s a)) (s : State) :
    StagesKept s (l.foldl f s) := by
  induction l generalizing s with
  | nil => exact refl s
  | cons a l ih => exact (hf a List.mem_cons_self s).trans (ih (fun b hb => hf b (List.mem_cons_of_mem _ hb)) _)

/-- The same for a fold that gathers failures. -/
theorem foldlF {α : Type} {f : State × List Failure → α → State × List Failure} (l : List α)
    (hf : ∀ a ∈ l, ∀ x : State × List Failure, StagesKept x.1 (f x a).1) (x : State × List Failure) :
    StagesKept x.1 (l.foldl f x).1 := by
  induction l generalizing x with
  | nil => exact refl x.1
  | cons a l ih => exact (hf a List.mem_cons_self x).trans (ih (fun b hb => hf b (List.mem_cons_of_mem _ hb)) _)

theorem of_ports (h : PortsOnly s u) : StagesKept s u := by
  rw [h.frame]
  exact of_dict rfl rfl rfl

theorem setObj (s : State) {i b n : Nat} (h : ∀ x ∈ stageObjects, okey x.1 x.2 0 ≠ okey i b n) (v : Nat) :
    StagesKept s (s.setObj i b n v) :=
  ⟨rfl, rfl, fun x hx => State.obj_setObj_idx s (h x hx)⟩

/-- The same for an object of a partition. -/
theorem setPartObj (s : State) {i b p : Nat} (hi : i = 0x2101 ∨ i = 0x2103 ∨ i = 0x8130) (hp : p < 16) (hb : b ≤ 2) (v : Nat) :
    StagesKept s (s.setObj i (p + b) 0 v) := by
  refine setObj s (fun x hx => ?_) v
  simp only [stageObjects, List.mem_cons, List.not_mem_nil, or_false] at hx
  simp only [okey]
  obtain rfl | rfl | rfl := hx
  all_goals omega

theorem raise (s : State) (code src : Nat) (stp : BitVec 32) (data : List Byte) : StagesKept s (s.raise code src stp data) := by
  have hframe := (Recorded.raise s code src stp data).frame
  refine ⟨by rw [hframe], by rw [hframe], fun x hx => ObjsKept.raise s code src stp data _ _ _ ?_⟩
  simp only [stageObjects, List.mem_cons, List.not_mem_nil, or_false] at hx
  simp only [okey]
  obtain rfl | rfl | rfl := hx
  all_goals omega

theorem tracePoint (s : State) (kind src : Nat) (stp : BitVec 32) : StagesKept s (s.tracePoint kind src stp) := by
  unfold State.tracePoint State.tracePointOf
  split
  · unfold State.traceOut
    dsimp only
    split
    · exact of_dict rfl rfl rfl
    · split
      · exact setObj { s with free := s.free + 48 } (i := 0x9100) (b := 7) (n := 0) (by decide) _
      · exact of_dict rfl rfl rfl
  · exact refl s

theorem toPstate (s : State) {p : Nat} (hp : p < 16) (v : Nat) : StagesKept s (s.toPstate p v) :=
  (setPartObj s (.inl rfl) hp (by decide) v).trans (tracePoint _ _ _ _)

/-! Completions and notices (R385–R388). -/

theorem store (s : State) (e : Fin 32) (a : Nat) (bs : List Byte) : StagesKept s (s.store (.stack e) a bs) := by
  have hstored : StagesKept s (s.storeEv (.stack e) a bs).1 := by
    have hframe := (Recorded.storeEv s e a bs).frame
    refine ⟨by rw [hframe], by rw [hframe], fun x hx => ObjsKept.storeEv s e a bs _ _ _ ?_⟩
    simp only [stageObjects, List.mem_cons, List.not_mem_nil, or_false] at hx
    simp only [okey]
    obtain rfl | rfl | rfl := hx
    all_goals omega
  exact hstored.trans (foldl _ (fun _ _ w => raise w _ _ _ _) _)

theorem checkFull (s : State) : StagesKept s s.checkFull := by
  unfold State.checkFull
  split
  · refine (raise { s with ringFull := true } _ _ _ _).trans (foldl _ (fun p _ w => ?_) _)
    split
    · exact of_dict rfl rfl rfl
    · exact refl w
  · exact refl s

theorem writeCompletion (s : State) (c : Completion) : StagesKept s (s.writeCompletion c) :=
  (((store s 0 _ _).trans (setObj _ (i := 0x2300) (by decide) _)).trans (tracePoint _ _ _ _)).trans (checkFull _)

theorem flushCompletions (n : Nat) (s : State) : StagesKept s (s.flushCompletions n) := by
  induction n generalizing s with
  | zero => exact refl s
  | succ n ih =>
    unfold State.flushCompletions
    split
    · exact refl s
    · next c r hw =>
      split
      · exact refl s
      · exact (writeCompletion { s with waiting := r } c).trans (ih _)

theorem complete (s : State) (c : Completion) : StagesKept s (s.complete c) :=
  flushCompletions _ { s with waiting := _ }

theorem completeTaken (s : State) (c : Taken) (code tile : Nat) : StagesKept s (s.completeTaken c code tile) :=
  complete { s with taken := s.taken.erase c } _

theorem endPausing (s : State) (p : Nat) : StagesKept s (s.endPausing p) := by
  unfold State.endPausing State.endDispatched
  split
  · split
    · exact of_dict rfl rfl rfl
    · exact (completeTaken s _ _ _).trans (foldl _ (fun c _ w => completeTaken w c 3 0xFFFF) _)
  · exact refl s

/-! Answers and stop frames. -/

theorem statusReplyF (s : State) (p : Nat) (r : Request) (status : Nat) : StagesKept s (s.statusReplyF p r status).1 :=
  (of_ports (PortsOnly.sendLocalF s _)).trans (of_dict rfl rfl rfl)

theorem answerAllF (s : State) (p status : Nat) : StagesKept s (s.answerAllF p status).1 := by
  refine (foldlF (s.part p).requests (f := fun (x : State × List Failure) r =>
    let y := x.1.statusReplyF p r status; (y.1, x.2 ++ y.2)) (fun r _ x => statusReplyF x.1 p r status) (s, [])).trans ?_
  unfold State.answerAllF
  dsimp only
  split
  · exact (of_dict rfl rfl rfl).trans (setObj _ (i := 0x2110) (b := 8) (n := 0) (by decide) _)
  · exact of_dict rfl rfl rfl

theorem floodStop (s : State) (w : Way) (job origin cause : Nat) (but : Option (Nat × Nat)) :
    StagesKept s (s.floodStop w job origin cause but) := by
  refine foldl _ (fun x _ v => ?_) _
  split
  · exact refl v
  · exact of_ports (PortsOnly.sendOn _ _ _ _)

/-! Stops (R131, R274, R317). -/

theorem endRun (s : State) (t c : Nat) : StagesKept s (s.endRun t c) := by
  unfold State.endRun
  split
  · exact refl s
  · unfold State.endWrite
    dsimp only
    split
    · exact of_dict rfl rfl rfl
    · split
      · exact of_dict rfl rfl rfl
      · refine trans ?_ (raise _ _ _ _ _)
        exact of_dict rfl rfl rfl

theorem modTile (s : State) (t : Nat) (f : Tile → Tile) : StagesKept s (s.modTile t f) := of_dict rfl rfl rfl

theorem stopTile (s : State) (t : Nat) : StagesKept s (s.stopTile t) := by
  unfold State.stopTile
  refine (foldl (List.range 8) (fun c _ w => ?_) s).trans (modTile _ _ _)
  dsimp only
  split
  · exact refl w
  · exact ((endRun w t c).trans (modTile _ _ _)).trans (modTile _ _ _)

theorem stopPartF (s : State) {p : Nat} (hp : p < 16) (cause : Nat) (tell : Bool) :
    StagesKept s (s.stopPartF p cause tell).1 := by
  unfold State.stopPartF
  split
  · exact refl s
  · have hobjs (w : State) : StagesKept w (((w.toPstate p 6).setObj 0x2103 (p + 1) 0 cause).setObj 0x8130 (p + 2) 0 0) :=
      ((toPstate w hp 6).trans (setPartObj _ (.inr (.inl rfl)) hp (by decide) _)).trans
        (setPartObj _ (.inr (.inr rfl)) hp (by decide) _)
    have hreleased (w : State) : StagesKept w (((w.dropHeldReads p).dropInputs p).releaseRelays p) := of_dict rfl rfl rfl
    have hcleared (w : State) : StagesKept w (w.modPart p (fun x => { x with pauses := [], joined := [], cold := none })) :=
      of_dict rfl rfl rfl
    have htold (w : State) (status : Nat) : StagesKept w (if tell then (w.answerAllF p status).1.notice 0x8001 p cause
        else (w.answerAllF p status).1) := by
      split
      · exact (answerAllF w p status).trans (complete _ _)
      · exact answerAllF w p status
    exact (foldl _ (fun t _ w => stopTile w t) s).trans ((hobjs _).trans ((hreleased _).trans
      ((endPausing _ p).trans ((hcleared _).trans (htold _ _)))))

theorem stopJobF (s : State) (job cause : Nat) : StagesKept s (s.stopJobF job cause).1 := by
  refine foldlF (List.range 16) (fun p hp x => ?_) (s, [])
  dsimp only
  split
  · exact stopPartF _ (List.mem_range.1 hp) _ _
  · exact refl _

theorem failAll (n : Nat) (s : State) (fs : List Failure) (told : List Nat) : StagesKept s (s.failAll n fs told) := by
  induction n generalizing s fs told with
  | zero =>
    unfold State.failAll
    exact refl s
  | succ n ih =>
    cases fs with
    | nil =>
      unfold State.failAll
      exact refl s
    | cons f r =>
      obtain ⟨job, port, b, c⟩ := f
      unfold State.failAll
      split
      · exact ih _ _ _
      · have hremember (w : State) (me : BitVec 14) : StagesKept w (w.rememberStop job me) := of_dict rfl rfl rfl
        exact (stopJobF s job 5).trans ((raise _ _ _ _ _).trans ((hremember _ _).trans ((floodStop _ _ _ _ _ _).trans
          (ih _ _ _))))

theorem sendLocal (s : State) (k : Pkt) : StagesKept s (s.sendLocal k) :=
  (of_ports (PortsOnly.sendLocalF s k)).trans (failAll _ _ _ _)

theorem statusReply (s : State) (p : Nat) (r : Request) (status : Nat) : StagesKept s (s.statusReply p r status) :=
  (statusReplyF s p r status).trans (failAll _ _ _ _)

theorem farWrite (s : State) (p : Nat) (addr : BitVec 64) (bs : List Byte) (bad : Bool) :
    StagesKept s (s.farWrite p addr bs bad) :=
  foldl _ (fun _ _ w => sendLocal w _) s

theorem drainPart (s : State) {p : Nat} (hp : p < 16) : StagesKept s (s.drainPart p) := by
  have hasked (w : State) : StagesKept w (w.askPause p .turnover) := of_dict rfl rfl rfl
  unfold State.drainPart
  split
  · exact hasked s
  · split
    · exact refl s
    · refine (toPstate s hp 4).trans ?_
      generalize s.toPstate p 4 = w
      dsimp only
      split
      · exact refl _
      · split
        · exact hasked _
        · refine trans ?_ (foldl _ (fun r _ w => statusReply w p r 1) _)
          refine trans ?_ (setObj _ (i := 0x2110) (b := 7) (n := 0) (by decide) _)
          exact of_dict rfl rfl rfl

end StagesKept

end Sys2Proof.Machine
end

section
/-! SUPPORT. The start of a snapshot shipment and of a turnover (O52). -/
namespace Sys2Proof.Machine

section
variable {s : State} {rq : Path}

/-! The shipment (R249). -/

theorem writableHere_snapshot : WritableHere 0x6900 5 1 := ⟨by decide, by decide, by decide, by decide, by decide⟩

theorem writeModule_snapshot (s : State) (q : Path) (bs : List Byte) :
    s.writeModule q (.u 1) 0x6900 5 bs = attempt s (s.actSnapshotStart (leVal bs)) := rfl

/-- A shipment has begun; nothing of it has been sent. -/
def State.shipBegun (s : State) : State :=
  ({ s with
    shipping := some (BitVec.ofNat 32 (s.obj 0x6900 1 0), s.obj 0x6900 4 0),
    engines := s.engines.map (fun (e : Nat × Engine) => (e.1, { e.2 with shipped := [], copies := [], shipFar := [] })) }.setObj
      0x6900 6 0 1).setObj 0x6900 7 0 0

/-- Without owned blocks the image is its header. -/
theorem imageSize_none (h : s.imageBlocks = []) (content : Nat) : s.imageSize content = 4096 := by
  rw [State.imageSize, h]
  rfl

/-- A block has settled beyond the step that the shipment is to be of. -/
def State.settledPast (s : State) (x : Nat × JobPlan × BlockPlan) : Bool :=
  match mfind (ekey x.1 x.2.2.group.val x.2.2.block) (s.engine x.2.2.engine.val).settled with
  | some n => decide (0 < stampDiff n (BitVec.ofNat 32 (s.obj 0x6900 1 0)))
  | none => false

theorem actSnapshotStart_eq (s : State) : ∃ p a bs, s.actSnapshotStart 1 =
    if s.shipping.isSome || s.imageBlocks.any s.settledPast || s.obj 0x6900 3 0 < s.imageSize (s.obj 0x6900 4 0)
    then .error .stateConflict else .ok (s.shipBegun.farWrite p a bs false) := ⟨_, _, _, rfl⟩

theorem actSnapshotStart_begins (hfree : s.shipping = none) (hnone : s.imageBlocks = []) (hroom : 4096 ≤ s.obj 0x6900 3 0) :
    ∃ p a bs, s.actSnapshotStart 1 = .ok (s.shipBegun.farWrite p a bs false) := by
  obtain ⟨p, a, bs, hact⟩ := actSnapshotStart_eq s
  refine ⟨p, a, bs, hact.trans (if_neg ?_)⟩
  rw [hfree, hnone, imageSize_none hnone, decide_eq_false (Nat.not_lt.2 hroom)]
  exact Bool.false_ne_true

theorem actSnapshotStart_conflict (hbad : s.shipping ≠ none ∨ s.obj 0x6900 3 0 < s.imageSize (s.obj 0x6900 4 0)) :
    s.actSnapshotStart 1 = .error .stateConflict := by
  obtain ⟨p, a, bs, hact⟩ := actSnapshotStart_eq s
  refine hact.trans (if_pos ?_)
  simp only [Bool.or_eq_true]
  obtain hbusy | hsmall := hbad
  · exact .inl (.inl (Option.isSome_iff_ne_none.2 hbusy))
  · exact .inr (decide_eq_true hsmall)

theorem snapshotShipStart_wrote (ht : s.takesWrite rq 0x6900 5 0) (hfree : s.shipping = none) (hnone : s.imageBlocks = [])
    (hroom : 4096 ≤ s.obj 0x6900 3 0) : Wrote (.snapshotShipStart rq 1) s rq 0x6900 5 0 (fun w =>
      w.shipping = some (BitVec.ofNat 32 (s.obj 0x6900 1 0), s.obj 0x6900 4 0) ∧ w.obj 0x6900 6 0 = 1 ∧ w.obj 0x6900 7 0 = 0) := by
  obtain ⟨p, a, bs, hact⟩ := actSnapshotStart_begins hfree hnone hroom
  obtain ⟨hship, -, hobj⟩ := StagesKept.farWrite s.shipBegun p a bs false
  refine wrote_of_putHere (w := s.shipBegun.farWrite p a bs false) rfl writableHere_snapshot ht rfl (by decide)
    (fun hread => ?_) ⟨hship, ?_, ?_⟩
  · rw [writeModule_snapshot, hread]
    exact congrArg (attempt s) hact
  · refine (hobj (0x6900, 6) (by decide)).trans ?_
    rw [State.shipBegun, State.obj_setObj_idx _ (by decide), State.obj_setObj_same]
  · exact (hobj (0x6900, 7) (by decide)).trans (State.obj_setObj_same _ _ _ _ _)

theorem snapshotShipStart_aborted (hb : s.bounded) (ht : s.takesWrite rq 0x6900 5 0)
    (hbad : s.shipping ≠ none ∨ s.obj 0x6900 3 0 < s.imageSize (s.obj 0x6900 4 0)) :
    Aborted (.snapshotShipStart rq 1) s rq 0x6900 5 0 .stateConflict := by
  refine aborted_of_putHere rfl writableHere_snapshot ht rfl (by decide) hb (fun hread => ?_)
  rw [writeModule_snapshot, hread]
  exact congrArg (attempt s) (actSnapshotStart_conflict hbad)

/-! The turnover (R283, R284). -/

theorem writableHere_turnover : WritableHere 0x2110 3 1 := ⟨by decide, by decide, by decide, by decide, by decide⟩

theorem writeModule_turnover (s : State) (q : Path) (bs : List Byte) :
    s.writeModule q (.u 1) 0x2110 3 bs = attempt s (s.actTurnover (leVal bs)) := rfl

/-- The turnover that the plan in 0x2110:01 asks for. -/
def State.plannedTurnover (s : State) : Turnover :=
  { stage := 1, entries := planEntries (s.blob 0x2110 1 0), clear := bytesAt (s.blob 0x2110 1 0) 2 2 = 1,
    start := s.tick, drain := s.tick }

/-- The turnover stands, and what is shown of an earlier one is cleared. -/
def State.turnSet (s : State) : State :=
  (({ s with turn := some s.plannedTurnover }.setObj 0x2110 5 0 0).setObj 0x2110 7 0 0).setObj 0x2110 8 0 0

/-- A turnover has begun; no partition has been asked to drain. -/
def State.turnBegun (s : State) : State := s.turnSet.setStage 1

/-- The partitions that a plan names are asked to drain. -/
def State.drainAll (s : State) (es : List PlanEntry) : State := es.foldl (fun s e => s.drainPart e.part.val) s

theorem actTurnover_eq (s : State) : s.actTurnover 1 = if s.turn.isSome then .error .stateConflict
    else if !s.planOk (s.blob 0x2110 1 0) then .error .valueRange
    else .ok (s.turnBegun.drainAll (planEntries (s.blob 0x2110 1 0))) := rfl

/-- The turnover's stage is n, and shown so. -/
def State.stageSet (s : State) (n : Nat) : State :=
  ({ s with turn := s.turn.map (fun t => { t with stage := n }) } : State).setObj 0x2110 4 0 n

theorem setStage_eq (s : State) (n : Nat) :
    s.setStage n = ((s.stageSet n).tracePoint 0 0 0).tracePoint 1 srcModule 0 := rfl

theorem setStage_stage (s : State) (n : Nat) : (s.setStage n).turn = s.turn.map (fun t => { t with stage := n })
    ∧ (s.setStage n).obj 0x2110 4 0 = n := by
  obtain ⟨-, hturn, hobj⟩ :=
    (StagesKept.tracePoint (s.stageSet n) 0 0 0).trans (StagesKept.tracePoint _ 1 srcModule 0)
  rw [setStage_eq]
  exact ⟨hturn, (hobj (0x2110, 4) (by decide)).trans (State.obj_setObj_same _ _ _ _ _)⟩

theorem drainAll_stages (s : State) (es : List PlanEntry) : StagesKept s (s.drainAll es) :=
  StagesKept.foldl es (fun e _ w => StagesKept.drainPart w e.part.isLt) s

/-! Partitions without requests drain without an answer (R285). -/

/-- No partition has an outstanding request. -/
def NoRequests (s : State) : Prop := ∀ q, q < 16 → (s.part q).requests = []

/-- From s to u the partitions' states are as before, and no request has come. -/
def Undisturbed (s u : State) : Prop :=
  (∀ q, q < 16 → u.pstate q = s.pstate q) ∧ (NoRequests s → NoRequests u)

theorem toPstate_parts (s : State) (p v : Nat) : (s.toPstate p v).parts = s.parts := by
  rw [State.toPstate, tracePoint_frame]
  rfl

theorem toPstate_pstate (s : State) {p q : Nat} (hq : q < 16) (v : Nat) :
    (s.toPstate p v).pstate q = if q = p then v else s.pstate q := by
  refine ((ServiceOnly.tracePoint (s.setPstate p v) 1 p 0).pstate hq).trans ?_
  have hkey : okey 0x2101 (q + 1) 0 = okey 0x2101 (p + 1) 0 ↔ q = p := by
    simp only [okey]
    omega
  exact (State.obj_setObj _ _ _ _ _ _ _ _).trans (by simp only [hkey]; rfl)

theorem askPause_undisturbed (s : State) (p : Nat) (c : PauseCause) : Undisturbed s (s.askPause p c) := by
  refine ⟨fun q hq => rfl, fun hnone q hq => ?_⟩
  rw [State.askPause, State.modPart_eq, State.part_setPart]
  split
  · next h =>
    subst h
    exact hnone q hq
  · exact hnone q hq

/-- A named partition that runs enters Draining; the others keep their states. -/
theorem drainPart_quiet {p : Nat} (hp : p < 16) (hnone : NoRequests s) : NoRequests (s.drainPart p)
    ∧ ∀ q, q < 16 → (s.drainPart p).pstate q = if q = p ∧ s.pstate p = 3 then 4 else s.pstate q := by
  unfold State.drainPart
  split
  · next hpaused =>
    obtain ⟨hstate, hrequests⟩ := askPause_undisturbed s p .turnover
    exact ⟨hrequests hnone, fun q hq => by rw [hstate q hq]; simp [hpaused]⟩
  · split
    · next hidle => exact ⟨hnone, fun q hq => by simp_all⟩
    · next hrun =>
      have hruns : s.pstate p = 3 := by simpa using hrun
      have hquiet : NoRequests (s.toPstate p 4) := fun q hq => by
        rw [State.part, toPstate_parts]
        exact hnone q hq
      have hstate (q : Nat) (hq : q < 16) : (s.toPstate p 4).pstate q = if q = p ∧ s.pstate p = 3 then 4 else s.pstate q := by
        simp only [toPstate_pstate s hq, hruns, and_true]
      have hend {u : State} (h : Undisturbed (s.toPstate p 4) u) : NoRequests u
          ∧ ∀ q, q < 16 → u.pstate q = if q = p ∧ s.pstate p = 3 then 4 else s.pstate q :=
        ⟨h.2 hquiet, fun q hq => (h.1 q hq).trans (hstate q hq)⟩
      generalize s.toPstate p 4 = v at hquiet hend
      dsimp only
      split
      · exact hend ⟨fun _ _ => rfl, id⟩
      · split
        · exact hend (askPause_undisturbed v p .turnover)
        · refine hend ?_
          rw [hquiet p hp, List.filter_nil, List.foldl_nil]
          refine ⟨fun q hq => (ServiceOnly.setObj _ (i := 0x2110) (by decide) (by decide) _).pstate hq, fun hnone q hq => ?_⟩
          rw [State.part_setObj, State.modPart_eq, State.part_setPart]
          split
          · rw [hquiet p hp]
            rfl
          · exact hnone q hq

theorem drainAll_quiet {q : Nat} (hq : q < 16) (es : List PlanEntry) (hnone : NoRequests s)
    (h : s.pstate q = 4 ∨ (s.pstate q = 3 ∧ ∃ e ∈ es, e.part.val = q)) : (s.drainAll es).pstate q = 4 := by
  induction es generalizing s with
  | nil => exact h.resolve_right (by simp)
  | cons e es ih =>
    obtain ⟨hnext, hstate⟩ := drainPart_quiet e.part.isLt hnone
    refine ih hnext ?_
    rw [hstate q hq]
    obtain hdraining | ⟨hrun, d, hd, rfl⟩ := h
    · refine .inl ?_
      split
      · rfl
      · exact hdraining
    · by_cases he : d.part.val = e.part.val
      · exact .inl (if_pos ⟨he, he ▸ hrun⟩)
      · refine .inr ⟨by rw [if_neg (fun h => he h.1), hrun], d, ?_, rfl⟩
        exact (List.mem_cons.1 hd).resolve_left fun heq => he (heq ▸ rfl)

theorem turnBegun_undisturbed (s : State) : Undisturbed s s.turnBegun := by
  have hobj (w : State) (b v : Nat) (hb : b < 256) : ServiceOnly w (w.setObj 0x2110 b 0 v) :=
    ServiceOnly.setObj w (i := 0x2110) (by decide) hb v
  have hset : ServiceOnly s s.turnSet :=
    ((hobj { s with turn := some s.plannedTurnover } 5 0 (by decide)).trans (hobj _ 7 0 (by decide))).trans
      (hobj _ 8 0 (by decide))
  have hstage : ServiceOnly s.turnSet s.turnBegun :=
    ((hobj { s.turnSet with turn := s.turnSet.turn.map (fun t => { t with stage := 1 }) } 4 1 (by decide)).trans
      (ServiceOnly.tracePoint _ 0 0 0)).trans (ServiceOnly.tracePoint _ 1 srcModule 0)
  refine ⟨fun q hq => (hset.trans hstage).pstate hq, fun hnone q hq => ?_⟩
  have hparts : s.turnBegun.parts = s.parts := by
    rw [State.turnBegun, setStage_eq, tracePoint_frame, tracePoint_frame]
    rfl
  rw [State.part, hparts]
  exact hnone q hq

theorem turnoverExecute_wrote (ht : s.takesWrite rq 0x2110 3 0) (hfree : s.turn = none)
    (hplan : s.planOk (s.blob 0x2110 1 0) = true) : Wrote (.turnoverExecute rq 1) s rq 0x2110 3 0 (fun w =>
      w.turn.map (fun t => (t.stage, t.entries, t.start)) = some (1, planEntries (s.blob 0x2110 1 0), s.tick)
      ∧ w.obj 0x2110 4 0 = 1
      ∧ ((∀ q, q < 16 → (s.part q).requests = []) →
          ∀ p ∈ planEntries (s.blob 0x2110 1 0), s.pstate p.part.val = 3 → w.pstate p.part.val = 4)) := by
  obtain ⟨-, hturn, hobj⟩ := drainAll_stages s.turnBegun (planEntries (s.blob 0x2110 1 0))
  obtain ⟨hbegun, hstage⟩ := setStage_stage s.turnSet 1
  obtain ⟨hstate, hrequests⟩ := turnBegun_undisturbed s
  refine wrote_of_putHere (w := s.turnBegun.drainAll (planEntries (s.blob 0x2110 1 0))) rfl writableHere_turnover ht rfl
    (by decide) (fun hread => ?_) ⟨?_, ?_, fun hnone p hp hrun => ?_⟩
  · have hact : s.actTurnover 1 = .ok (s.turnBegun.drainAll (planEntries (s.blob 0x2110 1 0))) := by
      rw [actTurnover_eq, hfree, hplan]
      rfl
    rw [writeModule_turnover, hread]
    exact congrArg (attempt s) hact
  · exact (congrArg (Option.map _) (hturn.trans hbegun)).trans rfl
  · exact (hobj (0x2110, 4) (by decide)).trans hstage
  · exact drainAll_quiet p.part.isLt _ (hrequests hnone) (.inr ⟨(hstate _ p.part.isLt).trans hrun, p, hp, rfl⟩)

theorem turnoverExecute_aborted {a : Abort} (hb : s.bounded) (ht : s.takesWrite rq 0x2110 3 0)
    (hact : s.actTurnover 1 = .error a) : Aborted (.turnoverExecute rq 1) s rq 0x2110 3 0 a := by
  refine aborted_of_putHere rfl writableHere_turnover ht rfl (by decide) hb (fun hread => ?_)
  rw [writeModule_turnover, hread]
  exact congrArg (attempt s) hact

end

/-- Settles O52: each write is taken as its object's type and table say, and ends with the effect that the object gives it; an
engine works on a command's one entry as its action says. -/
theorem engineWritesAct : Obligations.EngineWritesAct := by
  intro s rq e sub x g v y c pid j b n k hb win cmds grp step factor goal cmd es late planned
  refine ⟨fun ht hflag hwhole => ⟨poolWindowWrite_wrote hb ht ⟨hflag, hwhole⟩, fun a => poolWindowWrite_aborted hb ht ⟨hflag, hwhole⟩⟩,
    fun ht a ha haction => ?_, fun hcmd hruns hidle => ⟨holdStep_reads hcmd hruns hidle, fun hread hone hready hfree => ?_,
      fun h => holdStep_none hcmd h.1 h.2⟩,
    fun ht => ⟨activationStampWrite_wrote ht, activationStampWrite_aborted hb ht⟩, ?_, ?_⟩
  · have hlate : late ↔ (s.heldEntries 3).any s.lateEntry = true := by
      simp only [List.any_eq_true, lateEntry_iff]
      rfl
    have hcommand : exec a.2 s = done (s.putCommand rq a.1) ∧ a.1 ≠ 0 := by
      simp only [cmds, List.mem_cons, List.not_mem_nil, or_false] at ha
      obtain rfl | rfl | rfl | rfl := ha
      all_goals exact ⟨rfl, Nat.succ_ne_zero _⟩
    obtain ⟨hexec, hpos⟩ := hcommand
    refine ⟨fun hfree hearly => holdCommand_wrote hb ht hexec haction hpos hfree fun hmerge => ?_,
      fun hbad => holdCommand_aborted hb ht hexec haction hpos (hbad.imp_right (And.imp_right hlate.1))⟩
    exact Bool.eq_false_iff.2 fun h => hearly hmerge (hlate.2 h)
  · have hstep := holdStep_entry hcmd hruns hidle hread hone hready hfree
    refine ⟨fun happly hopen hbusy => ?_, fun hdrop => ?_, fun hmerge => ?_, fun hfreeing => ?_⟩
    · rw [hstep fun _ => ⟨hopen, hbusy⟩, State.holdEntry, if_pos happly]
    · rw [hstep (by simp [hdrop]), State.holdEntry, if_neg (by simp [hdrop]), if_pos hdrop]
    · rw [hstep (by simp [hmerge]), State.holdEntry, if_neg (by simp [hmerge]), if_neg (by simp [hmerge]), if_pos hmerge]
    · rw [hstep (by simp [hfreeing]), State.holdEntry, if_neg (by simp [hfreeing]), if_neg (by simp [hfreeing]),
        if_neg (by simp [hfreeing])]
  · rintro ht rfl
    exact ⟨snapshotShipStart_wrote ht, snapshotShipStart_aborted hb ht⟩
  · rintro ht rfl
    refine ⟨turnoverExecute_wrote ht, fun hfree hplan => turnoverExecute_aborted hb ht ?_,
      fun hbusy => turnoverExecute_aborted hb ht ?_⟩
    · have hbad : s.planOk (s.blob 0x2110 1 0) = false := hplan
      rw [actTurnover_eq, hfree, hbad]
      rfl
    · rw [actTurnover_eq, if_pos (Option.isSome_iff_ne_none.2 hbusy)]

end Sys2Proof.Machine
end

section
/-! SUPPORT. Refreshes and scrubs, and a state in which the recording of a scrub's event finds a word that cannot be corrected
itself (O26). -/
namespace Sys2Proof.Machine

/-! Refresh (R170). -/

section
variable {s : State} {t : TileId} {bank : Fin 16}

theorem vaultRefresh_refreshes (hb : s.bounded) (hup : (s.region (regionOf t.val)).netUp = true)
    (husable : s.vaultUsable t.val = true)
    (hrested : ∀ b, (s.tile t.val).refresh = some b → b.2 + 9600 ≤ s.netOf t.val) :
    Gives (.vaultRefresh t bank) s (fun u =>
      OnlyTile t s u ∧ SameMem s u ∧ (u.tile t.val).refresh = some (bank, s.netOf t.val)) := by
  have hfree : (s.tile t.val).refresh.any (fun b => s.netOf t.val < b.2 + 9600) = false := by
    cases hlast : (s.tile t.val).refresh with
    | none => rfl
    | some b => exact decide_eq_false (Nat.not_lt.2 (hrested b hlast))
  have hexec : exec (.vaultRefresh t bank) s
      = done (s.modTile t.val (fun x => { x with refresh := some (bank, s.netOf t.val) })) := by
    simp [exec, execVaultRefresh, hup, husable, hfree]
  refine ⟨_, hexec.trans (done_bounded hb), only_modTile (only_refl t s) _, sameMem_of_mems rfl, ?_⟩
  rw [State.modTile_eq, State.tile_setTile_same]

theorem vaultRefresh_rests {b : Fin 16 × Nat} (hb : s.bounded) (hlast : (s.tile t.val).refresh = some b)
    (hearly : s.netOf t.val < b.2 + 9600) : exec (.vaultRefresh t bank) s = .next s := by
  have hexec : exec (.vaultRefresh t bank) s = done s := by
    simp [exec, execVaultRefresh, hlast, hearly]
  rw [hexec, done_bounded hb]

end

/-! Scrubs of a stack (R177). -/

section
variable {s : State} {e : EngineId} {w : Nat}

/-- A stack's controller is idle, and the channels of a word of it do not retrain: the word is scrubbed now. -/
structure ScrubsNow (s : State) (e : EngineId) (w : Nat) : Prop where
  up : s.stackUp e.val = true
  inside : w < 0x60000000
  free : s.chanBusy e.val (64 * w) 64 = false
  served : s.nextReq? e.val = none
  traced : s.traceFor e.val = []

theorem count_trimmed (s : State) (i b n : Nat) : s.trimmed.count i b n = s.count i b n := rfl

theorem scrubRead_reads (h : ScrubsNow s e w) :
    exec (.scrubRead (.stack e) w []) s = .next (s.readWord (.stack e) w 8).trimmed := by
  obtain ⟨hup, hinside, hfree, hserved, htraced⟩ := h
  have hexec : exec (.scrubRead (.stack e) w []) s = done (s.readWord (.stack e) w 8) := by
    simp [exec, execScrubRead, State.upset, hup, hinside, hfree, hserved, htraced]
  rw [hexec, done_trimmed]

theorem scrubRead_waits (hb : s.bounded) (hbusy : s.chanBusy e.val (64 * w) 64 = true ∨ s.nextReq? e.val ≠ none) :
    exec (.scrubRead (.stack e) w []) s = .next s := by
  have hexec : exec (.scrubRead (.stack e) w []) s = done s := by
    obtain hbusy | hwaits := hbusy
    · simp [exec, execScrubRead, State.upset, hbusy]
    · simp [exec, execScrubRead, State.upset, hwaits]
  rw [hexec, done_bounded hb]

theorem scrubRead_clean (hb : s.bounded) (h : ScrubsNow s e w) (hclean : (s.mem (.stack e)).wordErrs w = []) :
    exec (.scrubRead (.stack e) w []) s = .next s := by
  have hread : s.readWord (.stack e) w 8 = s := by simp [State.readWord, State.readWordEv, hclean, raiseAll]
  rw [scrubRead_reads h, hread, trimmed_of_bounded hb]

theorem scrubRead_marked (h : ScrubsNow s e w) (hchanged : (s.mem (.stack e)).wordErrs w ≠ [])
    (hmarked : likeMarker 64 ((s.mem (.stack e)).wordErrs w) = true) : Gives (.scrubRead (.stack e) w []) s (fun u =>
      SameMem s u ∧ u.count 0x7410 3 e.val = s.count 0x7410 3 e.val + 1) := by
  have hword : MemUnit.word (.stack e) = 64 := rfl
  have hread : s.readWord (.stack e) w 8 = s.countMem (.stack e) 3 := by
    simp [State.readWord, State.readWordEv, hword, hchanged, hmarked, raiseAll]
  refine ⟨_, scrubRead_reads h, ?_⟩
  rw [hread]
  exact ⟨sameMem_of_mems rfl, State.count_bump_same _ _ _ _ _⟩

/-! What the recording of an event leaves of the other stacks (R419). -/

/-- Stack e holds in u what it holds in s, and its reads have been counted alike. -/
def StackKept (e : EngineId) (s u : State) : Prop :=
  u.mem (.stack e) = s.mem (.stack e) ∧ ∀ k, u.count 0x7410 k e.val = s.count 0x7410 k e.val

/-- The mirror lies on stack 0. -/
theorem recording_stackKept (he : e.val ≠ 0) : Recording (StackKept e) := by
  have hunit : MemUnit.stack e ≠ .stack 0 := by
    rintro ⟨⟩
    exact he rfl
  refine ⟨fun s => ⟨rfl, fun _ => rfl⟩, fun h k => ⟨k.1.trans h.1, fun i => (k.2 i).trans (h.2 i)⟩,
    fun s m => ⟨?_, fun _ => rfl⟩, fun s k => ⟨rfl, fun i => ?_⟩, fun s a => ?_, fun s r => ?_,
    fun s i => ⟨rfl, fun _ => rfl⟩, fun s rs => ⟨rfl, fun _ => rfl⟩, fun s n => ⟨rfl, fun _ => rfl⟩⟩
  · rw [State.mem_setMem, if_neg hunit]
  · refine (State.count_bump _ _ _ _ _ _ _ _).trans (if_neg ?_)
    have hlt := e.isLt
    simp only [okey, Fin.val_zero]
    omega
  · obtain ⟨x, hnoted, -⟩ := noteCorrected_stack s 0 a
    rw [hnoted]
    exact ⟨rfl, fun _ => rfl⟩
  · unfold State.listRecord
    dsimp only
    split <;> exact ⟨rfl, fun _ => rfl⟩

theorem readWord_stackKept (he : e.val ≠ 0) (s : State) (w reader : Nat) :
    StackKept e (s.readWordEv (.stack e) w reader).1 (s.readWord (.stack e) w reader) :=
  (recording_stackKept he).foldl (fun s _ => (recording_stackKept he).raise s _ _ _ _) _ _

/-! A word that is corrected reads as stored (R176). -/

/-- A byte once the flips of a word have gone over it. -/
def flipByte (n w a : Nat) (es : List (Nat × Byte)) (b : Byte) : Byte :=
  es.foldl (fun b e => if e.1 < n ∧ a = w * n + e.1 then b ^^^ e.2 else b) b

theorem cget_flipData (n w a : Nat) (es : List (Nat × Byte)) (m : Mem) :
    cget (m.flipData n w es).cells a = flipByte n w a es (cget m.cells a) := by
  induction es generalizing m with
  | nil => rfl
  | cons e es ih =>
    rw [Mem.flipData, List.foldl_cons, flipByte, List.foldl_cons]
    refine (ih _).trans (congrArg (flipByte n w a es) ?_)
    by_cases hlow : e.1 < n
    · rw [if_pos hlow, cget_cset]
      by_cases ha : a = w * n + e.1
      · rw [if_pos ha, if_pos ⟨hlow, ha⟩, ha]
      · rw [if_neg ha, if_neg (fun h => ha h.2)]
    · rw [if_neg hlow, if_neg (fun h => hlow h.1)]

theorem flipByte_xor (n w a : Nat) (es : List (Nat × Byte)) (b : Byte) : flipByte n w a es b = b ^^^ flipByte n w a es 0 := by
  induction es generalizing b with
  | nil => exact (BitVec.xor_zero).symm
  | cons e es ih =>
    have hstep (c : Byte) : flipByte n w a (e :: es) c
        = flipByte n w a es (if e.1 < n ∧ a = w * n + e.1 then c ^^^ e.2 else c) := rfl
    rw [hstep, hstep]
    split
    · have hzero : (0 : Byte) ^^^ e.2 = e.2 := BitVec.zero_xor
      rw [hzero, ih (b ^^^ e.2), ih e.2, BitVec.xor_assoc]
    · exact ih b

/-- Flips that are made twice change nothing. -/
theorem flipByte_twice (n w a : Nat) (es : List (Nat × Byte)) (b : Byte) :
    flipByte n w a es (flipByte n w a es b) = b := by
  rw [flipByte_xor n w a es b, flipByte_xor, BitVec.xor_assoc, BitVec.xor_self, BitVec.xor_zero]

theorem scrubRead_corrected (he : e.val ≠ 0) (h : ScrubsNow s e w) (hchanged : (s.mem (.stack e)).wordErrs w ≠ [])
    (hunmarked : likeMarker 64 ((s.mem (.stack e)).wordErrs w) = false)
    (hdecode : rsDecode 68 ((s.mem (.stack e)).wordErrs w) = .corrected ((s.mem (.stack e)).wordErrs w)) :
    Gives (.scrubRead (.stack e) w []) s (fun u => (∀ a, u.peek (.stack e) a = s.peek (.stack e) a)
      ∧ (u.mem (.stack e)).wordErrs w = [] ∧ u.count 0x7410 1 e.val = s.count 0x7410 1 e.val + 1) := by
  have hword : MemUnit.word (.stack e) = 64 := rfl
  generalize hes : (s.mem (.stack e)).wordErrs w = es at hchanged hunmarked hdecode
  generalize hm : (((s.mem (.stack e)).flipData 64 w es).flipData 64 w es).clearWord w = m
  have hread : (s.readWordEv (.stack e) w 8).1
      = (((s.setMem (.stack e) m).countMem (.stack e) 1).noteCorrected (.stack e) (w * 64)).1 := by
    simp [State.readWordEv, hword, hes, hchanged, hunmarked, hdecode, hm]
  obtain ⟨hmem, hcount⟩ := readWord_stackKept he s w 8
  obtain ⟨x, hnoted, -⟩ := noteCorrected_stack ((s.setMem (.stack e) m).countMem (.stack e) 1) e (w * 64)
  rw [hread, hnoted] at hmem hcount
  have hkept : (s.readWord (.stack e) w 8).mem (.stack e) = m := by
    rw [hmem]
    exact (State.mem_setMem s _ _ _).trans (if_pos rfl)
  refine ⟨_, scrubRead_reads h, fun a => ?_, ?_, (hcount 1).trans (State.count_bump_same _ _ _ _ _)⟩
  · have hpeek : (s.readWord (.stack e) w 8).trimmed.peek (.stack e) a = cget m.cells a :=
      congrArg (fun m : Mem => cget m.cells a) hkept
    rw [hpeek, ← hm, Mem.clearWord, cget_flipData, cget_flipData, flipByte_twice, State.peek]
  · refine (congrArg (Mem.wordErrs · w) hkept).trans ?_
    rw [← hm, clearWord_same]

/-! A word that cannot be corrected is marked, and told (R178). -/

theorem readWordEv_bad {es : List (Nat × Byte)} (hes : (s.mem (.stack e)).wordErrs w = es) (hchanged : es ≠ [])
    (hunmarked : likeMarker 64 es = false) (hdecode : rsDecode 68 es = .bad) (reader : Nat) :
    s.readWordEv (.stack e) w reader =
      ((s.setMem (.stack e) (((s.mem (.stack e)).flipData 64 w es).mark 64 w)).countMem (.stack e) 2,
        [(0x4020, e.val, [BitVec.ofNat 8 (MemUnit.stack e).tier, BitVec.ofNat 8 ((MemUnit.stack e).channel (w * 64)),
          BitVec.ofNat 8 reader] ++ leBytes 8 (w * 64))]) := by
  have hword : MemUnit.word (.stack e) = 64 := rfl
  simp [State.readWordEv, hword, hes, hchanged, hunmarked, hdecode, MemUnit.inst]

theorem scrubRead_bad (he : e.val ≠ 0) (h : ScrubsNow s e w) (hchanged : (s.mem (.stack e)).wordErrs w ≠ [])
    (hunmarked : likeMarker 64 ((s.mem (.stack e)).wordErrs w) = false)
    (hdecode : rsDecode 68 ((s.mem (.stack e)).wordErrs w) = .bad) :
    Gives (.scrubRead (.stack e) w []) s (fun u => (u.mem (.stack e)).isMarked 64 w = true
      ∧ u.count 0x7410 2 e.val = s.count 0x7410 2 e.val + 1 ∧ ((s.core 0).down = false → Told s u 0x4020 e.val)) := by
  have hread := readWordEv_bad rfl hchanged hunmarked hdecode 8
  obtain ⟨hmem, hcount⟩ := readWord_stackKept he s w 8
  rw [hread] at hmem hcount
  refine ⟨_, scrubRead_reads h, ?_, (hcount 2).trans (State.count_bump_same _ _ _ _ _), fun hdown => ?_⟩
  · have hmarked : (s.readWord (.stack e) w 8).mem (.stack e)
        = ((s.mem (.stack e)).flipData 64 w ((s.mem (.stack e)).wordErrs w)).mark 64 w :=
      hmem.trans ((State.mem_setMem s _ _ _).trans (if_pos rfl))
    refine (congrArg (Mem.isMarked · 64 w) hmarked).trans ?_
    rw [Mem.isMarked, mark_same _ _ (by decide)]
    simp [likeMarker]
  · have hother : MemUnit.stack 0 ≠ .stack e := by
      rintro ⟨⟩
      exact he rfl
    generalize hv : (s.setMem (.stack e) (((s.mem (.stack e)).flipData 64 w ((s.mem (.stack e)).wordErrs w)).mark 64 w)).countMem
      (.stack e) 2 = v at hread
    have hcore : (v.core 0).down = false := by
      rw [← hv]
      exact hdown
    have hsame : v.mem (.stack 0) = s.mem (.stack 0) := by
      rw [← hv]
      exact (State.mem_setMem s _ _ _).trans (if_neg hother)
    have hraised := congrArg raiseAll hread
    refine told_of_ring fun hclean => (congrArg State.ring hraised).trans (raise_ring hcore (by simp [leBytes_length]) ?_)
    rw [hsame, hclean]

end

/-! A scrub of stack 0 whose event goes to a word that cannot be corrected. -/

/-- The module in M0 with stack 0 up: three symbols of word 0, and three of the first word of the event mirror, have
changed. -/
def twoBadWords : State :=
  ({ (State.reset.setObj 0x2000 1 0 0).modEngine 0 (fun x => { x with st := 2, trained := true }) with
    regions := [(0, { st := .running })] } : State).upset
      ([0, 0x17F8300000 / 64].flatMap fun w => [3, 9, 30].map fun p => ⟨.stack 0, w, p, 1⟩)

theorem twoBadWords_scrubs : twoBadWords.stackUp 0 = true ∧ twoBadWords.chanBusy 0 0 64 = false
    ∧ twoBadWords.nextReq? 0 = none ∧ twoBadWords.traceFor 0 = [] := by decide +kernel

theorem twoBadWords_bad : (twoBadWords.mem (.stack 0)).wordErrs 0 ≠ []
    ∧ likeMarker 64 ((twoBadWords.mem (.stack 0)).wordErrs 0) = false
    ∧ rsDecode 68 ((twoBadWords.mem (.stack 0)).wordErrs 0) = .bad := by decide +kernel

/-- Two reads have been uncorrectable: that of the scrub, and that of the mirror's write. -/
theorem twoBadWords_counts : twoBadWords.count 0x7410 2 0 = 0
    ∧ (twoBadWords.readWord (.stack 0) 0 8).count 0x7410 2 0 = 2 := by decide +kernel

/-- Refutes O26: the part about a word that cannot be corrected takes stack 0 too, where the event mirror lies. SC0 writes the
scrub's E4020 there, and its short write reads a word first (R180); where that word cannot be corrected either, it is counted
as well, so that 0x7410:02 is not one more but two. With another stack that part holds: `scrubRead_bad`; the others hold as they
stand: `vaultRefresh_refreshes`, `vaultRefresh_rests`, `scrubRead_clean`, `scrubRead_marked`, `scrubRead_corrected`,
`scrubRead_waits`. -/
theorem not_scrubbingCorrectsOrMarks : ¬ Obligations.ScrubbingCorrectsOrMarks := by
  intro hall
  obtain ⟨hup, hfree, hserved, htraced⟩ := twoBadWords_scrubs
  obtain ⟨hchanged, hunmarked, hdecode⟩ := twoBadWords_bad
  obtain ⟨hbefore, hafter⟩ := twoBadWords_counts
  obtain ⟨-, -, hscrub, -⟩ := hall twoBadWords 0 0 0 0 (by decide)
  obtain ⟨-, -, -, hbad⟩ := hscrub hup (by decide) hfree hserved htraced
  obtain ⟨u, hexec, -, hcount, -⟩ := hbad hchanged hunmarked hdecode
  have hread := (scrubRead_reads ⟨hup, by decide, hfree, hserved, htraced⟩).symm.trans hexec
  rw [← Host.Outcome.next.inj hread, count_trimmed] at hcount
  have htwo : 2 = 0 + 1 := hafter.symm.trans (hcount.trans (congrArg (· + 1) hbefore))
  exact absurd htwo (by decide)

end Sys2Proof.Machine
end

section
/-! SUPPORT. A far request outside the pool window: what its refusal leaves, and one whose refusal cannot be sent (O29). -/
namespace Sys2Proof.Machine

/-! A packet without a job meets no link failure (R317). -/

theorem jobFailure_noJob (p b : Nat) : jobFailure (0 : BitVec 32) p b = [] := rfl

theorem toHostOutF_noJob {k : Pkt} (hjob : k.hdr.job = 0) (s : State) : (s.toHostOutF k).2 = [] := by
  unfold State.toHostOutF
  rw [hjob]
  split
  · split
    · split <;> rfl
    · rfl
  · rfl

theorem selfOut_noJob {k : Pkt} (hjob : k.hdr.job = 0) (s : State) : (s.selfOut k).2 = [] := by
  unfold State.selfOut
  rw [hjob]
  dsimp only
  split
  · split
    · split <;> rfl
    · rfl
  · exact toHostOutF_noJob hjob s

theorem sendLocalF_noJob {k : Pkt} (hjob : k.hdr.job = 0) (s : State) : (s.sendLocalF k).2 = [] := by
  unfold State.sendLocalF
  rw [hjob]
  split
  · rfl
  · exact selfOut_noJob hjob s
  · rfl
  · rfl

theorem sendLocal_noJob {k : Pkt} (hjob : k.hdr.job = 0) (s : State) : s.sendLocal k = (s.sendLocalF k).1 := by
  unfold State.sendLocal settleFailures
  rw [sendLocalF_noJob hjob]
  rfl

/-- The refusal of a packet without a job touches the ports alone. -/
theorem PortsOnly.refusePkt_noJob {k : PktHdr} (hjob : k.job = 0) (s : State) (port code : Nat) :
    PortsOnly s (s.refusePkt port code k) := by
  unfold State.refusePkt
  dsimp only
  split
  · exact bump s _ _ _
  · rw [sendLocal_noJob hjob]
    exact (bump s _ _ _).trans (sendLocalF _ _)

/-! A far request outside the window (R187). -/

section
variable {s : State} {f : FarReq} {e : EngineId} {b : Nat}

/-- A far request of another module comes to byte b of stack e of this one. -/
structure FarHere (s : State) (f : FarReq) (e : EngineId) (b : Nat) : Prop where
  link : s.hostSub ≠ some (f.port.val, f.sub.val)
  up : s.linkUp f.port.val f.sub.val = true
  here : farModule f.addr.toNat = s.moduleId.toNat
  near : f.hops.toNat < 63
  notHost : farIsHost f.addr.toNat = false
  fromModule : f.fromHost = false
  zeros : farZeros f.addr.toNat = true
  stack : Fin.ofNat 32 (farStack f.addr.toNat) = e
  byte : farByte f.addr.toNat = b

/-- The pool window of stack e is enabled and holds n bytes from byte b. -/
def InWindow (s : State) (e : EngineId) (b n : Nat) : Prop :=
  s.obj 0x6860 3 e.val = 1 ∧ within b n (s.obj 0x6860 1 e.val) (s.obj 0x6860 2 e.val) = true

theorem farArrive_outside (h : FarHere s f e b) (write : Bool) {n : Nat} (data : List Byte)
    (r : FarReq → Bool → StackReq) (hout : ¬ InWindow s e b n) : s.farArrive f write n data r =
      ((s.takeRx f.port.val f.sub.val (linkChannel 1 f.layer) (max 1 ((data.length + 4095) / 4096))).1.bump 0x7410 5 e.val
        1).refusePkt f.port.val 3 (farHdr f write) := by
  obtain ⟨hlink, hup, hhere, hnear, hnotHost, hfrom, hzeros, rfl, rfl⟩ := h
  have hmark : s.markFar f = f := if_neg hlink
  unfold State.farArrive
  simp only [hmark, hup, hhere, hnotHost, hfrom, hzeros, Nat.not_le.2 hnear, bne_self_eq_false, Bool.not_true, Bool.or_self,
    Bool.false_eq_true, Bool.false_and, Bool.true_and, Bool.not_false, if_false]
  exact if_pos (by simpa [InWindow, imp_iff_not_or] using hout)

/-- One without a job touches no memory and is counted. -/
theorem farArrive_outside_noJob (h : FarHere s f e b) (hjob : f.job = 0) (write : Bool) {n : Nat} (data : List Byte)
    (r : FarReq → Bool → StackReq) (hout : ¬ InWindow s e b n) :
    SameMem s (s.farArrive f write n data r).trimmed
      ∧ (s.farArrive f write n data r).trimmed.count 0x7410 5 e.val = s.count 0x7410 5 e.val + 1 := by
  rw [farArrive_outside h write data r hout]
  generalize hv : (s.takeRx f.port.val f.sub.val (linkChannel 1 f.layer) (max 1 ((data.length + 4095) / 4096))).1 = v
  have hports := PortsOnly.refusePkt_noJob (k := farHdr f write) hjob (v.bump 0x7410 5 e.val 1) f.port.val 3
  have hmems : v.mems = s.mems := by rw [← hv]; rfl
  have hlive : v.count 0x7410 5 e.val = s.count 0x7410 5 e.val := by rw [← hv]; rfl
  refine ⟨sameMem_of_mems ((congrArg State.mems hports.frame).trans hmems), ?_⟩
  rw [count_trimmed, hports.count, State.count_bump_same, hlive]
  have hlt := e.isLt
  simp only [okey]
  omega

theorem farReadRequest_outside (h : FarHere s f e b) (hjob : f.job = 0) (hout : ¬ InWindow s e b f.len) :
    Gives (.farReadRequest f) s (fun u => SameMem s u ∧ u.count 0x7410 5 e.val = s.count 0x7410 5 e.val + 1) :=
  ⟨_, done_trimmed _, farArrive_outside_noJob h hjob false [] (fun f _ => .farRead f) hout⟩

theorem farWriteRequest_outside {data : List Byte} (h : FarHere s f e b) (hjob : f.job = 0)
    (hout : ¬ InWindow s e b (max f.len data.length)) : Gives (.farWriteRequest f data) s (fun u =>
      SameMem s u ∧ u.count 0x7410 5 e.val = s.count 0x7410 5 e.val + 1) :=
  ⟨_, done_trimmed _, farArrive_outside_noJob h hjob true data (fun f bad => .farWrite f data bad) hout⟩

end

/-! A far request of a job whose refusal cannot be sent. -/

/-- The module in M0 with sub-port 0 of port 1 up; its way to module 5 leads over sub-port 0 of port 2, which is down. -/
def answerDown : State :=
  { (State.reset.setObj 0x2000 1 0 0).setSub 1 0 { st := 2 } with
    tables := [(6 * 16384 + 5, 5)], regions := [(0, { st := .running })] }

/-- A read of module 5 for job 1, at byte 0 of stack 0, whose pool window is not enabled. -/
def jobRead : FarReq := { port := 1, sub := 0, src := 5, fromHost := false, addr := 0, len := 2, job := 1 }

theorem answerDown_arrives : answerDown.hostSub = none ∧ answerDown.linkUp 1 0 = true ∧ answerDown.moduleId = 0
    ∧ answerDown.obj 0x6860 3 0 = 0 := by decide +kernel

/-- The record of E7040 stands in the event mirror, where there was none. -/
theorem answerDown_written : answerDown.peek (.stack 0) 0x17F8300000 = 0
    ∧ (answerDown.farArrive jobRead false jobRead.len [] (fun f _ => .farRead f)).peek (.stack 0) 0x17F8300000 = 0x40 := by
  decide +kernel

theorem peek_trimmed (s : State) (m : MemUnit) (a : Nat) : s.trimmed.peek m a = s.peek m a := rfl

/-- Refutes O29: the part about a request outside the window takes one of any job. Where the refusal meets a down sub-port, that
is a link failure for the job (R317); SC0 records E7040 and writes the record to the event mirror on stack 0 (R419), so that
memory has changed. Of a request without a job that part holds: `farReadRequest_outside`, `farWriteRequest_outside`. -/
theorem not_farRequestsStayInThePoolWindow : ¬ Obligations.FarRequestsStayInThePoolWindow := by
  intro hall
  obtain ⟨hhost, hlink, hmodule, hdisabled⟩ := answerDown_arrives
  obtain ⟨hbefore, hafter⟩ := answerDown_written
  obtain ⟨-, -, hrefused, -⟩ := hall answerDown jobRead [] (by decide) (by rw [hhost]; exact fun h => nomatch h) hlink
    (by rw [hmodule]; decide) (by decide) (by decide) rfl (by decide)
  obtain ⟨u, hexec, hsame, -⟩ := hrefused fun h => absurd (hdisabled.symm.trans h.1) (by decide)
  have hread := (done_trimmed (answerDown.farArrive jobRead false jobRead.len [] (fun f _ => .farRead f))).symm.trans hexec
  have hkept := (hsame (.stack 0) 0x17F8300000).1
  rw [← Host.Outcome.next.inj hread, peek_trimmed, hafter, hbefore] at hkept
  exact absurd hkept (by decide)

end Sys2Proof.Machine
end

section
/-! SUPPORT. Flits that an edge unit sends through a gate, and what a relay does with its oldest transfer (O33). -/
namespace Sys2Proof.Machine

/-! Flits from a gate (R138, R152). -/

/-- The flits on their way from the edge gate of a tile in a direction, on a VC. -/
def State.gateFlits (s : State) (t d vc : Nat) : List Flit := mget [] (s.router t).gateIn (bufKey d vc)

theorem mget_putFlits (k j : Nat) (fs : List Flit) (m : Map (List Flit)) :
    mget [] (putFlits k fs m) j = if j = k then fs else mget [] m j := by
  unfold putFlits
  split
  · next h => rw [mget_mdel, h]
  · exact mget_mset _ _ _ _ _

theorem gateFlits_gatePush_same (s : State) (t d vc : Nat) (fs : List Flit) :
    (s.gatePush t d vc fs).gateFlits t d vc = s.gateFlits t d vc ++ fs := by
  rw [State.gateFlits, State.gatePush, State.modRouter_eq, State.router_setRouter_same, mget_putFlits, if_pos rfl,
    State.gateFlits]

/-- The flits of the other VCs, at this gate and at every other, stay as they are. -/
theorem gateFlits_gatePush_ne (s : State) {t d vc j c w : Nat} (fs : List Flit) (h : bufKey c w ≠ bufKey d vc) :
    (s.gatePush t d vc fs).gateFlits j c w = s.gateFlits j c w := by
  rw [State.gateFlits, State.gatePush, State.modRouter_eq, State.router_setRouter, State.gateFlits]
  split
  · next ht => rw [mget_putFlits, if_neg h, ht]
  · rfl

theorem flitsOf_data (f : Flit) (poison : Nat → Bool) (bs : List Byte) : (flitsOf f poison bs).flatMap (·.data) = bs := by
  simp only [flitsOf, List.flatMap_map, Nat.mul_comm _ 128]
  rw [flatMap_chunks, List.take_of_length_le (by omega)]

/-- What holds of each flit of a transfer from the header that they carry; each can be poisoned by itself. -/
theorem flitsOf_mem {f g : Flit} {poison : Nat → Bool} {bs : List Byte} (h : g ∈ flitsOf f poison bs) :
    g.vc = f.vc ∧ g.part = f.part ∧ g.route = f.route ∧ g.dst = f.dst ∧ g.dests = f.dests
      ∧ ∃ i, g.poison = (f.poison || poison i) := by
  obtain ⟨i, -, rfl⟩ := List.mem_map.1 h
  exact ⟨rfl, rfl, rfl, rfl, rfl, i, rfl⟩

/-! Relays (R214, R215). -/

section
variable {s : State} {r : RelayId} {x : RelayXfer} {rest : List RelayXfer} {p k : PartId} {plan : RelayPlan}

/-- The relay of a side with a clock holds transfers for its student, x the oldest. -/
structure RelayHolds (s : State) (r : RelayId) (x : RelayXfer) (rest : List RelayXfer) (p k : PartId) (plan : RelayPlan) :
    Prop where
  held : (s.relay r.val).held = x :: rest
  student : (s.relay r.val).student = some (p, k)
  plan : (s.relay r.val).plan = some plan
  clock : s.sideClocked (relaySide r.val) = true

/-- The VC on which a relay forwards, by the class of the landing buffer (R214). -/
def relayVc (plan : RelayPlan) : Fin 6 := if plan.classU then 4 else 1

theorem relayVc_ne (plan : RelayPlan) : (relayVc plan).val < 8 ∧ (relayVc plan).val ≠ 5 := by
  unfold relayVc
  split <;> decide

/-- The gate of its side at which a relay forwards. -/
def State.relayGate (s : State) (r : RelayId) (p : PartId) (plan : RelayPlan) : Nat :=
  s.sideGate (relaySide r.val) p.val plan.route.val (relayVc plan).val

/-- The landing slot of the student that a transfer names. -/
def RelayXfer.dest (x : RelayXfer) : Dest := ⟨Fin.ofNat 6912 x.tile, Fin.ofNat 16 x.buf, Fin.ofNat 64 x.slot, x.ctr⟩

/-- The header of the flits in which a relay forwards a transfer from a gate. -/
def RelayXfer.flit (x : RelayXfer) (r : RelayId) (p : PartId) (plan : RelayPlan) (g : Nat) : Flit :=
  { vc := relayVc plan, ty := .data, part := p, route := plan.route.val, dst := x.dest.tile.val, src := g, head := true,
    tail := true, dests := [x.dest], edge := 1 + r.val, poison := x.poison }

/-- The flit that returns the relay's slot credit to the teacher's tile. -/
def RelayXfer.credit (x : RelayXfer) (r : RelayId) (p : PartId) : Flit :=
  { vc := 5, ty := .credit, part := p, route := 0, dst := x.teacher.val, src := x.gate.val, head := true, tail := true, len := 1,
    pktLen := 1, edge := 1 + r.val }

/-- The partition under which the relay's credits return: that of its teacher. -/
def Relay.creditPart (y : Relay) : PartId := (y.teacher.map (·.1)).getD 0

/-- The oldest transfer has left the relay, and its slot credit is on its way back. -/
def State.relayTook (s : State) (r : RelayId) (x : RelayXfer) (rest : List RelayXfer) : State :=
  (s.setRelay r.val { s.relay r.val with held := rest }).gatePush x.gate.val (relaySide r.val) 5
    [x.credit r (s.relay r.val).creditPart]

theorem relayForward_eq (h : RelayHolds s r x rest p k plan) : exec (.relayForward r) s = done (
    if (s.relay r.val).discards then (s.relayTook r x rest).bump 0x7430 (0x11 + r.val) 0 1
    else match (s.relayTook r x rest).takeSlot x.dest (s.relayGate r p plan) true false with
      | none => s
      | some u => (u.gatePush (s.relayGate r p plan) (relaySide r.val) (relayVc plan).val
          (flitsOf (x.flit r p plan (s.relayGate r p plan)) (fun _ => x.poison) x.data)).bump 0x7430 (1 + r.val) 0 1) := by
  obtain ⟨hheld, hstudent, hplan, hclock⟩ := h
  simp only [exec, execRelayForward, hclock, if_true, hheld, hstudent, hplan, State.relayTook]
  rfl

/-- The oldest transfer has left the relay, and one flit, its slot credit, has entered at the gate at which it came in. -/
structure RelayTook (s u : State) (r : RelayId) (x : RelayXfer) (rest : List RelayXfer) : Prop where
  held : (u.relay r.val).held = rest
  credit : ∃ f : Flit, u.gateFlits x.gate.val (relaySide r.val) 5 = s.gateFlits x.gate.val (relaySide r.val) 5 ++ [f]
    ∧ f.vc = 5 ∧ f.ty = .credit ∧ f.dst = x.teacher.val ∧ f.edge = 1 + r.val

theorem relayTook_took : RelayTook s (s.relayTook r x rest) r x rest :=
  ⟨congrArg Relay.held (State.relay_setRelay_same _ _ _), _, gateFlits_gatePush_same _ _ _ _ _, rfl, rfl, rfl, rfl⟩

theorem relayForward_discards (h : RelayHolds s r x rest p k plan) (hdiscards : (s.relay r.val).discards = true) :
    Gives (.relayForward r) s (fun u => RelayTook s u r x rest ∧ u.tiles = s.tiles
      ∧ u.count 0x7430 (0x11 + r.val) 0 = s.count 0x7430 (0x11 + r.val) 0 + 1) := by
  have hexec := (relayForward_eq h).trans (congrArg done (if_pos hdiscards))
  obtain ⟨hheld, hcredit⟩ := relayTook_took (s := s) (r := r) (x := x) (rest := rest)
  exact ⟨_, hexec, ⟨hheld, hcredit⟩, rfl, State.count_bump_same _ _ _ _ _⟩

theorem relayForward_waits (hb : s.bounded) (h : RelayHolds s r x rest p k plan)
    (hdiscards : (s.relay r.val).discards = false)
    (htaken : ((s.tile (x.tile % 6912)).slot (x.buf % 16) (x.slot % 64)).st ≠ .avail) :
    exec (.relayForward r) s = .next s := by
  have hnone : (s.relayTook r x rest).takeSlot x.dest (s.relayGate r p plan) true false = none := if_neg htaken
  rw [relayForward_eq h, hdiscards, hnone]
  exact done_bounded hb

/-- The transfer has entered at the relay's gate, and the receiver's slot is held for it. -/
structure RelayForwarded (s u : State) (r : RelayId) (x : RelayXfer) (p : PartId) (plan : RelayPlan) : Prop where
  taken : ((u.tile (x.tile % 6912)).slot (x.buf % 16) (x.slot % 64)).st = .taken
  holder : ((u.tile (x.tile % 6912)).slot (x.buf % 16) (x.slot % 64)).holder = some (s.relayGate r p plan)
  entered : u.gateFlits (s.relayGate r p plan) (relaySide r.val) (relayVc plan).val
    = s.gateFlits (s.relayGate r p plan) (relaySide r.val) (relayVc plan).val
      ++ flitsOf (x.flit r p plan (s.relayGate r p plan)) (fun _ => x.poison) x.data

theorem relayForward_forwards (h : RelayHolds s r x rest p k plan) (hdiscards : (s.relay r.val).discards = false)
    (havail : ((s.tile (x.tile % 6912)).slot (x.buf % 16) (x.slot % 64)).st = .avail) :
    Gives (.relayForward r) s (fun u => RelayTook s u r x rest ∧ RelayForwarded s u r x p plan
      ∧ u.count 0x7430 (1 + r.val) 0 = s.count 0x7430 (1 + r.val) 0 + 1) := by
  obtain ⟨hvc, hfive⟩ := relayVc_ne plan
  generalize hv : (s.relayTook r x rest).modTile (x.tile % 6912) (fun y => y.setSlot (x.buf % 16) (x.slot % 64)
    { st := .taken, ctr := x.ctr, holder := some (s.relayGate r p plan), beyond := true, vc2 := false }) = v
  have hsome : (s.relayTook r x rest).takeSlot x.dest (s.relayGate r p plan) true false = some v := by
    rw [← hv]
    exact if_pos havail
  generalize hw : (v.gatePush (s.relayGate r p plan) (relaySide r.val) (relayVc plan).val
    (flitsOf (x.flit r p plan (s.relayGate r p plan)) (fun _ => x.poison) x.data)).bump 0x7430 (1 + r.val) 0 1 = w
  have hexec : exec (.relayForward r) s = done w := by
    rw [relayForward_eq h, hdiscards, hsome, ← hw]
    rfl
  have hslot : (w.tile (x.tile % 6912)).slot (x.buf % 16) (x.slot % 64)
      = { st := .taken, ctr := x.ctr, holder := some (s.relayGate r p plan), beyond := true, vc2 := false } := by
    rw [← hw, ← hv, State.tile_bump, State.gatePush, State.modRouter_eq, State.tile_setRouter, State.modTile_eq,
      State.tile_setTile_same]
    exact mget_mset_same _ _ _ _
  have hrelay : w.relay r.val = (s.relayTook r x rest).relay r.val := by
    rw [← hw, ← hv, State.relay_bump, State.gatePush, State.modRouter_eq, State.relay_setRouter, State.modTile_eq,
      State.relay_setTile]
  have hflits (j vc : Nat) : v.gateFlits j (relaySide r.val) vc = (s.relayTook r x rest).gateFlits j (relaySide r.val) vc := by
    rw [← hv]
    rfl
  have hcount : w.count 0x7430 (1 + r.val) 0 = s.count 0x7430 (1 + r.val) 0 + 1 := by
    rw [← hw, ← hv]
    exact State.count_bump_same _ _ _ _ _
  obtain ⟨hheld, f, hentered, hf⟩ := relayTook_took (s := s) (r := r) (x := x) (rest := rest)
  have hcredit : w.gateFlits x.gate.val (relaySide r.val) 5 = s.gateFlits x.gate.val (relaySide r.val) 5 ++ [f] := by
    rw [← hw]
    exact (gateFlits_gatePush_ne v _ (bufKey_ne_of_vc (by decide) hvc hfive.symm)).trans ((hflits _ _).trans hentered)
  have hforwarded : RelayForwarded s w r x p plan := by
    refine ⟨congrArg Slot.st hslot, congrArg Slot.holder hslot, ?_⟩
    rw [← hw]
    refine (gateFlits_gatePush_same v _ _ _ _).trans (congrArg (· ++ _) ((hflits _ _).trans ?_))
    exact gateFlits_gatePush_ne _ _ (bufKey_ne_of_vc hvc (by decide) hfive)
  exact ⟨w.trimmed, hexec, ⟨(congrArg Relay.held hrelay).trans hheld, f, hcredit, hf⟩, ⟨hforwarded.1, hforwarded.2, hforwarded.3⟩,
    hcount⟩

theorem RelayTook.enters {u : State} (h : RelayTook s u r x rest) : ∃ f : Flit,
    (u.gateFlits x.gate.val (relaySide r.val) 5).drop (s.gateFlits x.gate.val (relaySide r.val) 5).length = [f]
      ∧ f.vc = 5 ∧ f.ty = .credit ∧ f.dst = x.teacher.val ∧ f.edge = 1 + r.val := by
  obtain ⟨f, hentered, hf⟩ := h.credit
  exact ⟨f, by rw [hentered, List.drop_left], hf⟩

/-- What enters at the gate is the transfer's data, under its route and poison. -/
theorem RelayForwarded.enters {u : State} (h : RelayForwarded s u r x p plan) :
    ((u.gateFlits (s.relayGate r p plan) (relaySide r.val) (relayVc plan).val).drop
      (s.gateFlits (s.relayGate r p plan) (relaySide r.val) (relayVc plan).val).length).flatMap (·.data) = x.data
    ∧ ∀ f ∈ (u.gateFlits (s.relayGate r p plan) (relaySide r.val) (relayVc plan).val).drop
        (s.gateFlits (s.relayGate r p plan) (relaySide r.val) (relayVc plan).val).length,
      f.part = p ∧ f.route = plan.route.val ∧ f.dst = x.tile % 6912 ∧ f.poison = x.poison := by
  rw [h.entered, List.drop_left]
  refine ⟨flitsOf_data _ _ _, fun f hf => ?_⟩
  obtain ⟨-, hpart, hroute, hdst, -, i, hpoison⟩ := flitsOf_mem hf
  exact ⟨hpart, hroute, hdst, hpoison.trans (Bool.or_self _)⟩

end

/-- Settles O33: the credit and the transfer go on different VCs, so that neither is counted with the other at the gate. -/
theorem relaysForwardInOrder : Obligations.RelaysForwardInOrder := by
  intro s r x rest p k plan hb y side vc g slot enters credit hheld hstudent hplan hclock
  have hholds : RelayHolds s r x rest p k plan := ⟨hheld, hstudent, hplan, hclock⟩
  have hvc : (relayVc plan).val = vc := apply_ite Fin.val _ _ _
  have hg : s.relayGate r p plan = g := congrArg (s.sideGate side p.val plan.route.val) hvc
  refine ⟨fun hdiscards => ⟨fun havail => ?_, relayForward_waits hb hholds hdiscards⟩, fun hdiscards => ?_⟩
  · obtain ⟨u, hexec, htook, hforwarded, hcount⟩ := relayForward_forwards hholds hdiscards havail
    obtain ⟨hdata, hmem⟩ := hforwarded.enters
    obtain ⟨htaken, hholder, -⟩ := hforwarded
    rw [hg, hvc] at hdata hmem
    rw [hg] at hholder
    exact ⟨u, hexec, htook.held, htook.enters, htaken, hholder, hdata, hmem, hcount⟩
  · obtain ⟨u, hexec, htook, htiles, hcount⟩ := relayForward_discards hholds hdiscards
    exact ⟨u, hexec, htook.held, htook.enters, htiles, hcount⟩

end Sys2Proof.Machine
end

section
/-! SUPPORT. Packets that are taken from a link; reads of a stack at its controller, their gate, and the root of their tree
(O30). -/
namespace Sys2Proof.Machine

/-! Packets taken from a link (R294, R308, R312). -/

/-- A packet taken changes what its sub-port has received, and nothing else. -/
theorem takeRx_frame (s : State) (p b ch n : Nat) : (s.takeRx p b ch n).1 = { s with subs := (s.takeRx p b ch n).1.subs } := rfl

theorem takeTail_frame (s : State) (p b : Nat) : (s.takeTail p b).1 = { s with subs := (s.takeTail p b).1.subs } := rfl

/-- Whether a packet is turned away does not depend on the sub-ports. -/
theorem turnAway_open {s : State} {port : PortId} {sub : SubId} {w : Way} (h : s.wayOpen (port, sub) w = true)
    (m : Map SubPort) (vc : Fin 6) (ty : BitVec 4) (job : Nat) :
    ({ s with subs := m } : State).turnAway port.val sub.val vc ty job w = none := by
  simp only [State.wayOpen, Bool.and_eq_true, bne_iff_ne, decide_eq_true_eq] at h
  obtain ⟨hhost, hnear⟩ := h
  have hsame : ({ s with subs := m } : State).hostSub = s.hostSub := rfl
  unfold State.turnAway
  simp only [hsame, if_neg hhost, if_neg (Nat.not_le.2 hnear)]

/-! Accesses to a stack whose controller has no requests (R174, R184). -/

theorem segsBusy_idle {s : State} {e : Nat} (h : (s.engine e).reqs = []) (segs : List (Nat × Nat)) :
    s.segsBusy e segs = segs.any (fun g => s.chanBusy e g.1 g.2) := by
  simp [State.segsBusy, State.rangeBusy, h]

/-- Whether a channel is busy depends on the channels' passes alone. -/
theorem chanBusy_congr {s u : State} {e : Nat} (h : (u.engine e).retrain = (s.engine e).retrain) (a n : Nat) :
    u.chanBusy e a n = s.chanBusy e a n := by
  simp only [State.chanBusy, h]

theorem sourceCredit_congr {s u : State} (h : u.routers = s.routers) (p route n t : Nat) :
    u.sourceCredit p route n t = s.sourceCredit p route n t := by
  have hrouter (j : Nat) : u.router j = s.router j := by rw [State.router, h, State.router]
  induction n generalizing t with
  | zero => rfl
  | succ n ih =>
    unfold State.sourceCredit
    simp only [hrouter, ih]

/-! Reads at the controller (R195, R196). -/

section
variable {s : State} {t : TileId} {h : HeldRead} {x : Engine}

/-- The only engine in use is that of the read's stack, which is up; its controller has the read and nothing else, and no word
of the stack has changed symbols. -/
structure ReadAsked (s : State) (h : HeldRead) (x : Engine) : Prop where
  engines : s.engines = [(h.src.first, x)]
  reads : x.reads = [h]
  held : x.heldReads = []
  reqs : x.reqs = []
  up : s.stackUp h.src.first = true
  low : h.src.first < 32
  clean : (s.mem (.stack (Fin.ofNat 32 h.src.first))).errs = []

theorem ReadAsked.engine (ha : ReadAsked s h x) : s.engine h.src.first = x := by
  simp [State.engine, ha.engines, mget, mfind]

theorem ReadAsked.stack (ha : ReadAsked s h x) : (Fin.ofNat 32 h.src.first).val = h.src.first := Nat.mod_eq_of_lt ha.low

theorem stackMcastRead_eq (ha : ReadAsked s h x) :
    exec (.stackMcastRead h.tile h.id) s = done (if s.readBusy h then s else s.gateRead h) := by
  have hfound : s.engines.findSome? (fun e => e.2.reads.find? (fun k => k.tile = h.tile && k.id = h.id)) = some h := by
    simp [ha.engines, ha.reads]
  simp only [exec, execStackMcastRead, hfound, ha.up, Bool.true_and]
  cases s.readBusy h <;> rfl

/-- The read has left the controller. -/
def State.readTaken (s : State) (h : HeldRead) (x : Engine) : State :=
  s.setEngine h.src.first { x with reads := [], heldReads := [] }

theorem readTaken_eq (ha : ReadAsked s h x) : (s.catchUp (Fin.ofNat 32 h.src.first)).dropRead h.src.first h = s.readTaken h x := by
  rw [catchUp_idle (by rw [ha.stack, ha.engine, ha.reqs]), State.dropRead, State.modEngine_eq, ha.engine, ha.reads, ha.held,
    State.readTaken]
  simp

theorem readBusy_taken (ha : ReadAsked s h x) : (s.readTaken h x).readBusy h = s.readBusy h := by
  have hengine : (s.readTaken h x).engine h.src.first = { x with reads := [], heldReads := [] } := State.engine_setEngine_same _ _ _
  have hblocks : (s.readTaken h x).readBlocks h = s.readBlocks h := rfl
  have hchan (a n : Nat) : (s.readTaken h x).chanBusy h.src.first a n = s.chanBusy h.src.first a n :=
    chanBusy_congr (by rw [hengine, ha.engine]) a n
  rw [State.readBusy, State.readBusy, segsBusy_idle (by rw [hengine]; exact ha.reqs),
    segsBusy_idle (by rw [ha.engine]; exact ha.reqs), hblocks]
  simp only [hchan]

/-- A read that does not wait for a channel, and covers a block that has not settled, is held at the gate (R196). -/
theorem gateRead_holds (ha : ReadAsked s h x) (hfree : s.readBusy h = false)
    (hearly : ∃ c ∈ s.readBlocks h, s.stampGap h c < 0) :
    s.gateRead h = s.setEngine h.src.first { x with reads := [], heldReads := [h] } := by
  have hclean : ((s.readTaken h x).mem (.stack (Fin.ofNat 32 h.src.first))).errs = [] := ha.clean
  have hgap (c : WcArea × Nat) : (s.readTaken h x).stampGap h c = s.stampGap h c := rfl
  have hany : (s.readBlocks h).any (fun c => s.stampGap h c < 0) = true := by simpa using hearly
  have hset (y z : Engine) : (s.setEngine h.src.first y).setEngine h.src.first z = s.setEngine h.src.first z := by
    simp only [State.setEngine, mset_mset]
  unfold State.gateRead
  simp only [readTaken_eq ha, readBusy_taken ha, hfree, Bool.false_eq_true, if_false, State.touchSegs_clean hclean, hgap, hany,
    if_true]
  rw [State.modEngine_eq, State.readTaken, State.engine_setEngine_same, hset]
  rfl

/-- One whose blocks have all settled for the step before is served (R195). -/
theorem gateRead_serves {v : State} (ha : ReadAsked s h x) (hfree : s.readBusy h = false)
    (hsettled : ∀ c ∈ s.readBlocks h, s.stampGap h c = 0) (hserved : (s.readTaken h x).serveRead h false = some v) :
    s.gateRead h = v := by
  have hclean : ((s.readTaken h x).mem (.stack (Fin.ofNat 32 h.src.first))).errs = [] := ha.clean
  have hgap (c : WcArea × Nat) : (s.readTaken h x).stampGap h c = s.stampGap h c := rfl
  have hnone : (s.readBlocks h).any (fun c => s.stampGap h c < 0) = false := by
    simp only [List.any_eq_false, decide_eq_true_eq]
    exact fun c hc => by rw [hsettled c hc]; exact lt_irrefl 0
  have hlate : (s.readBlocks h).find? (fun c => 0 < s.stampGap h c) = none := by
    simp only [List.find?_eq_none, decide_eq_true_eq]
    exact fun c hc => by rw [hsettled c hc]; exact lt_irrefl 0
  have hmarked : (s.readBlocks h).any (fun c => (s.readTaken h x).anyMarked (.stack (Fin.ofNat 32 h.src.first))
      (stampAt c.1 c.2) 4) = false := by
    simp only [List.any_eq_false, State.anyMarked_clean hclean, Bool.false_eq_true, not_false_eq_true, implies_true]
  unfold State.gateRead
  simp only [readTaken_eq ha, readBusy_taken ha, hfree, Bool.false_eq_true, if_false, State.touchSegs_clean hclean, hgap, hnone,
    hlate, hmarked, hserved, Option.getD_some]

theorem stackMcastRead_waits (hb : s.bounded) (ha : ReadAsked s h x) (hbusy : s.readBusy h = true) :
    exec (.stackMcastRead h.tile h.id) s = .next s := by
  rw [stackMcastRead_eq ha, if_pos hbusy, done_bounded hb]

/-- A read that waits behind a block that has not settled is held, and nothing of it has been read (R196). -/
theorem stackMcastRead_holds (ha : ReadAsked s h x) (hfree : s.readBusy h = false)
    (hearly : ∃ c ∈ s.readBlocks h, s.stampGap h c < 0) :
    Gives (.stackMcastRead h.tile h.id) s (fun u => SameMem s u ∧ (u.engine h.src.first).reads = []
      ∧ (u.engine h.src.first).heldReads = [h] ∧ u.tiles = s.tiles) := by
  have hengine : (s.setEngine h.src.first { x with reads := [], heldReads := [h] }).engine h.src.first
      = { x with reads := [], heldReads := [h] } := State.engine_setEngine_same _ _ _
  have hexec : exec (.stackMcastRead h.tile h.id) s = done (s.setEngine h.src.first { x with reads := [], heldReads := [h] }) := by
    rw [stackMcastRead_eq ha, hfree, ← gateRead_holds ha hfree hearly]
    rfl
  exact ⟨_, hexec, sameMem_of_mems rfl, congrArg Engine.reads hengine, congrArg Engine.heldReads hengine, rfl⟩

/-- The flits in which a read of the bytes bs enters the network at a gate. -/
def HeldRead.flits (h : HeldRead) (g : Nat) (bs : List Byte) : List Flit :=
  flitsOf { vc := 2, ty := .data, part := h.part, route := h.route, dst := h.tile.val, src := g, head := true, tail := true,
            dests := h.dests, xid := h.id, edge := 80 + h.src.first } (fun _ => false) bs

/-- The read of a tree without a slot credit at its root: its bytes enter at the gate, and the tile's transfer goes on (R195). -/
theorem serveRead_eq {g : Nat} (hclean : (s.mem (h.src.mem h.tile)).errs = []) (hroot : s.treeGate h.src.first h.part.val h.route 2 = some g)
    (hfork : s.sourceCredit h.part.val h.route 6912 g = false) : s.serveRead h false = some
      (((s.gatePush g (engineSide h.src.first) 2 (h.flits g (s.gather (h.src.mem h.tile) h.src.segments))).bump 0x7420 1 h.src.first
        (s.gather (h.src.mem h.tile) h.src.segments).length).modXfer h.tile.val h.id (fun z => { z with phase := .answered })) := by
  have hgood : (fun i : Nat => ((([] : List Bool).drop (i * 128)).take 128).any id) = fun _ => false := by simp
  obtain ⟨tile, id, part, stamp, src, route, dests⟩ := h
  unfold State.serveRead
  cases dests <;> simp only [hroot, hfork, Bool.false_eq_true, if_false, Option.map_some, State.touchSegs_clean hclean,
    gatherBad_clean hclean, hgood] <;> rfl

/-- A read that has been served: its bytes enter on VC2 at the gate, under its route and with its destinations, and the tile's
transfer has been answered. -/
structure ReadServed (s u : State) (h : HeldRead) (q : Nat) (z : Xfer) (g : Nat) : Prop where
  mems : u.mems = s.mems
  held : (u.engine h.src.first).heldReads = []
  reads : (u.engine h.src.first).reads = []
  answered : (u.tile h.tile.val).HoldsOne q { z with phase := .answered }
  count : u.count 0x7420 1 h.src.first = s.count 0x7420 1 h.src.first + (s.gather (h.src.mem h.tile) h.src.segments).length
  entered : u.gateFlits g (engineSide h.src.first) 2
    = s.gateFlits g (engineSide h.src.first) 2 ++ h.flits g (s.gather (h.src.mem h.tile) h.src.segments)

theorem stackMcastRead_serves {q : Nat} {z : Xfer} {g : Nat} (ha : ReadAsked s h x) (hone : (s.tile h.tile.val).HoldsOne q z)
    (hid : h.id = z.id) (hclean : (s.mem (h.src.mem h.tile)).errs = []) (hfree : s.readBusy h = false)
    (hsettled : ∀ c ∈ s.readBlocks h, s.stampGap h c = 0) (hroot : s.treeGate h.src.first h.part.val h.route 2 = some g)
    (hfork : s.sourceCredit h.part.val h.route 6912 g = false) :
    Gives (.stackMcastRead h.tile h.id) s (fun u => ReadServed s u h q z g) := by
  generalize hv : (((s.readTaken h x).gatePush g (engineSide h.src.first) 2
    (h.flits g (s.gather (h.src.mem h.tile) h.src.segments))).bump 0x7420 1 h.src.first
      (s.gather (h.src.mem h.tile) h.src.segments).length) = v
  have hserved : (s.readTaken h x).serveRead h false = some (v.modXfer h.tile.val h.id (fun z => { z with phase := .answered })) := by
    have hrouters : (s.readTaken h x).routers = s.routers := rfl
    rw [← hv]
    refine serveRead_eq (s := s.readTaken h x) hclean hroot ?_
    rw [sourceCredit_congr hrouters, hfork]
  have htile : v.tile h.tile.val = s.tile h.tile.val := by
    rw [← hv, State.tile_bump, State.gatePush, State.modRouter_eq, State.tile_setRouter]
    rfl
  have hengine : v.engine h.src.first = { x with reads := [], heldReads := [] } := by
    rw [← hv, State.engine_bump, State.gatePush, State.modRouter_eq, State.engine_setRouter, State.readTaken,
      State.engine_setEngine_same]
  have hcount : v.count 0x7420 1 h.src.first
      = s.count 0x7420 1 h.src.first + (s.gather (h.src.mem h.tile) h.src.segments).length := by
    rw [← hv]
    exact State.count_bump_same _ _ _ _ _
  have hentered : v.gateFlits g (engineSide h.src.first) 2
      = s.gateFlits g (engineSide h.src.first) 2 ++ h.flits g (s.gather (h.src.mem h.tile) h.src.segments) := by
    rw [← hv]
    exact gateFlits_gatePush_same _ _ _ _ _
  have hmems : v.mems = s.mems := by
    rw [← hv]
    rfl
  have hvone : (v.tile h.tile.val).HoldsOne q z := by
    rw [htile]
    exact hone
  have hanswered : v.modXfer h.tile.val h.id (fun z => { z with phase := .answered })
      = v.setTile h.tile.val { v.tile h.tile.val with queues := [(q, { xfers := [{ z with phase := .answered }] })] } := by
    rw [State.modXfer, hid, hvone.xfer]
    exact congrArg (v.setTile h.tile.val) (hvone.modXfer _)
  have hexec : exec (.stackMcastRead h.tile h.id) s
      = done (v.setTile h.tile.val { v.tile h.tile.val with queues := [(q, { xfers := [{ z with phase := .answered }] })] }) := by
    rw [stackMcastRead_eq ha, hfree, gateRead_serves ha hfree hsettled hserved, hanswered]
    rfl
  refine ⟨_, hexec, hmems, congrArg Engine.heldReads hengine, congrArg Engine.reads hengine, ?_, hcount, hentered⟩
  exact congrArg Tile.queues (State.tile_setTile_same _ _ _)

end

/-! Bytes written in a stack without changed symbols (R194, R198). -/

theorem mem_poke_errs (s : State) (u v : MemUnit) (a : Nat) (bs : List Byte) :
    ((s.poke u a bs).mem v).errs = (s.mem v).errs := by
  rw [State.poke, State.mem_setMem]
  split
  · next h => rw [h]
  · rfl

theorem bytes_poke_same {n : Nat} (s : State) (u : MemUnit) (a : Nat) {bs : List Byte} (hn : bs.length = n) :
    (s.poke u a bs).bytes u a n = bs := by
  subst hn
  refine List.ext_getElem (by simp [State.bytes]) fun i hi _ => ?_
  have hlt : i < bs.length := by simpa [State.bytes] using hi
  simp [State.bytes, State.peek_poke, hlt]

theorem bytes_poke_apart (s : State) (u : MemUnit) {a b n : Nat} {bs : List Byte} (h : b + n ≤ a ∨ a + bs.length ≤ b) :
    (s.poke u a bs).bytes u b n = s.bytes u b n := by
  refine List.map_congr_left fun i hi => ?_
  have hlt : i < n := List.mem_range.1 hi
  rw [State.peek_poke, if_neg (by omega)]

theorem peek_poke_outside (s : State) {u v : MemUnit} {a j : Nat} {bs : List Byte}
    (h : ¬(v = u ∧ a ≤ j ∧ j < a + bs.length)) : (s.poke u a bs).peek v j = s.peek v j := by
  rw [State.peek_poke, if_neg h]

/-! Working copies received (R194, R198). -/

theorem releaseReads_none {s : State} {e : Nat} (h : (s.engine e).heldReads = []) : s.releaseReads e = s := by
  rw [State.releaseReads, h, List.foldl_nil]

theorem sendCopies_leaf {bp : BlockPlan} (h : bp.copyOut = []) (s : State) (p : Nat) (j : JobPlan) (f : CopyFrame) (poison : Bool) :
    s.sendCopies p j bp f poison = s := by
  rw [State.sendCopies, h, List.foldl_nil]

theorem digestGather_undigested {s : State} {p : PartId} {stamp : BitVec 32} (h : (s.part p.val).digested.contains stamp = false)
    (port : Nat) (bp : BlockPlan) (a : WcArea) : s.digestGather port p bp a stamp = s := by
  rw [State.digestGather, h]
  rfl

section
variable {s : State} {a : WcArea} {f : CopyFrame}

/-- The three writes of a working copy in the stack of its area: elements, scales, and then the stamp. -/
def State.copyWritten (s : State) (a : WcArea) (f : CopyFrame) : State :=
  ((s.poke (.stack a.stack) (elemAt a f.block) f.elems).poke (.stack a.stack) (scaleAt a f.block) f.scales).poke (.stack a.stack)
    (stampAt a f.block) (leBytes 4 f.stamp.toNat)

theorem writeGather_clean (hidle : (s.engine a.stack.val).reqs = []) (hclean : (s.mem (.stack a.stack)).errs = [])
    (helems : f.elems.length = a.elemBytes) (hscales : f.scales.length = a.scaleBytes) :
    s.writeGather a f false = (s.copyWritten a f).bump 0x7420 4 a.stack.val 1 := by
  have hfirst : ((s.poke (.stack a.stack) (elemAt a f.block) f.elems).mem (.stack a.stack)).errs = [] := by
    rw [mem_poke_errs, hclean]
  have hsecond : (((s.poke (.stack a.stack) (elemAt a f.block) f.elems).poke (.stack a.stack) (scaleAt a f.block) f.scales).mem
      (.stack a.stack)).errs = [] := by
    rw [mem_poke_errs, hfirst]
  unfold State.writeGather
  simp only [catchUp_idle hidle, ← helems, ← hscales, List.take_length, State.store_clean hclean, State.store_clean hfirst,
    State.store_clean hsecond, Bool.false_eq_true, if_false]
  rfl

/-- What stands in an area once a working copy has been written there, where its parts do not overlap. -/
structure CopyWritten (s u : State) (a : WcArea) (f : CopyFrame) : Prop where
  elems : u.bytes (.stack a.stack) (elemAt a f.block) a.elemBytes = f.elems
  scales : u.bytes (.stack a.stack) (scaleAt a f.block) a.scaleBytes = f.scales
  stamp : u.blockStamp a f.block = f.stamp
  outside : ∀ m i, ¬(m = .stack a.stack ∧ ((elemAt a f.block ≤ i ∧ i < elemAt a f.block + a.elemBytes)
    ∨ (scaleAt a f.block ≤ i ∧ i < scaleAt a f.block + a.scaleBytes) ∨ (stampAt a f.block ≤ i ∧ i < stampAt a f.block + 4))) →
      u.peek m i = s.peek m i

theorem copyWritten_written (helems : f.elems.length = a.elemBytes) (hscales : f.scales.length = a.scaleBytes)
    (hfirst : elemAt a f.block + a.elemBytes ≤ scaleAt a f.block) (hsecond : scaleAt a f.block + a.scaleBytes ≤ stampAt a f.block) :
    CopyWritten s (s.copyWritten a f) a f := by
  have hfour : (leBytes 4 f.stamp.toNat).length = 4 := leBytes_length _ _
  refine ⟨?_, ?_, ?_, fun m i hout => ?_⟩
  · exact (bytes_poke_apart _ _ (.inl (by omega))).trans ((bytes_poke_apart _ _ (.inl hfirst)).trans (bytes_poke_same _ _ _ helems))
  · exact (bytes_poke_apart _ _ (.inl hsecond)).trans (bytes_poke_same _ _ _ hscales)
  · rw [State.blockStamp, State.copyWritten, bytes_poke_same _ _ _ hfour, leVal_leBytes _ _ f.stamp.isLt, BitVec.ofNat_toNat,
      BitVec.setWidth_eq]
  · refine (peek_poke_outside _ fun h => hout ⟨h.1, .inr (.inr ?_)⟩).trans
      ((peek_poke_outside _ fun h => hout ⟨h.1, .inr (.inl ?_)⟩).trans (peek_poke_outside _ fun h => hout ⟨h.1, .inl ?_⟩))
    · rw [← hfour]
      exact h.2
    · rw [← hscales]
      exact h.2
    · rw [← helems]
      exact h.2

end

section
variable {s : State} {port : PortId} {sub : SubId} {p : PartId} {f : CopyFrame} {j : JobPlan} {bp : BlockPlan} {a : WcArea}

/-- A good working copy of a leaf's block comes over the link that the plan names, into an area that can be written; its step is
not digested, and no read is held behind it. -/
structure CopyComes (s : State) (port : PortId) (sub : SubId) (p : PartId) (f : CopyFrame) (j : JobPlan) (bp : BlockPlan)
    (a : WcArea) : Prop where
  job : s.job p.val = some j
  block : planBlock j f.group.val f.block = some bp
  area : planArea j false f.group.val f.block = some a
  here : bp.copyIn = some (port, sub)
  link : s.linkUp port.val sub.val = true
  way : s.wayOpen (port, sub) f.way = true
  free : s.gatherFree a f.block = true
  idle : (s.engine a.stack.val).reqs = []
  good : (s.takeRx port.val sub.val (linkChannel 2 f.layer) ((f.elems.length + f.scales.length + 4095) / 4096)).2 = false
  leaf : bp.copyOut = []
  undigested : (s.part p.val).digested.contains f.stamp = false
  unheld : (s.engine a.stack.val).heldReads = []
  clean : (s.mem (.stack a.stack)).errs = []
  elems : f.elems.length = a.elemBytes
  scales : f.scales.length = a.scaleBytes

theorem allgatherArrival_eq (h : CopyComes s port sub p f j bp a) : exec (.allgatherArrival port sub p f) s
    = done (((s.takeRx port.val sub.val (linkChannel 2 f.layer) ((f.elems.length + f.scales.length + 4095) / 4096)).1.copyWritten a
        f).bump 0x7420 4 a.stack.val 1) := by
  obtain ⟨hjob, hblock, harea, hhere, hlink, hway, hfree, hidle, hgood, hleaf, hundigested, hunheld, hclean, helems, hscales⟩ := h
  generalize hv : (s.takeRx port.val sub.val (linkChannel 2 f.layer) ((f.elems.length + f.scales.length + 4095) / 4096)).1 = v
  have hframe : v = { s with subs := v.subs } := by
    rw [← hv]
    exact takeRx_frame _ _ _ _ _
  have haway : v.turnAway port.val sub.val 2 6 (s.jobOf p.val) f.way = none := by
    rw [hframe]
    exact turnAway_open hway _ _ _ _
  have hwritten := writeGather_clean (s := v) (a := a) (f := { f with way := Way.on f.way }) (by rw [hframe]; exact hidle)
    (by rw [hframe]; exact hclean) helems hscales
  have hpart : (((v.copyWritten a f).bump 0x7420 4 a.stack.val 1).part p.val).digested.contains f.stamp = false := by
    rw [hframe]
    exact hundigested
  have hheld : (((v.copyWritten a f).bump 0x7420 4 a.stack.val 1).engine a.stack.val).heldReads = [] := by
    rw [hframe]
    exact hunheld
  have hsame : v.copyWritten a { f with way := Way.on f.way } = v.copyWritten a f := rfl
  rw [hsame] at hwritten
  simp only [exec, execAllgatherArrival, hjob, hblock, Option.map_some, Option.bind_some, hhere, hlink, hv, hgood, haway, harea,
    hfree, hwritten, sendCopies_leaf hleaf, digestGather_undigested hpart, releaseReads_none hheld]
  simp

theorem allgatherArrival_writes (h : CopyComes s port sub p f j bp a)
    (hfirst : elemAt a f.block + a.elemBytes ≤ scaleAt a f.block) (hsecond : scaleAt a f.block + a.scaleBytes ≤ stampAt a f.block) :
    Gives (.allgatherArrival port sub p f) s (fun u => CopyWritten s u a f
      ∧ u.count 0x7420 4 a.stack.val = s.count 0x7420 4 a.stack.val + 1) := by
  generalize hv : (s.takeRx port.val sub.val (linkChannel 2 f.layer) ((f.elems.length + f.scales.length + 4095) / 4096)).1 = v
  have hexec := allgatherArrival_eq h
  rw [hv] at hexec
  obtain ⟨helems, hscales, hstamp, houtside⟩ := copyWritten_written (s := v) h.elems h.scales hfirst hsecond
  have hpeek (m : MemUnit) (i : Nat) : v.peek m i = s.peek m i := by rw [← hv]; rfl
  have hcount : v.count 0x7420 4 a.stack.val = s.count 0x7420 4 a.stack.val := by rw [← hv]; rfl
  exact ⟨_, hexec, ⟨helems, hscales, hstamp, fun m i hout => (houtside m i hout).trans (hpeek m i)⟩,
    (State.count_bump_same _ _ _ _ _).trans (congrArg (· + 1) hcount)⟩

/-- A working copy over another link than the plan names changes nothing. -/
theorem allgatherArrival_elsewhere (hb : s.bounded) (hjob : s.job p.val = some j)
    (hblock : planBlock j f.group.val f.block = some bp) (hother : bp.copyIn ≠ some (port, sub)) :
    exec (.allgatherArrival port sub p f) s = .next s := by
  have hexec : exec (.allgatherArrival port sub p f) s = done s := by
    simp [exec, execAllgatherArrival, hjob, hblock, hother]
  rw [hexec, done_bounded hb]

/-! Digest records (R248). -/

/-- An owner's record that comes before the copies is kept, and compared with none of them yet. -/
theorem digestRecordReceive_keeps {w : Way} {stamp : BitVec 32} {owner : BitVec 14} {eng : EngineId} {rollup : BitVec 64}
    (hjob : s.job p.val = some j) (hlive : s.isLive p.val = true) (hlink : s.linkUp port.val sub.val = true)
    (hway : s.wayOpen (port, sub) w = true) (hnew : ∀ r ∈ (s.part p.val).rollups, sameRollup r p stamp owner eng = false)
    (hcopies : 0 < gatherCount j owner eng) : Gives (.digestRecordReceive ⟨port, sub, w⟩ p stamp owner eng rollup) s (fun u =>
      SameMem s u ∧ ∃ r ∈ (u.part p.val).rollups, sameRollup r p stamp owner eng = true ∧ r.theirs = some rollup) := by
  generalize hv : (s.takeTail port.val sub.val).1 = v
  have hframe : v = { s with subs := v.subs } := by
    rw [← hv]
    exact takeTail_frame _ _ _
  have haway : v.turnAway port.val sub.val 3 5 (s.jobOf p.val) w = none := by
    rw [hframe]
    exact turnAway_open hway _ _ _ _
  have hpart : v.part p.val = s.part p.val := by rw [hframe]; rfl
  have hany : (s.part p.val).rollups.any (fun r => sameRollup r p stamp owner eng) = false := by simpa using hnew
  have hmine : sameRollup ⟨p, stamp, owner, eng, 0, 0, some rollup⟩ p stamp owner eng = true := by simp [sameRollup]
  generalize hu : v.modPart p.val (fun x => { x with rollups := ⟨p, stamp, owner, eng, 0, 0, some rollup⟩ :: x.rollups }) = u
  rw [State.modPart_eq, hpart] at hu
  have hput : u.part p.val = { s.part p.val with rollups := ⟨p, stamp, owner, eng, 0, 0, some rollup⟩ :: (s.part p.val).rollups } := by
    rw [← hu, State.part_setPart_same]
  have hjobs : u.job p.val = some j := by
    rw [State.job, hput]
    exact hjob
  have hchecked : u.checkRollup port.val p stamp owner eng = u := by
    simp only [State.checkRollup, hjobs, hput, List.find?_cons, hmine, hcopies, if_true]
  have hexec : exec (.digestRecordReceive ⟨port, sub, w⟩ p stamp owner eng rollup) s = done u := by
    simp only [exec, execDigestRecordReceive, hv, haway, hlink, hjob, hlive, State.modPart_eq, hpart, hany, Option.isSome_none,
      Option.isNone_some, Bool.not_true, Bool.or_self, Bool.false_eq_true, if_false]
    rw [hu, hchecked]
  refine ⟨_, hexec, sameMem_of_mems ?_, ⟨p, stamp, owner, eng, 0, 0, some rollup⟩, ?_, hmine, rfl⟩
  · have hmems : u.mems = s.mems := by rw [← hu, hframe]; rfl
    exact hmems
  · have hmem : (⟨p, stamp, owner, eng, 0, 0, some rollup⟩ : Rollup) ∈ (u.part p.val).rollups := by
      rw [hput]
      exact List.mem_cons_self
    exact hmem

end

/-- Settles O30: one lemma for each outcome of a read at the gate, of a working copy that arrives, and of a digest record. -/
theorem millraceHoldsReadsAndWritesCopies : Obligations.MillraceHoldsReadsAndWritesCopies := by
  intro s t q z p src route g dests stamp j port sub f bp a owner eng rollup x w hb hjob
  refine ⟨?_, ?_, fun hblock hother => allgatherArrival_elsewhere hb hjob hblock hother,
    fun hlive hlink hway hnew hcopies => digestRecordReceive_keeps hjob hlive hlink hway hnew hcopies⟩
  · intro h hengines hreads hheld hreqs hqueue hspace hup hclean hlow side
    have hmem : h.src.mem h.tile = .stack (Fin.ofNat 32 h.src.first) := by simp [Desc.mem, h, hspace]
    have ha : ReadAsked s h x := ⟨hengines, hreads, hheld, hreqs, hup, hlow, by rw [← hmem]; exact hclean⟩
    have hblocks : s.readBlocks h = coveredBlocks j src.first src.segments := by rw [State.readBlocks, hjob]
    refine ⟨fun hbusy => stackMcastRead_waits hb ha hbusy, fun hfree hearly => ?_, fun hfree hsettled hroot hfork => ?_⟩
    · obtain ⟨u, hexec, hsame, hnone, hone, htiles⟩ := stackMcastRead_holds ha hfree (by rw [hblocks]; exact hearly)
      exact ⟨u, hexec, hsame, hnone, hone, by rw [State.tile, htiles, State.tile]⟩
    · have hgap (c : WcArea × Nat) (hc : c ∈ s.readBlocks h) : s.stampGap h c = 0 := by
        rw [State.stampGap, hsettled c (by rw [← hblocks]; exact hc)]
        simp [stampDiff, h]
      obtain ⟨u, hexec, hserved⟩ := stackMcastRead_serves (q := q) (z := z) ha hqueue rfl hclean hfree hgap hroot hfork
      refine ⟨u, hexec, sameMem_of_mems hserved.mems, hserved.held, hserved.reads, ?_, hserved.count, _, hserved.entered,
        flitsOf_data _ _ _, fun k hk => ?_⟩
      · rw [hserved.answered.queue]
      · obtain ⟨hvc, hpart, hroute, -, hdests, i, hpoison⟩ := flitsOf_mem hk
        exact ⟨hvc, hroute, hpart, hdests, hpoison⟩
  · intro hblock harea hhere hlink hway hfree hidle hgood hleaf hundigested hunheld hclean helems hscales ea sa ta hapart
    obtain ⟨hfirst, hsecond⟩ := hapart
    obtain ⟨u, hexec, ⟨helemsIn, hscalesIn, hstamp, houtside⟩, hcount⟩ := allgatherArrival_writes
      ⟨hjob, hblock, harea, hhere, hlink, hway, hfree, hidle, hgood, hleaf, hundigested, hunheld, hclean, helems, hscales⟩
      hfirst hsecond
    exact ⟨u, hexec, helemsIn, hscalesIn, hstamp, houtside, hcount⟩

end Sys2Proof.Machine
end

section
/-! SUPPORT. What becomes of the blocks in hand while events are raised, packets go out and partitions stop (O32, O34, O35). -/
namespace Sys2Proof.Machine

/-! What a stop and the recording of events leave as it is. -/

/-- What an engine has of its blocks: all but its reads and requests, and what it remembers of events and digests. -/
def Engine.work (x : Engine) : Engine :=
  { x with reads := [], heldReads := [], reqs := [], commits := [], told := [], full := false, rollups := [], lastE4 := [],
           corrected := [], second := [] }

/-- The reads that an engine still holds once a partition has stopped (R196). -/
def Engine.dropReads (x : Engine) (p : Nat) : Engine := { x with heldReads := x.heldReads.filter (fun h => h.part.val != p) }

/-- What a partition has of its steps: all but what a stop ends. -/
def Part.record (x : Part) : Part := { x with pauses := [], joined := [], cold := none, requests := [] }

/-- From s to u the engines' work, the partitions' records, the counters of blocks and the byte objects have stayed as they are,
and no read has come to a gate without reads. -/
structure WorkKept (s u : State) : Prop where
  engine : ∀ e, (u.engine e).work = (s.engine e).work
  unheld : ∀ e, (s.engine e).heldReads = [] → (u.engine e).heldReads = []
  part : ∀ p, (u.part p).record = (s.part p).record
  count : ∀ k, k / 2 ^ 24 = 0x7440 → mget 0 u.live k = mget 0 s.live k
  blobs : u.blobs = s.blobs

namespace WorkKept
variable {s u v : State}

theorem of_live (hengines : u.engines = s.engines) (hparts : u.parts = s.parts) (hblobs : u.blobs = s.blobs)
    (hcount : ∀ k, k / 2 ^ 24 = 0x7440 → mget 0 u.live k = mget 0 s.live k) : WorkKept s u := by
  have hengine (e : Nat) : u.engine e = s.engine e := by rw [State.engine, hengines, State.engine]
  exact ⟨fun e => by rw [hengine], fun e h => by rw [hengine, h], fun p => by rw [State.part, hparts, State.part], hcount, hblobs⟩

theorem of_same (hengines : u.engines = s.engines) (hparts : u.parts = s.parts) (hblobs : u.blobs = s.blobs)
    (hlive : u.live = s.live) : WorkKept s u :=
  of_live hengines hparts hblobs (fun _ _ => by rw [hlive])

theorem refl (s : State) : WorkKept s s := of_same rfl rfl rfl rfl

theorem trans (h : WorkKept s u) (k : WorkKept u v) : WorkKept s v :=
  ⟨fun e => (k.engine e).trans (h.engine e), fun e he => k.unheld e (h.unheld e he), fun p => (k.part p).trans (h.part p),
    fun i hi => (k.count i hi).trans (h.count i hi), k.blobs.trans h.blobs⟩

theorem foldl {α : Type} {f : State → α → State} (hf : ∀ s a, WorkKept s (f s a)) (l : List α) (s : State) :
    WorkKept s (l.foldl f s) := by
  induction l generalizing s with
  | nil => exact refl s
  | cons a l ih => exact (hf s a).trans (ih _)

/-- The same for a fold that gathers failures. -/
theorem foldlF {α : Type} {f : State × List Failure → α → State × List Failure}
    (hf : ∀ (x : State × List Failure) (a : α), WorkKept x.1 (f x a).1) (l : List α) (x : State × List Failure) :
    WorkKept x.1 (l.foldl f x).1 := by
  induction l generalizing x with
  | nil => exact refl x.1
  | cons a l ih => exact (hf x a).trans (ih _)

theorem setEngine (s : State) (e : Nat) {x : Engine} (hwork : x.work = (s.engine e).work)
    (hheld : (s.engine e).heldReads = [] → x.heldReads = []) : WorkKept s (s.setEngine e x) := by
  refine ⟨fun i => ?_, fun i hi => ?_, fun _ => rfl, fun _ _ => rfl, rfl⟩
  · rw [State.engine_setEngine]
    split
    · next h => rw [hwork, h]
    · rfl
  · rw [State.engine_setEngine]
    split
    · next h => exact hheld (by rw [← h]; exact hi)
    · exact hi

theorem modPart (s : State) (p : Nat) {f : Part → Part} (hf : ∀ x, (f x).record = x.record) : WorkKept s (s.modPart p f) := by
  refine ⟨fun _ => rfl, fun _ h => h, fun i => ?_, fun _ _ => rfl, rfl⟩
  rw [State.modPart_eq, State.part_setPart]
  split
  · next h => rw [hf, h]
  · rfl

theorem bump (s : State) {i b n : Nat} (hi : okey i b n / 2 ^ 24 ≠ 0x7440) (m : Nat) : WorkKept s (s.bump i b n m) := by
  refine of_live rfl rfl rfl fun k hk => ?_
  refine (mget_mset _ _ _ _ _).trans (if_neg fun h => hi ?_)
  rw [← h, hk]

theorem of_ports (h : PortsOnly s u) : WorkKept s u := by
  have hcount (k : Nat) (hk : k / 2 ^ 24 = 0x7440) : mget 0 u.live k = mget 0 s.live k := by
    have hkey : okey 0 0 k = k := by simp [okey]
    have hkept := h.count 0 0 k (by rw [hkey]; omega)
    rwa [State.count, State.count, hkey] at hkept
  exact of_live (by rw [h.frame]) (by rw [h.frame]) (by rw [h.frame]) hcount

/-! Accesses to memory, and events (R176–R180, R417–R419). -/

theorem setMem (s : State) (m : MemUnit) (x : Mem) : WorkKept s (s.setMem m x) := of_same rfl rfl rfl rfl

theorem countMem (s : State) (m : MemUnit) {k : Nat} (hk : k < 4) : WorkKept s (s.countMem m k) := by
  have hkey (i b n : Nat) (hi : i = 0x7400 ∨ i = 0x7410) (hb : b < 256) (hn : n < 6912) : okey i b n / 2 ^ 24 ≠ 0x7440 := by
    simp only [okey]
    omega
  unfold State.countMem
  cases m with
  | sram t => exact bump s (hkey _ _ _ (.inl rfl) (by split <;> omega) t.isLt) 1
  | vault t => exact bump s (hkey _ _ _ (.inl rfl) (by split <;> omega) t.isLt) 1
  | stack e => exact bump s (hkey _ _ _ (.inr rfl) (by omega) (by omega)) 1

theorem noteCorrected (s : State) (m : MemUnit) (a : Nat) : WorkKept s (s.noteCorrected m a).1 := by
  cases m with
  | sram t =>
    unfold State.noteCorrected
    dsimp only
    split <;> exact of_same rfl rfl rfl rfl
  | vault t =>
    unfold State.noteCorrected
    dsimp only
    split <;> exact of_same rfl rfl rfl rfl
  | stack e =>
    obtain ⟨x, hnoted, hx⟩ := noteCorrected_stack s e a
    rw [hnoted, hx]
    exact setEngine s e.val rfl id

theorem readWordEv (s : State) (m : MemUnit) (w reader : Nat) : WorkKept s (s.readWordEv m w reader).1 := by
  unfold State.readWordEv
  dsimp only
  split
  · exact refl s
  · split
    · exact countMem s m (by omega)
    · split
      · exact setMem s m _
      · exact ((setMem s m _).trans (countMem _ m (by omega))).trans (noteCorrected _ m _)
      · exact (setMem s m _).trans (countMem _ m (by omega))

/-- An event leaves an engine's work and its held reads as they are. -/
theorem recording_engine : Recording (fun s u => ∀ e, (u.engine e).work = (s.engine e).work
    ∧ (u.engine e).heldReads = (s.engine e).heldReads) := by
  refine ⟨fun _ _ => ⟨rfl, rfl⟩, fun h k e => ⟨(k e).1.trans (h e).1, (k e).2.trans (h e).2⟩, fun _ _ _ => ⟨rfl, rfl⟩,
    fun _ _ _ => ⟨rfl, rfl⟩, fun s a e => ?_, fun s r e => ?_, fun _ _ _ => ⟨rfl, rfl⟩, fun _ _ _ => ⟨rfl, rfl⟩,
    fun _ _ _ => ⟨rfl, rfl⟩⟩
  · obtain ⟨x, hnoted, hx⟩ := noteCorrected_stack s 0 a
    rw [hnoted, State.engine_setEngine]
    split
    · next he =>
      rw [hx, he]
      exact ⟨rfl, rfl⟩
    · exact ⟨rfl, rfl⟩
  · unfold State.listRecord
    dsimp only
    split <;> exact ⟨rfl, rfl⟩

theorem raise (s : State) (code src : Nat) (stp : BitVec 32) (data : List Byte) : WorkKept s (s.raise code src stp data) := by
  have hengine := recording_engine.raise s code src stp data
  have hrecorded := Recorded.raise s code src stp data
  refine ⟨fun e => (hengine e).1, fun e he => (hengine e).2.trans he, fun p => by rw [hrecorded.part], fun k hk => ?_,
    by rw [hrecorded.frame]⟩
  have hkey : okey 0 0 k = k := by simp [okey]
  have hkept := hrecorded.count 0 0 k (by rw [hkey, hk]; decide)
  rwa [State.count, State.count, hkey] at hkept

theorem raiseAll (x : State × List Ev) : WorkKept x.1 (Machine.raiseAll x) := foldl (fun s _ => raise s _ _ _ _) _ _

theorem store (s : State) (m : MemUnit) (a : Nat) (bs : List Byte) : WorkKept s (s.store m a bs) := by
  have hword (x : State × List Ev) (w : Nat) : WorkKept x.1 (State.storeWordEv m a bs.length x w).1 := by
    unfold State.storeWordEv
    split
    · exact setMem _ _ _
    · exact readWordEv _ m w 9
  have hwords (l : List Nat) (x : State × List Ev) :
      WorkKept x.1 (l.foldl (State.storeWordEv m a bs.length) x).1 := by
    induction l generalizing x with
    | nil => exact refl _
    | cons w l ih => exact (hword x w).trans (ih _)
  have hstored : WorkKept s (s.storeEv m a bs).1 := (hwords _ (s, [])).trans (setMem _ _ _)
  exact hstored.trans (raiseAll _)

theorem touchSegs (s : State) (m : MemUnit) (segs : List (Nat × Nat)) (reader : Nat) : WorkKept s (s.touchSegs m segs reader) :=
  foldl (fun s w => (readWordEv s m w reader).trans (raiseAll _)) _ _

theorem touch (s : State) (m : MemUnit) (a n reader : Nat) : WorkKept s (s.touch m a n reader) := touchSegs s m _ reader

theorem poison (s : State) (m : MemUnit) (a n : Nat) : WorkKept s (s.poison m a n) := by
  unfold State.poison
  split
  · exact refl s
  · exact foldl (fun s _ => setMem s m _) _ _

theorem scatter (m : MemUnit) (segs : List (Nat × Nat)) (bs : List Byte) (bad : List Bool) (s : State) :
    WorkKept s (s.scatter m segs bs bad) := by
  induction segs generalizing s bs bad with
  | nil => exact refl s
  | cons g r ih => exact ((store s m _ _).trans (foldl (fun s _ => poison s m _ 1) _ _)).trans (ih _ _ _)

theorem tracePoint (s : State) (kind src : Nat) (stp : BitVec 32) : WorkKept s (s.tracePoint kind src stp) := by
  unfold State.tracePoint State.tracePointOf
  split
  · unfold State.traceOut
    dsimp only
    split
    · exact of_same rfl rfl rfl rfl
    · split
      · exact of_same rfl rfl rfl rfl
      · exact of_same rfl rfl rfl rfl
  · exact refl s

theorem toPstate (s : State) (p n : Nat) : WorkKept s (s.toPstate p n) :=
  (of_same rfl rfl rfl rfl : WorkKept s (s.setPstate p n)).trans (tracePoint _ _ _ _)

/-! Completions and notices (R385–R388). -/

theorem checkFull (s : State) : WorkKept s s.checkFull := by
  have hfull : WorkKept s { s with ringFull := true } := of_same rfl rfl rfl rfl
  unfold State.checkFull
  split
  · refine (hfull.trans (raise _ _ _ _ _)).trans (foldl (fun w p => ?_) _ _)
    split
    · exact modPart w p fun _ => rfl
    · exact refl w
  · exact refl s

theorem writeCompletion (s : State) (c : Completion) : WorkKept s (s.writeCompletion c) := by
  have hobj (w : State) (n : Nat) : WorkKept w (w.setObj 0x2300 3 0 n) := of_same rfl rfl rfl rfl
  exact (((store s (.stack 0) _ _).trans (hobj _ _)).trans (tracePoint _ _ _ _)).trans (checkFull _)

theorem flushCompletions (n : Nat) (s : State) : WorkKept s (s.flushCompletions n) := by
  induction n generalizing s with
  | zero => exact refl s
  | succ n ih =>
    unfold State.flushCompletions
    split
    · exact refl s
    · next c r hw =>
      split
      · exact refl s
      · have htaken : WorkKept s { s with waiting := r } := of_same rfl rfl rfl rfl
        exact (htaken.trans (writeCompletion _ c)).trans (ih _)

theorem complete (s : State) (c : Completion) : WorkKept s (s.complete c) :=
  have hwaiting (w : List Completion) : WorkKept s { s with waiting := w } := of_same rfl rfl rfl rfl
  (hwaiting _).trans (flushCompletions _ _)

theorem completeTaken (s : State) (c : Taken) (code tile : Nat) : WorkKept s (s.completeTaken c code tile) :=
  (of_same rfl rfl rfl rfl : WorkKept s { s with taken := s.taken.erase c }).trans (complete _ _)

theorem endPausing (s : State) (p : Nat) : WorkKept s (s.endPausing p) := by
  unfold State.endPausing State.endDispatched
  split
  · split
    · exact of_same rfl rfl rfl rfl
    · exact (completeTaken s _ _ _).trans (foldl (fun w c => completeTaken w c 3 0xFFFF) _ _)
  · exact refl s

/-! Answers and stop frames. -/

theorem statusReplyF (s : State) (p : Nat) (r : Request) (status : Nat) : WorkKept s (s.statusReplyF p r status).1 :=
  (of_ports (PortsOnly.sendLocalF s _)).trans (of_ports (PortsOnly.bump _ _ _ _))

theorem answerAllF (s : State) (p status : Nat) : WorkKept s (s.answerAllF p status).1 := by
  have hreplies := foldlF (f := fun (x : State × List Failure) r =>
    let y := x.1.statusReplyF p r status; (y.1, x.2 ++ y.2)) (fun x r => statusReplyF x.1 p r status) (s.part p).requests (s, [])
  refine hreplies.trans ?_
  unfold State.answerAllF
  dsimp only
  have hcleared (w : State) : WorkKept w (w.modPart p (fun x => { x with requests := [] })) := modPart w p fun _ => rfl
  split
  · exact (hcleared _).trans (of_same rfl rfl rfl rfl)
  · exact hcleared _

theorem floodStop (s : State) (w : Way) (job origin cause : Nat) (but : Option (Nat × Nat)) :
    WorkKept s (s.floodStop w job origin cause but) := by
  refine foldl (fun v x => ?_) _ _
  split
  · exact refl v
  · exact of_ports (PortsOnly.sendOn _ _ _ _)

/-! Stops (R131, R274, R317). -/

theorem modTile (s : State) (t : Nat) (f : Tile → Tile) : WorkKept s (s.modTile t f) := of_same rfl rfl rfl rfl

theorem endRun (s : State) (t c : Nat) : WorkKept s (s.endRun t c) := by
  unfold State.endRun
  split
  · exact refl s
  · unfold State.endWrite
    dsimp only
    split
    · exact of_same rfl rfl rfl rfl
    · split
      · exact of_same rfl rfl rfl rfl
      · refine trans ?_ (raise _ _ _ _ _)
        exact of_same rfl rfl rfl rfl

theorem stopTile (s : State) (t : Nat) : WorkKept s (s.stopTile t) := by
  unfold State.stopTile
  refine (foldl (fun w c => ?_) (List.range 8) s).trans (modTile _ _ _)
  dsimp only
  split
  · exact refl w
  · exact (endRun w t c).trans (of_same rfl rfl rfl rfl)

theorem dropHeldReads (s : State) (p : Nat) : WorkKept s (s.dropHeldReads p) := by
  have hengine (e : Nat) : (s.dropHeldReads p).engine e = (s.engine e).dropReads p := by
    have hmap : mfind e (s.dropHeldReads p).engines = (mfind e s.engines).map (fun x => x.dropReads p) :=
      mfind_map (fun _ x => Engine.dropReads x p) s.engines e
    rw [State.engine, mget, hmap, State.engine, mget]
    cases mfind e s.engines <;> rfl
  refine ⟨fun e => by rw [hengine]; rfl, fun e he => ?_, fun _ => rfl, fun _ _ => rfl, rfl⟩
  rw [hengine, Engine.dropReads, he]
  rfl

theorem stopPartF (s : State) (p cause : Nat) (tell : Bool) : WorkKept s (s.stopPartF p cause tell).1 := by
  unfold State.stopPartF
  split
  · exact refl s
  · have hobjs (w : State) : WorkKept w (((w.toPstate p 6).setObj 0x2103 (p + 1) 0 cause).setObj 0x8130 (p + 2) 0 0) :=
      (toPstate w p 6).trans (of_same rfl rfl rfl rfl)
    have hreleased (w : State) : WorkKept w (((w.dropHeldReads p).dropInputs p).releaseRelays p) :=
      (dropHeldReads w p).trans (of_same rfl rfl rfl rfl)
    have hcleared (w : State) : WorkKept w (w.modPart p (fun x => { x with pauses := [], joined := [], cold := none })) :=
      modPart w p fun _ => rfl
    have htold (w : State) (status : Nat) : WorkKept w (if tell then (w.answerAllF p status).1.notice 0x8001 p cause
        else (w.answerAllF p status).1) := by
      split
      · exact (answerAllF w p status).trans (complete _ _)
      · exact answerAllF w p status
    exact (foldl stopTile _ s).trans ((hobjs _).trans ((hreleased _).trans
      ((endPausing _ p).trans ((hcleared _).trans (htold _ _)))))

theorem stopJobF (s : State) (job cause : Nat) : WorkKept s (s.stopJobF job cause).1 := by
  refine foldlF (fun x p => ?_) (List.range 16) (s, [])
  dsimp only
  split
  · exact stopPartF _ _ _ _
  · exact refl _

theorem failAll (n : Nat) (s : State) (fs : List Failure) (told : List Nat) : WorkKept s (s.failAll n fs told) := by
  induction n generalizing s fs told with
  | zero =>
    unfold State.failAll
    exact refl s
  | succ n ih =>
    cases fs with
    | nil =>
      unfold State.failAll
      exact refl s
    | cons f r =>
      obtain ⟨job, port, b, c⟩ := f
      unfold State.failAll
      split
      · exact ih _ _ _
      · have hremember (w : State) (me : BitVec 14) : WorkKept w (w.rememberStop job me) := of_same rfl rfl rfl rfl
        exact (stopJobF s job 5).trans ((raise _ _ _ _ _).trans ((hremember _ _).trans ((floodStop _ _ _ _ _ _).trans
          (ih _ _ _))))

theorem sendLocal (s : State) (k : Pkt) : WorkKept s (s.sendLocal k) :=
  (of_ports (PortsOnly.sendLocalF s k)).trans (failAll _ _ _ _)

theorem linkFailure (s : State) (job p b cause : Nat) : WorkKept s (s.linkFailure job p b cause) := failAll _ _ _ _

theorem sendJob (s : State) (x : PortId × SubId) (ks : List Pkt) : WorkKept s (s.sendJob x ks) := by
  unfold State.sendJob
  split
  · exact refl s
  · split
    · exact foldl (fun s _ => of_ports (PortsOnly.sendOn s _ _ _)) _ _
    · exact linkFailure _ _ _ _ _

end WorkKept

/-! The stop of a job (R274, R317). -/

section
variable {s u : State} {p q cause job : Nat}

/-- From s to u a partition has kept its state and its job. -/
def StandsAs (p : Nat) (s u : State) : Prop := u.pstate p = s.pstate p ∧ u.obj 0x2102 (p + 1) 0 = s.obj 0x2102 (p + 1) 0

theorem StandsAs.of_service (hp : p < 16) (h : ServiceOnly s u) : StandsAs p s u := by
  have hidx : okey 0x2102 (p + 1) 0 / 2 ^ 24 = 0x2102 := by
    simp only [okey]
    omega
  exact ⟨h.pstate hp, h _ _ _ (by rw [hidx]; decide)⟩

theorem StandsAs.stoppedAs (hp : p < 16) (hq : q < 16) (hne : p ≠ q) (s : State) (c : Nat) : StandsAs p s (s.stoppedAs q c) := by
  have hkey (i j : Nat) (hi : i = 0x2101 ∨ i = 0x2102) (hj : j = 0x2101 ∨ j = 0x2103) : okey i (p + 1) 0 ≠ okey j (q + 1) 0 := by
    simp only [okey]
    omega
  obtain ⟨hstate, hjob⟩ := StandsAs.of_service hp (ServiceOnly.tracePoint (s.setPstate q 6) 1 q 0)
  exact ⟨(State.obj_setObj_idx _ (hkey _ _ (.inl rfl) (.inr rfl))).trans (hstate.trans
      (State.obj_setObj_idx _ (hkey _ _ (.inl rfl) (.inl rfl)))),
    (State.obj_setObj_idx _ (hkey _ _ (.inr rfl) (.inr rfl))).trans (hjob.trans
      (State.obj_setObj_idx _ (hkey _ _ (.inr rfl) (.inl rfl))))⟩

/-- The stop of another partition leaves a partition its state and its job. -/
theorem StandsAs.stopPartF (hp : p < 16) (hq : q < 16) (hne : p ≠ q) (s : State) (c : Nat) (tell : Bool) :
    StandsAs p s (s.stopPartF q c tell).1 := by
  cases hlive : s.isLive q with
  | false =>
    rw [stopPartF_dead hlive]
    exact ⟨rfl, rfl⟩
  | true =>
    obtain ⟨v, hbefore, hafter⟩ := stopPartF_live hq hlive c tell
    obtain ⟨hstate, hjob⟩ := StandsAs.of_service hp hbefore
    obtain ⟨kstate, kjob⟩ := StandsAs.stoppedAs hp hq hne v c
    obtain ⟨lstate, ljob⟩ := StandsAs.of_service hp hafter
    exact ⟨lstate.trans (kstate.trans hstate), ljob.trans (kjob.trans hjob)⟩

/-- The turn of one partition in the stop of a job. -/
def stopTurn (job cause : Nat) (x : State × List Failure) (q : Nat) : State × List Failure :=
  if x.1.isLive q && x.1.obj 0x2102 (q + 1) 0 = job then
    let y := x.1.stopPartF q cause true; (y.1, x.2 ++ y.2)
  else x

theorem stopJobF_turns (s : State) (job cause : Nat) :
    s.stopJobF job cause = (List.range 16).foldl (stopTurn job cause) (s, []) := rfl

theorem StoppedBy.stopTurns (hp : p < 16) {l : List Nat} (hl : ∀ q ∈ l, q < 16) {x : State × List Failure} {c : Nat}
    (h : StoppedBy p cause x.1) : StoppedBy p cause (l.foldl (stopTurn job c) x).1 := by
  induction l generalizing x with
  | nil => exact h
  | cons q l ih =>
    refine ih (fun r hr => hl r (List.mem_cons_of_mem _ hr)) ?_
    unfold stopTurn
    split
    · exact h.stopPartF hp (hl q List.mem_cons_self) c true
    · exact h

theorem stopTurns_stop (hp : p < 16) {l : List Nat} (hl : ∀ q ∈ l, q < 16) (hmem : p ∈ l) {x : State × List Failure}
    (hlive : x.1.isLive p = true) (hjob : x.1.obj 0x2102 (p + 1) 0 = job) :
    StoppedBy p cause (l.foldl (stopTurn job cause) x).1 := by
  induction l generalizing x with
  | nil => cases hmem
  | cons q l ih =>
    have hl' : ∀ r ∈ l, r < 16 := fun r hr => hl r (List.mem_cons_of_mem _ hr)
    rw [List.foldl_cons]
    by_cases hpq : p = q
    · subst hpq
      refine StoppedBy.stopTurns hp hl' ?_
      rw [stopTurn, hlive, hjob]
      simpa using stopPartF_stops hp hlive cause true
    · have hstands : StandsAs p x.1 (stopTurn job cause x q).1 := by
        unfold stopTurn
        split
        · exact StandsAs.stopPartF hp (hl q List.mem_cons_self) hpq _ _ _
        · exact ⟨rfl, rfl⟩
      obtain ⟨hstate, hkept⟩ := hstands
      have hmem' : p ∈ l := (List.mem_cons.1 hmem).resolve_left hpq
      refine ih hl' hmem' ?_ (hkept.trans hjob)
      rw [State.isLive, hstate, ← State.isLive, hlive]

/-- The stop of a job stops each live partition of it, by its cause. -/
theorem stopJobF_stops (hp : p < 16) (hlive : s.isLive p = true) (hjob : s.obj 0x2102 (p + 1) 0 = job) (cause : Nat) :
    StoppedBy p cause (s.stopJobF job cause).1 := by
  rw [stopJobF_turns]
  exact stopTurns_stop hp (fun q hq => List.mem_range.1 hq) (List.mem_range.2 hp) hlive hjob

theorem stopJob_stops (hp : p < 16) (hlive : s.isLive p = true) (hjob : s.obj 0x2102 (p + 1) 0 = job) (cause : Nat) :
    StoppedBy p cause (s.stopJob job cause) :=
  (stopJobF_stops hp hlive hjob cause).failAll hp _ _ _

/-- A link failure for a job stops it with cause 5 (R317). -/
theorem failAll_stops (hp : p < 16) (hlive : s.isLive p = true) (hjob : s.obj 0x2102 (p + 1) 0 = job) (n port b cause : Nat) :
    StoppedBy p 5 (s.failAll (n + 1) [(job, port, b, cause)] []) := by
  have hremember (w : State) (me : BitVec 14) : ServiceOnly w (w.rememberStop job me) := ServiceOnly.of_dict rfl
  unfold State.failAll
  refine StoppedBy.failAll hp n ?_ _ _
  exact (((ServiceOnly.raise _ _ _ _ _).trans (hremember _ _)).trans (ServiceOnly.floodStop _ _ _ _ _ _)).stoppedBy hp
    (stopJobF_stops hp hlive hjob 5)

theorem linkFailure_stops (hp : p < 16) (hlive : s.isLive p = true) (hjob : s.obj 0x2102 (p + 1) 0 = job) (port b cause : Nat) :
    StoppedBy p 5 (s.linkFailure job port b cause) := by
  have hone : [(job, port, b, cause)].eraseDups = [(job, port, b, cause)] := by simp [List.eraseDups_cons]
  rw [State.linkFailure, settleFailures, hone]
  exact failAll_stops hp hlive hjob 31 port b cause

end

end Sys2Proof.Machine
end

section
/-! SUPPORT. The step verdict: joined, combined, applied and late (O32). -/
namespace Sys2Proof.Machine

section
variable {s u : State} {p : PartId} {j : JobPlan} {up child : PortId × SubId}

/-! Records that go out on the verdict tree (R210). -/

theorem pump_sentCount (p b n : Nat) (s : State) {i : Nat} (hi : i < 2 ^ 16) :
    (s.pump p b n).count 0x7500 3 i = s.count 0x7500 3 i := by
  induction n generalizing s with
  | zero => rfl
  | succ n ih =>
    unfold State.pump
    dsimp only
    split
    · rfl
    · split
      · refine (ih _).trans ((State.count_bump _ _ _ _ _ _ _ _).trans (if_neg ?_))
        simp only [okey]
        omega
      · rfl

theorem sendOn_sentCount (s : State) (p b : Nat) (k : Pkt) {i : Nat} (hi : i < 2 ^ 16) :
    (s.sendOn p b k).count 0x7500 3 i = s.count 0x7500 3 i := by
  unfold State.sendOn
  split
  · rfl
  · exact pump_sentCount _ _ _ _ hi

/-- A record has gone out on a sub-port of the verdict tree. -/
structure VerdictSent (s u : State) (x : PortId × SubId) : Prop where
  ports : PortsOnly s u
  count : u.count 0x7500 3 x.1.val = s.count 0x7500 3 x.1.val + 1

theorem sendVerdict_sent {x : PortId × SubId} (htakes : (s.sub x.1.val x.2.val).takes = true) (p : Nat) (v : Verdict) (w : Way)
    (layer poison : Bool) : VerdictSent s (s.sendVerdict p x v w layer poison) x := by
  have hlow : x.1.val < 2 ^ 16 := by omega
  unfold State.sendVerdict State.sendJob
  dsimp only
  rw [if_pos htakes]
  refine ⟨(PortsOnly.sendOn _ _ _ _).trans (PortsOnly.bump _ _ _ _), ?_⟩
  rw [State.count_bump_same]
  exact congrArg (· + 1) (sendOn_sentCount _ _ _ _ hlow)

/-! The sum of a node (R210). -/

theorem mapM_none_of_mem {α β : Type} {f : α → Option β} {a : α} {l : List α} (ha : a ∈ l) (hf : f a = none) :
    l.mapM f = none := by
  induction l with
  | nil => cases ha
  | cons b l ih =>
    rw [List.mapM_cons]
    obtain rfl | hmem := List.mem_cons.1 ha
    · rw [hf]
      rfl
    · rw [ih hmem]
      cases f b <;> rfl

/-- A node without its own contribution has no sum yet. -/
theorem verdictStep_waits {p : Nat} {stamp : BitVec 32} (hown : (s.part p).own = []) : s.verdictStep p stamp = s := by
  unfold State.verdictStep
  split
  · rfl
  · next j hj =>
    have hnone : (verdictInputs j).mapM ((s.part p).verdictFrom stamp) = none := by
      refine mapM_none_of_mem (a := none) ?_ ?_
      · simp [verdictInputs]
      · simp [Part.verdictFrom, hown]
    rw [hnone]

/-- A leaf below the root sends its own contribution. -/
theorem verdictStep_leaf {p : Nat} {stamp : BitVec 32} {v : Verdict} (hjob : s.job p = some j) (hdown : j.vDown = [])
    (hup : j.vUp = some up) (hown : (s.part p).verdictFrom stamp none = some v) :
    ∃ layer poison, s.verdictStep p stamp = s.sendVerdict p up v s.ownWay layer poison := by
  have hone : (verdictInputs j).mapM ((s.part p).verdictFrom stamp) = some [v] := by
    simp [verdictInputs, hdown, hown]
  exact ⟨_, _, by
    unfold State.verdictStep
    simp only [hjob, hone, hup, List.foldl_nil]
    rfl⟩

/-! The join (R208). -/

/-- The module joins a verdict with its contribution, and sends it on toward the root. -/
theorem verdictJoin_joins (hjob : s.job p.val = some j) (hmay : s.mayJoin p.val j = true) (hup : j.vUp = some up)
    (hdown : j.vDown = []) (htakes : (s.sub up.1.val up.2.val).takes = true) : Gives (.verdictJoin p) s (fun u =>
      u.part p.val = { s.part p.val with
        joined := (s.part p.val).joined ++ [((s.part p.val).nextJoin, s.tick)], early := 0
        own := (s.part p.val).own ++ [ownVerdict (mget {} (s.part p.val).contribs (s.part p.val).nextJoin.toNat)
          (s.part p.val).nextJoin (s.part p.val).early] }
      ∧ u.count 0x7500 3 up.1.val = s.count 0x7500 3 up.1.val + 1) := by
  generalize hx : s.part p.val = x
  generalize hv : ownVerdict (mget {} x.contribs x.nextJoin.toNat) x.nextJoin x.early = v
  generalize hw : s.setPart p.val { x with own := x.own ++ [v], early := 0, joined := x.joined ++ [(x.nextJoin, s.tick)] } = w
  have hpart : w.part p.val = { x with own := x.own ++ [v], early := 0, joined := x.joined ++ [(x.nextJoin, s.tick)] } := by
    rw [← hw, State.part_setPart_same]
  have hjob' : w.job p.val = some j := by
    rw [State.job, hpart, ← hx]
    exact hjob
  obtain ⟨v', hown⟩ : ∃ v', (w.part p.val).verdictFrom x.nextJoin none = some v' := by
    have hstamp : v.stamp = x.nextJoin := by rw [← hv]; rfl
    rw [hpart]
    exact Option.isSome_iff_exists.1 (List.find?_isSome.2 ⟨v, by simp, by simpa using hstamp⟩)
  obtain ⟨layer, poison, hstep⟩ := verdictStep_leaf hjob' hdown hup hown
  have htakes' : (w.sub up.1.val up.2.val).takes = true := by
    rw [← hw]
    exact htakes
  have hsent := sendVerdict_sent htakes' p.val v' w.ownWay layer poison
  rw [← hstep] at hsent
  have hexec : exec (.verdictJoin p) s = done (w.verdictStep p.val x.nextJoin) := by
    simp only [exec, execVerdictJoin, hjob, hmay, hx, hv, hw, Bool.not_true, Bool.false_eq_true, if_false]
  refine ⟨_, hexec, ?_, ?_⟩
  · have hkept : (w.verdictStep p.val x.nextJoin).part p.val = w.part p.val := by
      rw [hsent.ports.frame]
      rfl
    exact hkept.trans hpart
  · have hcount : w.count 0x7500 3 up.1.val = s.count 0x7500 3 up.1.val := by
      rw [← hw]
      rfl
    exact hsent.count.trans (congrArg (· + 1) hcount)

/-! Records that come by a link (R210, R211). -/

/-- A record of the verdict tree comes over a sub-port that is up, and is taken there. -/
def VerdictComes (s : State) (x : PortId × SubId) (w : Way) : Prop :=
  s.linkUp x.1.val x.2.val = true ∧ s.wayOpen x w = true

theorem VerdictComes.taken {x : PortId × SubId} {w : Way} (h : VerdictComes s x w) (p : Nat) : s.verdictAway p x w = none := by
  rw [State.verdictAway, takeTail_frame]
  exact turnAway_open h.2 _ _ _ _

/-- A record of a child is kept until the module has its own contribution. -/
theorem verdictCombine_keeps {v : Verdict} {w : Way} (hjob : s.job p.val = some j) (hlive : s.isLive p.val = true)
    (hchild : child ∈ j.vDown) (hcomes : VerdictComes s child w) (hnew : 0 < stampDiff v.stamp (s.part p.val).lastStamp)
    (hfirst : (s.part p.val).verdictFrom v.stamp (some child) = none) (hown : (s.part p.val).own = []) :
    Gives (.verdictCombine p child ⟨v, w⟩) s (fun u => u.mems = s.mems ∧ u.part p.val = { s.part p.val with
      inputs := (s.part p.val).inputs ++ [⟨child, v, (s.takeTail child.1.val child.2.val).2.2,
        (s.takeTail child.1.val child.2.val).2.1⟩] }) := by
  generalize hr : s.takeTail child.1.val child.2.val = r
  have hframe : r.1 = { s with subs := r.1.subs } := by
    rw [← hr]
    exact takeTail_frame _ _ _
  have hsame : r.1.part p.val = s.part p.val := by
    rw [hframe]
    rfl
  generalize hu : r.1.modPart p.val (fun x => { x with inputs := x.inputs ++ [⟨child, v, r.2.2, r.2.1⟩] }) = u
  have hpart : u.part p.val = { s.part p.val with inputs := (s.part p.val).inputs ++ [⟨child, v, r.2.2, r.2.1⟩] } := by
    rw [← hu, State.modPart_eq, State.part_setPart_same, hsame]
  have hwaits : u.verdictStep p.val v.stamp = u := verdictStep_waits (by rw [hpart, hown])
  have hlate : ¬ stampDiff v.stamp (s.part p.val).lastStamp ≤ 0 := by omega
  have hexec : exec (.verdictCombine p child ⟨v, w⟩) s = done u := by
    have hmem : j.vDown.contains child = true := List.contains_iff_mem.2 hchild
    simp only [exec, execVerdictCombine, hjob, hmem, hcomes.1, hcomes.taken, hlive, hlate, hfirst, hr, hu, hwaits,
      Option.isSome_none, Bool.not_true, Bool.or_self, Bool.false_eq_true, decide_false, if_false]
  refine ⟨_, hexec, ?_, hpart⟩
  have hmems : u.mems = s.mems := by
    rw [← hu, hframe]
    rfl
  exact hmems

theorem takeTail_takes (s : State) (p b q c : Nat) : ((s.takeTail p b).1.sub q c).takes = (s.sub q c).takes := by
  unfold State.takeTail State.takeVc State.takeRx
  dsimp only
  rw [State.sub_setSub]
  split
  · next h =>
    rw [State.sub, ← h]
    rfl
  · rfl

/-- A final record is applied where it comes: only what the sub-ports have received has changed before. -/
theorem verdictApply_eq {v : Verdict} {w : Way} (hjob : s.job p.val = some j) (hcomes : ∀ y, j.vUp = some y → VerdictComes s y w) :
    ∃ m w' layer poison, exec (.verdictApply p ⟨v, w⟩) s = done (({ s with subs := m } : State).applyVerdict p.val v w' layer poison)
      ∧ ∀ q c, (({ s with subs := m } : State).sub q c).takes = (s.sub q c).takes := by
  cases hup : j.vUp with
  | none =>
    refine ⟨s.subs, s.ownWay, false, false, ?_, fun _ _ => rfl⟩
    simp only [exec, execVerdictApply, hjob, hup, Option.bind_some]
  | some y =>
    have hy := hcomes y hup
    refine ⟨(s.takeTail y.1.val y.2.val).1.subs, Way.on w, (s.takeTail y.1.val y.2.val).2.2,
      (s.takeTail y.1.val y.2.val).2.1, ?_, fun q c => ?_⟩
    · simp only [exec, execVerdictApply, hjob, hup, Option.bind_some, hy.1, hy.taken, Option.isSome_none, Bool.not_true,
        Bool.false_eq_true, if_false]
      rw [takeTail_frame]
    · rw [← takeTail_takes s y.1.val y.2.val q c]
      rfl

/-! A final record applied (R211). -/

/-- From s to u the objects of an index hold what they held. -/
def IndexKept (i : Nat) (s u : State) : Prop := ∀ b < 256, u.obj i b 0 = s.obj i b 0

theorem IndexKept.of_dict {i : Nat} (h : u.dict = s.dict) : IndexKept i s u := fun _ _ => by simp only [State.obj, h]

theorem IndexKept.trans {i : Nat} {v : State} (h : IndexKept i s u) (k : IndexKept i u v) : IndexKept i s v :=
  fun b hb => (k b hb).trans (h b hb)

theorem IndexKept.setObj {i k c : Nat} (s : State) (hne : i ≠ k) (hc : c < 256) (v : Nat) : IndexKept i s (s.setObj k c 0 v) := by
  refine fun b hb => State.obj_setObj_idx s ?_
  simp only [okey]
  omega

theorem IndexKept.of_service {i : Nat} (h : ServiceOnly s u) (hi : i ∉ serviceIndexes) : IndexKept i s u := by
  refine fun b hb => h i b 0 ?_
  have hidx : okey i b 0 / 2 ^ 24 = i := by
    simp only [okey]
    omega
  rwa [hidx]

/-- What the use of a record has written: the partition's record, and the objects that show it. -/
structure VerdictUsed (p : PartId) (v : Verdict) (own : List Verdict) (u : State) : Prop where
  stamp : (u.part p.val).lastStamp = v.stamp
  flags : (u.part p.val).lastFlags = v.flags
  own : (u.part p.val).own = own
  shown : u.obj 0x8600 (p.val + 1) 0 = v.stamp.toNat
  bytes : u.blob 0x8620 (p.val + 1) 0 = Verdict.bytes v

/-- What follows on the use of a record keeps it. -/
theorem VerdictUsed.kept {v : Verdict} {own : List Verdict} (h : VerdictUsed p v own s) (hwork : WorkKept s u)
    (hshown : IndexKept 0x8600 s u) : VerdictUsed p v own u := by
  have hpart := hwork.part p.val
  obtain ⟨hstamp, hflags, hown, hobj, hbytes⟩ := h
  exact ⟨(congrArg Part.lastStamp hpart).trans hstamp, (congrArg Part.lastFlags hpart).trans hflags,
    (congrArg Part.own hpart).trans hown, (hshown _ (by omega)).trans hobj, by rw [State.blob, hwork.blobs]; exact hbytes⟩

/-- Events and objects of another index: no more happens in what follows on the use of a record, but for the digested steps. -/
structure Follows (is : List Nat) (s u : State) : Prop where
  work : WorkKept s u
  objs : ∀ i ∈ is, IndexKept i s u

namespace Follows
variable {is : List Nat} {v : State}

theorem refl (s : State) : Follows is s s := ⟨WorkKept.refl s, fun _ _ => IndexKept.of_dict rfl⟩

theorem trans (h : Follows is s u) (k : Follows is u v) : Follows is s v :=
  ⟨h.work.trans k.work, fun i hi => (h.objs i hi).trans (k.objs i hi)⟩

theorem foldl {α : Type} {f : State → α → State} (hf : ∀ s a, Follows is s (f s a)) (l : List α) (s : State) :
    Follows is s (l.foldl f s) := by
  induction l generalizing s with
  | nil => exact refl s
  | cons a l ih => exact (hf s a).trans (ih _)

theorem setObj (s : State) {k c : Nat} (hk : k ∉ is) (hc : c < 256) (n : Nat) : Follows is s (s.setObj k c 0 n) :=
  ⟨WorkKept.of_same rfl rfl rfl rfl, fun i hi => IndexKept.setObj s (fun h => hk (by rwa [← h])) hc n⟩

theorem raise (s : State) (his : ∀ i ∈ is, i ∉ serviceIndexes) (code src : Nat) (stp : BitVec 32) (data : List Byte) :
    Follows is s (s.raise code src stp data) :=
  ⟨WorkKept.raise s code src stp data, fun i hi => IndexKept.of_service (ServiceOnly.raise s code src stp data) (his i hi)⟩

theorem notice (s : State) (his : ∀ i ∈ is, i ∉ serviceIndexes) (op q detail : Nat) : Follows is s (s.notice op q detail) :=
  ⟨WorkKept.complete s _, fun i hi => IndexKept.of_service (ServiceOnly.complete s _) (his i hi)⟩

theorem meanUpdate (s : State) (his : 0x8410 ∉ is) {g : Nat} (hg : g < 12) (v : Verdict) : Follows is s (s.meanUpdate g v) := by
  unfold State.meanUpdate
  dsimp only
  split
  · exact refl s
  · exact (setObj _ his (by omega) _).trans (setObj _ his (by omega) _)

theorem silenceUpdate (s : State) (his : 0x8210 ∉ is) (hservice : ∀ i ∈ is, i ∉ serviceIndexes) {g : Nat} (hg : g < 12)
    (v : Verdict) : Follows is s (s.silenceUpdate g v) := by
  unfold State.silenceUpdate
  dsimp only
  split
  · exact refl s
  · split
    · split
      · exact (setObj _ his (by omega) _).trans (raise _ hservice _ _ _ _)
      · exact setObj _ his (by omega) _
    · exact setObj _ his (by omega) _

theorem scaleUpdate (s : State) (v : Verdict) : Follows [0x8600] s (s.scaleUpdate v) := by
  have hservice : ∀ i ∈ [0x8600], i ∉ serviceIndexes := by decide
  have hput (w : State) (a b : Nat) : Follows [0x8600] w ((w.setObj 0x8100 1 0 a).setObj 0x8100 4 0 b) :=
    (setObj w (by decide) (by decide) a).trans (setObj _ (by decide) (by decide) b)
  have htold (w : State) (a b : Nat) (data : List Byte) :
      Follows [0x8600] w (((w.setObj 0x8100 1 0 a).setObj 0x8100 4 0 b).raise 0x5050 srcModule v.stamp data) :=
    (hput w a b).trans (raise _ hservice _ _ _ _)
  have hleft (w : State) (n : Nat) : Follows [0x8600] w (if n = 0 then w else w.setObj 0x8100 5 0 (n - 1)) := by
    split
    · exact refl w
    · exact setObj w (by decide) (by decide) _
  unfold State.scaleUpdate
  dsimp only
  refine (hleft s (s.obj 0x8100 5 0)).trans ?_
  generalize (if s.obj 0x8100 5 0 = 0 then s else s.setObj 0x8100 5 0 (s.obj 0x8100 5 0 - 1)) = w
  generalize (if s.obj 0x8100 5 0 = 0 then s.obj 0x8100 2 0 else s.obj 0x8100 6 0) = n
  split
  · split
    · exact htold _ _ _ _
    · exact htold _ _ _ _
  · split
    · exact hput _ _ _
    · split
      · exact htold _ _ _ _
      · exact hput _ _ _

end Follows

/-- A poisoned step lowers the loss scale, and begins the count of clean steps again (R254, R255). -/
theorem scaleUpdate_lowers {v : Verdict} (hpoison : v.flags.getLsbD 0 = true) (hk : 0 < s.obj 0x8100 1 0) :
    (s.scaleUpdate v).obj 0x8100 1 0 = s.obj 0x8100 1 0 - 1 ∧ (s.scaleUpdate v).obj 0x8100 4 0 = 0 := by
  have hservice : (0x8100 : Nat) ∉ serviceIndexes := by decide
  have hne : s.obj 0x8100 1 0 ≠ 0 := by omega
  unfold State.scaleUpdate
  simp only [hpoison, if_true, hne, if_false]
  generalize (if s.obj 0x8100 5 0 = 0 then s else s.setObj 0x8100 5 0 (s.obj 0x8100 5 0 - 1)) = w
  have hraised (u : State) (data : List Byte) : IndexKept 0x8100 u (u.raise 0x5050 srcModule v.stamp data) :=
    IndexKept.of_service (ServiceOnly.raise _ _ _ _ _) hservice
  refine ⟨(hraised _ _ 1 (by decide)).trans ?_, (hraised _ _ 4 (by decide)).trans (State.obj_setObj_same _ _ _ _ _)⟩
  exact (State.obj_setObj_idx _ (by decide)).trans (State.obj_setObj_same _ _ _ _ _)

/-- The digested steps alone change where the next step is one of them (R247). -/
theorem noteDigested_follows (s : State) (p : PartId) (stamp : BitVec 32) {v : Verdict} {own : List Verdict}
    (h : VerdictUsed p v own s) : VerdictUsed p v own (s.noteDigested p.val stamp) := by
  unfold State.noteDigested
  dsimp only
  split
  · exact h
  · obtain ⟨hstamp, hflags, hown, hshown, hbytes⟩ := h
    have hpart (f : Part → Part) : (s.modPart p.val f).part p.val = f (s.part p.val) := by
      rw [State.modPart_eq, State.part_setPart_same]
    exact ⟨by rw [hpart]; exact hstamp, by rw [hpart]; exact hflags, by rw [hpart]; exact hown, hshown, hbytes⟩

/-- A record with the job's module count is used: it is the partition's last, it is shown, and the loss scale of the
loss-scaled job follows it. -/
theorem useVerdict_uses {v : Verdict} (hcount : v.modules.toNat = j.modules) :
    VerdictUsed p v ((s.part p.val).own.filter (fun w => decide (0 < stampDiff w.stamp v.stamp))) (s.useVerdict p.val j v)
      ∧ (s.obj 0x8100 8 0 = p.val → v.flags.getLsbD 0 = true → 0 < s.obj 0x8100 1 0 →
        (s.useVerdict p.val j v).obj 0x8100 1 0 = s.obj 0x8100 1 0 - 1 ∧ (s.useVerdict p.val j v).obj 0x8100 4 0 = 0) := by
  have hservice : ∀ i ∈ [0x8600], i ∉ serviceIndexes := by decide
  have hboth : ∀ i ∈ [0x8600, 0x8100], i ∉ serviceIndexes := by decide
  unfold State.useVerdict
  extract_lets x s1 s2 s3 s4 s5 s6 s7
  rw [if_neg (by simpa using hcount)]
  have hfirst : Follows [0x8600, 0x8100] s s1 ∧ s1.parts = s.parts := by
    unfold s1
    split
    · exact ⟨Follows.raise s hboth _ _ _ _, by rw [(Recorded.raise s _ _ _ _).frame]⟩
    · exact ⟨Follows.refl s, rfl⟩
  have hscale : IndexKept 0x8100 s s3 :=
    (hfirst.1.objs _ (by decide)).trans (IndexKept.setObj (s1.setBlob 0x8620 (p.val + 1) 0 (Verdict.bytes v)) (by decide) (by omega) _)
  have hentered : VerdictUsed p v ((s.part p.val).own.filter (fun w => decide (0 < stampDiff w.stamp v.stamp))) s3 := by
    have hpart : s3.part p.val = _ := State.part_setPart_same _ _ _
    have hbefore : s2.part p.val = s.part p.val := by
      rw [State.part, State.part, ← hfirst.2]
      rfl
    refine ⟨by rw [hpart], by rw [hpart], by rw [hpart, hbefore], State.obj_setObj_same _ _ _ _ _, State.blob_setBlob_same _ _ _ _ _⟩
  have hpoison : Follows [0x8600, 0x8100] s3 s4 := by
    unfold s4
    split
    · exact Follows.raise s3 hboth _ _ _ _
    · exact Follows.refl s3
  have hloss : Follows [0x8600] s4 s5 := by
    unfold s5
    split
    · exact Follows.scaleUpdate s4 v
    · exact Follows.refl s4
  have hgroups : Follows [0x8600, 0x8100] s5 s6 :=
    Follows.foldl (fun w g => (Follows.meanUpdate w (by decide) g.group.isLt v).trans
      (Follows.silenceUpdate _ (by decide) hboth g.group.isLt v)) _ _
  have hdigested : IndexKept 0x8100 s6 s7 := by
    unfold s7 State.noteDigested
    dsimp only
    split <;> exact IndexKept.of_dict rfl
  generalize hs8 : (if bitOf (s7.obj 0x2300 6 0) p.val then s7.notice 0x8003 p.val v.stamp.toNat else s7) = s8
  have hnotice : Follows [0x8600, 0x8100] s7 s8 := by
    rw [← hs8]
    split
    · exact Follows.notice s7 hboth _ _ _
    · exact Follows.refl s7
  refine ⟨?_, fun hjob hflag hk => ?_⟩
  · have hshown {is : List Nat} {a b : State} (hmem : 0x8600 ∈ is) (h : Follows is a b)
        (hused : VerdictUsed p v ((s.part p.val).own.filter (fun w => decide (0 < stampDiff w.stamp v.stamp))) a) :
        VerdictUsed p v ((s.part p.val).own.filter (fun w => decide (0 < stampDiff w.stamp v.stamp))) b :=
      hused.kept h.work (h.objs _ hmem)
    exact hshown (by decide) hnotice (noteDigested_follows s6 p (v.stamp + 1)
      (hshown (by decide) hgroups (hshown (by decide) hloss (hshown (by decide) hpoison hentered))))
  · have hbefore : IndexKept 0x8100 s s4 := hscale.trans (hpoison.objs _ (by decide))
    have hafter : IndexKept 0x8100 s5 s8 := ((hgroups.objs _ (by decide)).trans hdigested).trans (hnotice.objs _ (by decide))
    have hlowered : s5 = s4.scaleUpdate v := if_pos ((hbefore 8 (by decide)).trans hjob)
    obtain ⟨hone, hfour⟩ := scaleUpdate_lowers (s := s4) hflag (by rw [hbefore 1 (by decide)]; exact hk)
    rw [hafter 1 (by decide), hafter 4 (by decide), hlowered, hone, hfour, hbefore 1 (by decide)]
    exact ⟨rfl, rfl⟩

theorem applyVerdict_leaf {v : Verdict} {w : Way} {layer poison : Bool} (hjob : s.job p.val = some j) (hdown : j.vDown = [])
    (hlive : s.isLive p.val = true) (hnew : 0 < stampDiff v.stamp (s.part p.val).lastStamp) :
    s.applyVerdict p.val v w layer poison = s.useVerdict p.val j v := by
  have hlate : ¬ stampDiff v.stamp (s.part p.val).lastStamp ≤ 0 := by omega
  simp only [State.applyVerdict, hjob, hlive, hlate, hdown, Bool.not_true, decide_false, Bool.or_self, Bool.false_eq_true, if_false,
    List.foldl_nil]

/-- A record with another module count is not used, and one that is not later than the last changes nothing. -/
theorem applyVerdict_ignores {v : Verdict} {w : Way} {layer poison : Bool} (hjob : s.job p.val = some j)
    (h : (v.modules.toNat ≠ j.modules ∧ j.vDown = []) ∨ stampDiff v.stamp (s.part p.val).lastStamp ≤ 0) :
    s.applyVerdict p.val v w layer poison = s := by
  unfold State.applyVerdict
  simp only [hjob]
  split
  · rfl
  · next hnot =>
    obtain ⟨hcount, hdown⟩ | hstale := h
    · simp [hdown, State.useVerdict, hcount]
    · simp [hstale] at hnot

theorem applyVerdict_forwards {v : Verdict} {w : Way} {layer poison : Bool} (hjob : s.job p.val = some j)
    (hlive : s.isLive p.val = true) (hcount : v.modules.toNat ≠ j.modules) (hnew : 0 < stampDiff v.stamp (s.part p.val).lastStamp)
    (hdown : j.vDown = [child]) :
    s.applyVerdict p.val v w layer poison = s.sendVerdict p.val child v w layer poison := by
  have hlate : ¬ stampDiff v.stamp (s.part p.val).lastStamp ≤ 0 := by omega
  simp [State.applyVerdict, hjob, hlive, hlate, hdown, State.useVerdict, hcount]

/-! A verdict that is late (R212). -/

/-- A verdict that has not come within its period stops the job, with cause 3. -/
theorem verdictTimeout_stops {n : BitVec 32 × Nat} {ns : List (BitVec 32 × Nat)} (hjob : s.job p.val = some j)
    (hlive : s.isLive p.val = true) (hjoined : (s.part p.val).joined = n :: ns)
    (hlate : n.2 + s.obj 0x8610 1 0 * 117500 < s.tick) :
    Gives (.verdictTimeout p) s (fun u => u.pstate p.val = 6 ∧ u.obj 0x2103 (p.val + 1) 0 = 3) := by
  have hdue : ¬ s.tick ≤ n.2 + s.verdictTicks := Nat.not_le.2 hlate
  have hstop (data : List Byte) :
      StoppedBy p.val 3 ((s.raise 0x6022 p.val n.1 data).stopJob (s.obj 0x2102 (p.val + 1) 0) 3) := by
    obtain ⟨hstate, hkept⟩ := StandsAs.of_service p.isLt (ServiceOnly.raise s 0x6022 p.val n.1 data)
    refine stopJob_stops p.isLt ?_ hkept 3
    rw [State.isLive, hstate, ← State.isLive, hlive]
  obtain ⟨data, hexec⟩ : ∃ data, exec (.verdictTimeout p) s
      = done ((s.raise 0x6022 p.val n.1 data).stopJob (s.obj 0x2102 (p.val + 1) 0) 3) :=
    ⟨_, by simp only [exec, execVerdictTimeout, hjob, hjoined, hdue, if_false]; rfl⟩
  have hstopped := hstop data
  generalize (s.raise 0x6022 p.val n.1 data).stopJob (s.obj 0x2102 (p.val + 1) 0) 3 = u at hexec hstopped
  exact ⟨_, hexec, hstopped.state, hstopped.cause⟩

theorem verdictTimeout_waits {n : BitVec 32 × Nat} {ns : List (BitVec 32 × Nat)} (hb : s.bounded) (hjob : s.job p.val = some j)
    (hjoined : (s.part p.val).joined = n :: ns) (hdue : s.tick ≤ n.2 + s.obj 0x8610 1 0 * 117500) :
    exec (.verdictTimeout p) s = .next s := by
  have hwaits : s.tick ≤ n.2 + s.verdictTicks := hdue
  have hexec : exec (.verdictTimeout p) s = done s := by
    simp only [exec, execVerdictTimeout, hjob, hjoined, hwaits, if_true]
  rw [hexec, done_bounded hb]

end

/-- Settles O32: the join and the combination by what the node's sum has, the application by the stages of R211, the late
verdict by the stop of the job. -/
theorem verdictsAreJoinedCombinedAndApplied : Obligations.VerdictsAreJoinedCombinedAndApplied := by
  intro s p j up child v n ns w hb hjob comes x stamp
  refine ⟨fun hmay hup hdown htakes => ?_, fun hlive hchild hcomes hnew hfirst hown => ?_,
    fun hlive hcount hnew hdown hcomes => ?_, fun h hcomes => ?_, fun hlive hcount hnew hdown htakes hcomes => ?_,
    fun hlive hjoined hlate => verdictTimeout_stops hjob hlive hjoined hlate,
    fun hjoined hdue => verdictTimeout_waits hb hjob hjoined hdue⟩
  · obtain ⟨u, hexec, hpart, hcount⟩ := verdictJoin_joins hjob hmay hup hdown htakes
    exact ⟨u, hexec, by rw [hpart], by rw [hpart], by rw [hpart], by rw [hpart], hcount⟩
  · obtain ⟨u, hexec, hmems, hpart⟩ := verdictCombine_keeps hjob hlive hchild hcomes hnew hfirst hown
    exact ⟨u, hexec, sameMem_of_mems hmems, by rw [hpart], by rw [hpart]⟩
  · obtain ⟨m, w', layer, poison, hexec, -⟩ := verdictApply_eq (v := v) hjob hcomes
    have hleaf := applyVerdict_leaf (s := { s with subs := m }) (w := w') (layer := layer) (poison := poison) hjob hdown hlive hnew
    obtain ⟨⟨hstamp, hflags, hown, hshown, hbytes⟩, hscale⟩ := useVerdict_uses (s := { s with subs := m }) (p := p) hcount
    rw [hleaf] at hexec
    exact ⟨_, hexec, hstamp, hflags, hown, hshown, hbytes, hscale⟩
  · obtain ⟨m, w', layer, poison, hexec, -⟩ := verdictApply_eq (v := v) hjob hcomes
    rw [applyVerdict_ignores (s := { s with subs := m }) hjob h, done_bounded (s := { s with subs := m }) hb] at hexec
    exact ⟨_, hexec, rfl⟩
  · obtain ⟨m, w', layer, poison, hexec, hsubs⟩ := verdictApply_eq (v := v) hjob hcomes
    have hforward := applyVerdict_forwards (s := { s with subs := m }) (w := w') (layer := layer) (poison := poison) hjob hlive
      hcount hnew hdown
    have hsent := sendVerdict_sent (s := { s with subs := m }) ((hsubs _ _).trans htakes) p.val v w' layer poison
    rw [hforward] at hexec
    generalize (({ s with subs := m } : State).sendVerdict p.val child v w' layer poison) = u at hexec hsent
    refine ⟨_, hexec, ?_, hsent.count⟩
    have hpart : u.part p.val = s.part p.val := by
      rw [hsent.ports.frame]
      rfl
    exact hpart

end Sys2Proof.Machine
end

section
/-! SUPPORT. The settling of a block, the skip of a poisoned one, and far operations (O34, O35). -/
namespace Sys2Proof.Machine

/-! What an engine keeps in its stack for a block (R235, R244). -/

namespace WorkKept
variable {s u : State}

theorem digested (h : WorkKept s u) (p : Nat) : (u.part p).digested = (s.part p).digested := by
  have hpart := congrArg Part.digested (h.part p)
  exact hpart

theorem contribs (h : WorkKept s u) (p : Nat) : (u.part p).contribs = (s.part p).contribs := by
  have hpart := congrArg Part.contribs (h.part p)
  exact hpart

theorem settled (h : WorkKept s u) (e : Nat) : (u.engine e).settled = (s.engine e).settled := by
  have hengine := congrArg Engine.settled (h.engine e)
  exact hengine

theorem settling (h : WorkKept s u) (e : Nat) : (u.engine e).settling = (s.engine e).settling := by
  have hengine := congrArg Engine.settling (h.engine e)
  exact hengine

theorem far (h : WorkKept s u) (e : Nat) : (u.engine e).far = (s.engine e).far := by
  have hengine := congrArg Engine.far (h.engine e)
  exact hengine

theorem expected (h : WorkKept s u) (e : Nat) : (u.engine e).expected = (s.engine e).expected := by
  have hengine := congrArg Engine.expected (h.engine e)
  exact hengine

theorem deferred (h : WorkKept s u) (e : Nat) : (u.engine e).deferred = (s.engine e).deferred := by
  have hengine := congrArg Engine.deferred (h.engine e)
  exact hengine

/-- A counter of blocks is kept. -/
theorem counted (h : WorkKept s u) {b n : Nat} (hb : b < 256) (hn : n < 2 ^ 16) : u.count 0x7440 b n = s.count 0x7440 b n := by
  refine h.count _ ?_
  simp only [okey]
  omega

/-- What an engine remembers of reads and events changes. -/
theorem noted (s : State) (e : Nat) {f : Engine → Engine} (hwork : ∀ x, (f x).work = x.work)
    (hheld : ∀ x, (f x).heldReads = x.heldReads) : WorkKept s (s.modEngine e f) :=
  setEngine s e (hwork _) (fun h => (hheld _).trans h)

theorem writeJournal (s : State) (ep : EnginePlan) (x : Journal) : WorkKept s (s.writeJournal ep x) := by
  unfold State.writeJournal
  dsimp only
  split
  · exact store s _ _ _
  · split
    · exact refl s
    · exact (of_same rfl rfl rfl rfl : WorkKept s (s.pickFree 64 (s.journalTaken ep)).2).trans (store _ _ _ _)

theorem clearJournal (s : State) (ep : EnginePlan) (g b : Nat) (stamp : BitVec 32) : WorkKept s (s.clearJournal ep g b stamp) :=
  foldl (fun s _ => store s _ _ _) _ _

theorem freeEntries (s : State) (ep : EnginePlan) (is : List Nat) : WorkKept s (s.freeEntries ep is) := by
  unfold State.freeEntries
  split
  · exact refl s
  · refine (foldl (f := fun s i => s.store (.stack ep.engine) (headAddr ep i) (List.replicate 64 0)) (fun s _ => store s _ _ _)
      is s).trans ?_
    exact noted _ _ (fun _ => rfl) (fun _ => rfl)

theorem checkSluice (s : State) (ep : EnginePlan) : WorkKept s (s.checkSluice ep) := by
  unfold State.checkSluice
  dsimp only
  split
  · refine trans ?_ (raise _ _ _ _ _)
    exact noted _ _ (fun _ => rfl) (fun _ => rfl)
  · exact refl s

theorem tellBlock (s : State) (e p code cause : Nat) (stamp : BitVec 32) (data : List Byte) :
    WorkKept s (s.tellBlock e p code cause stamp data) := by
  unfold State.tellBlock
  split
  · exact refl s
  · refine trans ?_ (raise _ _ _ _ _)
    exact noted _ _ (fun _ => rfl) (fun _ => rfl)

/-- A change of an engine's work goes with one of its reads and events. -/
theorem modEngine (h : WorkKept s u) (e : Nat) {f : Engine → Engine} (hwork : ∀ x, (f x).work = f x.work)
    (hheld : ∀ x, (f x).heldReads = x.heldReads) : WorkKept (s.modEngine e f) (u.modEngine e f) := by
  simp only [State.modEngine_eq]
  refine ⟨fun i => ?_, fun i hi => ?_, h.part, h.count, h.blobs⟩
  · rw [State.engine_setEngine, State.engine_setEngine]
    split
    · rw [hwork, hwork, h.engine]
    · exact h.engine i
  · rw [State.engine_setEngine] at hi ⊢
    split
    · next he =>
      rw [if_pos he, hheld] at hi
      rw [hheld, h.unheld e hi]
    · next he =>
      rw [if_neg he] at hi
      exact h.unheld i hi

/-! Far packets (R241). -/

theorem farSend (s : State) (p : Nat) (ty : BitVec 4) (addr : BitVec 64) (len : Nat) (data : List Byte) (bad : Bool) :
    WorkKept s (s.farSend p ty addr len data bad) := sendLocal _ _

theorem farWrite (s : State) (p : Nat) (addr : BitVec 64) (bs : List Byte) (bad : Bool) :
    WorkKept s (s.farWrite p addr bs bad) := foldl (fun s _ => farSend s _ _ _ _ _ _) _ _

theorem farCommit (s : State) (p : Nat) (addr : BitVec 64) (bs : List Byte) : WorkKept s (s.farCommit p addr bs) :=
  foldl (fun s _ => farSend s _ _ _ _ _ _) _ _

theorem farFailed (s : State) (p : PartId) (bp : BlockPlan) : WorkKept s (s.farFailed p bp) := linkFailure _ _ _ _ _

end WorkKept

/-! Settling (R193, R194). -/

section
variable {s u : State} {e : EngineId} {p : PartId} {j : JobPlan} {bp : BlockPlan} {a : WcArea} {stamp : BitVec 32}

/-- The block is named with the step that has settled, and is no longer settling. -/
def Engine.settle (x : Engine) (p : PartId) (bp : BlockPlan) (stamp : BitVec 32) : Engine :=
  { x with
    settled := mset (ekey p.val bp.group.val bp.block) stamp x.settled,
    settling := x.settling.filter (fun y => !(y.part = p && y.group = bp.group && y.block = bp.block && y.stamp = stamp)) }

/-- The block is a leaf of its allgather tree, its step is not digested, and no read is held at its engine's gate. -/
structure SettlesAlone (s : State) (p : PartId) (j : JobPlan) (bp : BlockPlan) (a : WcArea) (stamp : BitVec 32) : Prop where
  area : planArea j true bp.group.val bp.block = some a
  leaf : bp.copyOut = []
  undigested : (s.part p.val).digested.contains stamp = false
  unheld : (s.engine bp.engine.val).heldReads = []

theorem SettlesAlone.kept (h : SettlesAlone s p j bp a stamp) (hk : WorkKept s u) : SettlesAlone u p j bp a stamp := by
  obtain ⟨harea, hleaf, hundigested, hunheld⟩ := h
  exact ⟨harea, hleaf, by rw [hk.digested]; exact hundigested, hk.unheld _ hunheld⟩

/-- The stack's side of a settling: its journal entry cleared, entries freed, and the copy read back. -/
def State.settleStack (s : State) (j : JobPlan) (bp : BlockPlan) (a : WcArea) (stamp : BitVec 32) (free : List Nat) : State :=
  (match planEngine j bp.engine.val with
    | some ep => (s.clearJournal ep bp.group.val bp.block stamp).freeEntries ep free
    | none => s).touchSegs (.stack bp.engine) [(elemAt a bp.block, a.elemBytes), (scaleAt a bp.block, a.scaleBytes)] 5

theorem WorkKept.settleStack (s : State) (free : List Nat) : WorkKept s (s.settleStack j bp a stamp free) := by
  unfold State.settleStack
  cases planEngine j bp.engine.val with
  | none => exact touchSegs _ _ _ _
  | some ep => exact ((clearJournal s _ _ _ _).trans (freeEntries _ _ _)).trans (touchSegs _ _ _ _)

theorem WorkKept.settle (h : WorkKept s u) : WorkKept (s.modEngine bp.engine.val (fun x => x.settle p bp stamp))
    (u.modEngine bp.engine.val (fun x => x.settle p bp stamp)) :=
  h.modEngine _ (fun _ => rfl) (fun _ => rfl)

theorem settleBlock_alone (h : SettlesAlone s p j bp a stamp) (free : List Nat) : s.settleBlock j p bp stamp free
    = ((s.store (.stack bp.engine) (stampAt a bp.block) (leBytes 4 stamp.toNat)).modEngine bp.engine.val
        (fun x => x.settle p bp stamp)).settleStack j bp a stamp free := by
  generalize hv : (s.store (.stack bp.engine) (stampAt a bp.block) (leBytes 4 stamp.toNat)).modEngine bp.engine.val
    (fun x => x.settle p bp stamp) = v
  have hkept : WorkKept (s.modEngine bp.engine.val (fun x => x.settle p bp stamp)) v := by
    rw [← hv]
    exact (WorkKept.store s _ _ _).settle
  have hafter : WorkKept (s.modEngine bp.engine.val (fun x => x.settle p bp stamp)) (v.settleStack j bp a stamp free) :=
    hkept.trans (WorkKept.settleStack v free)
  have hunheld : ((v.settleStack j bp a stamp free).engine bp.engine.val).heldReads = [] := by
    refine hafter.unheld _ ?_
    rw [State.modEngine_eq, State.engine_setEngine_same]
    exact h.unheld
  have hundigested : ((v.settleStack j bp a stamp free).part p.val).digested.contains stamp = false := by
    rw [hafter.digested]
    exact h.undigested
  unfold State.settleBlock
  extract_lets e g b m
  split
  · next hnone => exact absurd (hnone.symm.trans h.area) (by simp)
  · next a' harea =>
    obtain rfl : a = a' := Option.some.inj (h.area.symm.trans harea)
    extract_lets s1 s2 s3 s4 d s5 f bad
    have hstack : s4 = v.settleStack j bp a stamp free := by
      rw [← hv]
      rfl
    have hsame : s5 = s4 := if_neg (by rw [hstack, hundigested]; decide)
    rw [sendCopies_leaf h.leaf, releaseReads_none (by rw [hsame, hstack]; exact hunheld), hsame, hstack]

theorem settleBlock_settles (h : SettlesAlone s p j bp a stamp) (free : List Nat) :
    WorkKept (s.modEngine bp.engine.val (fun x => x.settle p bp stamp)) (s.settleBlock j p bp stamp free) := by
  rw [settleBlock_alone h]
  exact (WorkKept.store s _ _ _).settle.trans (WorkKept.settleStack _ _)

/-- From s, a stack without changed symbols, to u no other memory has changed. -/
def OnlyStack (e : EngineId) (s u : State) : Prop :=
  (s.mem (.stack e)).errs = [] → (u.mem (.stack e)).errs = [] ∧ ∀ m, m ≠ .stack e → u.mem m = s.mem m

namespace OnlyStack
variable {v : State}

theorem of_mems (h : u.mems = s.mems) : OnlyStack e s u := by
  have hmem (m : MemUnit) : u.mem m = s.mem m := by rw [State.mem, h, State.mem]
  exact fun hclean => ⟨by rw [hmem, hclean], fun m _ => hmem m⟩

theorem trans (h : OnlyStack e s u) (k : OnlyStack e u v) : OnlyStack e s v := fun hclean =>
  ⟨(k (h hclean).1).1, fun m hm => ((k (h hclean).1).2 m hm).trans ((h hclean).2 m hm)⟩

theorem store (s : State) (i : Nat) (bs : List Byte) : OnlyStack e s (s.store (.stack e) i bs) := by
  intro hclean
  rw [State.store_clean hclean]
  exact ⟨by rw [mem_poke_errs, hclean], fun m hm => by rw [State.poke, State.mem_setMem, if_neg hm]⟩

theorem modEngine (s : State) (k : Nat) (f : Engine → Engine) : OnlyStack e s (s.modEngine k f) := of_mems rfl

theorem stores {f : Nat → Nat} {bs : List Byte} (l : List Nat) (s : State) :
    OnlyStack e s (l.foldl (fun s i => s.store (.stack e) (f i) bs) s) := by
  induction l generalizing s with
  | nil => exact of_mems rfl
  | cons i l ih => exact (store s _ _).trans (ih _)

theorem touchSegs (s : State) (segs : List (Nat × Nat)) (reader : Nat) : OnlyStack e s (s.touchSegs (.stack e) segs reader) :=
  fun hclean => by
    rw [State.touchSegs_clean hclean]
    exact ⟨hclean, fun _ _ => rfl⟩

theorem settleStack (s : State) (free : List Nat) : OnlyStack bp.engine s (s.settleStack j bp a stamp free) := by
  unfold State.settleStack
  cases hplan : planEngine j bp.engine.val with
  | none => exact touchSegs _ _ _
  | some ep =>
    have hengine : ep.engine = bp.engine := Fin.ext (by simpa using List.find?_some hplan)
    have hfreed (w : State) : OnlyStack bp.engine w (w.freeEntries ep free) := by
      unfold State.freeEntries
      split
      · exact of_mems rfl
      · rw [hengine]
        have hzeroed : OnlyStack bp.engine w
            (free.foldl (fun s i => s.store (.stack bp.engine) (headAddr ep i) (List.replicate 64 0)) w) := stores free w
        exact hzeroed.trans (modEngine _ _ _)
    refine trans ?_ (touchSegs _ _ _)
    refine trans ?_ (hfreed _)
    unfold State.clearJournal
    rw [hengine]
    exact stores _ s

end OnlyStack

/-- The settling of a block in a stack without changed symbols changes no other memory. -/
theorem settleBlock_onlyStack (h : SettlesAlone s p j bp a stamp) (free : List Nat) :
    OnlyStack bp.engine s (s.settleBlock j p bp stamp free) := by
  rw [settleBlock_alone h]
  exact ((OnlyStack.store s _ _).trans (OnlyStack.modEngine _ _ _)).trans (OnlyStack.settleStack _ _)

/-! Poisoned blocks (R228, R229). -/

/-- A block has been skipped: counted, entered in the contribution of a step that has not been joined, and settled. -/
structure Skipped (s u : State) (p : PartId) (bp : BlockPlan) (stamp : BitVec 32) : Prop where
  engine : (u.engine bp.engine.val).work = ((s.engine bp.engine.val).settle p bp stamp).work
  counted : u.count 0x7440 2 bp.engine.val = s.count 0x7440 2 bp.engine.val + 1
  contribs : s.hasJoined p.val stamp = false → ∃ c : Contribution, mget {} (u.part p.val).contribs stamp.toNat = c
    ∧ c = { mget {} (s.part p.val).contribs stamp.toNat with
      flags := (mget {} (s.part p.val).contribs stamp.toNat).flags ||| flagPoisoned
      skipped := (mget {} (s.part p.val).contribs stamp.toNat).skipped + 1 }

theorem tracePoint_parts (s : State) (kind src : Nat) (stp : BitVec 32) : (s.tracePoint kind src stp).parts = s.parts := by
  unfold State.tracePoint State.tracePointOf
  split
  · unfold State.traceOut
    dsimp only
    split
    · rfl
    · split <;> rfl
  · rfl

theorem tellBlock_parts (s : State) (e p code cause : Nat) (stamp : BitVec 32) (data : List Byte) :
    (s.tellBlock e p code cause stamp data).parts = s.parts := by
  unfold State.tellBlock
  split
  · rfl
  · rw [(Recorded.raise _ _ _ _ _).frame]
    rfl

theorem contribute_kept (s : State) (p : PartId) (stamp : BitVec 32) (f : Contribution → Contribution) (h : SettlesAlone s p j bp a stamp) :
    SettlesAlone (s.contribute p.val stamp f) p j bp a stamp := by
  obtain ⟨harea, hleaf, hundigested, hunheld⟩ := h
  refine ⟨harea, hleaf, ?_, hunheld⟩
  rw [State.contribute, State.modPart_eq, State.part_setPart_same]
  exact hundigested

theorem skipBlock_skips (h : SettlesAlone s p j bp a stamp) (cause : Nat) (free : List Nat) :
    Skipped s (s.skipBlock j p bp stamp cause free) p bp stamp := by
  have hlow : bp.engine.val < 2 ^ 16 := by omega
  unfold State.skipBlock
  extract_lets s1 s2 s3
  have htold : WorkKept (s.bump 0x7440 2 bp.engine.val 1) s2 :=
    (WorkKept.tracePoint _ _ _ _).trans (WorkKept.tellBlock _ _ _ _ _ _ _)
  have hparts : s2.parts = s.parts :=
    (tellBlock_parts _ _ _ _ _ _ _).trans (tracePoint_parts (s.bump 0x7440 2 bp.engine.val 1) _ _ _)
  have halone : SettlesAlone s2 p j bp a stamp := by
    have hbumped : SettlesAlone (s.bump 0x7440 2 bp.engine.val 1) p j bp a stamp := ⟨h.area, h.leaf, h.undigested, h.unheld⟩
    exact hbumped.kept htold
  have hentered : SettlesAlone s3 p j bp a stamp ∧ s3.engines = s2.engines ∧ s3.live = s2.live := by
    unfold s3
    split
    · exact ⟨halone, rfl, rfl⟩
    · exact ⟨contribute_kept s2 p stamp _ halone, rfl, rfl⟩
  obtain ⟨halone3, hengines, hlive⟩ := hentered
  have hsettled := settleBlock_settles halone3 free
  have hpart : s2.part p.val = s.part p.val := by rw [State.part, hparts, State.part]
  refine ⟨?_, ?_, fun hnot => ⟨_, rfl, ?_⟩⟩
  · have hengine : s3.engine bp.engine.val = s2.engine bp.engine.val := by rw [State.engine, hengines, State.engine]
    have hwork (x y : Engine) (hxy : x.work = y.work) : (x.settle p bp stamp).work = (y.settle p bp stamp).work :=
      congrArg (fun z => Engine.settle z p bp stamp) hxy
    refine (hsettled.engine _).trans ?_
    rw [State.modEngine_eq, State.engine_setEngine_same, hengine]
    exact hwork _ _ (htold.engine _)
  · have hcount : s3.count 0x7440 2 bp.engine.val = s2.count 0x7440 2 bp.engine.val := by rw [State.count, hlive, State.count]
    refine (hsettled.counted (by decide) hlow).trans (hcount.trans ((htold.counted (by decide) hlow).trans ?_))
    exact State.count_bump_same _ _ _ _ _
  · have hjoined : s2.hasJoined p.val stamp = false := by
      rw [State.hasJoined, hpart]
      exact hnot
    have hs3 : s3 = s2.contribute p.val stamp (fun c => { c with flags := c.flags ||| flagPoisoned, skipped := c.skipped + 1 }) :=
      if_neg (by rw [hjoined]; decide)
    rw [hsettled.contribs]
    have hkept : (s3.modEngine bp.engine.val (fun x => x.settle p bp stamp)).part p.val = s3.part p.val := rfl
    rw [hkept, hs3, State.contribute, State.modPart_eq, State.part_setPart_same, hpart, mget_mset_same]

end

end Sys2Proof.Machine
end

section
/-! SUPPORT. The commands that end a settling, a far fetch and a far write-back (O35). -/
namespace Sys2Proof.Machine

section
variable {s u : State} {e : EngineId} {g : GroupId} {b : BitVec 28} {p : PartId} {j : JobPlan} {ep : EnginePlan} {bp : BlockPlan}
  {a : WcArea} {f : FarOp}

/-- A block of an engine that waits for nothing: planned, a leaf of its allgather tree, with no read at the engine's gate. -/
structure BlockAlone (s : State) (e : EngineId) (g : GroupId) (b : BitVec 28) (p : PartId) (j : JobPlan) (bp : BlockPlan)
    (a : WcArea) : Prop where
  job : s.job p.val = some j
  block : planBlock j g.val b.toNat = some bp
  area : planArea j true g.val b.toNat = some a
  group : bp.group = g
  number : bp.block = b.toNat
  engine : bp.engine = e
  leaf : bp.copyOut = []
  unheld : (s.engine e.val).heldReads = []
  still : s.engineWaits e.val = false
  idle : (s.engine e.val).reqs = []

theorem BlockAlone.settles (h : BlockAlone s e g b p j bp a) {stamp : BitVec 32}
    (hundigested : (s.part p.val).digested.contains stamp = false) : SettlesAlone s p j bp a stamp := by
  refine ⟨?_, h.leaf, hundigested, by rw [h.engine, h.unheld]⟩
  rw [h.group, h.number, h.area]

theorem segsBusy_still (hidle : (s.engine e.val).reqs = []) (hstill : s.engineWaits e.val = false) (segs : List (Nat × Nat)) :
    s.segsBusy e.val segs = false := by
  have hpasses : ∀ c ∈ (s.engine e.val).retrain, c.2.isRunning = false := by simpa [State.engineWaits] using hstill
  rw [segsBusy_idle hidle, List.any_eq_false]
  intro seg _
  simp only [State.chanBusy, Bool.not_eq_true, List.any_eq_false]
  exact fun c hc => by simp [hpasses c hc]

/-- Without far operations that wait for their fetch, none begins. -/
theorem pumpFar_none {n : Nat} (h : (s.engine e.val).far.find? (fun f => !f.fetching && !f.fetched) = none) :
    s.pumpFar e.val n = s := by
  cases n with
  | zero => rfl
  | succ n =>
    unfold State.pumpFar
    simp only [h]
    exact ite_self _

/-! The end of a settling (R194). -/

theorem workingCopySettle_settles (h : BlockAlone s e g b p j bp a) {y : Settling} (hsettling : (s.engine e.val).settling = [y])
    (hgroup : y.group = g) (hblock : y.block = b.toNat) (hpart : y.part = p) (hup : s.stackUp e.val = true)
    (hundigested : (s.part p.val).digested.contains y.stamp = false) : Gives (.workingCopySettle e g b) s (fun u =>
      (u.engine e.val).settling = [] ∧ mfind (ekey p.val g.val b.toNat) (u.engine e.val).settled = some y.stamp
      ∧ ((s.mem (.stack e)).errs = [] → ∀ m, m ≠ .stack e → u.mem m = s.mem m)) := by
  have halone := h.settles hundigested
  have hkept := settleBlock_settles halone y.free
  have honly := settleBlock_onlyStack halone y.free
  have hexec : exec (.workingCopySettle e g b) s = done (s.settleBlock j p bp y.stamp y.free) := by
    simp only [exec, execWorkingCopySettle, hsettling, List.find?_cons, hgroup, hblock, hpart, h.job, h.block, Option.bind_some,
      Option.map_some, hup, segsBusy_still h.idle h.still, catchUp_idle h.idle, decide_true, Bool.and_self, Bool.not_false, if_true]
  rw [h.engine] at hkept honly
  have hengine : (s.modEngine e.val (fun x => x.settle p bp y.stamp)).engine e.val = (s.engine e.val).settle p bp y.stamp :=
    State.engine_setEngine_same _ _ _
  have hsettled := hkept.settled e.val
  have hnone := hkept.settling e.val
  rw [hengine, Engine.settle] at hsettled hnone
  generalize s.settleBlock j p bp y.stamp y.free = u at hexec hsettled hnone honly
  refine ⟨_, hexec, hnone.trans ?_, ?_, fun hclean => (honly hclean).2⟩
  · rw [hsettling, List.filter_cons_of_neg (by simp [hgroup, hblock, hpart, h.group, h.number]), List.filter_nil]
  · refine (congrArg (mfind (ekey p.val g.val b.toNat)) hsettled).trans ?_
    rw [mfind_mset, h.group, h.number, if_pos rfl]

/-! Far operations (R241). -/

/-- The one far operation of an engine is that of the block, and no repair. -/
structure FarAlone (s : State) (e : EngineId) (g : GroupId) (b : BitVec 28) (p : PartId) (f : FarOp) : Prop where
  far : (s.engine e.val).far = [f]
  group : f.group = g
  number : f.block = b.toNat
  part : f.part = p
  update : f.repair = none

theorem dropFar_engine (hf : FarAlone s e g b p f) : (s.dropFar e.val f).engine e.val = { s.engine e.val with far := [] } := by
  rw [State.dropFar, State.modEngine_eq, State.engine_setEngine_same, hf.far, List.erase_cons_head]

theorem dropFar_alone (hf : FarAlone s e g b p f) {stamp : BitVec 32} (h : SettlesAlone s p j bp a stamp)
    (hengine : bp.engine = e) : SettlesAlone (s.dropFar e.val f) p j bp a stamp := by
  refine ⟨h.area, h.leaf, h.undigested, ?_⟩
  have hunheld := h.unheld
  rw [hengine] at hunheld ⊢
  rw [dropFar_engine hf]
  exact hunheld

/-- Without far operations no fetch begins. -/
theorem pumpFar_empty {n : Nat} (h : (s.engine e.val).far = []) : s.pumpFar e.val n = s := pumpFar_none (by rw [h]; rfl)

theorem farFailed_stops (hlive : s.isLive p.val = true) : StoppedBy p.val 5 (s.farFailed p bp) := by
  unfold State.farFailed
  exact linkFailure_stops p.isLt hlive rfl _ _ _

/-- The failure of a far request ends the operation, and stops the job with cause 5 (R317). -/
theorem dropFar_failed (hf : FarAlone s e g b p f) (hlive : s.isLive p.val = true) :
    StoppedBy p.val 5 ((s.dropFar e.val f).farFailed p bp) ∧ (((s.dropFar e.val f).farFailed p bp).engine e.val).far = [] := by
  refine ⟨farFailed_stops (s := s.dropFar e.val f) hlive, ?_⟩
  rw [(WorkKept.farFailed (s.dropFar e.val f) p bp).far, dropFar_engine hf]

theorem farFetchResponse_eq (h : BlockAlone s e g b p j bp a) (hplan : planEngine j e.val = some ep) (hf : FarAlone s e g b p f)
    (hasked : f.fetching = true) (hopen : f.fetched = false) (hship : (s.engine e.val).shipFar = []) (ans : FarAnswer) :
    exec (.farFetchResponse e g b ans) s = done ((s.farRecord e j bp ep f ans).pumpFar e.val 64) := by
  obtain ⟨hfar, hgroup, hnumber, hpart, hupdate⟩ := hf
  cases ans <;> simp [exec, execFarFetchResponse, hship, hfar, hgroup, hnumber, hpart, hupdate, hasked, hopen, h.job, h.block, hplan,
    segsBusy_still h.idle h.still, h.still, catchUp_idle h.idle]

theorem farFetchResponse_fails (h : BlockAlone s e g b p j bp a) (hplan : planEngine j e.val = some ep) (hf : FarAlone s e g b p f)
    (hasked : f.fetching = true) (hopen : f.fetched = false) (hship : (s.engine e.val).shipFar = []) (hlive : s.isLive p.val = true) :
    Gives (.farFetchResponse e g b .failed) s (fun u => (u.engine e.val).far = [] ∧ u.pstate p.val = 6
      ∧ u.obj 0x2103 (p.val + 1) 0 = 5) := by
  have hexec := farFetchResponse_eq h hplan hf hasked hopen hship .failed
  obtain ⟨⟨hstate, hcause⟩, hfar⟩ := dropFar_failed (bp := bp) hf hlive
  have hrecord : s.farRecord e j bp ep f .failed = (s.dropFar e.val f).farFailed p bp := by rw [State.farRecord, hf.part]
  rw [hrecord, pumpFar_empty hfar] at hexec
  generalize (s.dropFar e.val f).farFailed p bp = u at hexec hstate hcause hfar
  exact ⟨_, hexec, hfar, hstate, hcause⟩

theorem farFetchResponse_skips (h : BlockAlone s e g b p j bp a) (hplan : planEngine j e.val = some ep) (hf : FarAlone s e g b p f)
    (hasked : f.fetching = true) (hopen : f.fetched = false) (hship : (s.engine e.val).shipFar = [])
    (hundigested : (s.part p.val).digested.contains f.stamp = false) :
    Gives (.farFetchResponse e g b .poisoned) s (fun u => (u.engine e.val).far = []
      ∧ u.count 0x7440 2 e.val = s.count 0x7440 2 e.val + 1
      ∧ mfind (ekey p.val g.val b.toNat) (u.engine e.val).settled = some f.stamp) := by
  have hexec := farFetchResponse_eq h hplan hf hasked hopen hship .poisoned
  have hskipped := skipBlock_skips (dropFar_alone hf (h.settles hundigested) h.engine) 5 [f.entry]
  have hrecord : s.farRecord e j bp ep f .poisoned = (s.dropFar e.val f).skipBlock j p bp f.stamp 5 [f.entry] := by
    rw [State.farRecord, hf.part]
  rw [hrecord] at hexec
  obtain ⟨hengine, hcounted, -⟩ := hskipped
  rw [h.engine] at hengine hcounted
  generalize (s.dropFar e.val f).skipBlock j p bp f.stamp 5 [f.entry] = u at hexec hengine hcounted
  rw [dropFar_engine hf] at hengine
  have hfar : (u.engine e.val).far = [] := congrArg Engine.far hengine
  have hsettled : (u.engine e.val).settled = mset (ekey p.val bp.group.val bp.block) f.stamp (s.engine e.val).settled :=
    congrArg Engine.settled hengine
  rw [pumpFar_empty hfar] at hexec
  refine ⟨_, hexec, hfar, hcounted, ?_⟩
  refine (congrArg (mfind (ekey p.val g.val b.toNat)) hsettled).trans ?_
  rw [mfind_mset, h.group, h.number, if_pos rfl]

/-- A far operation whose record has gone back, with its working copy. -/
def FarOp.wrote (f : FarOp) (copy : List Byte × List Byte) (free : List Nat) : FarOp :=
  { f with fetching := true, fetched := true, elems := copy.1, scales := copy.2, free := free }

theorem writeFar_wrote (harea : planArea j true f.group.val f.block = some a) (hfar : (s.engine e.val).far = [f])
    (slot : Option (Nat × List Byte)) (commit : Option (List Byte)) (ws : List Num) (free : List Nat) :
    ((s.writeFar e.val j bp f slot commit ws free).engine e.val).far = [f.wrote (workingCopy a.fmt ws) free] := by
  unfold State.writeFar
  extract_lets v c
  have hsent : WorkKept s v := by
    unfold v
    split
    · extract_lets put s1
      have hslot : WorkKept s s1 := by
        unfold s1
        cases slot with
        | none => exact WorkKept.refl s
        | some x => exact (WorkKept.farWrite s _ _ _ _).trans (WorkKept.farWrite _ _ _ _ _)
      cases commit with
      | none => exact hslot
      | some c => exact hslot.trans (WorkKept.farCommit _ _ _ _)
    · exact WorkKept.refl s
  have hcopy : c = workingCopy a.fmt ws := by
    unfold c
    rw [harea]
  rw [State.putFar, State.modEngine_eq, State.engine_setEngine_same, hsent.far, hfar, hcopy]
  simp [FarOp.wrote]

/-- In a stack without changed symbols, an update without a merge forms its record from the entry's gradient, and sends it back. -/
theorem applyFar_clean {rec : List Byte} {up : Update} (hengine : ep.engine = e) (hclean : (s.mem (.stack e)).errs = [])
    (hmerge : s.mergeFor ep f.group.val f.block f.stamp = none)
    (hup : ruleUpdate (ruleOf j f.group.val) bp.params f.vals f.stamp rec (scaledGrads bp.params (s.entryHead ep f.entry).k f.factor
      ((s.entryGrad ep f.entry).1.map f32) none) = some up) :
    s.applyFar e j ep bp f rec = (s.writeJournal ep (f.journal j 3)).writeFar e.val j bp f up.slot
      (some (commitGroup f.stamp rec up.wc)) (pairW up.wc) [f.entry] := by
  subst hengine
  have hgood : (s.entryGrad ep f.entry).2 = false := by
    simp [State.entryGrad, State.anyMarked_clean hclean]
  unfold State.applyFar
  simp only [State.touch_clean hclean, State.touchHeads, State.touchSegs_clean hclean, hmerge, State.touchMerge, hgood,
    State.mergeVals, Option.any_none, Option.map_none, Bool.or_self, Bool.false_eq_true, if_false, hup, Option.toList_none]

theorem farFetchResponse_applies {rec : List Byte} {up : Update} (h : BlockAlone s e g b p j bp a)
    (hplan : planEngine j e.val = some ep) (hf : FarAlone s e g b p f) (hasked : f.fetching = true) (hopen : f.fetched = false)
    (hship : (s.engine e.val).shipFar = []) (hidle : s.shipping = none) (hclean : (s.mem (.stack e)).errs = [])
    (hmerge : s.mergeFor ep g.val b.toNat f.stamp = none)
    (hup : ruleUpdate (ruleOf j g.val) bp.params f.vals f.stamp rec (scaledGrads bp.params (s.entryHead ep f.entry).k f.factor
      ((s.entryGrad ep f.entry).1.map f32) none) = some up) :
    Gives (.farFetchResponse e g b (.data rec)) s (fun u =>
      (u.engine e.val).far = [f.wrote (workingCopy a.fmt (pairW up.wc)) [f.entry]]) := by
  have hengine : ep.engine = e := Fin.ext (by simpa using List.find?_some hplan)
  have hexec := farFetchResponse_eq h hplan hf hasked hopen hship (.data rec)
  rw [← hf.group] at hup
  rw [← hf.group, ← hf.number] at hmerge
  have hrecord : s.farRecord e j bp ep f (.data rec) = s.applyFar e j ep bp f rec := by
    simp [State.farRecord, hf.update, State.snapNeeds, hidle]
  have hfar : ((s.writeJournal ep (f.journal j 3)).engine e.val).far = [f] := by
    rw [(WorkKept.writeJournal s ep _).far, hf.far]
  have hwrote := writeFar_wrote (j := j) (bp := bp) (a := a) (by rw [hf.group, hf.number]; exact h.area) hfar up.slot
    (some (commitGroup f.stamp rec up.wc)) (pairW up.wc) [f.entry]
  rw [hrecord, applyFar_clean hengine hclean hmerge hup] at hexec
  generalize (s.writeJournal ep (f.journal j 3)).writeFar e.val j bp f up.slot (some (commitGroup f.stamp rec up.wc)) (pairW up.wc)
    [f.entry] = u at hexec hwrote
  rw [pumpFar_none (by rw [hwrote]; rfl)] at hexec
  exact ⟨_, hexec, hwrote⟩

/-! The write-back (R241). -/

theorem farWritebackDone_fails (h : BlockAlone s e g b p j bp a) (hf : FarAlone s e g b p f) (hfetched : f.fetched = true)
    (hlive : s.isLive p.val = true) : Gives (.farWritebackDone e g b false) s (fun u => (u.engine e.val).far = []
      ∧ u.pstate p.val = 6 ∧ u.obj 0x2103 (p.val + 1) 0 = 5) := by
  obtain ⟨⟨hstate, hcause⟩, hnone⟩ := dropFar_failed (bp := bp) hf hlive
  have hexec : exec (.farWritebackDone e g b false) s = done ((s.dropFar e.val f).farFailed p bp) := by
    obtain ⟨hfar, hgroup, hnumber, hpart, hupdate⟩ := hf
    simp [exec, execFarWritebackDone, hfar, hgroup, hnumber, hpart, hfetched, h.job, h.block, catchUp_idle h.idle]
  generalize (s.dropFar e.val f).farFailed p bp = u at hexec hstate hcause hnone
  exact ⟨_, hexec, hnone, hstate, hcause⟩

/-- The working copy and the counts of a far update whose record has gone back. -/
def State.farCopied (s : State) (e : EngineId) (a : WcArea) (f : FarOp) : State :=
  ((((s.dropFar e.val f).store (.stack e) (elemAt a f.block) f.elems).store (.stack e) (scaleAt a f.block) f.scales).bump
    0x7440 5 e.val 1).bump 0x7440 1 e.val 1

theorem farWritebackDone_settles (h : BlockAlone s e g b p j bp a) (hf : FarAlone s e g b p f) (hfetched : f.fetched = true)
    (hundigested : (s.part p.val).digested.contains f.stamp = false) :
    Gives (.farWritebackDone e g b true) s (fun u => (u.engine e.val).far = []
      ∧ mfind (ekey p.val g.val b.toNat) (u.engine e.val).settled = some f.stamp
      ∧ u.count 0x7440 5 e.val = s.count 0x7440 5 e.val + 1 ∧ u.count 0x7440 1 e.val = s.count 0x7440 1 e.val + 1) := by
  have hlow : e.val < 2 ^ 16 := by omega
  generalize hw : ((s.dropFar e.val f).store (.stack e) (elemAt a f.block) f.elems).store (.stack e) (scaleAt a f.block) f.scales = w
  have hstored : WorkKept (s.dropFar e.val f) w := by
    rw [← hw]
    exact (WorkKept.store _ _ _ _).trans (WorkKept.store _ _ _ _)
  have hcopied : s.farCopied e a f = (w.bump 0x7440 5 e.val 1).bump 0x7440 1 e.val 1 := by rw [State.farCopied, hw]
  generalize hv : s.farCopied e a f = v at hcopied
  have hv' : v.engines = w.engines ∧ v.parts = w.parts := by
    rw [hcopied]
    exact ⟨rfl, rfl⟩
  have halone : SettlesAlone v p j bp a f.stamp := by
    obtain ⟨harea, hleaf, hun, hheld⟩ := (dropFar_alone hf (h.settles hundigested) h.engine).kept hstored
    exact ⟨harea, hleaf, by rw [State.part, hv'.2]; exact hun, by rw [State.engine, hv'.1]; exact hheld⟩
  have hkept := settleBlock_settles halone f.free
  rw [h.engine] at hkept
  have hexec : exec (.farWritebackDone e g b true) s = done ((v.settleBlock j p bp f.stamp f.free).pumpFar e.val 64) := by
    rw [← hv, State.farCopied]
    obtain ⟨hfar, hgroup, hnumber, hpart, hupdate⟩ := hf
    simp [exec, execFarWritebackDone, hfar, hgroup, hnumber, hpart, hupdate, hfetched, h.job, h.block, h.area,
      segsBusy_still h.idle h.still, catchUp_idle h.idle]
  have hengine : (v.modEngine e.val (fun x => x.settle p bp f.stamp)).engine e.val = (v.engine e.val).settle p bp f.stamp :=
    State.engine_setEngine_same _ _ _
  have hfarv : (v.engine e.val).far = [] := by
    rw [State.engine, hv'.1, ← State.engine, hstored.far, dropFar_engine hf]
  have hnone : ((v.settleBlock j p bp f.stamp f.free).engine e.val).far = [] := by
    rw [hkept.far, hengine, Engine.settle, hfarv]
  have hsettled : mfind (ekey p.val g.val b.toNat) ((v.settleBlock j p bp f.stamp f.free).engine e.val).settled = some f.stamp := by
    rw [hkept.settled, hengine, Engine.settle, mfind_mset, h.group, h.number, if_pos rfl]
  have hbefore (k : Nat) (hk : k < 256) : w.count 0x7440 k e.val = s.count 0x7440 k e.val := hstored.counted hk hlow
  have hapart : okey 0x7440 5 e.val ≠ okey 0x7440 1 e.val := by
    simp only [okey]
    omega
  have hfive : v.count 0x7440 5 e.val = s.count 0x7440 5 e.val + 1 := by
    rw [hcopied, State.count_bump, if_neg hapart, State.count_bump_same, hbefore 5 (by decide)]
  have hone : v.count 0x7440 1 e.val = s.count 0x7440 1 e.val + 1 := by
    rw [hcopied, State.count_bump_same, State.count_bump, if_neg hapart.symm, hbefore 1 (by decide)]
  have hcounted (k : Nat) (hk : k < 256) := hkept.counted (b := k) hk hlow
  generalize v.settleBlock j p bp f.stamp f.free = u at hexec hnone hsettled hcounted
  rw [pumpFar_empty hnone] at hexec
  exact ⟨_, hexec, hnone, hsettled, (hcounted 5 (by decide)).trans hfive, (hcounted 1 (by decide)).trans hone⟩

end

/-- Settles O35: each command ends the block's operation, and what it does beside keeps the engine's work. -/
theorem updatesSettleAndFarBlocksReturn : Obligations.UpdatesSettleAndFarBlocksReturn := by
  intro s e g b y f j ep bp a rec p up hb hjob hplan hblock harea hgroup hnumber hengine hleaf hunheld hstill hidle key rule
  have h : BlockAlone s e g b p j bp a := ⟨hjob, hblock, harea, hgroup, hnumber, hengine, hleaf, hunheld, hstill, hidle⟩
  refine ⟨fun hsettling hy hyb hyp hup hundigested => workingCopySettle_settles h hsettling hy hyb hyp hup hundigested, ?_⟩
  intro hfar hfg hfb hfp hupdate
  have hf : FarAlone s e g b p f := ⟨hfar, hfg, hfb, hfp, hupdate⟩
  refine ⟨fun hasked hopen hship => ⟨fun hlive => farFetchResponse_fails h hplan hf hasked hopen hship hlive,
    fun hundigested => farFetchResponse_skips h hplan hf hasked hopen hship hundigested, fun hidle' hclean hmerge hup => ?_⟩,
    fun hfetched => ⟨fun hlive => farWritebackDone_fails h hf hfetched hlive,
      fun hundigested => farWritebackDone_settles h hf hfetched hundigested⟩⟩
  obtain ⟨u, hexec, hwrote⟩ := farFetchResponse_applies h hplan hf hasked hopen hship hidle' hclean hmerge hup
  exact ⟨u, hexec, _, hwrote, rfl, rfl, rfl, rfl⟩

end Sys2Proof.Machine
end

section
/-! SUPPORT. The steps that are expected and the blocks that are counted as handled, through all that a block's handling can do
(O34). -/
namespace Sys2Proof.Machine

/-! Requests at a controller (R174): they keep the engines' work. -/

namespace WorkKept
variable {s u : State}

theorem gatePush (s : State) (t d vc : Nat) (fs : List Flit) : WorkKept s (s.gatePush t d vc fs) := of_same rfl rfl rfl rfl

theorem serveFlit (s : State) (e : EngineId) (t : Nat) (f : Flit) : WorkKept s (s.serveFlit e t f) := by
  unfold State.serveFlit
  dsimp only
  split
  · exact (touchSegs s _ _ _).trans (gatePush _ _ _ _ _)
  · split
    · exact (scatter _ _ _ _ s).trans (gatePush _ _ _ _ _)
    · exact scatter _ _ _ _ s

theorem farAnswer (s : State) (f : FarReq) (poison : Bool) (bs : List Byte) : WorkKept s (s.farAnswer f poison bs) :=
  foldl (fun s _ => sendLocal s _) _ _

theorem serveFarRead (s : State) (e : EngineId) (f : FarReq) : WorkKept s (s.serveFarRead e f) :=
  (touch s _ _ _ _).trans (farAnswer _ _ _ _)

theorem storeFar (s : State) (e : EngineId) (f : FarReq) (data : List Byte) (bad : Bool) : WorkKept s (s.storeFar e f data bad) := by
  unfold State.storeFar
  dsimp only
  refine trans ?_ (farAnswer _ _ _ _)
  split
  · exact (store s _ _ _).trans (poison _ _ _ _)
  · exact store s _ _ _

theorem serveFarWrite (s : State) (e : EngineId) (f : FarReq) (data : List Byte) (bad : Bool) :
    WorkKept s (s.serveFarWrite e f data bad) := by
  have hput (cs : List CommitIn) : WorkKept s (s.modEngine e.val (fun x => { x with commits := cs })) :=
    noted s _ (fun _ => rfl) (fun _ => rfl)
  unfold State.serveFarWrite
  dsimp only
  split
  · split
    · exact hput _
    · exact (hput _).trans (storeFar _ _ _ _ _)
  · split
    · exact hput _
    · exact storeFar _ _ _ _ _

theorem statusReply (s : State) (p : Nat) (r : Request) (status : Nat) : WorkKept s (s.statusReply p r status) :=
  (statusReplyF s p r status).trans (failAll _ _ _ _)

theorem writeRequest (s : State) (r : RingReq) (g : RingPlan) (bad : Bool) : WorkKept s (s.writeRequest r g bad) := by
  have hpayload (w : State) (a : Nat) : WorkKept w (if bad then w.poison (.stack g.stack) a r.payload.length else w) := by
    split
    · exact poison _ _ _ _
    · exact refl w
  have hasked (w : State) (q : Request) : WorkKept w (w.modPart r.part.val (fun x => { x with requests := x.requests ++ [q] })) :=
    modPart w _ fun _ => rfl
  unfold State.writeRequest
  dsimp only
  refine trans ?_ (gatePush _ _ _ _ _)
  refine trans ?_ (hasked _ _)
  exact (((store s _ _ _).trans (hpayload _ _)).trans (store _ _ _ _)).trans (store _ _ _ _)

theorem takeRequest (s : State) (r : RingReq) (bad : Bool) : WorkKept s (s.takeRequest r bad) := by
  have hanswer (w : State) (status : Nat) : WorkKept w (w.answerRequest r status) := statusReply w _ _ _
  have hcounted (w : State) (n : Nat) : WorkKept w (w.setObj 0x2110 7 0 n) := of_same rfl rfl rfl rfl
  unfold State.takeRequest
  dsimp only
  split
  · exact (hanswer s 1).trans (hcounted _ _)
  split
  · exact hanswer s 4
  split
  · exact hanswer s 4
  split
  · exact hanswer s 3
  split
  · exact hanswer s 5
  · next g _ _ =>
    have htouched : WorkKept s (s.touchHead g) := touch s _ _ _ _
    split
    · exact htouched.trans (hanswer _ 3)
    · exact htouched.trans (writeRequest _ _ _ _)

theorem serveReqs (s : State) (e : EngineId) : WorkKept s (s.serveReqs e) := by
  have hserve (w : State) (r : StackReq) : WorkKept w (w.serveReq e r) := by
    cases r with
    | move t f => exact serveFlit w e t f
    | farRead f => exact serveFarRead w e f
    | farWrite f d bad => exact serveFarWrite w e f d bad
    | ring r bad => exact takeRequest w r bad
  have htaken (l : List StackReq) : WorkKept s (s.modEngine e.val (fun x => { x with reqs := l })) :=
    noted s _ (fun _ => rfl) (fun _ => rfl)
  unfold State.serveReqs
  dsimp only
  split
  · split
    · exact (htaken _).trans (hserve _ _)
    · exact refl s
  · exact refl s

theorem catchUp (s : State) (e : EngineId) : WorkKept s (s.catchUp e) := foldl (fun s _ => serveReqs s e) _ _

end WorkKept

/-! The expected steps and the handled blocks. -/

/-- From s to u the engines expect the same steps, and every contribution counts the same blocks as handled. -/
structure HandledKept (s u : State) : Prop where
  expected : ∀ e, (u.engine e).expected = (s.engine e).expected
  handled : ∀ p n, (mget {} (u.part p).contribs n).handled = (mget {} (s.part p).contribs n).handled

namespace HandledKept
variable {s u v : State}

theorem of_work (h : WorkKept s u) : HandledKept s u := ⟨h.expected, fun p _ => by rw [h.contribs p]⟩

theorem of_same (hengines : u.engines = s.engines) (hparts : u.parts = s.parts) : HandledKept s u :=
  ⟨fun e => by rw [State.engine, hengines, State.engine], fun p _ => by rw [State.part, hparts, State.part]⟩

theorem refl (s : State) : HandledKept s s := of_same rfl rfl

theorem trans (h : HandledKept s u) (k : HandledKept u v) : HandledKept s v :=
  ⟨fun e => (k.expected e).trans (h.expected e), fun p n => (k.handled p n).trans (h.handled p n)⟩

theorem foldl {α : Type} {f : State → α → State} (hf : ∀ s a, HandledKept s (f s a)) (l : List α) (s : State) :
    HandledKept s (l.foldl f s) := by
  induction l generalizing s with
  | nil => exact refl s
  | cons a l ih => exact (hf s a).trans (ih _)

/-- The same for a fold that gathers something beside the state. -/
theorem foldlAcc {α β : Type} {f : β × State → α → β × State} (hf : ∀ x a, HandledKept x.2 (f x a).2) (l : List α) (x : β × State) :
    HandledKept x.2 (l.foldl f x).2 := by
  induction l generalizing x with
  | nil => exact refl x.2
  | cons a l ih => exact (hf x a).trans (ih _)

theorem bump (s : State) (i b n m : Nat) : HandledKept s (s.bump i b n m) := of_same rfl rfl

theorem raise (s : State) (code src : Nat) (stp : BitVec 32) (data : List Byte) : HandledKept s (s.raise code src stp data) :=
  of_work (WorkKept.raise s code src stp data)

theorem modEngine (s : State) (e : Nat) {f : Engine → Engine} (hf : ∀ x, (f x).expected = x.expected) :
    HandledKept s (s.modEngine e f) := by
  refine ⟨fun i => ?_, fun _ _ => rfl⟩
  rw [State.modEngine_eq, State.engine_setEngine]
  split
  · next h => rw [hf, h]
  · rfl

theorem contribute (s : State) (p : Nat) (stamp : BitVec 32) {f : Contribution → Contribution} (hf : ∀ c, (f c).handled = c.handled) :
    HandledKept s (s.contribute p stamp f) := by
  refine ⟨fun _ => rfl, fun q n => ?_⟩
  rw [State.contribute, State.modPart_eq, State.part_setPart]
  split
  · next hq =>
    rw [mget_mset]
    split
    · next hn => rw [hf, hq, hn]
    · rw [hq]
  · rfl

/-! Reads at a gate (R195, R196). -/

theorem respond (s : State) (t code : Nat) (f : Flit) : HandledKept s (s.respond t code f) := of_same rfl rfl

theorem serveRead (h : HeldRead) (poison : Bool) (hs : s.serveRead h poison = some u) : HandledKept s u := by
  have hanswered (w : State) : HandledKept w (w.modXfer h.tile.val h.id (fun z => { z with phase := .answered })) := by
    unfold State.modXfer
    split
    · exact of_same rfl rfl
    · exact refl w
  unfold State.serveRead at hs
  dsimp only at hs
  split at hs
  · obtain rfl := Option.some.inj hs
    rw [refuse_noRoute (by simp) rfl]
    exact (hanswered s).trans ((bump _ _ _ _ _).trans (respond _ _ _ _))
  · next g _ =>
    obtain ⟨w, hw, rfl⟩ := Option.map_eq_some_iff.1 hs
    have hslot : HandledKept s w := by
      split at hw
      · split at hw
        · unfold State.takeSlot at hw
          split at hw
          · obtain rfl := Option.some.inj hw
            exact of_same rfl rfl
          · cases hw
        · obtain rfl := Option.some.inj hw
          exact refl s
      · obtain rfl := Option.some.inj hw
        exact refl s
    have hentered (w : State) (fs : List Flit) (n : Nat) :
        HandledKept w ((w.gatePush g (engineSide h.src.first) 2 fs).bump 0x7420 1 h.src.first n) := of_same rfl rfl
    exact ((hslot.trans (of_work (WorkKept.touchSegs w _ _ 4))).trans (hentered _ _ _)).trans (hanswered _)

theorem gateRead (s : State) (h : HeldRead) : HandledKept s (s.gateRead h) := by
  have hwait (w : State) : HandledKept w (w.modEngine h.src.first (fun x => { x with reads := x.reads ++ [h] })) :=
    modEngine w _ fun _ => rfl
  have hheld (w : State) : HandledKept w (w.modEngine h.src.first (fun x => { x with heldReads := x.heldReads ++ [h] })) :=
    modEngine w _ fun _ => rfl
  have hdropped : HandledKept s ((s.catchUp (Fin.ofNat 32 h.src.first)).dropRead h.src.first h) :=
    (of_work (WorkKept.catchUp s _)).trans (modEngine _ _ fun _ => rfl)
  unfold State.gateRead
  dsimp only
  refine hdropped.trans ?_
  generalize (s.catchUp (Fin.ofNat 32 h.src.first)).dropRead h.src.first h = w
  split
  · exact hwait w
  · refine (of_work (WorkKept.touchSegs w (.stack (Fin.ofNat 32 h.src.first))
      ((s.readBlocks h).map (fun c => (stampAt c.1 c.2, 4))) 4)).trans ?_
    generalize w.touchSegs (.stack (Fin.ofNat 32 h.src.first)) ((s.readBlocks h).map (fun c => (stampAt c.1 c.2, 4))) 4 = w
    split
    · exact hheld _
    · split
      · split
        · next hserved => exact ((serveRead h true hserved).trans (bump _ _ _ _ _)).trans (raise _ _ _ _ _)
        · exact hwait _
      · cases hserved : State.serveRead _ h _ with
        | none => exact hwait _
        | some v => exact serveRead h _ hserved

/-! Settling, skips and losses (R194, R229, R234). -/

theorem settleBlock (s : State) (j : JobPlan) (p : PartId) (bp : BlockPlan) (stamp : BitVec 32) (free : List Nat) :
    HandledKept s (s.settleBlock j p bp stamp free) := by
  unfold State.settleBlock
  extract_lets e g b m
  split
  · exact refl s
  · next a _ =>
    extract_lets s1 s2 s3 s4 d s5 f bad
    have hstamp : HandledKept s s2 := (of_work (WorkKept.store s _ _ _)).trans (modEngine _ _ fun _ => rfl)
    have hfreed : HandledKept s2 s3 := by
      unfold s3
      split
      · exact of_work ((WorkKept.clearJournal s2 _ _ _ _).trans (WorkKept.freeEntries _ _ _))
      · exact refl s2
    have hdigest : HandledKept s4 s5 := by
      unfold s5
      split
      · exact (bump s4 0x7440 9 e.val 1).trans (modEngine _ _ fun _ => rfl)
      · exact refl s4
    have hsent : HandledKept s5 (s5.sendCopies p.val j bp f bad) := foldl (fun w _ => of_work (WorkKept.sendJob w _ _)) _ _
    exact ((((hstamp.trans hfreed).trans (of_work (WorkKept.touchSegs s3 _ _ 5))).trans hdigest).trans hsent).trans
      (foldl gateRead _ _)

theorem skipBlock (s : State) (j : JobPlan) (p : PartId) (bp : BlockPlan) (stamp : BitVec 32) (cause : Nat) (free : List Nat) :
    HandledKept s (s.skipBlock j p bp stamp cause free) := by
  unfold State.skipBlock
  extract_lets s1 s2 s3
  have htold : HandledKept s s2 := (bump s 0x7440 2 bp.engine.val 1).trans
    (of_work ((WorkKept.tracePoint _ _ _ _).trans (WorkKept.tellBlock _ _ _ _ _ _ _)))
  have hentered : HandledKept s2 s3 := by
    unfold s3
    split
    · exact refl s2
    · exact contribute s2 _ _ fun _ => rfl
  exact (htold.trans hentered).trans (settleBlock _ _ _ _ _ _)

theorem loseBlock (s : State) (j : JobPlan) (p : PartId) (bp : BlockPlan) (stamp : BitVec 32) (cause kind : Nat) (free : List Nat) :
    HandledKept s (s.loseBlock j p bp stamp cause kind free) := by
  unfold State.loseBlock
  extract_lets s1 s2 s3
  have htold : HandledKept s s2 := (bump s 0x7440 6 bp.engine.val 1).trans
    (of_work ((WorkKept.tracePoint _ _ _ _).trans (WorkKept.tellBlock _ _ _ _ _ _ _)))
  have hentered : HandledKept s2 s3 := by
    unfold s3
    split
    · exact refl s2
    · exact contribute s2 _ _ fun _ => rfl
  exact (htold.trans hentered).trans (settleBlock _ _ _ _ _ _)

/-! Entries of the sluice, and copies for the snapshot (R235, R250). -/

theorem touchHeads (s : State) (ep : EnginePlan) (kind : Nat) : HandledKept s (s.touchHeads ep kind) :=
  of_work (WorkKept.touchSegs s _ _ 5)

theorem touchMerge (s : State) (ep : EnginePlan) (m : Option (Nat × Entry64)) : HandledKept s (s.touchMerge ep m) := by
  cases m with
  | none => exact refl s
  | some x => exact of_work (WorkKept.touch s _ _ _ 5)

theorem newEntry {ep : EnginePlan} {x : Entry64} {data : List Byte} {n : Nat} (h : s.newEntry ep x data = some (n, u)) :
    HandledKept s u := by
  unfold State.newEntry at h
  split at h
  · cases h
  · obtain ⟨-, rfl⟩ := Prod.mk.inj (Option.some.inj h)
    have hpicked : WorkKept s (s.pickFree (sluiceEntries ep) ((s.sluiceUsed ep).map (·.1))).2 := WorkKept.of_same rfl rfl rfl rfl
    exact of_work (((hpicked.trans (WorkKept.store _ _ _ _)).trans (WorkKept.store _ _ _ _)).trans (WorkKept.checkSluice _ _))

theorem snapCopy {ep : EnginePlan} {p : PartId} {bp : BlockPlan} {stamp : BitVec 32} {bs : List Byte} {bad : Bool}
    (h : s.snapCopy ep p bp stamp bs bad = some u) : HandledKept s u := by
  unfold State.snapCopy at h
  dsimp only at h
  split at h
  · cases h
  · obtain rfl := Option.some.inj h
    refine trans ?_ (modEngine _ _ fun _ => rfl)
    refine foldlAcc (fun acc i => ?_) _ ([], s)
    split
    · next hentry =>
      refine (newEntry hentry).trans ?_
      dsimp only
      split
      · exact of_work (WorkKept.poison _ _ _ _)
      · exact refl _
    · exact refl acc.2

/-! Updates (R232, R242, R250). -/

theorem writeUpdate (s : State) (j : JobPlan) (bp : BlockPlan) (addr : Nat) (stamp : BitVec 32) (rec : List Byte) (up : Update) :
    HandledKept s (s.writeUpdate j bp addr stamp rec up) := by
  have hcopy (w : State) (ws : List Num) : WorkKept w (w.writeCopy j bp ws) := by
    unfold State.writeCopy
    split
    · exact (WorkKept.store _ _ _ _).trans (WorkKept.store _ _ _ _)
    · exact WorkKept.refl w
  unfold State.writeUpdate
  extract_lets m s1
  have hslot : WorkKept s s1 := by
    unfold s1
    split
    · exact (WorkKept.store _ _ _ _).trans (WorkKept.store _ _ _ _)
    · exact WorkKept.refl s
  exact of_work ((hslot.trans (WorkKept.store _ _ _ _)).trans (hcopy _ _))

theorem tracePoint (s : State) (kind src : Nat) (stp : BitVec 32) : HandledKept s (s.tracePoint kind src stp) :=
  of_work (WorkKept.tracePoint s kind src stp)

theorem applyBlock (s : State) (j : JobPlan) (ep : EnginePlan) (w : Waiting) (bp : BlockPlan) (addr : Nat) :
    HandledKept s (s.applyBlock j ep w bp addr) := by
  unfold State.applyBlock
  extract_lets rule m segs s1 merge s2 rec xs
  have hread : HandledKept s s2 :=
    ((of_work (WorkKept.touchSegs s _ _ 5)).trans (touchHeads _ _ _)).trans (touchMerge _ _ _)
  split
  · exact hread.trans (skipBlock _ _ _ _ _ _ _)
  · split
    · exact hread.trans (loseBlock _ _ _ _ _ _ _ _)
    · exact hread.trans ((((writeUpdate _ _ _ _ _ _ _).trans (bump _ _ _ _ _)).trans (tracePoint _ _ _ _)).trans
        (modEngine _ _ fun _ => rfl))

theorem beginUpdate (s : State) (j : JobPlan) (ep : EnginePlan) (w : Waiting) (bp : BlockPlan) (addr : Nat) :
    HandledKept s (s.beginUpdate j ep w bp addr) := by
  unfold State.beginUpdate
  split
  · exact applyBlock _ _ _ _ _ _
  · next content _ =>
    extract_lets c
    have hread : HandledKept s c.2 := of_work (WorkKept.touchSegs s _ _ 5)
    split
    · next v hcopied => exact (hread.trans (snapCopy hcopied)).trans (applyBlock _ _ _ _ _ _)
    · exact hread.trans (modEngine _ _ fun _ => rfl)

theorem pumpFar (e n : Nat) (s : State) : HandledKept s (s.pumpFar e n) := by
  induction n generalizing s with
  | zero => exact refl s
  | succ n ih =>
    have hfetch (w : State) (p : PartId) (j : JobPlan) (bp : BlockPlan) : HandledKept w (w.farAsk p j bp) := by
      unfold State.farAsk
      split
      · exact of_work (WorkKept.farSend _ _ _ _ _ _ _)
      · exact refl w
    have hbegun (l : List FarOp) : HandledKept s (s.setEngine e { s.engine e with far := l }) :=
      modEngine s e (f := fun x => { x with far := l }) fun _ => rfl
    unfold State.pumpFar
    dsimp only
    split
    · exact refl s
    · split
      · exact refl s
      · split
        · exact (hbegun _).trans ((hfetch _ _ _ _).trans (ih _))
        · exact hbegun _

theorem beginFar (s : State) (f : FarOp) (e : Nat) : HandledKept s (s.beginFar f e) :=
  (modEngine s e (f := fun x => { x with far := x.far ++ [f] }) fun _ => rfl).trans (pumpFar _ _ _)

/-- The handling of a block whose checks have passed (R228). -/
theorem takeBlock (s : State) (e : EngineId) (p : PartId) (j : JobPlan) (bp : BlockPlan) (ep : EnginePlan) (h : TailHdr)
    (xs : List Num) (q : Num) : HandledKept s (s.takeBlock e p j bp ep h xs q) := by
  have hjournal (w : State) (x : Journal) : HandledKept w (w.writeJournal ep x) := of_work (WorkKept.writeJournal w ep x)
  unfold State.takeBlock
  dsimp only
  split
  · split
    · exact refl s
    · next hentry =>
      refine (newEntry hentry).trans ?_
      refine trans ?_ (settleBlock _ _ _ _ _ _)
      refine trans ?_ (contribute _ _ _ fun _ => rfl)
      exact ((bump _ _ _ _ _).trans (tracePoint _ _ _ _)).trans (raise _ _ _ _ _)
  · split
    · split
      · exact refl s
      · next hentry =>
        exact (newEntry hentry).trans (((bump _ _ _ _ _).trans (tracePoint _ _ _ _)).trans
          (of_work (WorkKept.clearJournal _ _ _ _ _)))
    · split
      · split
        · exact refl s
        · next hentry => exact (newEntry hentry).trans (((tracePoint _ _ _ _).trans (hjournal _ _)).trans (beginFar _ _ _))
      · exact (hjournal _ _).trans (beginUpdate _ _ _ _ _ _)

end HandledKept
end Sys2Proof.Machine
end

section
/-! SUPPORT. Blocks that arrive at their engine (O34). -/
namespace Sys2Proof.Machine

section
variable {s u : State} {e : EngineId} {p : PartId} {j : JobPlan} {ep : EnginePlan} {bp : BlockPlan} {a : WcArea} {blk : TailBlock}
  {r : RedIn}

/-- A block of a job that this module owns, on its engine, which has no requests. -/
structure BlockPlanned (s : State) (e : EngineId) (p : PartId) (j : JobPlan) (ep : EnginePlan) (bp : BlockPlan) (h : TailHdr) :
    Prop where
  job : s.job p.val = some j
  plan : planEngine j e.val = some ep
  block : planBlock j h.group.toNat h.block.toNat = some bp
  owner : bp.owner = s.moduleId
  engine : bp.engine = e
  idle : (s.engine e.val).reqs = []

theorem blockPlan_expected (hb : BlockPlanned s e p j ep bp blk.hdr)
    (hnext : mfind (ekey p.val blk.hdr.group.toNat blk.hdr.block.toNat) (s.engine e.val).expected = some blk.hdr.stamp) :
    s.blockPlan e p blk.hdr = some (j, bp, ep) := by
  simp [State.blockPlan, hb.job, hb.block, hb.plan, hb.owner, hb.engine, hnext]

theorem blockPlan_other (hb : BlockPlanned s e p j ep bp blk.hdr)
    (hnext : mfind (ekey p.val blk.hdr.group.toNat blk.hdr.block.toNat) (s.engine e.val).expected ≠ some blk.hdr.stamp) :
    s.blockPlan e p blk.hdr = none := by
  simp [State.blockPlan, hb.job, hb.block, hb.plan, hnext]

/-- The steps that begin the handling of a block: its values are reached, the step after is expected, and the step's
contribution counts it. -/
def State.blockBegun (s : State) (e : EngineId) (p : PartId) (h : TailHdr) (f : Contribution → Contribution) : State :=
  ((s.reachVals h.group.toNat h.stamp).modEngine e.val (fun x =>
    { x with expected := mset (ekey p.val h.group.toNat h.block.toNat) (h.stamp + 1) x.expected })).contribute p.val h.stamp f

/-- What the contribution of a step enters for a block that is handled. -/
def Contribution.counted (c : Contribution) (bp : BlockPlan) (blk : TailBlock) : Contribution :=
  let xs := blockGrad bp blk
  { c with
    handled := c.handled + 1
    sums := if !nonFinite xs.2 then mset (blockKey blk.hdr.group.toNat blk.hdr.block.toNat) (Fmt.w40.encode .nearestEven
      (if !nonFinite xs.2 then sumSquares bp.params blk.hdr.k.toNat xs.1 else .zero)) c.sums else c.sums }

theorem handleBlock_expected (hb : BlockPlanned s e p j ep bp blk.hdr)
    (hnext : mfind (ekey p.val blk.hdr.group.toNat blk.hdr.block.toNat) (s.engine e.val).expected = some blk.hdr.stamp) :
    ∃ xs q, s.handleBlock e p blk = if skipCause bp blk != 0
      then (s.blockBegun e p blk.hdr (fun c => c.counted bp blk)).skipBlock j p bp blk.hdr.stamp (skipCause bp blk) []
      else (s.blockBegun e p blk.hdr (fun c => c.counted bp blk)).takeBlock e p j bp ep blk.hdr xs q := by
  refine ⟨(blockGrad bp blk).1, if !nonFinite (blockGrad bp blk).2 then
    sumSquares bp.params blk.hdr.k.toNat (blockGrad bp blk).1 else .zero, ?_⟩
  unfold State.handleBlock
  simp only [catchUp_idle hb.idle, blockPlan_expected hb hnext]
  rfl

theorem reachVals_same (s : State) (g : Nat) (stamp : BitVec 32) : (s.reachVals g stamp).engines = s.engines
    ∧ (s.reachVals g stamp).parts = s.parts ∧ (s.reachVals g stamp).live = s.live := by
  have hset (w : State) (i b n v : Nat) : (w.setObj i b n v).engines = w.engines ∧ (w.setObj i b n v).parts = w.parts
      ∧ (w.setObj i b n v).live = w.live := ⟨rfl, rfl, rfl⟩
  have hshown (w : State) (n : Nat) (v : Vals) : ((w.setObj 0x8707 (g + 1) 0 n).showVals g v).engines = w.engines
      ∧ ((w.setObj 0x8707 (g + 1) 0 n).showVals g v).parts = w.parts ∧ ((w.setObj 0x8707 (g + 1) 0 n).showVals g v).live = w.live :=
    by simp only [State.showVals, hset, and_self]
  unfold State.reachVals
  dsimp only
  split
  · split
    · exact ⟨rfl, rfl, rfl⟩
    · exact hshown { s with acts := _ } _ _
  · exact ⟨rfl, rfl, rfl⟩

/-- The handling of a block has begun: the engine expects the step after, and the step's contribution has changed. -/
structure BlockBegun (s u : State) (e : EngineId) (p : PartId) (h : TailHdr) (f : Contribution → Contribution) : Prop where
  engine : u.engine e.val = { s.engine e.val with
    expected := mset (ekey p.val h.group.toNat h.block.toNat) (h.stamp + 1) (s.engine e.val).expected }
  part : u.part p.val = { s.part p.val with
    contribs := mset h.stamp.toNat (f (mget {} (s.part p.val).contribs h.stamp.toNat)) (s.part p.val).contribs }
  live : u.live = s.live

theorem blockBegun_begun (s : State) (e : EngineId) (p : PartId) (h : TailHdr) (f : Contribution → Contribution) :
    BlockBegun s (s.blockBegun e p h f) e p h f := by
  obtain ⟨hengines, hparts, hlive⟩ := reachVals_same s h.group.toNat h.stamp
  have hengine : (s.reachVals h.group.toNat h.stamp).engine e.val = s.engine e.val := by rw [State.engine, hengines, State.engine]
  have hpart : (s.reachVals h.group.toNat h.stamp).part p.val = s.part p.val := by rw [State.part, hparts, State.part]
  refine ⟨?_, ?_, hlive⟩
  · rw [← hengine]
    exact State.engine_setEngine_same _ _ _
  · rw [← hpart]
    exact State.part_setPart_same _ _ _

/-- The next expected block of a step is handled: the engine expects the step after, and the contribution counts it. -/
structure Handled (s u : State) (e : EngineId) (p : PartId) (h : TailHdr) : Prop where
  expected : mfind (ekey p.val h.group.toNat h.block.toNat) (u.engine e.val).expected = some (h.stamp + 1)
  handled : (mget {} (u.part p.val).contribs h.stamp.toNat).handled = (mget {} (s.part p.val).contribs h.stamp.toNat).handled + 1

theorem handleBlock_handles (hb : BlockPlanned s e p j ep bp blk.hdr)
    (hnext : mfind (ekey p.val blk.hdr.group.toNat blk.hdr.block.toNat) (s.engine e.val).expected = some blk.hdr.stamp) :
    Handled s (s.handleBlock e p blk) e p blk.hdr := by
  obtain ⟨hengine, hpart, -⟩ := blockBegun_begun s e p blk.hdr (fun c => c.counted bp blk)
  obtain ⟨xs, q, heq⟩ := handleBlock_expected hb hnext
  have hkept : HandledKept (s.blockBegun e p blk.hdr (fun c => c.counted bp blk)) (s.handleBlock e p blk) := by
    rw [heq]
    split
    · exact HandledKept.skipBlock _ _ _ _ _ _ _
    · exact HandledKept.takeBlock _ _ _ _ _ _ _ _ _
  refine ⟨?_, ?_⟩
  · rw [hkept.expected, hengine]
    exact (mfind_mset _ _ _ _).trans (if_pos rfl)
  · rw [hkept.handled, hpart, mget_mset_same]
    rfl

/-- A block is skipped as poisoned: handled, counted, flagged in the step's contribution, and settled. -/
structure SkippedAs (s u : State) (e : EngineId) (p : PartId) (h : TailHdr) (c : Contribution) : Prop where
  contribution : mget {} (u.part p.val).contribs h.stamp.toNat = c
  skipped : c.skipped = (mget {} (s.part p.val).contribs h.stamp.toNat).skipped + 1
  handled : c.handled = (mget {} (s.part p.val).contribs h.stamp.toNat).handled + 1
  flags : c.flags = (mget {} (s.part p.val).contribs h.stamp.toNat).flags ||| flagPoisoned
  counted : u.count 0x7440 2 e.val = s.count 0x7440 2 e.val + 1
  expected : mfind (ekey p.val h.group.toNat h.block.toNat) (u.engine e.val).expected = some (h.stamp + 1)
  settled : mfind (ekey p.val h.group.toNat h.block.toNat) (u.engine e.val).settled = some h.stamp
  deferred : (u.engine e.val).deferred = (s.engine e.val).deferred

/-- A poisoned block with all its contributions, of a step that has not been joined, that settles alone. -/
structure PoisonComes (s : State) (p : PartId) (j : JobPlan) (bp : BlockPlan) (a : WcArea) (blk : TailBlock) : Prop where
  poison : blk.hdr.poison = true
  whole : blk.hdr.contrib.toNat = bp.contrib
  unjoined : s.hasJoined p.val blk.hdr.stamp = false
  alone : SettlesAlone s p j bp a blk.hdr.stamp
  group : bp.group.val = blk.hdr.group.toNat
  number : bp.block = blk.hdr.block.toNat

theorem handleBlock_skips (hb : BlockPlanned s e p j ep bp blk.hdr) (hp : PoisonComes s p j bp a blk)
    (hnext : mfind (ekey p.val blk.hdr.group.toNat blk.hdr.block.toNat) (s.engine e.val).expected = some blk.hdr.stamp) :
    ∃ c, SkippedAs s (s.handleBlock e p blk) e p blk.hdr c := by
  have hlow : e.val < 2 ^ 16 := by omega
  have hcause : skipCause bp blk = 1 := by simp [skipCause, hp.whole, hp.poison]
  obtain ⟨xs, q, heq⟩ := handleBlock_expected hb hnext
  generalize hv : s.blockBegun e p blk.hdr (fun c => c.counted bp blk) = v at heq
  obtain ⟨hengine, hpart, hlive⟩ : BlockBegun s v e p blk.hdr (fun c => c.counted bp blk) := by
    rw [← hv]
    exact blockBegun_begun s e p blk.hdr _
  rw [hcause] at heq
  replace heq : s.handleBlock e p blk = v.skipBlock j p bp blk.hdr.stamp 1 [] := heq
  have halone : SettlesAlone v p j bp a blk.hdr.stamp := by
    obtain ⟨harea, hleaf, hundigested, hunheld⟩ := hp.alone
    rw [hb.engine] at hunheld
    exact ⟨harea, hleaf, by rw [hpart]; exact hundigested, by rw [hb.engine, hengine]; exact hunheld⟩
  have hunjoined : v.hasJoined p.val blk.hdr.stamp = false := by
    rw [State.hasJoined, hpart]
    exact hp.unjoined
  obtain ⟨hwork, hcounted, hcontribs⟩ := skipBlock_skips halone 1 []
  obtain ⟨c, hc, hvalue⟩ := hcontribs hunjoined
  rw [← heq, hb.engine] at hwork hcounted
  rw [← heq] at hc
  rw [hpart, mget_mset_same] at hvalue
  rw [hengine] at hwork
  have hexpected := congrArg Engine.expected hwork
  have hsettled := congrArg Engine.settled hwork
  have hdeferred := congrArg Engine.deferred hwork
  refine ⟨c, hc, by rw [hvalue]; rfl, by rw [hvalue]; rfl, by rw [hvalue]; rfl, ?_, ?_, ?_, hdeferred⟩
  · rw [hcounted, State.count, hlive, State.count]
  · refine (congrArg (mfind (ekey p.val blk.hdr.group.toNat blk.hdr.block.toNat)) hexpected).trans ?_
    exact (mfind_mset _ _ _ _).trans (if_pos rfl)
  · refine (congrArg (mfind (ekey p.val blk.hdr.group.toNat blk.hdr.block.toNat)) hsettled).trans ?_
    refine (mfind_mset _ _ _ _).trans (if_pos ?_)
    rw [hp.group, hp.number]

/-! Blocks that are not the next expected (R207, R228). -/

/-- Events alone are recorded while the journal entry of a block is cleared. -/
theorem Recorded.clearJournal (s : State) (ep : EnginePlan) (g b : Nat) (stamp : BitVec 32) :
    Recorded s (s.clearJournal ep g b stamp) := by
  have hstore (w : State) (i : Nat) (bs : List Byte) : Recorded w (w.store (.stack ep.engine) i bs) :=
    (Recorded.storeEv w ep.engine i bs).trans (Recorded.foldl (fun w _ => Recorded.raise w _ _ _ _) _ _)
  exact Recorded.foldl (fun w _ => hstore w _ _) _ _

theorem Recorded.tellBlock (s : State) (e p code cause : Nat) (stamp : BitVec 32) (data : List Byte) :
    Recorded s (s.tellBlock e p code cause stamp data) := by
  have htold (x : Engine) : Recorded s (s.setEngine e x) := ⟨rfl, fun _ _ _ _ => rfl⟩
  unfold State.tellBlock
  split
  · exact Recorded.refl s
  · exact (htold _).trans (Recorded.raise _ _ _ _ _)

theorem Recorded.checkSluice (s : State) (ep : EnginePlan) : Recorded s (s.checkSluice ep) := by
  have hfull (x : Engine) : Recorded s (s.setEngine ep.engine.val x) := ⟨rfl, fun _ _ _ _ => rfl⟩
  unfold State.checkSluice
  dsimp only
  split
  · exact (hfull _).trans (Recorded.raise _ _ _ _ _)
  · exact Recorded.refl s

/-- A block is rejected: counted, and owed to the next verdict as a poisoned one. -/
structure Rejected (s u : State) (e : EngineId) (p : PartId) : Prop where
  counted : u.count 0x7420 5 e.val = s.count 0x7420 5 e.val + 1
  part : u.part p.val = { s.part p.val with early := (s.part p.val).early ||| flagPoisoned }

theorem rejectBlock_rejects (s : State) (e : EngineId) (p : PartId) (h : TailHdr) : Rejected s (s.rejectBlock e.val p h) e p := by
  have hlow : okey 0x7420 5 e.val / 2 ^ 24 ≠ 0x7410 := by
    simp only [okey]
    omega
  unfold State.rejectBlock
  extract_lets g b s1 s2
  have hcleared : Recorded s s1 := by
    unfold s1
    split
    · split
      · exact Recorded.clearJournal _ _ _ _ _
      · exact Recorded.refl s
    · exact Recorded.refl s
  have htold : Recorded (s1.bump 0x7420 5 e.val 1) s2 := Recorded.tellBlock _ _ _ _ _ _ _
  refine ⟨?_, ?_⟩
  · refine (htold.count _ _ _ hlow).trans ((State.count_bump_same _ _ _ _ _).trans ?_)
    rw [hcleared.count _ _ _ hlow]
  · have hpart : s2.part p.val = s.part p.val := (htold.part p.val).trans (hcleared.part p.val)
    rw [State.modPart_eq, State.part_setPart_same, hpart]

theorem handleBlock_rejects (hb : BlockPlanned s e p j ep bp blk.hdr)
    (hnext : mfind (ekey p.val blk.hdr.group.toNat blk.hdr.block.toNat) (s.engine e.val).expected ≠ some blk.hdr.stamp) :
    Rejected s (s.handleBlock e p blk) e p := by
  have heq : s.handleBlock e p blk = s.rejectBlock e.val p blk.hdr := by
    unfold State.handleBlock
    simp only [catchUp_idle hb.idle, blockPlan_other hb hnext]
  rw [heq]
  exact rejectBlock_rejects s e p blk.hdr

/-! The arrival (R220, R228). -/

/-- The one block that an engine has accepted is whole, and the engine runs. -/
structure BlockArrives (s : State) (e : EngineId) (p : PartId) (r : RedIn) : Prop where
  ins : (s.engine e.val).ins = [r]
  part : r.part = p
  whole : r.whole = true
  runs : s.engineRuns e.val = true

/-- The accepted block has been taken from the engine. -/
def State.blockTaken (s : State) (e : EngineId) : State := s.modEngine e.val (fun x => { x with ins := [] })

theorem blockTaken_engine (s : State) (e : EngineId) : (s.blockTaken e).engine e.val = { s.engine e.val with ins := [] } :=
  State.engine_setEngine_same _ _ _

theorem BlockPlanned.taken {h : TailHdr} (hb : BlockPlanned s e p j ep bp h) : BlockPlanned (s.blockTaken e) e p j ep bp h :=
  ⟨hb.job, hb.plan, hb.block, hb.owner, hb.engine, by rw [blockTaken_engine]; exact hb.idle⟩

theorem blockArrival_eq (hb : BlockPlanned s e p j ep bp r.blk.hdr) (ha : BlockArrives s e p r) :
    exec (.tailraceBlockArrival e p r.blk) s = done (
      if !s.isLive p.val then
        (if s.blockWaits e p r.blk then s
         else (s.blockTaken e).clearJournal ep r.blk.hdr.group.toNat r.blk.hdr.block.toNat r.blk.hdr.stamp)
      else if s.turnCome e.val p r.blk.hdr then
        (if s.blockWaits e p r.blk then s else ((s.blockTaken e).handleBlock e p r.blk).checkSluice ep)
      else (s.blockTaken e).modEngine e.val (fun x => { x with deferred := x.deferred ++ [(p, r.blk)] })) := by
  obtain ⟨hins, hpart, hwhole, hruns⟩ := ha
  have htaken : s.modEngine e.val (fun x => { x with ins := x.ins.erase r }) = s.blockTaken e := by
    simp [State.blockTaken, hins]
  have hfound : (s.engine e.val).ins.find? (fun k => k.part = p && k.blk = r.blk && k.whole) = some r := by
    simp [hins, hpart, hwhole]
  simp only [exec, execTailraceBlockArrival, hfound, hruns, hb.job, hb.plan, Option.bind_some, htaken, catchUp_idle hb.idle,
    Bool.not_true, Bool.false_eq_true, if_false]

/-- A block whose turn has not come is deferred (R219, R220). -/
theorem blockArrival_defers (hb : BlockPlanned s e p j ep bp r.blk.hdr) (ha : BlockArrives s e p r)
    (hlive : s.isLive p.val = true) (hturn : s.turnCome e.val p r.blk.hdr = false) :
    Gives (.tailraceBlockArrival e p r.blk) s (fun u => u.parts = s.parts ∧ u.engine e.val
      = { s.engine e.val with ins := [], deferred := (s.engine e.val).deferred ++ [(p, r.blk)] }) := by
  have hexec : exec (.tailraceBlockArrival e p r.blk) s
      = done ((s.blockTaken e).modEngine e.val (fun x => { x with deferred := x.deferred ++ [(p, r.blk)] })) := by
    rw [blockArrival_eq hb ha, hlive, hturn]
    rfl
  refine ⟨_, hexec, rfl, ?_⟩
  have hengine : ((s.blockTaken e).modEngine e.val (fun x => { x with deferred := x.deferred ++ [(p, r.blk)] })).engine e.val
      = { s.engine e.val with ins := [], deferred := (s.engine e.val).deferred ++ [(p, r.blk)] } := by
    rw [State.modEngine_eq, State.engine_setEngine_same, blockTaken_engine]
  exact hengine

/-- One of a partition that has stopped is discarded (R274). -/
theorem blockArrival_discards (hb : BlockPlanned s e p j ep bp r.blk.hdr) (ha : BlockArrives s e p r)
    (hdead : s.isLive p.val = false) (hfree : s.blockWaits e p r.blk = false) :
    Gives (.tailraceBlockArrival e p r.blk) s (fun u => u.parts = s.parts ∧ (u.engine e.val).work
      = ({ s.engine e.val with ins := [] } : Engine).work) := by
  have hexec : exec (.tailraceBlockArrival e p r.blk) s
      = done ((s.blockTaken e).clearJournal ep r.blk.hdr.group.toNat r.blk.hdr.block.toNat r.blk.hdr.stamp) := by
    rw [blockArrival_eq hb ha, hdead, hfree]
    rfl
  have hwork := (WorkKept.clearJournal (s.blockTaken e) ep r.blk.hdr.group.toNat r.blk.hdr.block.toNat r.blk.hdr.stamp).engine e.val
  have hrecorded := Recorded.clearJournal (s.blockTaken e) ep r.blk.hdr.group.toNat r.blk.hdr.block.toNat r.blk.hdr.stamp
  rw [blockTaken_engine] at hwork
  generalize (s.blockTaken e).clearJournal ep r.blk.hdr.group.toNat r.blk.hdr.block.toNat r.blk.hdr.stamp = u at hexec hwork hrecorded
  refine ⟨_, hexec, ?_, hwork⟩
  have hparts : u.parts = s.parts := by
    rw [hrecorded.frame]
    rfl
  exact hparts

theorem blockArrival_waits (hbound : s.bounded) (hb : BlockPlanned s e p j ep bp r.blk.hdr) (ha : BlockArrives s e p r)
    (hlive : s.isLive p.val = true) (hturn : s.turnCome e.val p r.blk.hdr = true) (hwait : s.blockWaits e p r.blk = true) :
    exec (.tailraceBlockArrival e p r.blk) s = .next s := by
  rw [blockArrival_eq hb ha, hlive, hturn, hwait]
  exact done_bounded hbound

/-- One whose turn has come, and that waits for no channel, is handled. -/
theorem blockArrival_handled (hb : BlockPlanned s e p j ep bp r.blk.hdr) (ha : BlockArrives s e p r)
    (hlive : s.isLive p.val = true) (hturn : s.turnCome e.val p r.blk.hdr = true) (hfree : s.blockWaits e p r.blk = false) :
    exec (.tailraceBlockArrival e p r.blk) s = done (((s.blockTaken e).handleBlock e p r.blk).checkSluice ep) := by
  rw [blockArrival_eq hb ha, hlive, hturn, hfree]
  rfl

/-- The check of the sluice, which follows on the handling of a block, leaves a skipped one skipped. -/
theorem SkippedAs.kept {h : TailHdr} {c : Contribution} {v : State} (hs : SkippedAs s u e p h c) (hk : WorkKept u v) :
    SkippedAs s v e p h c := by
  obtain ⟨hcontribution, hskipped, hhandled, hflags, hcounted, hexpected, hsettled, hdeferred⟩ := hs
  exact ⟨by rw [hk.contribs]; exact hcontribution, hskipped, hhandled, hflags, (hk.counted (by decide) (by omega)).trans hcounted,
    by rw [hk.expected]; exact hexpected, by rw [hk.settled]; exact hsettled, (hk.deferred _).trans hdeferred⟩

theorem PoisonComes.engineChanged {x : Engine} (hp : PoisonComes s p j bp a blk) (hengine : bp.engine = e)
    (hx : x.heldReads = (s.engine e.val).heldReads) : PoisonComes (s.setEngine e.val x) p j bp a blk := by
  obtain ⟨hpoison, hwhole, hunjoined, ⟨harea, hleaf, hundigested, hunheld⟩, hgroup, hnumber⟩ := hp
  refine ⟨hpoison, hwhole, hunjoined, ⟨harea, hleaf, hundigested, ?_⟩, hgroup, hnumber⟩
  rw [hengine] at hunheld ⊢
  rw [State.engine_setEngine_same, hx, hunheld]

theorem blockArrival_skips (hb : BlockPlanned s e p j ep bp r.blk.hdr) (ha : BlockArrives s e p r)
    (hlive : s.isLive p.val = true) (hturn : s.turnCome e.val p r.blk.hdr = true) (hfree : s.blockWaits e p r.blk = false)
    (hp : PoisonComes s p j bp a r.blk)
    (hnext : mfind (ekey p.val r.blk.hdr.group.toNat r.blk.hdr.block.toNat) (s.engine e.val).expected = some r.blk.hdr.stamp) :
    Gives (.tailraceBlockArrival e p r.blk) s (fun u => ∃ c, SkippedAs s u e p r.blk.hdr c) := by
  have hexec := blockArrival_handled hb ha hlive hturn hfree
  obtain ⟨c, hskipped⟩ := handleBlock_skips (a := a) hb.taken (hp.engineChanged hb.engine rfl)
    (by rw [blockTaken_engine]; exact hnext)
  have hchecked := hskipped.kept (WorkKept.checkSluice _ ep)
  generalize ((s.blockTaken e).handleBlock e p r.blk).checkSluice ep = u at hexec hchecked
  obtain ⟨hcontribution, hskip, hhandled, hflags, hcounted, hexpected, hsettled, hdeferred⟩ := hchecked
  rw [blockTaken_engine] at hdeferred
  exact ⟨_, hexec, c, hcontribution, hskip, hhandled, hflags, hcounted, hexpected, hsettled, hdeferred⟩

theorem blockArrival_handles (hb : BlockPlanned s e p j ep bp r.blk.hdr) (ha : BlockArrives s e p r)
    (hlive : s.isLive p.val = true) (hturn : s.turnCome e.val p r.blk.hdr = true) (hfree : s.blockWaits e p r.blk = false)
    (hnext : mfind (ekey p.val r.blk.hdr.group.toNat r.blk.hdr.block.toNat) (s.engine e.val).expected = some r.blk.hdr.stamp) :
    Gives (.tailraceBlockArrival e p r.blk) s (fun u => Handled s u e p r.blk.hdr) := by
  have hexec := blockArrival_handled hb ha hlive hturn hfree
  obtain ⟨hexpected, hhandled⟩ := handleBlock_handles hb.taken (by rw [blockTaken_engine]; exact hnext)
  have hchecked := WorkKept.checkSluice ((s.blockTaken e).handleBlock e p r.blk) ep
  rw [← hchecked.expected] at hexpected
  rw [← hchecked.contribs] at hhandled
  generalize ((s.blockTaken e).handleBlock e p r.blk).checkSluice ep = u at hexec hexpected hhandled
  exact ⟨_, hexec, hexpected, hhandled⟩

theorem blockArrival_rejects (hb : BlockPlanned s e p j ep bp r.blk.hdr) (ha : BlockArrives s e p r)
    (hlive : s.isLive p.val = true) (hturn : s.turnCome e.val p r.blk.hdr = true) (hfree : s.blockWaits e p r.blk = false)
    (hnext : mfind (ekey p.val r.blk.hdr.group.toNat r.blk.hdr.block.toNat) (s.engine e.val).expected ≠ some r.blk.hdr.stamp) :
    Gives (.tailraceBlockArrival e p r.blk) s (fun u => Rejected s u e p) := by
  have hlow : okey 0x7420 5 e.val / 2 ^ 24 ≠ 0x7410 := by
    simp only [okey]
    omega
  have hexec := blockArrival_handled hb ha hlive hturn hfree
  obtain ⟨hcounted, hpart⟩ := handleBlock_rejects hb.taken (by rw [blockTaken_engine]; exact hnext)
  have hchecked := Recorded.checkSluice ((s.blockTaken e).handleBlock e p r.blk) ep
  have hcount := (hchecked.count _ _ _ hlow).trans hcounted
  have hparts := (hchecked.part p.val).trans hpart
  generalize ((s.blockTaken e).handleBlock e p r.blk).checkSluice ep = u at hexec hcount hparts
  exact ⟨_, hexec, hcount, hparts⟩

/-! Deferred blocks (R220). -/

theorem deferredCheck_eq {g : GroupId} (hdeferred : (s.engine e.val).deferred = [(p, blk)])
    (hgroup : g.val = blk.hdr.group.toNat) (hruns : s.engineRuns e.val = true) : exec (.deferredBlockCheck e p g blk.hdr.block) s
      = done (if !s.turnCome e.val p blk.hdr || s.blockWaits e p blk then s
        else (s.setEngine e.val { s.engine e.val with deferred := [] }).handleBlock e p blk) := by
  have herased : s.modEngine e.val (fun x => { x with deferred := x.deferred.erase (p, blk) })
      = s.setEngine e.val { s.engine e.val with deferred := [] } := by
    simp [hdeferred]
  have hfound : (s.engine e.val).deferred.find? (fun d => d.1 = p && d.2.hdr.group.toNat = g.val && d.2.hdr.block = blk.hdr.block)
      = some (p, blk) := by
    simp [hdeferred, hgroup]
  simp only [exec, execDeferredBlockCheck, hfound, hruns, herased, Bool.not_true, Bool.or_false]

theorem deferredCheck_skips {g : GroupId} (hb : BlockPlanned s e p j ep bp blk.hdr)
    (hdeferred : (s.engine e.val).deferred = [(p, blk)]) (hgroup : g.val = blk.hdr.group.toNat)
    (hruns : s.engineRuns e.val = true) (hturn : s.turnCome e.val p blk.hdr = true) (hfree : s.blockWaits e p blk = false)
    (hp : PoisonComes s p j bp a blk)
    (hnext : mfind (ekey p.val blk.hdr.group.toNat blk.hdr.block.toNat) (s.engine e.val).expected = some blk.hdr.stamp) :
    Gives (.deferredBlockCheck e p g blk.hdr.block) s (fun u =>
      (∃ c, SkippedAs (s.setEngine e.val { s.engine e.val with deferred := [] }) u e p blk.hdr c)
      ∧ (u.engine e.val).deferred = []) := by
  have hexec := deferredCheck_eq hdeferred hgroup hruns
  rw [hturn, hfree] at hexec
  have hengine : (s.setEngine e.val { s.engine e.val with deferred := [] }).engine e.val = { s.engine e.val with deferred := [] } :=
    State.engine_setEngine_same _ _ _
  have hb' : BlockPlanned (s.setEngine e.val { s.engine e.val with deferred := [] }) e p j ep bp blk.hdr :=
    ⟨hb.job, hb.plan, hb.block, hb.owner, hb.engine, by rw [hengine]; exact hb.idle⟩
  obtain ⟨c, hskipped⟩ := handleBlock_skips (a := a) hb' (hp.engineChanged hb.engine rfl) (by rw [hengine]; exact hnext)
  have hnone := hskipped.deferred
  rw [hengine] at hnone
  replace hexec : exec (.deferredBlockCheck e p g blk.hdr.block) s
    = done ((s.setEngine e.val { s.engine e.val with deferred := [] }).handleBlock e p blk) := hexec
  generalize (s.setEngine e.val { s.engine e.val with deferred := [] }).handleBlock e p blk = u at hexec hskipped hnone
  obtain ⟨hcontribution, hskip, hhandled, hflags, hcounted, hexpected, hsettled, hdef⟩ := hskipped
  exact ⟨_, hexec, ⟨c, hcontribution, hskip, hhandled, hflags, hcounted, hexpected, hsettled, hdef⟩, hnone⟩

end

/-- Settles O34: by whether the block's turn has come, whether it waits, and whether it is the next expected. -/
theorem blocksAreDeferredSkippedOrRejected : Obligations.BlocksAreDeferredSkippedOrRejected := by
  intro s e p r j ep bp a hbound hjob hplan blk h x g key c early inHand skipped turn hblock howner hengine harea hgroup hnumber
    hruns hidle waits
  have hb : BlockPlanned s e p j ep bp r.blk.hdr := ⟨hjob, hplan, hblock, howner, hengine, hidle⟩
  have hturn (hearly : 0 ≤ early) (hhand : inHand = false) : s.turnCome e.val p r.blk.hdr = true := by
    rw [State.turnCome, decide_eq_true hearly, show (s.engine e.val).working p g h.block.toNat = false from hhand]
    rfl
  have hnoTurn (hnot : early < 0 ∨ inHand = true) : s.turnCome e.val p r.blk.hdr = false := by
    obtain hearly | hhand := hnot
    · rw [State.turnCome, decide_eq_false (Int.not_le.2 hearly), Bool.false_and]
    · rw [State.turnCome, show (s.engine e.val).working p g h.block.toNat = true from hhand, Bool.not_true, Bool.and_false]
  have hpoison (ht : turn) : PoisonComes s p j bp a r.blk := by
    obtain ⟨hnext, hbad, hwhole, hparams, hunjoined, hundigested, hunheld, hleaf⟩ := ht
    exact ⟨hbad, hwhole, hunjoined, ⟨by rw [hgroup, hnumber]; exact harea, hleaf, hundigested, by rw [hengine]; exact hunheld⟩,
      hgroup, hnumber⟩
  have hskipped {s' u : State} {d : Contribution} (hs : SkippedAs s' u e p r.blk.hdr d) (hlive : s'.live = s.live)
      (hparts : s'.parts = s.parts) : skipped u := by
    obtain ⟨hcontribution, hskip, hhandled, hflags, hcounted, hexpected, hsettled, -⟩ := hs
    have hpart : s'.part p.val = s.part p.val := by rw [State.part, hparts, State.part]
    rw [hpart] at hskip hhandled hflags
    rw [State.count, State.count, hlive] at hcounted
    have hc : c u = d := hcontribution
    exact ⟨by rw [hc]; exact hskip, by rw [hc]; exact hhandled, by rw [hc]; exact hflags, hcounted, hexpected, hsettled⟩
  refine ⟨fun hins hpart hwhole hlive => ?_, fun hins hpart hwhole hdead hfree => ?_, fun hdeferred hg => ?_⟩
  · have ha : BlockArrives s e p r := ⟨hins, hpart, hwhole, hruns⟩
    refine ⟨fun hearly hhand hwait => blockArrival_waits hbound hb ha hlive (hturn hearly hhand) hwait, fun hnot => ?_,
      fun hearly hhand hfree ht => ?_, fun hearly hhand hfree hnext => ?_, fun hearly hhand hfree hnext => ?_⟩
    · obtain ⟨u, hexec, hparts, hu⟩ := blockArrival_defers hb ha hlive (hnoTurn hnot)
      exact ⟨u, hexec, by rw [hu], by rw [hu], by rw [hu], by simp only [c, State.part, hparts]⟩
    · obtain ⟨u, hexec, d, hs⟩ := blockArrival_skips hb ha hlive (hturn hearly hhand) hfree (hpoison ht) ht.1
      exact ⟨u, hexec, hskipped hs rfl rfl⟩
    · obtain ⟨u, hexec, hexpected, hhandled⟩ := blockArrival_handles hb ha hlive (hturn hearly hhand) hfree hnext
      exact ⟨u, hexec, hexpected, hhandled⟩
    · obtain ⟨u, hexec, hcounted, hu⟩ := blockArrival_rejects hb ha hlive (hturn hearly hhand) hfree hnext
      exact ⟨u, hexec, hcounted, by simp only [c, hu], by rw [hu]⟩
  · obtain ⟨u, hexec, hparts, hwork⟩ := blockArrival_discards hb ⟨hins, hpart, hwhole, hruns⟩ hdead hfree
    have hnone := congrArg Engine.ins hwork
    have hexpected := congrArg Engine.expected hwork
    have hsame := congrArg Engine.deferred hwork
    exact ⟨u, hexec, hnone, by simp only [c, State.part, hparts], hexpected, hsame⟩
  · refine ⟨fun hnot => ?_, fun hearly hhand hfree ht => ?_⟩
    · have hstays : (!s.turnCome e.val p r.blk.hdr || s.blockWaits e p r.blk) = true := by
        obtain hearly | hhand | hwait := hnot
        · rw [hnoTurn (.inl hearly)]
          rfl
        · rw [hnoTurn (.inr hhand)]
          rfl
        · rw [show s.blockWaits e p r.blk = true from hwait, Bool.or_true]
      exact (deferredCheck_eq hdeferred hg hruns).trans ((congrArg done (if_pos hstays)).trans (done_bounded hbound))
    · obtain ⟨u, hexec, ⟨d, hs⟩, hnone⟩ := deferredCheck_skips hb hdeferred hg hruns (hturn hearly hhand) hfree (hpoison ht) ht.1
      exact ⟨u, hexec, hskipped hs rfl rfl, hnone⟩

end Sys2Proof.Machine
end

section
/-! SUPPORT. The markers of the layer guard, its vote, and what the sum of its tree makes of the layer (O17). -/
namespace Sys2Proof.Machine

/-! The markers (R261, R264). -/

section
variable {s : State} {t : TileId} {c : CtxId} {h : Hdr} {compiled : Bool} {route : Fin 512} {layer : BitVec 16} {g : Guard}

theorem Begun.guard {w : State} (hw : Begun s w t c) : (w.tile t.val).guard = (s.tile t.val).guard :=
  hw.field Tile.guard (fun _ _ _ _ => rfl) _

/-- A marker that has made x of its tile and issues: it signals, and the next instruction follows (R112, R116). -/
theorem marker_goesOn {w : State} {x : Tile} {z : Ctx} (hw : Begun s w t c) (hctx : x.ctx c.val = z) (hpc : z.pc < 8191)
    (hrun : z.run.unissued = false) (sig : Option (Fin 64)) :
    let u := (((w.setTile t.val x).signal t.val sig).advance t.val c.val).unissue s t.val c.val
    OnlyTile t s u ∧ (u.tile t.val).guard = x.guard ∧ (u.tile t.val).ctx c.val = { z with pc := z.pc + 1 } := by
  subst hctx
  have hend := ((hw.made.setTile x).signal sig).advance (c := c.val) hpc
  have hgoes : ((((w.setTile t.val x).signal t.val sig).advance t.val c.val).tile t.val).ctx c.val
      = { x.ctx c.val with pc := (x.ctx c.val).pc + 1 } := by
    rw [hend.tile, Tile.ctx_setCtx_same]
    rfl
  rw [unissue_of_issued (by rw [hgoes]; exact hrun)]
  exact ⟨hend.only, by rw [hend.tile, Tile.setCtx_guard], hgoes⟩

/-- The guard that an open marker opens (R261, R263). -/
def State.openedGuard (s : State) (t : TileId) (c : CtxId) (compiled : Bool) (route : Fin 512) (layer : BitVec 16) : Guard :=
  { ctx := c, level := 0, on := compiled || s.cold t.val || decide (s.obj 0x8140 1 0 = 1),
    counters := (s.tile t.val).counters, sems := (s.tile t.val).sems, resume := (s.asIssued t c).pc + 1,
    route := route.val, layer := layer.toNat, mark := (s.tile t.val).nextId }

/-- While the open marker issues, the guard that it opens is that of the state before. -/
theorem Begun.openedGuard {w : State} (hw : Begun s w t c) :
    ({ ctx := c, level := 0, on := compiled || w.cold t.val || decide (w.obj 0x8140 1 0 = 1),
       counters := (w.tile t.val).counters, sems := (w.tile t.val).sems, resume := ((w.tile t.val).ctx c.val).pc + 1,
       route := route.val, layer := layer.toNat, mark := (w.tile t.val).nextId } : Guard)
      = s.openedGuard t c compiled route layer := by
  have hobj : w.obj 0x8140 1 0 = s.obj 0x8140 1 0 := hw.ofState (State.obj · 0x8140 1 0) (fun _ _ => rfl)
  have hcounters : (w.tile t.val).counters = (s.tile t.val).counters := hw.field Tile.counters (fun _ _ _ _ => rfl) _
  have hsems : (w.tile t.val).sems = (s.tile t.val).sems := hw.field Tile.sems (fun _ _ _ _ => rfl) _
  rw [hw.cold, hobj, hcounters, hsems, hw.ctx, hw.nextId, State.openedGuard]

/-- An open marker on a tile without a guard. -/
theorem guardOpen_opens (hb : s.bounded) (hroute : route.val ≠ 511) (hnone : (s.tile t.val).guard = none) :
    Issued s t c (5, 7) h (lowGuard true compiled 0 route layer) (.guardOpen t c h compiled 0 route layer) (fun u =>
      OnlyTile t s u
        ∧ (u.tile t.val).ctx c.val = { (s.asIssued t c).setScalar 13 0 with pc := (s.asIssued t c).pc + 1 }
        ∧ (u.tile t.val).guard = some (s.openedGuard t c compiled route layer)) :=
  issued_of_only hb rfl fun w hw hpc => by
    have hlegal : ((0 : BitVec 6) != 0 || decide (route.val = 511) || (w.tile t.val).guard.isSome) = false := by
      simp [hroute, hw.guard, hnone]
    dsimp only
    rw [if_neg (Bool.eq_false_iff.1 hlegal), hw.openedGuard]
    generalize hx : Tile.modCtx _ _ _ = x
    have hctx : x.ctx c.val = (s.asIssued t c).setScalar 13 0 := by
      rw [← hx, Tile.modCtx, Tile.ctx_setCtx_same, ← hw.ctx]
      rfl
    obtain ⟨honly, hguard, hgoes⟩ := marker_goesOn hw hctx hpc rfl (sigOf h)
    exact ⟨honly, honly, hgoes, hguard.trans (by rw [← hx]; rfl)⟩

/-- What a close marker checks of its route and of the guard's context. -/
theorem close_legal (hroute : route.val ≠ 511) (hown : g.ctx = c) :
    ((0 : BitVec 6) != 0 || decide (route.val = 511) || g.ctx != c) = false := by
  simp [hroute, hown]

section
variable (hb : s.bounded) (hroute : route.val ≠ 511) (hopen : (s.tile t.val).guard = some g) (hown : g.ctx = c)
include hb hroute hopen hown

/-- The close marker of a guard in effect holds its context until the sum comes back (R264). -/
theorem guardClose_holds (hon : g.on = true) :
    Issued s t c (5, 7) h (lowGuard false compiled 0 route layer) (.guardClose t c h compiled 0 route layer) (fun u =>
      OnlyTile t s u ∧ (u.tile t.val).guard = some { g with closing := true, route := route.val }
        ∧ (u.tile t.val).ctx c.val
          = { s.asIssued t c with pc := (s.asIssued t c).pc + 1, run := .waiting .guard (s.coreOf t.val) }) :=
  issued_of_only hb rfl fun w hw hpc => by
    simp only [hw.guard, hopen, close_legal hroute hown, hon, Bool.not_true, Bool.false_eq_true, if_false]
    generalize hx : Tile.modCtx _ _ _ = x
    have hctx : x.ctx c.val = { s.asIssued t c with run := .waiting .guard (s.coreOf t.val) } := by
      rw [← hx, Tile.modCtx, Tile.ctx_setCtx_same, ← hw.ctx, hw.coreOf]
      rfl
    obtain ⟨honly, hguard, hgoes⟩ := marker_goesOn hw hctx hpc rfl (sigOf h)
    exact ⟨honly, honly, hguard.trans (by rw [← hx]; rfl), hgoes⟩

/-- The close marker of a guard that is not in effect ends it (R263). -/
theorem guardClose_ends (hoff : g.on = false) :
    Issued s t c (5, 7) h (lowGuard false compiled 0 route layer) (.guardClose t c h compiled 0 route layer) (fun u =>
      OnlyTile t s u ∧ (u.tile t.val).guard = none
        ∧ (u.tile t.val).ctx c.val = { s.asIssued t c with pc := (s.asIssued t c).pc + 1 }) :=
  issued_of_only hb rfl fun w hw hpc => by
    simp only [hw.guard, hopen, close_legal hroute hown, hoff, Bool.not_false, Bool.false_eq_true, if_false, if_true]
    generalize hx : ({ w.tile t.val with guard := none } : Tile) = x
    have hctx : x.ctx c.val = s.asIssued t c := by
      rw [← hx]
      exact hw.ctx
    obtain ⟨honly, hguard, hgoes⟩ := marker_goesOn hw hctx hpc rfl (sigOf h)
    exact ⟨honly, honly, hguard.trans (by rw [← hx]), hgoes⟩

end

end

/-! The vote and its sum (R264). -/

/-- A tile that executes has a guard g of partition p whose close waits. -/
structure Closing (s : State) (t : TileId) (p : PartId) (g : Guard) : Prop where
  executes : s.executes t.val = true
  part : (s.tile t.val).part = some p
  guard : (s.tile t.val).guard = some g
  closing : g.closing = true

/-- The vote of a tile (R262, R264). -/
def voteFlit (x : Tile) (t : TileId) (p : PartId) (g : Guard) : Flit :=
  { vc := 3, ty := .reduce, part := p, route := g.route, dst := t.val, src := t.val, poison := x.poison,
    head := true, tail := true, len := 128, pktLen := 1,
    data := leBytes 4 (if x.overflow then 0x3F800000 else 0) ++ List.replicate 124 0 }

/-- The tile of a guard that has ended with a sum: its context is ready again. -/
def Tile.guardEnded (x : Tile) (sum : BitVec 32) (g : Guard) : Tile :=
  { x with inbox := x.inbox.erase (.vote sum), guard := none }.modCtx g.ctx.val (fun y => { y with run := .ready })

/-- The tile of a guard whose layer begins again one level up, with the counters and semaphores of its open (R265). -/
def Tile.layerRepeated (x : Tile) (sum : BitVec 32) (g : Guard) : Tile :=
  { x with
    inbox := x.inbox.erase (.vote sum), guard := some { g with level := g.level + 1, closing := false, voted := false },
    overflow := false, counters := g.counters, sems := g.sems }.modCtx g.ctx.val
      (fun y => { ({ y with run := .ready } : Ctx).setScalar 13 (BitVec.ofNat 32 (g.level + 1)) with pc := g.resume })

theorem guardEnded_ctx (x : Tile) (sum : BitVec 32) (g : Guard) :
    (x.guardEnded sum g).ctx g.ctx.val = { x.ctx g.ctx.val with run := .ready } := Tile.ctx_setCtx_same _ _ _

theorem layerRepeated_ctx (x : Tile) (sum : BitVec 32) (g : Guard) : (x.layerRepeated sum g).ctx g.ctx.val
    = { ({ x.ctx g.ctx.val with run := .ready } : Ctx).setScalar 13 (BitVec.ofNat 32 (g.level + 1)) with pc := g.resume } :=
  Tile.ctx_setCtx_same _ _ _

/-- The root of a guard tree tells of a repeat by an event, or does not tell (R264). -/
theorem Recorded.tellGuard (s : State) (t : Nat) (g : Guard) (p level : Nat) : Recorded s (s.tellGuard t g p level) := by
  unfold State.tellGuard
  split
  · exact Recorded.raise _ _ _ _ _
  · exact Recorded.refl s

section
variable {s : State} {t : TileId} {p : PartId} {g : Guard} {sum : BitVec 32}

/-- Once the transfers of the layer have completed, the vote goes into the router. -/
theorem guardVoteSend_votes (hc : Closing s t p g) (hunvoted : g.voted = false)
    (hpast : ∀ q ∈ (s.tile t.val).queues, ∀ z ∈ q.2.xfers, z.id < g.mark) : Gives (.guardVoteSend t) s (fun u =>
      (u.tile t.val).guard = some { g with voted := true }
        ∧ (u.router t.val).buf 4 3
          = (s.router t.val).buf 4 3 ++ s.entering t.val [voteFlit (s.tile t.val) t p g]) := by
  have hcompleted : (s.tile t.val).queues.any (fun q => q.2.xfers.any (fun z => g.mark ≤ z.id)) = false := by
    simp only [List.any_eq_false, List.any_eq_true, decide_eq_true_eq, not_exists, not_and, Nat.not_le]
    exact hpast
  have heq : exec (.guardVoteSend t) s
      = done ((s.setTile t.val { s.tile t.val with guard := some { g with voted := true } }).pushFlits t.val 4 3
          [voteFlit (s.tile t.val) t p g]) := by
    simp only [exec, execGuardVoteSend, hc.guard, hc.part, hc.executes, hc.closing, hunvoted, hcompleted, Bool.not_false,
      Bool.and_self, if_true, voteFlit]
  refine ⟨_, heq.trans (done_next _), ?_, pushFlits_buf _ t.val 4 3 _⟩
  show ((State.setTile _ _ _).tile t.val).guard = _
  rw [State.tile_setTile_same]

/-- No sum has come back. -/
theorem guardVoteResult_waits (hb : s.bounded) (hc : Closing s t p g)
    (hnone : (s.tile t.val).inbox.contains (.vote sum) = false) : exec (.guardVoteResult t sum) s = .next s := by
  rw [← done_bounded hb]
  simp only [exec, execGuardVoteResult, hc.guard, hc.part, hnone, Bool.and_false, Bool.not_false, if_true]

/-- What a tile that counts one event of the guard and may tell of it gives. -/
theorem gives_of_told {i : Instr} {y : Tile} {k level : Nat} (hk : k < 256)
    (hi : exec i s = done (((s.setTile t.val y).bump 0x7200 k t.val 1).tellGuard t.val g p.val level)) :
    Gives i s (fun u => u.tile t.val = y ∧ u.count 0x7200 k t.val = s.count 0x7200 k t.val + 1) := by
  have htold := Recorded.tellGuard ((s.setTile t.val y).bump 0x7200 k t.val 1) t.val g p.val level
  have hkey : okey 0x7200 k t.val / 2 ^ 24 ≠ 0x7410 := by
    have := t.isLt
    simp only [okey]
    omega
  refine ⟨_, hi.trans (done_next _), (htold.tile _).trans ?_, (htold.count _ _ _ hkey).trans ?_⟩
  · rw [State.tile_bump, State.tile_setTile_same]
  · rw [State.count_bump_same, State.count_setTile]

section
variable (hc : Closing s t p g) (hvoted : g.voted = true) (hsum : (s.tile t.val).inbox.contains (.vote sum) = true)
include hc hvoted hsum

/-- A sum that has come back ends the guard, or repeats the layer, or ends the guard with a poisoned tile. -/
theorem guardVoteResult_eq : exec (.guardVoteResult t sum) s = done (
    if (Fmt.a32.decode sum.toNat).isZero then s.setTile t.val ((s.tile t.val).guardEnded sum g)
    else if g.level < 2 then
      ((s.setTile t.val ((s.tile t.val).layerRepeated sum g)).bump 0x7200 0x13 t.val 1).tellGuard t.val g p.val (g.level + 1)
    else
      ((s.setTile t.val { (s.tile t.val).guardEnded sum g with poison := true }).bump 0x7200 0x14 t.val 1).tellGuard
        t.val g p.val 3) := by
  have hback : (!(g.closing && g.voted && s.executes t.val && (s.tile t.val).inbox.contains (.vote sum))) = false := by
    rw [hc.closing, hvoted, hc.executes, hsum]
    rfl
  simp only [exec, execGuardVoteResult]
  split
  · next g' p' hguard hpart =>
    obtain rfl : g = g' := Option.some.inj (hc.guard.symm.trans hguard)
    obtain rfl : p = p' := Option.some.inj (hc.part.symm.trans hpart)
    rw [if_neg (Bool.eq_false_iff.1 hback)]
    rfl
  · next hother => exact absurd hc.part (hother g p hc.guard)

/-- A sum of 0: no tile of the tree has set its latch. -/
theorem guardVoteResult_ends (hb : s.bounded) (hzero : (Fmt.a32.decode sum.toNat).isZero = true) :
    Gives (.guardVoteResult t sum) s (fun u => OnlyTile t s u ∧ (u.tile t.val).guard = none
      ∧ ((u.tile t.val).ctx g.ctx.val).run = .ready) := by
  have heq := guardVoteResult_eq hc hvoted hsum
  rw [if_pos hzero] at heq
  obtain ⟨honly, htile⟩ := (TileMade.refl t s).setTile ((s.tile t.val).guardEnded sum g)
  exact ⟨_, heq.trans (done_bounded (only_bounded hb honly)), honly, by rw [htile]; rfl, by rw [htile, guardEnded_ctx]⟩

/-- Any other sum below level 2. -/
theorem guardVoteResult_repeats (hset : (Fmt.a32.decode sum.toNat).isZero = false) (hlevel : g.level < 2) :
    Gives (.guardVoteResult t sum) s (fun u => u.tile t.val = (s.tile t.val).layerRepeated sum g
      ∧ u.count 0x7200 0x13 t.val = s.count 0x7200 0x13 t.val + 1) := by
  have heq := guardVoteResult_eq hc hvoted hsum
  rw [if_neg (Bool.eq_false_iff.1 hset), if_pos hlevel] at heq
  exact gives_of_told (by decide) heq

/-- Any other sum at level 2. -/
theorem guardVoteResult_poisons (hset : (Fmt.a32.decode sum.toNat).isZero = false) (hlevel : 2 ≤ g.level) :
    Gives (.guardVoteResult t sum) s (fun u => u.tile t.val = { (s.tile t.val).guardEnded sum g with poison := true }
      ∧ u.count 0x7200 0x14 t.val = s.count 0x7200 0x14 t.val + 1) := by
  have heq := guardVoteResult_eq hc hvoted hsum
  rw [if_neg (Bool.eq_false_iff.1 hset), if_neg (Nat.not_lt.2 hlevel)] at heq
  exact gives_of_told (by decide) heq

end

end

/-- Settles O17: the two markers, the vote, and the outcomes of a sum by its value and the guard's level are a lemma each. -/
theorem guardRepeatsTheLayer : Obligations.GuardRepeatsTheLayer := by
  intro s t c h compiled route layer g p sum hb
  refine ⟨fun _ hroute => ⟨guardOpen_opens hb hroute, guardClose_holds hb hroute, guardClose_ends hb hroute⟩,
    fun hexec hpart hguard hclosing => ?_⟩
  have hc : Closing s t p g := ⟨hexec, hpart, hguard, hclosing⟩
  refine ⟨fun hunvoted hpast => ?_, fun _ => guardVoteResult_waits hb hc, fun hvoted hsum =>
    ⟨guardVoteResult_ends hc hvoted hsum hb, fun hset hlevel => ?_, fun hset hlevel => ?_⟩⟩
  · obtain ⟨u, hu, hsent, hbuf⟩ := guardVoteSend_votes hc hunvoted hpast
    exact ⟨u, hu, hsent, _, hbuf, rfl, rfl, List.take_left' (leBytes_length 4 _)⟩
  · obtain ⟨u, hu, htile, hcount⟩ := guardVoteResult_repeats hc hvoted hsum hset hlevel
    refine ⟨u, hu, ?_⟩
    beta_reduce
    rw [htile, layerRepeated_ctx]
    exact ⟨rfl, rfl, rfl, rfl, rfl, Ctx.scalar_setScalar_same _ _ _, hcount⟩
  · obtain ⟨u, hu, htile, hcount⟩ := guardVoteResult_poisons hc hvoted hsum hset hlevel
    exact ⟨u, hu, by rw [htile]; rfl, by rw [htile], hcount⟩

end Sys2Proof.Machine
end

section
/-! SUPPORT. What the reports of the service firmware leave as it is, and how a command of a partition that may run ends (O37,
O40). -/
namespace Sys2Proof.Machine

theorem any_congr_of_mem {α : Type} {f g : α → Bool} {l : List α} (h : ∀ a ∈ l, f a = g a) : l.any f = l.any g := by
  induction l with
  | nil => rfl
  | cons a l ih =>
    rw [List.any_cons, List.any_cons, h a List.mem_cons_self, ih fun b hb => h b (List.mem_cons_of_mem _ hb)]

/-- A trace point touches no object but those of the trace (R411, R412). -/
theorem tracePoint_objs (s : State) (kind src : Nat) (stp : BitVec 32) (i b n : Nat) (hi : okey i b n / 2 ^ 24 ≠ 0x9100) :
    (s.tracePoint kind src stp).obj i b n = s.obj i b n := by
  unfold State.tracePoint State.tracePointOf
  split
  · unfold State.traceOut
    dsimp only
    split
    · rfl
    · split
      · refine State.obj_setObj_idx { s with free := s.free + 48 } fun he => hi ?_
        rw [he]
        decide
      · rfl
  · rfl

/-! The firmware's own records. -/

/-- What a start gives a partition: its binary, and the stamps of its start and of its last verdict. -/
def Part.begun (x : Part) : Option Binary × BitVec 32 × BitVec 32 := (x.bin, x.s0, x.lastStamp)

/-- From s to u the commands taken, the turnover and the starts of the partitions have stayed as they are. -/
structure DeskKept (s u : State) : Prop where
  taken : u.taken = s.taken
  turn : u.turn = s.turn
  begun : ∀ q, (u.part q).begun = (s.part q).begun

namespace DeskKept
variable {s u v : State}

theorem of_same (htaken : u.taken = s.taken) (hturn : u.turn = s.turn) (hparts : u.parts = s.parts) : DeskKept s u :=
  ⟨htaken, hturn, fun _ => by rw [State.part, hparts, State.part]⟩

theorem refl (s : State) : DeskKept s s := of_same rfl rfl rfl

theorem trans (h : DeskKept s u) (k : DeskKept u v) : DeskKept s v :=
  ⟨k.taken.trans h.taken, k.turn.trans h.turn, fun q => (k.begun q).trans (h.begun q)⟩

theorem foldl {α : Type} {f : State → α → State} (hf : ∀ s a, DeskKept s (f s a)) (l : List α) (s : State) :
    DeskKept s (l.foldl f s) := by
  induction l generalizing s with
  | nil => exact refl s
  | cons a l ih => exact (hf s a).trans (ih _)

theorem of_recorded (h : Recorded s u) : DeskKept s u := by
  rw [h.frame]
  exact of_same rfl rfl rfl

theorem bin (h : DeskKept s u) (q : Nat) : (u.part q).bin = (s.part q).bin := congrArg Prod.fst (h.begun q)

theorem modPart (s : State) (p : Nat) {f : Part → Part} (hf : ∀ x, (f x).begun = x.begun) : DeskKept s (s.modPart p f) := by
  refine ⟨rfl, rfl, fun q => ?_⟩
  rw [State.modPart_eq, State.part_setPart]
  split
  · next h => rw [hf, h]
  · rfl

theorem tracePoint (s : State) (kind src : Nat) (stp : BitVec 32) : DeskKept s (s.tracePoint kind src stp) := by
  rw [tracePoint_frame]
  exact of_same rfl rfl rfl

theorem toPstate (s : State) (p n : Nat) : DeskKept s (s.toPstate p n) :=
  (of_same rfl rfl rfl : DeskKept s (s.setPstate p n)).trans (tracePoint _ _ _ _)

theorem setObj (s : State) (i b n v : Nat) : DeskKept s (s.setObj i b n v) := of_same rfl rfl rfl

theorem modTile (s : State) (t : Nat) (f : Tile → Tile) : DeskKept s (s.modTile t f) := of_same rfl rfl rfl

/-- What keeps the engines' work and the stages keeps these records, where it keeps the commands. -/
theorem of_work (hwork : WorkKept s u) (hstages : StagesKept s u) (htaken : u.taken = s.taken) : DeskKept s u :=
  ⟨htaken, hstages.2.1, fun q =>
    show (u.part q).record.begun = (s.part q).record.begun by rw [hwork.part q]⟩

end DeskKept

/-! Reports: events, trace points and completions (R385, R388, R411, R417). -/

/-- The objects in which the firmware shows what it has reported. -/
def reportIndexes : List Nat := [0x2300, 0x9000, 0x9100]

/-- From s to u, no more has happened than that the service firmware has reported. -/
structure Reported (s u : State) : Prop extends DeskKept s u where
  tiles : u.tiles = s.tiles
  objs : ∀ i b n, okey i b n / 2 ^ 24 ∉ reportIndexes → u.obj i b n = s.obj i b n

namespace Reported
variable {s u v : State}

theorem of_same (hdesk : DeskKept s u) (htiles : u.tiles = s.tiles) (hdict : u.dict = s.dict) : Reported s u :=
  ⟨hdesk, htiles, fun _ _ _ _ => by simp only [State.obj, hdict]⟩

theorem refl (s : State) : Reported s s := of_same (DeskKept.refl s) rfl rfl

theorem trans (h : Reported s u) (k : Reported u v) : Reported s v :=
  ⟨h.toDeskKept.trans k.toDeskKept, k.tiles.trans h.tiles, fun i b n hi => (k.objs i b n hi).trans (h.objs i b n hi)⟩

theorem foldl {α : Type} {f : State → α → State} (hf : ∀ s a, Reported s (f s a)) (l : List α) (s : State) :
    Reported s (l.foldl f s) := by
  induction l generalizing s with
  | nil => exact refl s
  | cons a l ih => exact (hf s a).trans (ih _)

theorem of_recorded (h : Recorded s u) (hobjs : ObjsKept s u) : Reported s u :=
  ⟨DeskKept.of_recorded h, by rw [h.frame], fun i b n hi => hobjs i b n (fun he => hi (by rw [he]; decide))⟩

theorem setObj (s : State) {i b : Nat} (hi : i ∈ reportIndexes) (hb : b < 256) (v : Nat) : Reported s (s.setObj i b 0 v) := by
  refine ⟨DeskKept.of_same rfl rfl rfl, rfl, fun j c n hj => State.obj_setObj_idx s fun he => hj ?_⟩
  have hidx : okey i b 0 / 2 ^ 24 = i := by
    simp only [okey]
    omega
  rwa [he, hidx]

theorem raise (s : State) (code src : Nat) (stp : BitVec 32) (data : List Byte) : Reported s (s.raise code src stp data) :=
  of_recorded (Recorded.raise s code src stp data) (ObjsKept.raise s code src stp data)

theorem store (s : State) (e : Fin 32) (a : Nat) (bs : List Byte) : Reported s (s.store (.stack e) a bs) :=
  (of_recorded (Recorded.storeEv s e a bs) (ObjsKept.storeEv s e a bs)).trans (foldl (fun w _ => raise w _ _ _ _) _ _)

theorem tracePoint (s : State) (kind src : Nat) (stp : BitVec 32) : Reported s (s.tracePoint kind src stp) :=
  ⟨DeskKept.tracePoint s kind src stp, by rw [tracePoint_frame],
    fun i b n hi => tracePoint_objs s kind src stp i b n fun he => hi (by rw [he]; decide)⟩

theorem askPause (s : State) (p : Nat) (c : PauseCause) : Reported s (s.askPause p c) :=
  of_same (DeskKept.modPart s p fun _ => rfl) rfl rfl

theorem checkFull (s : State) : Reported s s.checkFull := by
  have hfull : Reported s { s with ringFull := true } := of_same (DeskKept.of_same rfl rfl rfl) rfl rfl
  unfold State.checkFull
  split
  · refine (hfull.trans (raise _ _ _ _ _)).trans (foldl (fun w p => ?_) _ _)
    split
    · exact askPause w p .ring
    · exact refl w
  · exact refl s

theorem writeCompletion (s : State) (c : Completion) : Reported s (s.writeCompletion c) :=
  (((store s 0 _ _).trans (setObj _ (i := 0x2300) (by decide) (by decide) _)).trans (tracePoint _ _ _ _)).trans (checkFull _)

theorem flushCompletions (n : Nat) (s : State) : Reported s (s.flushCompletions n) := by
  induction n generalizing s with
  | zero => exact refl s
  | succ n ih =>
    unfold State.flushCompletions
    split
    · exact refl s
    · next c r hw =>
      split
      · exact refl s
      · have hshorter : Reported s { s with waiting := r } := of_same (DeskKept.of_same rfl rfl rfl) rfl rfl
        exact (hshorter.trans (writeCompletion _ c)).trans (ih _)

theorem complete (s : State) (c : Completion) : Reported s (s.complete c) :=
  have hwaiting (w : List Completion) : Reported s { s with waiting := w } := of_same (DeskKept.of_same rfl rfl rfl) rfl rfl
  (hwaiting _).trans (flushCompletions _ _)

theorem readWord (s : State) (e : Fin 32) (w reader : Nat) : Reported s (s.readWord (.stack e) w reader) :=
  (of_recorded (Recorded.readWordEv s e w reader) (ObjsKept.readWordEv s e w reader)).trans
    (foldl (fun w _ => raise w _ _ _ _) _ _)

theorem touch (s : State) (e : Fin 32) (a n reader : Nat) : Reported s (s.touch (.stack e) a n reader) :=
  foldl (fun s w => readWord s e w reader) _ _

/-- The objects of a partition: its rectangle, state, job and stop cause. -/
theorem partObj (h : Reported s u) {i p : Nat} (hi : i ∈ [0x2100, 0x2101, 0x2102, 0x2103]) (hp : p < 16) :
    u.obj i (p + 1) 0 = s.obj i (p + 1) 0 := by
  refine h.objs _ _ _ ?_
  have hidx : okey i (p + 1) 0 / 2 ^ 24 = i := by
    simp only [List.mem_cons, List.not_mem_nil, or_false] at hi
    simp only [okey]
    omega
  rw [hidx]
  simp only [List.mem_cons, List.not_mem_nil, or_false] at hi
  obtain rfl | rfl | rfl | rfl := hi
  all_goals decide

theorem pstate (h : Reported s u) {p : Nat} (hp : p < 16) : u.pstate p = s.pstate p := h.partObj (by decide) hp

theorem rect (h : Reported s u) {p : Nat} (hp : p < 16) : u.rect p = s.rect p := h.partObj (by decide) hp

theorem tile (h : Reported s u) (t : Nat) : u.tile t = s.tile t := by rw [State.tile, h.tiles, State.tile]

theorem isLive (h : Reported s u) {p : Nat} (hp : p < 16) : u.isLive p = s.isLive p := by
  simp only [State.isLive, h.pstate hp]

theorem rectTaken (h : Reported s u) (p v : Nat) : u.rectTaken p v = s.rectTaken p v := by
  refine any_congr_of_mem fun q hq => ?_
  have hlt : q < 16 := List.mem_range.1 hq
  rw [h.pstate hlt, h.rect hlt]

end Reported

theorem toPstate_same (s : State) {p : Nat} (hp : p < 16) (n : Nat) : (s.toPstate p n).pstate p = n := by
  rw [toPstate_pstate s hp, if_pos rfl]

/-! Commands of a partition (R385, R386). -/

/-- A command that has ended: the one that was taken has left the queue, and nothing else has happened but reports. -/
theorem finish_reports {s : State} {c : Taken} (htaken : s.taken = [c]) (code tile : Nat) :
    (s.finish c code tile).taken = [] ∧ Reported { s with taken := [] } (s.finish c code tile) := by
  have hended : (s.completeTaken c code tile).taken = [] ∧ Reported { s with taken := [] } (s.completeTaken c code tile) := by
    have herase : s.taken.erase c = [] := by simp [htaken]
    unfold State.completeTaken
    rw [herase]
    have hreport := fun d => Reported.complete { s with taken := [] } d
    exact ⟨(hreport _).taken, hreport _⟩
  have hnone : s.finish c code tile = s.completeTaken c code tile := by
    rw [State.finish, State.endBad, hended.1]
    rfl
  rwa [hnone]

section
variable {s : State} {p : PartId} {c : Taken} {op : Nat}

/-- The state in which a command of a partition acts: its beginning is traced (R411). -/
def State.atCommand (s : State) : State := s.tracePoint 0 0 0

theorem atCommand_reported (s : State) : Reported s s.atCommand := Reported.tracePoint s 0 0 0

theorem nextTaken_of_onlyTaken (h : s.onlyTaken c p op) : s.nextTaken p.val op = some c := by
  obtain ⟨htaken, hpart, hop, hidle, hup, hstate, -⟩ := h
  have hmode : s.mstate ≠ 1 ∧ ¬ 3 ≤ s.mstate := by omega
  simp [State.nextTaken, hup, hmode, htaken, hpart, hop, hidle]

/-- The one command that has been taken and may run acts. -/
theorem runTaken_of_onlyTaken (h : s.onlyTaken c p op) (f : State → Taken → State) :
    s.runTaken p.val op f = f s.atCommand c := by
  have hturn : s.atCommand.inTurnover p.val = false := by
    rw [State.inTurnover, (atCommand_reported s).turn]
    exact h.2.2.2.2.2.2
  rw [State.runTaken, nextTaken_of_onlyTaken h]
  dsimp only
  rw [← State.atCommand, hturn]
  rfl

theorem atCommand_taken (h : s.onlyTaken c p op) : s.atCommand.taken = [c] := (atCommand_reported s).taken.trans h.1

theorem gives_of_done {i : Instr} {w : State} {P : State → Prop} (hi : exec i s = done w) (hw : P w.trimmed) : Gives i s P :=
  ⟨_, hi, hw⟩

end

end Sys2Proof.Machine
end

section
/-! SUPPORT. A trace point changes nothing of what the load of an image finds, and nothing of its admission (O37). -/
namespace Sys2Proof.Machine

/-! States that differ in the trace alone. -/

/-- The same state with another trace, and with other objects. -/
def State.retraced (s : State) (n k : Nat) (d : Map Nat) (b : Map (List (Nat × List Byte))) : State :=
  { s with free := n, trace := k, dict := d, traceBufs := b }

/-- From s to u only the trace differs, with its objects 0x9100 (R411, R412). -/
structure TracedAlike (s u : State) : Prop where
  frame : ∃ n k d b, u = s.retraced n k d b
  objs : ∀ i b n, okey i b n / 2 ^ 24 ≠ 0x9100 → u.obj i b n = s.obj i b n

/-- What an access to a memory does does not depend on the trace. -/
theorem noteCorrected_retraced (s : State) (m : MemUnit) (a n k : Nat) (d : Map Nat) (b : Map (List (Nat × List Byte))) :
    (s.retraced n k d b).noteCorrected m a = ((s.noteCorrected m a).1.retraced n k d b, (s.noteCorrected m a).2) := by
  unfold State.noteCorrected
  have htick : (s.retraced n k d b).tick = s.tick := rfl
  have htile (t : Nat) : (s.retraced n k d b).tile t = s.tile t := rfl
  have hengine (e : Nat) : (s.retraced n k d b).engine e = s.engine e := rfl
  cases m with
  | sram t =>
    dsimp only
    rw [htick, htile]
    split <;> rfl
  | vault t =>
    dsimp only
    rw [htick]
    have hregion : ((s.retraced n k d b).modRegion (regionOf t.val) (fun r => { r with corrected := r.corrected + 1 })).tile t.val
        = (s.modRegion (regionOf t.val) (fun r => { r with corrected := r.corrected + 1 })).tile t.val := rfl
    rw [hregion]
    split <;> rfl
  | stack e =>
    dsimp only
    rw [htick, hengine]
    split <;> rfl

theorem readWordEv_retraced (s : State) (m : MemUnit) (w reader n k : Nat) (d : Map Nat) (b : Map (List (Nat × List Byte))) :
    (s.retraced n k d b).readWordEv m w reader = ((s.readWordEv m w reader).1.retraced n k d b, (s.readWordEv m w reader).2) := by
  have hmem : (s.retraced n k d b).mem m = s.mem m := rfl
  have hcount (v : State) (i : Nat) : (v.retraced n k d b).countMem m i = (v.countMem m i).retraced n k d b := by
    cases m <;> rfl
  have hset (x : Mem) : (s.retraced n k d b).setMem m x = (s.setMem m x).retraced n k d b := rfl
  unfold State.readWordEv
  rw [hmem]
  dsimp only
  split
  · rfl
  · split
    · rw [hcount]
    · split
      · rfl
      · rw [hset, hcount, noteCorrected_retraced]
      · rw [hset, hcount]

theorem storeWordEv_retraced (m : MemUnit) (a len w : Nat) (x : State × List Ev) (n k : Nat) (d : Map Nat)
    (b : Map (List (Nat × List Byte))) : State.storeWordEv m a len (x.1.retraced n k d b, x.2) w
      = ((State.storeWordEv m a len x w).1.retraced n k d b, (State.storeWordEv m a len x w).2) := by
  unfold State.storeWordEv
  dsimp only
  split
  · rfl
  · rw [readWordEv_retraced]

theorem storeEv_retraced (s : State) (m : MemUnit) (a : Nat) (bs : List Byte) (n k : Nat) (d : Map Nat)
    (b : Map (List (Nat × List Byte))) :
    (s.retraced n k d b).storeEv m a bs = ((s.storeEv m a bs).1.retraced n k d b, (s.storeEv m a bs).2) := by
  have hwords (l : List Nat) (x : State × List Ev) : l.foldl (State.storeWordEv m a bs.length) (x.1.retraced n k d b, x.2)
      = ((l.foldl (State.storeWordEv m a bs.length) x).1.retraced n k d b, (l.foldl (State.storeWordEv m a bs.length) x).2) := by
    induction l generalizing x with
    | nil => rfl
    | cons w l ih => rw [List.foldl_cons, storeWordEv_retraced, ih, List.foldl_cons]
  have hmem : (s.retraced n k d b).mem m = s.mem m := rfl
  have hall := hwords ((s.mem m).badWords m.word a bs.length) (s, [])
  unfold State.storeEv
  rw [hmem]
  dsimp only at hall ⊢
  rw [hall]
  rfl

namespace TracedAlike
variable {s u : State}

theorem refl (s : State) : TracedAlike s s := ⟨⟨_, _, _, _, rfl⟩, fun _ _ _ _ => rfl⟩

theorem foldl {α : Type} {f : State → α → State} (hf : ∀ {s u} a, TracedAlike s u → TracedAlike (f s a) (f u a)) (l : List α)
    (h : TracedAlike s u) : TracedAlike (l.foldl f s) (l.foldl f u) := by
  induction l generalizing s u with
  | nil => exact h
  | cons a l ih => exact ih (hf a h)

/-- An operation that neither reads nor writes the trace and the objects. -/
theorem map {f : State → State} (h : TracedAlike s u) (hf : ∀ s n k d b, f (s.retraced n k d b) = (f s).retraced n k d b) :
    TracedAlike (f s) (f u) := by
  have hdict (s : State) : (f s).dict = s.dict := by
    have hself : f s = (f s).retraced s.free s.trace s.dict s.traceBufs := hf s s.free s.trace s.dict s.traceBufs
    rw [hself]
    rfl
  obtain ⟨⟨n, k, d, b, rfl⟩, hobjs⟩ := h
  refine ⟨⟨n, k, d, b, hf _ _ _ _ _⟩, fun i c m hi => ?_⟩
  have hobj := hobjs i c m hi
  simp only [State.obj, hdict] at hobj ⊢
  exact hobj

theorem setObj (h : TracedAlike s u) (i b n v : Nat) : TracedAlike (s.setObj i b n v) (u.setObj i b n v) := by
  obtain ⟨⟨n', k, d, b', rfl⟩, hobjs⟩ := h
  refine ⟨⟨n', k, _, b', rfl⟩, fun j c m hj => ?_⟩
  rw [State.obj_setObj, State.obj_setObj, hobjs j c m hj]

theorem listRecord (h : TracedAlike s u) (r : Record) : TracedAlike (s.listRecord r) (u.listRecord r) := by
  have hring : TracedAlike { s with ring := r :: s.ring } { u with ring := r :: u.ring } :=
    h.map (f := fun s => { s with ring := r :: s.ring }) (fun _ _ _ _ _ => rfl)
  have hlisted := hring.setObj 0x9000 1 0 (s.obj 0x9000 1 0 + 1)
  unfold State.listRecord
  dsimp only
  rw [h.objs 0x9000 1 0 (by decide)]
  split
  · have hlog := hlisted.map (f := fun s => { s with log := r :: s.log }) (fun _ _ _ _ _ => rfl)
    rw [hlisted.objs 0x9000 6 0 (by decide)]
    exact hlog.setObj _ _ _ _
  · exact hlisted

theorem tick (h : TracedAlike s u) : u.tick = s.tick := by
  obtain ⟨⟨n, k, d, b, rfl⟩, -⟩ := h
  rfl

theorem listEvent (h : TracedAlike s u) (e : Ev) : TracedAlike (s.listEvent e) (u.listEvent e) := by
  unfold State.listEvent
  rw [h.tick]
  exact foldl (fun r h => listRecord h r) _ h

theorem mirror (n : Nat) (h : TracedAlike s u) : TracedAlike (State.mirror n s) (State.mirror n u) := by
  induction n generalizing s u with
  | zero => exact h
  | succ n ih =>
    have hmirrored (s u : State) (i : Nat) (h : TracedAlike s u) :
        TracedAlike { s with mirrored := i } { u with mirrored := i } :=
      h.map (f := fun s => { s with mirrored := i }) (fun _ _ _ _ _ => rfl)
    have hcount := h.objs 0x9000 1 0 (by decide)
    have hmode : u.mstate = s.mstate := h.objs 0x2000 1 0 (by decide)
    unfold State.mirror
    dsimp only
    rw [hcount, hmode]
    obtain ⟨⟨m, k, d, b, rfl⟩, hobjs⟩ := id h
    have hplaced : (s.retraced m k d b).mirrored = s.mirrored := rfl
    have hbusy (a : Nat) : (s.retraced m k d b).chanBusy 0 a 32 = s.chanBusy 0 a 32 := rfl
    have hring : (s.retraced m k d b).ring = s.ring := rfl
    rw [hplaced, hbusy, hring]
    split
    · exact h
    · split
      · exact hmirrored _ _ _ h
      · split
        · exact h
        · split
          · exact ih (hmirrored _ _ _ h)
          · next r _ =>
            have hstored : TracedAlike (s.storeEv (.stack 0) (mirrorAt (max s.mirrored (s.obj 0x9000 1 0 - 4096))) r.bytes).1
                ((s.retraced m k d b).storeEv (.stack 0) (mirrorAt (max s.mirrored (s.obj 0x9000 1 0 - 4096))) r.bytes).1 := by
              exact h.map (f := fun s => (s.storeEv (.stack 0) _ _).1) fun _ _ _ _ _ => by rw [storeEv_retraced]
            rw [storeEv_retraced] at hstored ⊢
            exact ih (foldl (fun e h => listEvent h e) _ (hmirrored _ _ _ hstored))

theorem raise (h : TracedAlike s u) (code src : Nat) (stp : BitVec 32) (data : List Byte) :
    TracedAlike (s.raise code src stp data) (u.raise code src stp data) := by
  have hlisted := foldl (fun r h => listRecord h r) (eventRecords code src stp s.tick data) h
  have hheld := h.map (f := fun s => { s with hwbuf := s.hwbuf ++ eventRecords code src stp s.tick data })
    (fun _ _ _ _ _ => rfl)
  unfold State.raise State.records
  dsimp only
  rw [h.tick, h.objs 0x9000 7 0 (by decide)]
  obtain ⟨⟨n, k, d, b, rfl⟩, -⟩ := id h
  have hcore : (s.retraced n k d b).core 0 = s.core 0 := rfl
  have hbuf : (s.retraced n k d b).hwbuf = s.hwbuf := rfl
  rw [hcore, hbuf]
  split
  · split
    · exact hheld
    · exact h.setObj _ _ _ _
  · exact mirror _ hlisted

theorem readWord (h : TracedAlike s u) (m : MemUnit) (w reader : Nat) : TracedAlike (s.readWord m w reader) (u.readWord m w reader) := by
  have hread := h.map (f := fun s => (s.readWordEv m w reader).1) fun _ _ _ _ _ => by rw [readWordEv_retraced]
  obtain ⟨⟨n, k, d, b, rfl⟩, -⟩ := h
  unfold State.readWord raiseAll
  rw [readWordEv_retraced] at hread ⊢
  exact foldl (f := fun s (e : Ev) => s.raise e.1 e.2.1 0 e.2.2) (fun e h => raise h e.1 e.2.1 0 e.2.2) _ hread

theorem touch (h : TracedAlike s u) (m : MemUnit) (a n reader : Nat) : TracedAlike (s.touch m a n reader) (u.touch m a n reader) := by
  have hmem : u.mem m = s.mem m := by
    obtain ⟨⟨n, k, d, b, rfl⟩, -⟩ := h
    rfl
  unfold State.touch State.touchSegs
  rw [hmem]
  exact foldl (fun w h => readWord h m w reader) _ h

theorem anyMarked (h : TracedAlike s u) (m : MemUnit) (a n : Nat) : u.anyMarked m a n = s.anyMarked m a n := by
  obtain ⟨⟨n, k, d, b, rfl⟩, -⟩ := h
  rfl

end TracedAlike

/-- The read of an image and its broadcast are no more than reports to the firmware's records (R376, R377). -/
theorem Reported.readImage (s : State) (p stack offset length : Nat) (img : LoadedImage) :
    Reported s (s.readImage p stack offset length img).1 := by
  have htold (w : State) (t i : Nat) : Reported w (w.tellRetry t 1 i p) := Reported.raise w _ _ _ _
  unfold State.readImage
  exact ((Reported.touch s _ _ _ _).trans (Reported.foldl (fun w x => Reported.foldl (fun w i => htold w _ _) _ _) _ _)).trans
    (Reported.foldl (fun w t => Reported.foldl (fun w i => htold w _ _) _ _) _ _)

namespace TracedAlike
variable {s u : State}

/-- An image is read and broadcast with the same result (R376, R377). -/
theorem readImage (h : TracedAlike s u) (p stack offset length : Nat) (img : LoadedImage) :
    TracedAlike (s.readImage p stack offset length img).1 (u.readImage p stack offset length img).1
      ∧ (u.readImage p stack offset length img).2 = (s.readImage p stack offset length img).2 := by
  have htold {s u : State} (t i : Nat) (h : TracedAlike s u) : TracedAlike (s.tellRetry t 1 i p) (u.tellRetry t 1 i p) :=
    raise h _ _ _ _
  have htouched := h.touch (.stack (Fin.ofNat 32 stack)) (programStore + offset) length 6
  have htries := foldl (fun (x : TileId × Nat) h => foldl (fun i h => htold x.1.val (i + 1) h) (List.range (min x.2 3)) h)
    img.tries htouched
  unfold State.readImage
  dsimp only
  rw [htouched.anyMarked]
  exact ⟨foldl (fun t h => foldl (fun i h => htold t (i + 1) h) (List.range 3) h) _ htries, rfl⟩

/-- A trace point itself. -/
theorem tracePoint (s : State) (kind src : Nat) (stp : BitVec 32) : TracedAlike s (s.tracePoint kind src stp) :=
  ⟨⟨_, _, _, _, tracePoint_frame s kind src stp⟩, tracePoint_objs s kind src stp⟩

/-! Admission (R16, R213, R272). -/

theorem reported (h : TracedAlike s u) : Reported s u := by
  obtain ⟨⟨n, k, d, b, rfl⟩, hobjs⟩ := h
  exact ⟨DeskKept.of_same rfl rfl rfl, rfl, fun i c m hi => hobjs i c m fun he => hi (by rw [he]; decide)⟩

theorem others (h : TracedAlike s u) (p : Nat) : (List.range 16).filter (fun q => q != p && 2 ≤ u.pstate q)
    = (List.range 16).filter (fun q => q != p && 2 ≤ s.pstate q) :=
  List.filter_congr fun q hq => by rw [h.reported.pstate (List.mem_range.1 hq)]

theorem holdFits (h : TracedAlike s u) (j : JobPlan) (hold : Nat → Bool) : u.holdFits j hold = s.holdFits j hold := by
  have hmodule : u.moduleId = s.moduleId := by rw [State.moduleId, h.objs 0x1050 1 0 (by decide), State.moduleId]
  have hblocks (e : Nat) : u.holdBlocks j e hold = s.holdBlocks j e hold := by
    rw [State.holdBlocks, State.ownedBy, hmodule, State.holdBlocks, State.ownedBy]
  simp only [State.holdFits, hblocks]

/-- A binary breaks the same rules. -/
theorem binaryBad (h : TracedAlike s u) (p job : Nat) (b : Binary) : u.binaryBad p job b = s.binaryBad p job b := by
  have hwindow (k : Nat) (hk : k < 4) (e : EngineId) : u.obj 0x6860 k e.val = s.obj 0x6860 k e.val := h.objs _ _ _ (by
    simp only [okey]
    omega)
  have hjobs : ((List.range 16).filter (fun q => q != p && 2 ≤ s.pstate q)).any
        (fun q => u.isTraining q && u.obj 0x2102 (q + 1) 0 = job)
      = ((List.range 16).filter (fun q => q != p && 2 ≤ s.pstate q)).any
        (fun q => s.isTraining q && s.obj 0x2102 (q + 1) 0 = job) := by
    refine any_congr_of_mem fun q hq => ?_
    have hlt : q < 16 := List.mem_range.1 (List.mem_filter.1 hq).1
    have htraining : u.isTraining q = s.isTraining q := by
      rw [State.isTraining, h.reported.toDeskKept.bin, State.isTraining]
    rw [htraining, h.reported.partObj (by decide) hlt]
  have hscale : u.obj 0x8100 8 0 = s.obj 0x8100 8 0 := h.objs _ _ _ (by decide)
  have hothers := h.others p
  have hfits := h.holdFits
  obtain ⟨⟨n, k, d, t, rfl⟩, -⟩ := h
  unfold State.binaryBad
  simp only [hothers, hjobs, hscale, hfits, hwindow 1 (by decide), hwindow 2 (by decide), hwindow 3 (by decide)]
  rfl

theorem admission (h : TracedAlike s u) (p rect job : Nat) (b : Binary) : u.admission p rect job b = s.admission p rect job b := by
  have hoffending : u.offending rect b = s.offending rect b := by
    obtain ⟨⟨n, k, d, t, rfl⟩, -⟩ := h
    rfl
  rw [State.admission, h.binaryBad, hoffending, State.admission]

end TracedAlike
end Sys2Proof.Machine
end

section
/-! SUPPORT. The stops that the answers of a partition cause leave the commands that do not run, and the tiles that hold nothing,
as they are; the reset of a partition (O37, O40). -/
namespace Sys2Proof.Machine

/-- A tile holds no context and no counter. -/
structure Tile.Blank (x : Tile) : Prop where
  ctxs : x.ctxs = []
  counters : x.counters = []

/-- From s to u the commands taken, of which none runs, and the tiles that hold nothing have stayed as they are. -/
structure StopsOnly (s u : State) : Prop where
  taken : (∀ c ∈ s.taken, c.running = false) → u.taken = s.taken
  blank : ∀ t, (s.tile t).Blank → (u.tile t).Blank

namespace StopsOnly
variable {s u v : State}

theorem of_same (htaken : u.taken = s.taken) (htiles : u.tiles = s.tiles) : StopsOnly s u :=
  ⟨fun _ => htaken, fun t h => by rwa [State.tile, htiles, ← State.tile]⟩

theorem refl (s : State) : StopsOnly s s := of_same rfl rfl

theorem trans (h : StopsOnly s u) (k : StopsOnly u v) : StopsOnly s v := by
  refine ⟨fun hidle => ?_, fun t ht => k.blank t (h.blank t ht)⟩
  have htaken := h.taken hidle
  exact (k.taken (by rwa [htaken])).trans htaken

theorem foldl {α : Type} {f : State → α → State} (hf : ∀ s a, StopsOnly s (f s a)) (l : List α) (s : State) :
    StopsOnly s (l.foldl f s) := by
  induction l generalizing s with
  | nil => exact refl s
  | cons a l ih => exact (hf s a).trans (ih _)

/-- The same for a fold that gathers failures. -/
theorem foldlF {α : Type} {f : State × List Failure → α → State × List Failure}
    (hf : ∀ (x : State × List Failure) (a : α), StopsOnly x.1 (f x a).1) (l : List α) (x : State × List Failure) :
    StopsOnly x.1 (l.foldl f x).1 := by
  induction l generalizing x with
  | nil => exact refl x.1
  | cons a l ih => exact (hf x a).trans (ih _)

theorem of_reported (h : Reported s u) : StopsOnly s u := of_same h.taken h.tiles

theorem of_ports (h : PortsOnly s u) : StopsOnly s u := by
  rw [h.frame]
  exact of_same rfl rfl

theorem toPstate (s : State) (p n : Nat) : StopsOnly s (s.toPstate p n) := by
  rw [State.toPstate, tracePoint_frame]
  exact of_same rfl rfl

/-- A change of one tile that gives it nothing. -/
theorem setTile (s : State) (t : Nat) (x : Tile) (hx : (s.tile t).Blank → x.Blank) : StopsOnly s (s.setTile t x) := by
  refine ⟨fun _ => rfl, fun j hj => ?_⟩
  rw [State.tile_setTile]
  split
  · next h => exact hx (h ▸ hj)
  · exact hj

theorem modTile (s : State) (t : Nat) {f : Tile → Tile} (hf : ∀ x, x.Blank → (f x).Blank) : StopsOnly s (s.modTile t f) :=
  setTile s t _ (hf _)

/-! Stops (R131, R274, R317). -/

theorem ctx_of_blank {x : Tile} (h : x.Blank) (c : Nat) : x.ctx c = {} := by
  rw [Tile.ctx, h.ctxs]
  rfl

theorem endRun (s : State) (t c : Nat) : StopsOnly s (s.endRun t c) := by
  unfold State.endRun
  split
  · exact refl s
  · next r hstore =>
    have hfull : ¬ (s.tile t).Blank := fun h => by
      rw [ctx_of_blank h] at hstore
      cases hstore
    have hwrite (w : State) : StopsOnly w (w.endWrite t r.tag) := by
      unfold State.endWrite
      dsimp only
      split
      · exact refl w
      · split
        · exact refl w
        · refine trans ?_ (of_reported (Reported.raise _ _ _ _ _))
          exact setTile w t _ fun h => ⟨h.ctxs, h.counters⟩
    exact (setTile s t _ fun h => absurd h hfull).trans (hwrite _)

theorem stopTile (s : State) (t : Nat) : StopsOnly s (s.stopTile t) := by
  unfold State.stopTile
  refine (foldl (fun w c => ?_) (List.range 8) s).trans (modTile _ t fun x h => ⟨h.ctxs, h.counters⟩)
  dsimp only
  split
  · exact refl w
  · next hruns =>
    have hfull : ¬ (w.tile t).Blank := fun h => hruns (by rw [ctx_of_blank h]; rfl)
    refine ⟨fun hidle => (endRun w t c).taken hidle, fun j hj => ?_⟩
    have hne : j ≠ t := fun h => hfull (h ▸ hj)
    rw [State.modCtx_eq, State.tile_setTile_ne _ hne, State.stopCtx, State.modTile_eq, State.tile_setTile_ne _ hne]
    exact (endRun w t c).blank j hj

theorem endPausing (s : State) (p : Nat) : StopsOnly s (s.endPausing p) := by
  have hended (w : State) (c : Taken) (code tile : Nat) : (w.completeTaken c code tile).tiles = w.tiles :=
    (Reported.complete { w with taken := w.taken.erase c } _).tiles
  have hbad (l : List Taken) (w : State) : (l.foldl (fun s c => s.completeTaken c 3 0xFFFF) w).tiles = w.tiles := by
    induction l generalizing w with
    | nil => rfl
    | cons c l ih => rw [List.foldl_cons, ih, hended]
  unfold State.endPausing
  split
  · next c hfound =>
    refine ⟨fun hidle => ?_, fun t ht => ?_⟩
    · have hruns := List.find?_some hfound
      simp [hidle c (List.mem_of_find?_eq_some hfound)] at hruns
    · unfold State.endDispatched
      split
      · exact ht
      · rwa [State.tile, State.finish, State.endBad, hbad, hended, ← State.tile]
  · exact refl s

theorem answerAllF (s : State) (p status : Nat) : StopsOnly s (s.answerAllF p status).1 := by
  have hreply (x : State × List Failure) (r : Request) : StopsOnly x.1 (x.1.statusReplyF p r status).1 :=
    (of_ports (PortsOnly.sendLocalF x.1 _)).trans (of_ports (PortsOnly.bump _ _ _ _))
  refine (foldlF (f := fun (x : State × List Failure) r =>
    let y := x.1.statusReplyF p r status; (y.1, x.2 ++ y.2)) hreply (s.part p).requests (s, [])).trans ?_
  unfold State.answerAllF
  dsimp only
  split
  · exact of_same rfl rfl
  · exact of_same rfl rfl

theorem floodStop (s : State) (w : Way) (job origin cause : Nat) (but : Option (Nat × Nat)) :
    StopsOnly s (s.floodStop w job origin cause but) := by
  refine foldl (fun v x => ?_) _ _
  split
  · exact refl v
  · exact of_ports (PortsOnly.sendOn _ _ _ _)

theorem stopPartF (s : State) (p cause : Nat) (tell : Bool) : StopsOnly s (s.stopPartF p cause tell).1 := by
  unfold State.stopPartF
  split
  · exact refl s
  · have hobjs (w : State) : StopsOnly w (((w.toPstate p 6).setObj 0x2103 (p + 1) 0 cause).setObj 0x8130 (p + 2) 0 0) :=
      (toPstate w p 6).trans (of_same rfl rfl)
    have hreleased (w : State) : StopsOnly w (((w.dropHeldReads p).dropInputs p).releaseRelays p) := of_same rfl rfl
    have hcleared (w : State) : StopsOnly w (w.modPart p (fun x => { x with pauses := [], joined := [], cold := none })) :=
      of_same rfl rfl
    have htold (w : State) (status : Nat) : StopsOnly w (if tell then (w.answerAllF p status).1.notice 0x8001 p cause
        else (w.answerAllF p status).1) := by
      split
      · exact (answerAllF w p status).trans (of_reported (Reported.complete _ _))
      · exact answerAllF w p status
    exact (foldl stopTile _ s).trans ((hobjs _).trans ((hreleased _).trans
      ((endPausing _ p).trans ((hcleared _).trans (htold _ _)))))

theorem stopJobF (s : State) (job cause : Nat) : StopsOnly s (s.stopJobF job cause).1 := by
  refine foldlF (fun x p => ?_) (List.range 16) (s, [])
  dsimp only
  split
  · exact stopPartF _ _ _ _
  · exact refl _

theorem failAll (n : Nat) (s : State) (fs : List Failure) (told : List Nat) : StopsOnly s (s.failAll n fs told) := by
  induction n generalizing s fs told with
  | zero =>
    unfold State.failAll
    exact refl s
  | succ n ih =>
    cases fs with
    | nil =>
      unfold State.failAll
      exact refl s
    | cons f r =>
      obtain ⟨job, port, b, c⟩ := f
      unfold State.failAll
      split
      · exact ih _ _ _
      · have hremember (w : State) (me : BitVec 14) : StopsOnly w (w.rememberStop job me) := of_same rfl rfl
        exact (stopJobF s job 5).trans ((of_reported (Reported.raise _ _ _ _ _)).trans
          ((hremember _ _).trans ((floodStop _ _ _ _ _ _).trans (ih _ _ _))))

theorem stopPart (s : State) (p cause : Nat) (tell : Bool) : StopsOnly s (s.stopPart p cause tell) :=
  (stopPartF s p cause tell).trans (failAll _ _ _ _)

theorem answerAll (s : State) (p status : Nat) : StopsOnly s (s.answerAll p status) :=
  (answerAllF s p status).trans (failAll _ _ _ _)

end StopsOnly

/-! The reset of a tile (R275, R380). -/

theorem endRun_desk (s : State) (t c : Nat) : DeskKept s (s.endRun t c) := by
  unfold State.endRun
  split
  · exact DeskKept.refl s
  · unfold State.endWrite
    dsimp only
    split
    · exact DeskKept.of_same rfl rfl rfl
    · split
      · exact DeskKept.of_same rfl rfl rfl
      · refine DeskKept.trans ?_ (DeskKept.of_recorded (Recorded.raise _ _ _ _ _))
        exact DeskKept.of_same rfl rfl rfl

/-- The reset of a tile in a partition reset: its clearing, and its own reset object (R379). -/
def State.resetInPart (s : State) (t : Nat) : State := (s.resetTile t).setObj 0x5000 1 t 0

theorem cutVault_stops (s : State) (t : Nat) : StopsOnly s (s.cutVault t) := by
  unfold State.cutVault
  refine StopsOnly.trans ?_ (StopsOnly.modTile _ _ fun _ h => ⟨h.ctxs, h.counters⟩)
  exact StopsOnly.modTile _ _ fun _ h => ⟨h.ctxs, h.counters⟩

theorem cutVault_desk (s : State) (t : Nat) : DeskKept s (s.cutVault t) := by
  unfold State.cutVault
  exact (DeskKept.modTile _ _ _).trans (DeskKept.modTile _ _ _)

theorem resetInPart_desk (s : State) (t : Nat) : DeskKept s (s.resetInPart t) := by
  have hcleared (w : State) : DeskKept w ((w.clearCounters 0x7200 t).setObj 0x5000 1 t 0) := DeskKept.of_same rfl rfl rfl
  unfold State.resetInPart State.resetTile State.discardTile
  refine DeskKept.trans ?_ (hcleared _)
  refine DeskKept.trans ?_ (DeskKept.modTile _ _ _)
  refine DeskKept.trans ?_ (cutVault_desk _ t)
  exact DeskKept.foldl (fun w c => endRun_desk w t c) _ _

/-- A reset tile holds nothing, and no other tile gains anything. -/
theorem resetInPart_blank {s : State} {t j : Nat} (h : j = t ∨ (s.tile j).Blank) : ((s.resetInPart t).tile j).Blank := by
  have hcleared (w : State) : ((w.clearCounters 0x7200 t).setObj 0x5000 1 t 0).tile j = w.tile j := rfl
  have hbefore := (StopsOnly.foldl (fun w c => StopsOnly.endRun w t c) (List.range 8) s).trans (cutVault_stops _ t)
  rw [State.resetInPart, State.resetTile, hcleared, State.discardTile, State.modTile_eq, State.tile_setTile]
  split
  · exact ⟨rfl, rfl⟩
  · next hne => exact hbefore.blank j (h.resolve_left hne)

theorem resetAll_blank {s : State} {l : List Nat} {j : Nat} (h : j ∈ l ∨ (s.tile j).Blank) :
    ((l.foldl State.resetInPart s).tile j).Blank := by
  induction l generalizing s with
  | nil => exact h.resolve_left List.not_mem_nil
  | cons t l ih =>
    rw [List.foldl_cons]
    refine ih ?_
    obtain hmem | hblank := h
    · obtain rfl | hmem := List.mem_cons.1 hmem
      · exact .inr (resetInPart_blank (.inl rfl))
      · exact .inl hmem
    · exact .inr (resetInPart_blank (.inr hblank))

/-! The reset of a partition (R275). -/

/-- A partition is Resetting, and its tiles have been reset. -/
def State.tilesReset (s : State) (p : Nat) : State :=
  ((s.toPstate p 7).partTiles p).foldl State.resetInPart (s.toPstate p 7)

/-- What the partition holds at the edge is discarded too. -/
def State.edgesReset (s : State) (p : Nat) : State :=
  ((((s.tilesReset p).dropHeldReads p).dropInputs p).releaseRelays p).setObj 0x8130 (p + 2) 0 0

theorem resetPart_eq (s : State) (p status : Nat) : s.resetPart p status
    = (((s.edgesReset p).answerAll p status).endPausing p).modPart p
        (fun x => { x with pauses := [], joined := [], cold := none }) := rfl

theorem edgesReset_desk (s : State) (p : Nat) : DeskKept s (s.edgesReset p) := by
  have hreleased (w : State) : DeskKept w (((w.dropHeldReads p).dropInputs p).releaseRelays p) := DeskKept.of_same rfl rfl rfl
  have htiles : DeskKept s (s.tilesReset p) := (DeskKept.toPstate s p 7).trans (DeskKept.foldl resetInPart_desk _ _)
  exact (htiles.trans (hreleased _)).trans (DeskKept.setObj _ _ _ _ _)

theorem edgesReset_blank {s : State} {p : PartId} {e : Nat × Tile} (he : e ∈ s.tiles) (hpart : e.2.part = some p) :
    ((s.edgesReset p.val).tile e.1).Blank := by
  have hreleased (w : State) :
      ((((w.dropHeldReads p.val).dropInputs p.val).releaseRelays p.val).setObj 0x8130 (p.val + 2) 0 0).tile e.1 = w.tile e.1 := rfl
  have htiles : (s.toPstate p.val 7).tiles = s.tiles := by
    rw [State.toPstate, tracePoint_frame]
    rfl
  rw [State.edgesReset, hreleased]
  refine resetAll_blank (.inl (List.mem_map.2 ⟨e, List.mem_filter.2 ⟨htiles ▸ he, ?_⟩, rfl⟩))
  simp [hpart]

theorem answerAll_stages (s : State) (p status : Nat) : StagesKept s (s.answerAll p status) :=
  (StagesKept.answerAllF s p status).trans (StagesKept.failAll _ _ _ _)

theorem answerAll_work (s : State) (p status : Nat) : WorkKept s (s.answerAll p status) :=
  (WorkKept.answerAllF s p status).trans (WorkKept.failAll _ _ _ _)

/-- After its edges the rest of a partition reset leaves commands, turnover, starts and blank tiles as they are. -/
theorem resetPart_desk {s : State} (hidle : ∀ c ∈ s.taken, c.running = false) (p status : Nat) :
    DeskKept s (s.resetPart p status) := by
  have hedges := edgesReset_desk s p
  have hstops := (StopsOnly.answerAll (s.edgesReset p) p status).trans (StopsOnly.endPausing _ p)
  have hrest : DeskKept (s.edgesReset p) (((s.edgesReset p).answerAll p status).endPausing p) :=
    DeskKept.of_work ((answerAll_work _ p status).trans (WorkKept.endPausing _ p))
      ((answerAll_stages _ p status).trans (StagesKept.endPausing _ p)) (hstops.taken (by rwa [hedges.taken]))
  rw [resetPart_eq]
  exact (hedges.trans hrest).trans (DeskKept.modPart _ p fun _ => rfl)

theorem resetPart_blank {s : State} {p : PartId} {e : Nat × Tile} (he : e ∈ s.tiles) (hpart : e.2.part = some p) (status : Nat) :
    ((s.resetPart p.val status).tile e.1).Blank := by
  have hstops := (StopsOnly.answerAll (s.edgesReset p.val) p.val status).trans (StopsOnly.endPausing _ p.val)
  have hcleared (w : State) : StopsOnly w (w.modPart p.val (fun x => { x with pauses := [], joined := [], cold := none })) :=
    StopsOnly.of_same rfl rfl
  rw [resetPart_eq]
  exact (hstops.trans (hcleared _)).blank e.1 (edgesReset_blank he hpart)

end Sys2Proof.Machine
end

section
/-! SUPPORT. What the load and the start of a binary set up, and what they leave as it is (O37, O40). -/
namespace Sys2Proof.Machine

/-! The objects that a load or a start writes beside the partition's own. -/

/-- The objects of queues and spill areas, of the loss scale and the held norms, of the digest, and of the groups. -/
def setUpIndexes : List Nat :=
  reportIndexes ++ [0x1F80, 0x5100, 0x8100, 0x8130, 0x8210, 0x8410, 0x8700, 0x8701, 0x8702, 0x8703, 0x8704, 0x8705, 0x8707, 0x8708,
    0x8709, 0x8710, 0x8711, 0x8712, 0x8713, 0x8714, 0x8715]

/-- From s to u the firmware's records and all other objects have stayed as they are. -/
structure SetUp (s u : State) : Prop extends DeskKept s u where
  objs : ∀ i b n, okey i b n / 2 ^ 24 ∉ setUpIndexes → u.obj i b n = s.obj i b n

namespace SetUp
variable {s u v : State}

theorem of_same (hdesk : DeskKept s u) (hdict : u.dict = s.dict) : SetUp s u :=
  ⟨hdesk, fun _ _ _ _ => by simp only [State.obj, hdict]⟩

theorem refl (s : State) : SetUp s s := of_same (DeskKept.refl s) rfl

theorem trans (h : SetUp s u) (k : SetUp u v) : SetUp s v :=
  ⟨h.toDeskKept.trans k.toDeskKept, fun i b n hi => (k.objs i b n hi).trans (h.objs i b n hi)⟩

theorem foldl {α : Type} {f : State → α → State} (hf : ∀ s a, SetUp s (f s a)) (l : List α) (s : State) : SetUp s (l.foldl f s) := by
  induction l generalizing s with
  | nil => exact refl s
  | cons a l ih => exact (hf s a).trans (ih _)

theorem of_reported (h : Reported s u) : SetUp s u :=
  ⟨h.toDeskKept, fun i b n hi => h.objs i b n fun hin => hi (List.mem_append_left _ hin)⟩

theorem setObj (s : State) {i b n : Nat} (hi : i ∈ setUpIndexes) (hb : b < 256) (hn : n < 2 ^ 16) (v : Nat) :
    SetUp s (s.setObj i b n v) := by
  refine ⟨DeskKept.setObj s i b n v, fun j c m hj => State.obj_setObj_idx s fun he => hj ?_⟩
  have hidx : okey i b n / 2 ^ 24 = i := by
    simp only [okey]
    omega
  rwa [he, hidx]

theorem modPart (s : State) (p : Nat) {f : Part → Part} (hf : ∀ x, (f x).begun = x.begun) : SetUp s (s.modPart p f) :=
  of_same (DeskKept.modPart s p hf) rfl

theorem modTile (s : State) (t : Nat) (f : Tile → Tile) : SetUp s (s.modTile t f) := of_same (DeskKept.modTile s t f) rfl

theorem raise (s : State) (code src : Nat) (stp : BitVec 32) (data : List Byte) : SetUp s (s.raise code src stp data) :=
  of_reported (Reported.raise s code src stp data)

/-- The objects of a partition: its rectangle, state, job and stop cause. -/
theorem partObj (h : SetUp s u) {i p : Nat} (hi : i ∈ [0x2100, 0x2101, 0x2102, 0x2103]) (hp : p < 16) :
    u.obj i (p + 1) 0 = s.obj i (p + 1) 0 := by
  refine h.objs _ _ _ ?_
  have hidx : okey i (p + 1) 0 / 2 ^ 24 = i := by
    simp only [List.mem_cons, List.not_mem_nil, or_false] at hi
    simp only [okey]
    omega
  rw [hidx]
  simp only [List.mem_cons, List.not_mem_nil, or_false] at hi
  obtain rfl | rfl | rfl | rfl := hi
  all_goals decide

/-! Blocks and relays of a partition. -/

theorem clearJournal (s : State) (ep : EnginePlan) (g b : Nat) (stamp : BitVec 32) : SetUp s (s.clearJournal ep g b stamp) :=
  foldl (fun w _ => of_reported (Reported.store w _ _ _)) _ _

theorem forgetJob (s : State) (p : Nat) (s0 : Option (BitVec 32)) : SetUp s (s.forgetJob p s0) := by
  unfold State.forgetJob
  extract_lets plans w
  have hcleared : SetUp s w := foldl (fun w ep =>
    foldl (fun w (b : Nat × Nat × BitVec 32) => clearJournal w ep b.1 b.2.1 b.2.2) _ _) _ _
  exact hcleared.trans (of_same (DeskKept.of_same rfl rfl rfl) rfl)

theorem setRelay (s : State) (r : Nat) (x : Relay) : SetUp s (s.setRelay r x) := of_same (DeskKept.of_same rfl rfl rfl) rfl

theorem bindRelays (s : State) : SetUp s s.bindRelays := by
  unfold State.bindRelays
  refine foldl (fun w r => ?_) _ _
  dsimp only
  split
  · exact refl w
  · split
    · exact setRelay w _ _
    · exact setRelay w _ _

theorem takeRelays (s : State) (p : Nat) : SetUp s (s.takeRelays p) := of_same (DeskKept.of_same rfl rfl rfl) rfl

theorem endFlush (s : State) (p : Nat) : SetUp s (s.endFlush p) := of_same (DeskKept.of_same rfl rfl rfl) rfl

/-! A load (R226, R231, R314). -/

theorem showVals (s : State) {g : Nat} (hg : g < 12) (v : Vals) : SetUp s (s.showVals g v) := by
  have hput (w : State) {i : Nat} (hi : i ∈ setUpIndexes) (n : Nat) : SetUp w (w.setObj i (g + 1) 0 n) :=
    setObj w hi (by omega) (by decide) n
  exact (((((hput s (by decide) _).trans (hput _ (by decide) _)).trans (hput _ (by decide) _)).trans
    (hput _ (by decide) _)).trans (hput _ (by decide) _)).trans (hput _ (by decide) _)

theorem admitGroup (s : State) (g : GroupPlan) : SetUp s (s.admitGroup g) := by
  have hg := g.group.isLt
  have hput (w : State) {i b : Nat} (hi : i ∈ setUpIndexes) (hb : b < 256) (n : Nat) : SetUp w (w.setObj i b 0 n) :=
    setObj w hi hb (by decide) n
  have hacts (w : State) (acts : Map (List Act)) : SetUp w { w with acts := acts } := of_same (DeskKept.of_same rfl rfl rfl) rfl
  unfold State.admitGroup
  refine trans ?_ (hacts _ _)
  refine trans ?_ (hput _ (by decide) (by omega) _)
  refine trans ?_ (hput _ (by decide) (by omega) _)
  refine trans ?_ (hput _ (by decide) (by omega) _)
  refine trans ?_ (hput _ (by decide) (by omega) _)
  refine trans ?_ (hput _ (by decide) (by omega) _)
  refine trans ?_ (showVals _ hg _)
  refine trans ?_ (hput _ (by decide) (by omega) _)
  refine trans ?_ (hput _ (by decide) (by omega) _)
  refine trans ?_ (hput _ (by decide) (by omega) _)
  refine trans ?_ (hput _ (by decide) (by omega) _)
  refine trans ?_ (hput _ (by decide) (by omega) _)
  exact hput _ (by decide) (by omega) _

theorem refreshDigest (s : State) : SetUp s s.refreshDigest := by
  have hnoted (w : State) (p b : Nat) : SetUp w (w.noteDigest p b) := by
    unfold State.noteDigest
    dsimp only
    split
    · exact of_same (DeskKept.of_same rfl rfl rfl) rfl
    · split
      · exact of_same (DeskKept.of_same rfl rfl rfl) rfl
      · exact refl w
  have hall (w : State) : SetUp w w.noteDigests := by
    refine foldl (fun w p => foldl (fun w b => ?_) _ _) _ _
    split
    · exact hnoted w p b
    · exact refl w
  have hblob (w : State) (d : List Byte) : SetUp w (w.setBlob 0x1F80 1 0 d) := of_same (DeskKept.of_same rfl rfl rfl) rfl
  unfold State.refreshDigest
  dsimp only
  split
  · exact refl s
  · exact ((hblob _ _).trans (setObj _ (by decide) (by decide) (by decide) _)).trans (hall _)

theorem writeRoutes (s : State) (p : Nat) (b : Binary) : SetUp s (s.writeRoutes p b) := by
  have hrouters (w : State) (r : Map Router) : SetUp w { w with routers := r } := of_same (DeskKept.of_same rfl rfl rfl) rfl
  unfold State.writeRoutes
  exact (hrouters _ _).trans (foldl (fun w x => hrouters w _) _ _)

/-! A start (R73, R192, R226, R259). -/

theorem startScale (s : State) (p : Nat) (s0 : BitVec 32) (flag : Nat) : SetUp s (s.startScale p s0 flag) := by
  have hput (w : State) {b : Nat} (hb : b < 256) (n : Nat) : SetUp w (w.setObj 0x8100 b 0 n) :=
    setObj w (by decide) hb (by decide) n
  unfold State.startScale
  split
  · exact refl s
  · split
    · exact hput s (by decide) _
    · exact (((hput s (by decide) _).trans (hput _ (by decide) _)).trans (hput _ (by decide) _)).trans (raise _ _ _ _ _)

theorem startJob (s : State) (p : Nat) (j : JobPlan) (s0 : BitVec 32) : SetUp s (s.startJob p j s0) := by
  unfold State.startJob
  refine ((forgetJob s p (some s0)).trans (foldl (fun w b => ?_) _ _)).trans (foldl (fun w g => ?_) _ _)
  · exact of_same (DeskKept.of_same rfl rfl rfl) rfl
  · have hg := g.group.isLt
    refine (setObj w (i := 0x8707) (b := g.group.val + 1) (n := 0) (by decide) (by omega) (by decide) s0.toNat).trans ?_
    exact of_same (DeskKept.of_same rfl rfl rfl) rfl

theorem noteDigested (s : State) (p : Nat) (stamp : BitVec 32) : SetUp s (s.noteDigested p stamp) := by
  unfold State.noteDigested
  dsimp only
  split
  · exact refl s
  · exact modPart s p fun _ => rfl

theorem programStart (s : State) (p : PartId) (s0 : BitVec 32) (x : TilePlan) : SetUp s (s.programStart p s0 x) := by
  have ht := x.tile.isLt
  have hput (w : State) {b : Nat} (hb : b < 256) (n : Nat) : SetUp w (w.setObj 0x5100 b x.tile.val n) :=
    setObj w (by decide) hb (by omega) n
  have hfaults (w : State) (n : Nat) : SetUp w (w.bump 0x7200 0x11 x.tile.val n) := of_same (DeskKept.of_same rfl rfl rfl) rfl
  have hseeded (w : State) : SetUp w (w.reseed x.tile.val s0) := by
    unfold State.reseed
    exact modTile w _ _
  unfold State.programStart
  refine trans ?_ (foldl (fun w q => ?_) _ _)
  · exact ((hfaults _ _).trans (modTile _ _ _)).trans (hseeded _)
  · have hq := q.isLt
    exact (hput w (by omega) _).trans (hput _ (by omega) _)

end SetUp

theorem toPstate_obj (s : State) {p i b n v : Nat} (hi : okey i b n / 2 ^ 24 ≠ 0x9100) (hne : okey i b n ≠ okey 0x2101 (p + 1) 0) :
    (s.toPstate p v).obj i b n = s.obj i b n :=
  (tracePoint_objs (s.setPstate p v) 1 p 0 i b n hi).trans (State.obj_setObj_idx s hne)

theorem toPstate_rect (s : State) (p : PartId) (v : Nat) : (s.toPstate p.val v).rect p.val = s.rect p.val := by
  have hkey : okey 0x2100 (p.val + 1) 0 / 2 ^ 24 ≠ 0x9100 ∧ okey 0x2100 (p.val + 1) 0 ≠ okey 0x2101 (p.val + 1) 0 := by
    simp only [okey]
    omega
  exact toPstate_obj s hkey.1 hkey.2

/-! The load of a binary (R286, R377). -/

theorem dropBinary_queues (s : State) (p : Nat) : (s.dropBinary p).taken = s.taken ∧ (s.dropBinary p).turn = s.turn := by
  have hgroup (w : State) (acts : Map (List Act)) (g : Nat) :
      DeskKept w { (w.setObj 0x8708 (g + 1) 0 0).setObj 0x8709 (g + 1) 0 0 with acts := acts } := DeskKept.of_same rfl rfl rfl
  have htiles (w : State) (ts : Map Tile) : DeskKept w { w with tiles := ts } := DeskKept.of_same rfl rfl rfl
  unfold State.dropBinary
  extract_lets gs s1 s2 s3 s4
  have hforgotten : s1.taken = s.taken ∧ s1.turn = s.turn :=
    ⟨(SetUp.forgetJob s p none).taken, (SetUp.forgetJob s p none).turn⟩
  have hgroups : DeskKept s1 s2 := DeskKept.foldl (fun w g => hgroup w _ g) _ _
  have hscale : DeskKept s2 s3 := by
    unfold s3
    split
    · exact DeskKept.setObj _ _ _ _ _
    · exact DeskKept.refl s2
  have hrest : DeskKept s1 ((s4.setObj 0x2102 (p + 1) 0 0).bindRelays) :=
    (((hgroups.trans hscale).trans (htiles s3 _)).trans (DeskKept.setObj _ _ _ _ _)).trans (SetUp.bindRelays _).toDeskKept
  exact ⟨hrest.taken.trans hforgotten.1, hrest.turn.trans hforgotten.2⟩

/-- An admitted binary is held by its partition, which is Loaded; the commands stay as they were taken. -/
theorem placeBinary_loads (s : State) (p : PartId) (job : Nat) (b : Binary) :
    (s.placeBinary p.val job b).taken = s.taken ∧ (s.placeBinary p.val job b).pstate p.val = 2
      ∧ ((s.placeBinary p.val job b).part p.val).bin = some b ∧ (s.placeBinary p.val job b).obj 0x2102 (p.val + 1) 0 = job := by
  unfold State.placeBinary
  extract_lets s1 s2 s3 s4
  have htiles : SetUp s2 s3 := by
    refine SetUp.foldl (fun w x => ?_) _ _
    have ht := x.tile.isLt
    have hput (w : State) {k : Nat} (hk : k < 256) (n : Nat) : SetUp w (w.setObj 0x5100 k x.tile.val n) :=
      SetUp.setObj w (by decide) hk (by omega) n
    dsimp only
    split
    · exact (((SetUp.modTile w _ _).trans (hput _ (by decide) _)).trans (hput _ (by decide) _)).trans (hput _ (by decide) _)
    · exact SetUp.refl w
  have hgroups : SetUp s3 s4 := by
    unfold s4
    split
    · have hall := SetUp.foldl SetUp.admitGroup
      dsimp only
      split
      · exact (hall _ _).trans (SetUp.setObj _ (by decide) (by decide) (by decide) _)
      · exact hall _ _
    · exact SetUp.refl s3
  have hheld : SetUp s2 s4 := htiles.trans hgroups
  have hplaced : SetUp (s4.toPstate p.val 2) (s4.toPstate p.val 2).bindRelays.refreshDigest :=
    (SetUp.bindRelays _).trans (SetUp.refreshDigest _)
  have hdesk : DeskKept s2 (s4.toPstate p.val 2).bindRelays.refreshDigest :=
    (hheld.toDeskKept.trans (DeskKept.toPstate _ _ _)).trans hplaced.toDeskKept
  have hdropped : s2.taken = s.taken := by
    have hput (w : State) (f : Part → Part) : ((w.setObj 0x2102 (p.val + 1) 0 job).modPart p.val f).taken = w.taken := rfl
    exact (hput s1 _).trans (dropBinary_queues s p.val).1
  refine ⟨hdesk.taken.trans hdropped, ?_, ?_, ?_⟩
  · exact (hplaced.partObj (by decide) p.isLt).trans (toPstate_same s4 p.isLt 2)
  · have hbin : (s2.part p.val).bin = some b := by
      unfold s2
      rw [State.modPart_eq, State.part_setPart_same]
    exact (hdesk.bin p.val).trans hbin
  · have hput (w : State) (f : Part → Part) : ((w.setObj 0x2102 (p.val + 1) 0 job).modPart p.val f).obj 0x2102 (p.val + 1) 0 = job :=
      State.obj_setObj_same w _ _ _ _
    have hjob : s2.obj 0x2102 (p.val + 1) 0 = job := hput s1 _
    have hkey : okey 0x2102 (p.val + 1) 0 / 2 ^ 24 ≠ 0x9100 ∧ okey 0x2102 (p.val + 1) 0 ≠ okey 0x2101 (p.val + 1) 0 := by
      simp only [okey]
      omega
    calc _ = (s4.toPstate p.val 2).obj 0x2102 (p.val + 1) 0 := hplaced.partObj (by decide) p.isLt
      _ = s4.obj 0x2102 (p.val + 1) 0 := toPstate_obj s4 hkey.1 hkey.2
      _ = s2.obj 0x2102 (p.val + 1) 0 := hheld.partObj (by decide) p.isLt
      _ = job := hjob

/-! The start of a binary (R192, R259). -/

/-- From s to u the run of a partition has begun at a step: its record and its start stamp show it, and no tile's reset object
has changed. -/
structure RunBegun (p : PartId) (b : Binary) (s0 : BitVec 32) (s u : State) : Prop where
  taken : u.taken = s.taken
  begun : (u.part p.val).begun = (some b, s0, s0 - 1)
  shown : u.obj 0x8600 (0x11 + p.val) 0 = s0.toNat
  resets : ∀ t : TileId, u.obj 0x5000 1 t.val = s.obj 0x5000 1 t.val

namespace RunBegun
variable {p : PartId} {b : Binary} {s0 : BitVec 32} {s u v : State}

theorem kept (h : RunBegun p b s0 s u) (hdesk : DeskKept u v) (hshown : v.obj 0x8600 (0x11 + p.val) 0 = u.obj 0x8600 (0x11 + p.val) 0)
    (hresets : ∀ t : TileId, v.obj 0x5000 1 t.val = u.obj 0x5000 1 t.val) : RunBegun p b s0 s v :=
  ⟨hdesk.taken.trans h.taken, (hdesk.begun p.val).trans h.begun, hshown.trans h.shown, fun t => (hresets t).trans (h.resets t)⟩

theorem setUp (h : RunBegun p b s0 s u) (k : SetUp u v) : RunBegun p b s0 s v := by
  have hshown : okey 0x8600 (0x11 + p.val) 0 / 2 ^ 24 = 0x8600 := by
    simp only [okey]
    omega
  have hresets (t : TileId) : okey 0x5000 1 t.val / 2 ^ 24 = 0x5000 := by
    simp only [okey]
    omega
  exact h.kept k.toDeskKept (k.objs _ _ _ (by rw [hshown]; decide)) fun t => k.objs _ _ _ (by rw [hresets t]; decide)

/-- An object of the partition is written: its last stamp, its state or its stop cause. -/
theorem setObj (h : RunBegun p b s0 s u) {i : Nat} (hi : i ∈ [0x8600, 0x2101, 0x2103]) (n : Nat) :
    RunBegun p b s0 s (u.setObj i (p.val + 1) 0 n) := by
  have hindex : i = 0x8600 ∨ i = 0x2101 ∨ i = 0x2103 := by simpa using hi
  refine h.kept (DeskKept.setObj _ _ _ _ _) (State.obj_setObj_idx _ ?_) fun t => State.obj_setObj_idx _ ?_
  · simp only [okey]
    omega
  · simp only [okey]
    omega

theorem toPstate (h : RunBegun p b s0 s u) (n : Nat) : RunBegun p b s0 s (u.toPstate p.val n) :=
  (h.setObj (i := 0x2101) (by decide) n).setUp (SetUp.of_reported (Reported.tracePoint _ _ _ _))

end RunBegun

/-- The program starts on each tile of a binary that is not held in reset. -/
def State.startTiles (s : State) (p : PartId) (s0 : BitVec 32) (b : Binary) : State :=
  b.tiles.foldl (fun s x => if x.compute && s.obj 0x5000 1 x.tile.val = 0 then s.programStart p s0 x else s) s

theorem startTiles_setUp (s : State) (p : PartId) (s0 : BitVec 32) (b : Binary) : SetUp s (s.startTiles p s0 b) := by
  refine SetUp.foldl (fun w x => ?_) _ _
  split
  · exact SetUp.programStart w p s0 x
  · exact SetUp.refl w

/-- A Loaded partition starts: its record and its state say that it runs, then its tiles start (R192). -/
theorem startPart_begins {s : State} {p : PartId} {b : Binary} (hbin : (s.part p.val).bin = some b) (s0 : BitVec 32) (flag : Nat) :
    ∃ w, RunBegun p b s0 s w ∧ w.pstate p.val = 3 ∧ Reported (w.startTiles p s0 b) (s.startPart p s0 flag) := by
  unfold State.startPart
  extract_lets s1 n cold
  split
  · next hnone =>
    rw [hbin] at hnone
    cases hnone
  next c hc =>
  obtain rfl := Option.some.inj (hbin.symm.trans hc)
  extract_lets s2 s3 s4 s5 s6 s7 s8
  refine ⟨s7, ?_, ?_, ?_⟩
  · have hscale : SetUp s s1 := SetUp.startScale s p.val s0 flag
    have hset : RunBegun p b s0 s (s2.setObj 0x8600 (0x11 + p.val) 0 s0.toNat) := by
      refine ⟨hscale.taken, ?_, State.obj_setObj_same _ _ _ _ _, fun t => ?_⟩
      · exact congrArg Part.begun (State.part_setPart_same s1 p.val _)
      · have hkey : okey 0x5000 1 t.val ≠ okey 0x8600 (0x11 + p.val) 0 ∧ okey 0x5000 1 t.val / 2 ^ 24 = 0x5000 := by
          simp only [okey]
          omega
        obtain ⟨hne, hidx⟩ := hkey
        exact (State.obj_setObj_idx s2 hne).trans (hscale.objs _ _ _ (by rw [hidx]; decide))
    have hshown : RunBegun p b s0 s s3 := hset.setUp (SetUp.setObj _ (by decide) (by omega) (by decide) _)
    have htold : RunBegun p b s0 s s4 := by
      unfold s4
      split
      · exact hshown.setUp (SetUp.raise _ _ _ _ _)
      · exact hshown
    have hjob : RunBegun p b s0 s s5 := by
      unfold s5
      split
      · exact ((htold.setUp (SetUp.startJob _ _ _ _)).setObj (by decide) _).setUp (SetUp.noteDigested _ _ _)
      · exact htold
    have hedges : RunBegun p b s0 s s6 := hjob.setUp ((SetUp.endFlush _ _).trans (SetUp.takeRelays _ _))
    exact (hedges.toPstate 3).setObj (by decide) 0
  · refine (State.obj_setObj_idx _ ?_).trans (toPstate_same s6 p.isLt 3)
    simp only [okey]
    omega
  · have heq : s8 = s7.startTiles p s0 b := rfl
    rw [heq]
    split
    · exact Reported.askPause _ _ _
    · exact Reported.refl _

/-- The partition runs from its start stamp on. -/
theorem startPart_runs {s : State} {p : PartId} {b : Binary} (hbin : (s.part p.val).bin = some b) (s0 : BitVec 32) (flag : Nat) :
    RunBegun p b s0 s (s.startPart p s0 flag) ∧ (s.startPart p s0 flag).pstate p.val = 3 := by
  obtain ⟨w, hbegun, hstate, hreport⟩ := startPart_begins hbin s0 flag
  have hstarted := (startTiles_setUp w p s0 b).trans (SetUp.of_reported hreport)
  exact ⟨hbegun.setUp hstarted, (hstarted.partObj (by decide) p.isLt).trans hstate⟩

theorem foldl_tiles {α : Type} {f : State → α → State} (hf : ∀ s a, (f s a).tiles = s.tiles) (l : List α) (s : State) :
    (l.foldl f s).tiles = s.tiles := by
  induction l generalizing s with
  | nil => rfl
  | cons a l ih => rw [List.foldl_cons, ih, hf]

/-- New generators change the arrays of their tile alone (R74). -/
theorem reseed_tile (s : State) (t : Nat) (stream : BitVec 32) :
    (s.reseed t stream).tile t = { s.tile t with arrays := ((s.reseed t stream).tile t).arrays } := by
  rw [State.reseed, State.modTile_eq, State.tile_setTile_same]
  rfl

/-- A tile on which a program starts holds the start stamp, the partition, and no counter (R73, R113). -/
theorem programStart_tile (s : State) (p : PartId) (s0 : BitVec 32) (x : TilePlan) :
    ((s.programStart p s0 x).tile x.tile.val).stamp = s0 ∧ ((s.programStart p s0 x).tile x.tile.val).part = some p
      ∧ ((s.programStart p s0 x).tile x.tile.val).counters = [] := by
  unfold State.programStart
  extract_lets t s1 s2 s3
  have htile (f : State → Fin 32 → State) (hf : ∀ s a, (f s a).tiles = s.tiles) :
      ((allFin 32).foldl f s3).tile x.tile.val = { s2.tile t with arrays := (s3.tile t).arrays } := by
    rw [State.tile, foldl_tiles hf, ← State.tile]
    exact reseed_tile s2 t s0
  have hstarted : (s2.tile t).stamp = s0 ∧ (s2.tile t).part = some p ∧ (s2.tile t).counters = [] := by
    unfold s2
    rw [State.modTile_eq, State.tile_setTile_same]
    exact ⟨rfl, rfl, rfl⟩
  rw [htile]
  · exact hstarted
  · exact fun _ _ => rfl

theorem startPart_tile {s : State} {p : PartId} {b : Binary} {x : TilePlan} (hbin : (s.part p.val).bin = some b)
    (hone : b.tiles = [x]) (hcompute : x.compute = true) (hreset : s.obj 0x5000 1 x.tile.val = 0) (s0 : BitVec 32) (flag : Nat) :
    ((s.startPart p s0 flag).tile x.tile.val).stamp = s0 ∧ ((s.startPart p s0 flag).tile x.tile.val).part = some p
      ∧ ((s.startPart p s0 flag).tile x.tile.val).counters = [] := by
  obtain ⟨w, hbegun, -, hreport⟩ := startPart_begins hbin s0 flag
  have hstarts : w.startTiles p s0 b = w.programStart p s0 x := by
    rw [State.startTiles, hone, List.foldl_cons, List.foldl_nil, hbegun.resets x.tile, hreset, hcompute]
    rfl
  rw [hreport.tile, hstarts]
  exact programStart_tile w p s0 x

end Sys2Proof.Machine
end

section
/-! SUPPORT. The commands of a partition, one after another (O37). -/
namespace Sys2Proof.Machine

/-! The end of a command. -/

/-- From v to u a command has ended: the queue is empty, and nothing else has happened but reports. -/
structure Ended (v u : State) : Prop where
  taken : u.taken = []
  reported : Reported { v with taken := [] } u

namespace Ended
variable {v u : State}

theorem objs (h : Ended v u) {i b n : Nat} (hi : okey i b n / 2 ^ 24 ∉ reportIndexes) : u.obj i b n = v.obj i b n :=
  h.reported.objs i b n hi

theorem partObj (h : Ended v u) {i p : Nat} (hi : i ∈ [0x2100, 0x2101, 0x2102, 0x2103]) (hp : p < 16) :
    u.obj i (p + 1) 0 = v.obj i (p + 1) 0 := h.reported.partObj hi hp

theorem pstate (h : Ended v u) {p : Nat} (hp : p < 16) : u.pstate p = v.pstate p := h.reported.pstate hp

theorem bin (h : Ended v u) (q : Nat) : (u.part q).bin = (v.part q).bin := h.reported.bin q

theorem begun (h : Ended v u) (q : Nat) : (u.part q).begun = (v.part q).begun := h.reported.begun q

theorem tile (h : Ended v u) (t : Nat) : u.tile t = v.tile t := h.reported.tile t

end Ended

theorem gives_of_finish {s v : State} {i : Instr} {c : Taken} {code tile : Nat} {P : State → Prop}
    (hi : exec i s = done (v.finish c code tile)) (htaken : v.taken = [c]) (hP : ∀ u, Ended v u → P u) : Gives i s P := by
  obtain ⟨hempty, hreport⟩ := finish_reports htaken code tile
  have htrimmed (w : State) : Reported w w.trimmed := Reported.of_same (DeskKept.of_same rfl rfl rfl) rfl rfl
  exact gives_of_done hi (hP _ ⟨hempty, hreport.trans (htrimmed _)⟩)

section
variable {s : State} {p : PartId} {c : Taken}

/-! Definition and removal (R272, R273). -/

theorem definePartition_defines (h : s.onlyTaken c p 1) (hstate : s.pstate p.val ≤ 1) (hrect : rectOk (bytesAt c.params 0 2) = true)
    (hfree : s.rectTaken p.val (bytesAt c.params 0 2) = false) : Gives (.definePartition p) s (fun u =>
      u.pstate p.val = 1 ∧ u.rect p.val = bytesAt c.params 0 2 ∧ u.taken = []) := by
  have hr := atCommand_reported s
  have hexec : exec (.definePartition p) s
      = done (((s.atCommand.setObj 0x2100 (p.val + 1) 0 (bytesAt c.params 0 2)).toPstate p.val 1).finish c 0 0xFFFF) := by
    have hrun : exec (.definePartition p) s = done (s.runTaken p.val 1 _) := rfl
    have hempty : ¬ 1 < s.atCommand.pstate p.val := by
      rw [hr.pstate p.isLt]
      omega
    rw [hrun, runTaken_of_onlyTaken h]
    simp only [hrect, hr.rectTaken, hfree, hempty, Bool.not_true, decide_false, Bool.or_self, Bool.false_eq_true, if_false]
  have hdesk := (DeskKept.setObj s.atCommand 0x2100 (p.val + 1) 0 (bytesAt c.params 0 2)).trans (DeskKept.toPstate _ p.val 1)
  refine gives_of_finish hexec (hdesk.taken.trans (atCommand_taken h)) fun u hu => ⟨?_, ?_, hu.taken⟩
  · exact (hu.pstate p.isLt).trans (toPstate_same _ p.isLt 1)
  · exact (hu.partObj (by decide) p.isLt).trans ((toPstate_rect _ p 1).trans (State.obj_setObj_same _ _ _ _ _))

theorem removePartition_removes (h : s.onlyTaken c p 2) (hstate : s.pstate p.val = 1) : Gives (.removePartition p) s (fun u =>
    u.pstate p.val = 0 ∧ u.rect p.val = 0 ∧ u.taken = []) := by
  have hexec : exec (.removePartition p) s
      = done (((s.atCommand.setObj 0x2100 (p.val + 1) 0 0).toPstate p.val 0).finish c 0 0xFFFF) := by
    have hrun : exec (.removePartition p) s = done (s.runTaken p.val 2 _) := rfl
    rw [hrun, runTaken_of_onlyTaken h]
    simp [(atCommand_reported s).pstate p.isLt, hstate]
  have hdesk := (DeskKept.setObj s.atCommand 0x2100 (p.val + 1) 0 0).trans (DeskKept.toPstate _ p.val 0)
  refine gives_of_finish hexec (hdesk.taken.trans (atCommand_taken h)) fun u hu => ⟨?_, ?_, hu.taken⟩
  · exact (hu.pstate p.isLt).trans (toPstate_same _ p.isLt 0)
  · exact (hu.partObj (by decide) p.isLt).trans ((toPstate_rect _ p 0).trans (State.obj_setObj_same _ _ _ _ _))

/-! Load (R16, R377). -/

/-- The parameters of a load command are in range. -/
structure LoadOk (c : Taken) : Prop where
  stack : bytesAt c.params 0 1 < 32
  offset : bytesAt c.params 4 4 % 4096 = 0
  length : 0 < bytesAt c.params 8 4
  inside : bytesAt c.params 4 4 + bytesAt c.params 8 4 ≤ 768 * 2 ^ 20

/-- The image of a load command as the firmware reads it. -/
def State.loadRead (s : State) (p : PartId) (c : Taken) (img : LoadedImage) : State × Bool :=
  s.readImage p.val (bytesAt c.params 0 1) (bytesAt c.params 4 4) (bytesAt c.params 8 4) img

theorem partitionLoad_loads {img : LoadedImage} (h : s.onlyTaken c p 3) (hstate : s.pstate p.val = 1) (hc : LoadOk c)
    (hread : (s.loadRead p c img).2 = true) (hready : s.loadWaits p.val = false)
    (hadmitted : (s.loadRead p c img).1.admission p.val ((s.loadRead p c img).1.rect p.val) (bytesAt c.params 12 4) img.bin = none) :
    Gives (.partitionLoad p img) s (fun u => u.pstate p.val = 2 ∧ (u.part p.val).bin = some img.bin
      ∧ u.obj 0x2102 (p.val + 1) 0 = bytesAt c.params 12 4 ∧ u.taken = []) := by
  obtain ⟨hstack, hoffset, hlength, hinside⟩ := hc
  obtain ⟨halike, hsame⟩ := (TracedAlike.tracePoint s 0 0 0).readImage p.val (bytesAt c.params 0 1) (bytesAt c.params 4 4)
    (bytesAt c.params 8 4) img
  have hread' : (s.atCommand.loadRead p c img).2 = true := hsame.trans hread
  have hrect : (s.atCommand.loadRead p c img).1.rect p.val = (s.loadRead p c img).1.rect p.val := halike.reported.rect p.isLt
  have hadmitted' : (s.atCommand.loadRead p c img).1.admission p.val ((s.atCommand.loadRead p c img).1.rect p.val)
      (bytesAt c.params 12 4) img.bin = none := by
    rw [hrect]
    exact (halike.admission _ _ _ _).trans hadmitted
  have hexec : exec (.partitionLoad p img) s = done ((((s.atCommand.loadRead p c img).1.placeBinary p.val (bytesAt c.params 12 4)
      img.bin).writeRoutes p.val img.bin).finish c 0 0xFFFF) := by
    have hrun : exec (.partitionLoad p img) s = done (if s.loadWaits p.val then s else s.runTaken p.val 3 _) := rfl
    have hrange : (decide (32 ≤ bytesAt c.params 0 1) || bytesAt c.params 4 4 % 4096 != 0 || decide (bytesAt c.params 8 4 = 0)
        || decide (768 * 2 ^ 20 < bytesAt c.params 4 4 + bytesAt c.params 8 4)) = false := by
      simp only [Bool.or_eq_false_iff, decide_eq_false_iff_not, bne_eq_false_iff_eq]
      omega
    rw [hrun, hready, if_neg Bool.false_ne_true, runTaken_of_onlyTaken h]
    unfold State.loadRead at hread' hadmitted' ⊢
    dsimp only
    rw [(atCommand_reported s).pstate p.isLt, hstate, hrange, hread', hadmitted']
    simp only [bne_self_eq_false, Bool.not_true, Bool.false_eq_true, if_false]
  have htaken : (s.atCommand.loadRead p c img).1.taken = [c] :=
    (Reported.readImage _ _ _ _ _ _).taken.trans (atCommand_taken h)
  generalize (s.atCommand.loadRead p c img).1 = v at hexec htaken
  obtain ⟨hqueue, hloaded, hbin, hjob⟩ := placeBinary_loads v p (bytesAt c.params 12 4) img.bin
  have hroutes := SetUp.writeRoutes (v.placeBinary p.val (bytesAt c.params 12 4) img.bin) p.val img.bin
  generalize v.placeBinary p.val (bytesAt c.params 12 4) img.bin = w at hexec hqueue hloaded hbin hjob hroutes
  refine gives_of_finish hexec (hroutes.taken.trans (hqueue.trans htaken)) fun u hu => ⟨?_, ?_, ?_, hu.taken⟩
  · exact (hu.pstate p.isLt).trans ((hroutes.partObj (by decide) p.isLt).trans hloaded)
  · exact (hu.bin p.val).trans ((hroutes.bin p.val).trans hbin)
  · exact (hu.partObj (by decide) p.isLt).trans ((hroutes.partObj (by decide) p.isLt).trans hjob)

/-! Start (R162, R182, R192). -/

theorem partitionStart_starts {b : Binary} (h : s.onlyTaken c p 4) (hstate : s.pstate p.val = 2) (hflag : bytesAt c.params 4 1 ≤ 2)
    (hclear : s.clearRuns p.val = false) (hopen : (s.part p.val).barred = none) (hbin : (s.part p.val).bin = some b)
    {s0 : BitVec 32} (hs0 : BitVec.ofNat 32 (bytesAt c.params 0 4) = s0) : Gives (.partitionStart p) s (fun u =>
      u.pstate p.val = 3 ∧ (u.part p.val).s0 = s0 ∧ (u.part p.val).lastStamp = s0 - 1 ∧ u.taken = []
      ∧ u.obj 0x8600 (0x11 + p.val) 0 = s0.toNat
      ∧ ∀ x, b.tiles = [x] → x.compute = true → s.obj 0x5000 1 x.tile.val = 0 →
          (u.tile x.tile.val).stamp = s0 ∧ (u.tile x.tile.val).part = some p ∧ (u.tile x.tile.val).counters = []) := by
  have hr := atCommand_reported s
  have hparts : s.atCommand.part p.val = s.part p.val := by
    rw [State.atCommand, tracePoint_frame]
    rfl
  have hheld : (s.atCommand.part p.val).bin = some b := by rw [hparts, hbin]
  have hexec : exec (.partitionStart p) s = done ((s.atCommand.startPart p s0 (bytesAt c.params 4 1)).finish c 0 0xFFFF) := by
    have hrun : exec (.partitionStart p) s = done (if s.startWaits p.val then s else s.runTaken p.val 4 _) := rfl
    have hready : s.startWaits p.val = false := by simp [State.startWaits, hclear]
    rw [hrun, hready, if_neg Bool.false_ne_true, runTaken_of_onlyTaken h]
    dsimp only
    rw [hr.pstate p.isLt, hstate, hparts, hopen, hs0]
    simp only [bne_self_eq_false, Bool.false_eq_true, if_false, Nat.not_lt.2 hflag]
  obtain ⟨hbegun, hruns⟩ := startPart_runs hheld s0 (bytesAt c.params 4 1)
  obtain ⟨htaken, hrun, hshown, -⟩ := id hbegun
  refine gives_of_finish hexec (htaken.trans (atCommand_taken h)) fun u hu => ?_
  have hmine := (hu.begun p.val).trans hrun
  refine ⟨(hu.pstate p.isLt).trans hruns, ?_, ?_, hu.taken, ?_, fun x hone hcompute hreset => ?_⟩
  · exact congrArg (fun y => y.2.1) hmine
  · exact congrArg (fun y => y.2.2) hmine
  · have hidx : okey 0x8600 (0x11 + p.val) 0 / 2 ^ 24 = 0x8600 := by
      simp only [okey]
      omega
    exact (hu.objs (by rw [hidx]; decide)).trans hshown
  · have hidx : okey 0x5000 1 x.tile.val / 2 ^ 24 = 0x5000 := by
      simp only [okey]
      omega
    have hreset' : s.atCommand.obj 0x5000 1 x.tile.val = 0 := (hr.objs _ _ _ (by rw [hidx]; decide)).trans hreset
    rw [hu.tile]
    exact startPart_tile hheld hone hcompute hreset' s0 _

theorem partitionStart_refuses (h : s.onlyTaken c p 4) (hstate : s.pstate p.val ≠ 2) : Gives (.partitionStart p) s (fun u =>
    u.pstate p.val = s.pstate p.val) := by
  have hr := atCommand_reported s
  have hexec : exec (.partitionStart p) s = done (s.atCommand.finish c 2 0xFFFF) := by
    have hrun : exec (.partitionStart p) s = done (if s.startWaits p.val then s else s.runTaken p.val 4 _) := rfl
    have hready : s.startWaits p.val = false := by simp [State.startWaits, hstate]
    rw [hrun, hready, if_neg Bool.false_ne_true, runTaken_of_onlyTaken h]
    simp [hr.pstate p.isLt, hstate]
  exact gives_of_finish hexec (atCommand_taken h) fun u hu => (hu.pstate p.isLt).trans (hr.pstate p.isLt)

/-! Stop (R274). -/

/-- None of the commands taken runs. -/
theorem idle_of_onlyTaken {op : Nat} (h : s.onlyTaken c p op) : ∀ d ∈ s.atCommand.taken, d.running = false := by
  obtain ⟨-, -, -, hidle, -⟩ := id h
  rw [atCommand_taken h]
  simpa using hidle

theorem partitionStop_stops (h : s.onlyTaken c p 5) (hlive : s.isLive p.val = true) : Gives (.partitionStop p) s (fun u =>
    u.pstate p.val = 6 ∧ u.obj 0x2103 (p.val + 1) 0 = 6 ∧ u.taken = []) := by
  have hlive' : s.atCommand.isLive p.val = true := ((atCommand_reported s).isLive p.isLt).trans hlive
  have hexec : exec (.partitionStop p) s = done ((s.atCommand.stopPart p.val 6 false).finish c 0 0xFFFF) := by
    have hrun : exec (.partitionStop p) s = done (s.runTaken p.val 5 _) := rfl
    rw [hrun, runTaken_of_onlyTaken h]
    simp only [hlive', if_true]
  obtain ⟨hstate, hcause⟩ := stopPart_stops p.isLt hlive' 6 false
  have htaken := (StopsOnly.stopPart s.atCommand p.val 6 false).taken (idle_of_onlyTaken h)
  exact gives_of_finish hexec (htaken.trans (atCommand_taken h)) fun u hu =>
    ⟨(hu.pstate p.isLt).trans hstate, (hu.partObj (by decide) p.isLt).trans hcause, hu.taken⟩

theorem partitionStop_refuses (h : s.onlyTaken c p 5) (hlive : s.isLive p.val = false) : Gives (.partitionStop p) s (fun u =>
    u.pstate p.val = s.pstate p.val ∧ u.taken = []) := by
  have hr := atCommand_reported s
  have hexec : exec (.partitionStop p) s = done (s.atCommand.finish c 2 0xFFFF) := by
    have hrun : exec (.partitionStop p) s = done (s.runTaken p.val 5 _) := rfl
    rw [hrun, runTaken_of_onlyTaken h]
    simp only [hr.isLive p.isLt, hlive, Bool.false_eq_true, if_false]
  exact gives_of_finish hexec (atCommand_taken h) fun u hu => ⟨(hu.pstate p.isLt).trans (hr.pstate p.isLt), hu.taken⟩

/-! Reset (R275). -/

theorem partitionReset_resets (h : s.onlyTaken c p 6) (hdefined : s.pstate p.val ≠ 0) (hquiet : s.pstate p.val ≠ 7) :
    Gives (.partitionReset p) s (fun u =>
      u.pstate p.val = (if (s.part p.val).bin.isSome then 2 else 1) ∧ u.taken = []
      ∧ ∀ e ∈ s.tiles, e.2.part = some p → (u.tile e.1).counters = [] ∧ (u.tile e.1).ctxs = []) := by
  have hr := atCommand_reported s
  have hexec : exec (.partitionReset p) s = done (((s.atCommand.resetPart p.val 4).afterReset p.val).finish c 0 0xFFFF) := by
    have hrun : exec (.partitionReset p) s = done (s.runTaken p.val 6 _) := rfl
    rw [hrun, runTaken_of_onlyTaken h]
    simp [hr.pstate p.isLt, hdefined, hquiet]
  have hdesk := resetPart_desk (idle_of_onlyTaken h) p.val 4
  have hbin : ((s.atCommand.resetPart p.val 4).part p.val).bin = (s.part p.val).bin := (hdesk.bin p.val).trans (hr.bin p.val)
  have hblank {e : Nat × Tile} (he : e ∈ s.tiles) (hpart : e.2.part = some p) :
      ((s.atCommand.resetPart p.val 4).tile e.1).Blank := resetPart_blank (by rwa [hr.tiles]) hpart 4
  have htaken := hdesk.taken.trans (atCommand_taken h)
  generalize s.atCommand.resetPart p.val 4 = v at hexec hbin hblank htaken
  have hafter : v.afterReset p.val = v.toPstate p.val (if (s.part p.val).bin.isSome then 2 else 1) := by
    rw [State.afterReset, hbin]
  rw [hafter] at hexec
  refine gives_of_finish hexec ((DeskKept.toPstate v p.val _).taken.trans htaken) fun u hu => ⟨?_, hu.taken, fun e he hpart => ?_⟩
  · exact (hu.pstate p.isLt).trans (toPstate_same v p.isLt _)
  · obtain ⟨hctxs, hcounters⟩ := (StopsOnly.toPstate v p.val _).blank e.1 (hblank he hpart)
    rw [hu.tile]
    exact ⟨hcounters, hctxs⟩

end

/-- Settles O37: a command that has been taken acts by the state of its partition, and a lemma for each says what it leaves. -/
theorem partitionCommandsMoveTheState : Obligations.PartitionCommandsMoveTheState := by
  intro s p c img b hb v s0 r
  exact ⟨definePartition_defines, removePartition_removes,
    fun h hstate hstack hoffset hlength hinside hread hready hadmitted =>
      partitionLoad_loads h hstate ⟨hstack, hoffset, hlength, hinside⟩ hread hready hadmitted,
    fun h hstate hflag hclear hopen hbin => partitionStart_starts h hstate hflag hclear hopen hbin rfl,
    partitionStop_stops, partitionReset_resets, partitionStart_refuses, partitionStop_refuses⟩

end Sys2Proof.Machine
end

section
/-! SUPPORT. The stages of a turnover (O40). -/
namespace Sys2Proof.Machine

/-- What the obligation says of a state rests on its objects and its turnover, which the trim to the rings' bounds keeps. -/
theorem gives_of_turn {s w : State} {i : Instr} {P : State → Prop} (hi : exec i s = done w)
    (hP : ∀ u : State, u.obj = w.obj → u.turn = w.turn → P u) : Gives i s P :=
  gives_of_done hi (hP _ (funext fun i => funext fun b => funext fun n => obj_trimmed w i b n) rfl)

/-! What a stage leaves of the turnover, and of the partitions. -/

theorem resetPart_turn (s : State) (p status : Nat) : (s.resetPart p status).turn = s.turn := by
  obtain ⟨-, hturn, -⟩ := (answerAll_stages (s.edgesReset p) p status).trans (StagesKept.endPausing _ p)
  have hcleared (w : State) (f : Part → Part) : (w.modPart p f).turn = w.turn := rfl
  rw [resetPart_eq, hcleared, hturn, (edgesReset_desk s p).turn]

theorem setStage_service (s : State) (n : Nat) : ServiceOnly s (s.setStage n) := by
  have hset : ServiceOnly s (s.stageSet n) :=
    ServiceOnly.setObj { s with turn := s.turn.map (fun t => { t with stage := n }) } (i := 0x2110) (by decide) (by decide) n
  rw [setStage_eq]
  exact (hset.trans (ServiceOnly.tracePoint _ _ _ _)).trans (ServiceOnly.tracePoint _ _ _ _)

theorem setStage_turn {s : State} {t : Turnover} (h : s.turn = some t) (n : Nat) :
    (s.setStage n).turn.map (·.stage) = some n := by
  rw [(setStage_stage s n).1, h]
  rfl

/-- A turnover ends: it is no more, and its result is shown (R286). -/
theorem endTurnover_ends (s : State) (t : Turnover) (result : Nat) : (s.endTurnover t false result).turn = none
    ∧ (s.endTurnover t false result).obj 0x2110 4 0 = 6 ∧ (s.endTurnover t false result).obj 0x2110 5 0 = result := by
  unfold State.endTurnover
  extract_lets d s1 s2 s3
  have hreport : Reported s2 ((s3.tracePoint 1 srcModule 0).notice 0x8002 (((t.entries.map (·.part.val)).min?).getD 0) result) :=
    ((Reported.raise _ _ _ _ _).trans (Reported.tracePoint _ _ _ _)).trans (Reported.complete _ _)
  refine ⟨hreport.turn, (hreport.objs _ _ _ (by decide)).trans ?_, (hreport.objs _ _ _ (by decide)).trans ?_⟩
  · exact (State.obj_setObj_idx _ (by decide)).trans ((State.obj_setObj_idx _ (by decide)).trans (State.obj_setObj_same _ _ _ _ _))
  · exact (State.obj_setObj_idx _ (by decide)).trans (State.obj_setObj_same _ _ _ _ _)

/-- The reset of a partition that a plan names: it holds nothing and has no rectangle (R281). -/
def State.removed (s : State) (p : Nat) : State :=
  ((if s.pstate p = 0 then s else (s.resetPart p 2).dropBinary p).setObj 0x2100 (p + 1) 0 0).toPstate p 0

theorem removed_removes (s : State) (p : PartId) :
    (s.removed p.val).turn = s.turn ∧ (s.removed p.val).pstate p.val = 0 ∧ (s.removed p.val).rect p.val = 0 := by
  have hturn : (if s.pstate p.val = 0 then s else (s.resetPart p.val 2).dropBinary p.val).turn = s.turn := by
    split
    · rfl
    · rw [(dropBinary_queues _ _).2, resetPart_turn]
  unfold State.removed
  generalize (if s.pstate p.val = 0 then s else (s.resetPart p.val 2).dropBinary p.val) = v at hturn
  exact ⟨(DeskKept.toPstate _ _ _).turn.trans hturn, toPstate_same _ p.isLt 0,
    (toPstate_rect _ p 0).trans (State.obj_setObj_same _ _ _ _ _)⟩

/-! A turnover of one partition. -/

/-- A turnover that has not been aborted names one partition, and SC1 runs. -/
structure TurnOf (s : State) (t : Turnover) (e : PlanEntry) : Prop where
  turn : s.turn = some t
  entries : t.entries = [e]
  going : t.aborted = false
  up : (s.core 1).down = false

section
variable {s : State} {t : Turnover} {e : PlanEntry}

theorem atBoundary_of_stage (h : TurnOf s t e) {n : Nat} (hstage : t.stage = n) (f : State → Turnover → State) :
    s.atBoundary n f = f s t := by
  simp [State.atBoundary, h.turn, hstage, h.up, h.going]

theorem allDrained_eq (h : TurnOf s t e) : t.entries.all (fun e => s.drained e.part.val) = s.drained e.part.val := by
  simp [h.entries]

/-! Draining (R285). -/

/-- The reset stage of a plan that removes its one partition and clears no vaults (R275, R281). -/
theorem stageReset_of_removal (h : TurnOf s t e) (haction : e.action = 2) (hclear : t.clear = false) :
    s.stageReset t = ((s.setStage 2).removed e.part.val).setStage 3 := by
  unfold State.stageReset
  simp only [h.entries, hclear, List.foldl_cons, List.foldl_nil, State.writeRect, haction, if_true, Bool.false_eq_true, if_false]
  rfl

theorem turnoverDrainComplete_resets (h : TurnOf s t e) (hstage : t.stage = 1) (hdrained : s.drained e.part.val = true)
    (haction : e.action = 2) (hclear : t.clear = false) : Gives .turnoverDrainComplete s (fun u =>
      u.turn.map (·.stage) = some 3 ∧ u.pstate e.part.val = 0 ∧ u.rect e.part.val = 0) := by
  have hexec : exec .turnoverDrainComplete s = done (((s.setStage 2).removed e.part.val).setStage 3) := by
    have hrun : exec .turnoverDrainComplete s = done (s.atBoundary 1 _) := rfl
    rw [hrun, atBoundary_of_stage h hstage, allDrained_eq h, hdrained, if_pos rfl, stageReset_of_removal h haction hclear]
  obtain ⟨hkept, hstate, hrect⟩ := removed_removes (s.setStage 2) e.part
  have hturn : ((s.setStage 2).removed e.part.val).turn = some { t with stage := 2 } := by
    rw [hkept, (setStage_stage s 2).1, h.turn]
    rfl
  generalize (s.setStage 2).removed e.part.val = v at hexec hstate hrect hturn
  have hidx : okey 0x2100 (e.part.val + 1) 0 / 2 ^ 24 ∉ serviceIndexes := by
    have heq : okey 0x2100 (e.part.val + 1) 0 / 2 ^ 24 = 0x2100 := by
      simp only [okey]
      omega
    rw [heq]
    decide
  have hservice := setStage_service v 3
  refine gives_of_turn hexec fun u hobj hkeep => ⟨hkeep ▸ setStage_turn hturn 3, ?_, ?_⟩
  · rw [State.pstate, hobj]
    exact (hservice.pstate e.part.isLt).trans hstate
  · rw [State.rect, hobj]
    exact (hservice _ _ _ hidx).trans hrect

theorem turnoverDrainComplete_waits (hb : s.bounded) (h : TurnOf s t e) (hstage : t.stage = 1)
    (hopen : s.drained e.part.val = false) : exec .turnoverDrainComplete s = .next s := by
  have hrun : exec .turnoverDrainComplete s = done (s.atBoundary 1 _) := rfl
  rw [hrun, atBoundary_of_stage h hstage, allDrained_eq h, hopen, if_neg Bool.false_ne_true, done_bounded hb]

/-! The drain limit (R278, R285). -/

/-- The limit of the drain has not been reached, or all partitions have drained by now. -/
def State.limitRests (s : State) (t : Turnover) : Bool :=
  t.stage != 1 || s.tick ≤ t.drain + s.obj 0x2110 2 0 * msTicks || t.entries.all (fun e => s.drained e.part.val)

theorem turnoverDrainLimit_rests (hb : s.bounded) (hturn : s.turn = some t) (hrests : s.limitRests t = true) :
    exec .turnoverDrainLimit s = .next s := by
  have hrun : exec .turnoverDrainLimit s = execTurnoverDrainLimit s := rfl
  unfold State.limitRests at hrests
  rw [hrun, execTurnoverDrainLimit, hturn]
  dsimp only
  rw [if_pos hrests, done_bounded hb]

theorem turnoverDrainLimit_stops (h : TurnOf s t e) (hstage : t.stage = 1) (hopen : s.drained e.part.val = false)
    (hlate : (s.serveAll e.part.val).drained e.part.val = false) (hlive : (s.serveAll e.part.val).isLive e.part.val = true)
    (hpast : t.drain + s.obj 0x2110 2 0 * 117500 < s.tick) : Gives .turnoverDrainLimit s (fun u =>
      u.pstate e.part.val = 6 ∧ u.obj 0x2103 (e.part.val + 1) 0 = 7 ∧ u.turn.map (·.result) = some 1) := by
  have hruns : s.limitRests t = false := by
    have hms : msTicks = 117500 := rfl
    rw [State.limitRests, allDrained_eq h, hopen, hstage, hms, decide_eq_false (Nat.not_le.2 hpast)]
    rfl
  have hexec : exec .turnoverDrainLimit s = done
      { (s.serveAll e.part.val).stopPart e.part.val 7 true with turn := some { t with result := 1 } } := by
    have hrun : exec .turnoverDrainLimit s = execTurnoverDrainLimit s := rfl
    unfold State.limitRests at hruns
    rw [hrun, execTurnoverDrainLimit, h.turn]
    dsimp only
    rw [hruns, if_neg Bool.false_ne_true]
    simp only [h.entries, List.foldl_cons, List.foldl_nil, List.filter_cons, List.filter_nil, hlate, Bool.not_false, if_true,
      List.cons_ne_nil, if_false]
  obtain ⟨hstate, hcause⟩ := stopPart_stops e.part.isLt hlive 7 true
  refine gives_of_turn hexec fun u hobj hkeep => ⟨?_, ?_, ?_⟩
  · rw [State.pstate, hobj]
    exact hstate
  · rw [hobj]
    exact hcause
  · rw [hkeep]
    rfl

/-! The later stages of a plan that removes its one partition (R283, R286). -/

/-- No entry of such a plan is to be loaded, routed or started. -/
theorem any_load_eq_false (h : TurnOf s t e) (haction : e.action = 2) (f : PlanEntry → Bool) :
    t.entries.any (fun e => e.action != 2 && f e) = false := by
  simp [h.entries, haction]

theorem turnoverStageDone_loaded (h : TurnOf s t e) (haction : e.action = 2) (hstage : t.stage = 3) :
    Gives (.turnoverStageDone (.loaded [])) s (fun u => u.turn.map (·.stage) = some 4) := by
  have hexec : exec (.turnoverStageDone (.loaded [])) s = done (s.setStage 4) := by
    have hrun : exec (.turnoverStageDone (.loaded [])) s = done (s.atBoundary 3 _) := rfl
    rw [hrun, atBoundary_of_stage h hstage, any_load_eq_false h haction]
    simp [h.entries, State.stageLoad, haction]
  exact gives_of_turn hexec fun u _ hkeep => hkeep ▸ setStage_turn h.turn 4

theorem turnoverStageDone_routed (h : TurnOf s t e) (haction : e.action = 2) (hgood : t.failed = []) (hstage : t.stage = 4) :
    Gives (.turnoverStageDone (.routed [])) s (fun u => u.turn.map (·.stage) = some 5) := by
  have hexec : exec (.turnoverStageDone (.routed [])) s = done (s.setStage 5) := by
    have hrun : exec (.turnoverStageDone (.routed [])) s = done (s.atBoundary 4 _) := rfl
    rw [hrun, atBoundary_of_stage h hstage]
    dsimp only
    rw [any_load_eq_false h haction]
    simp [h.entries, haction, hgood]
  exact gives_of_turn hexec fun u _ hkeep => hkeep ▸ setStage_turn h.turn 5

theorem turnoverStageDone_started (h : TurnOf s t e) (haction : e.action = 2) (hstage : t.stage = 5) :
    Gives (.turnoverStageDone .started) s (fun u => u.turn = none ∧ u.obj 0x2110 4 0 = 6 ∧ u.obj 0x2110 5 0 = t.result) := by
  have hexec : exec (.turnoverStageDone .started) s = done (s.endTurnover t false t.result) := by
    have hrun : exec (.turnoverStageDone .started) s = done (s.atBoundary 5 _) := rfl
    have hnone : t.entries.filter (fun e => e.action != 2) = [] := by simp [h.entries, haction]
    rw [hrun, atBoundary_of_stage h hstage]
    dsimp only
    rw [hnone]
    rfl
  refine gives_of_turn hexec fun u hobj hkeep => ?_
  rw [hkeep, hobj]
  exact endTurnover_ends s t t.result

end

/-- Settles O40: the end of the drain, its limit and each later stage are a lemma of their own. -/
theorem turnoversPassTheirStages : Obligations.TurnoversPassTheirStages := by
  intro s t e hb hturn hentries hgoing hup w
  have h : TurnOf s t e := ⟨hturn, hentries, hgoing, hup⟩
  refine ⟨turnoverDrainComplete_resets h, turnoverDrainComplete_waits hb h, turnoverDrainLimit_stops h, fun _ hearly => ?_,
    fun haction hgood => ⟨turnoverStageDone_loaded h haction, turnoverStageDone_routed h haction hgood,
      turnoverStageDone_started h haction⟩⟩
  refine turnoverDrainLimit_rests hb hturn ?_
  have hms : msTicks = 117500 := rfl
  rw [State.limitRests, hms, decide_eq_true hearly, Bool.or_true, Bool.true_or]

end Sys2Proof.Machine
end

section
/-! SUPPORT. Frames of a link: what a frame that comes in makes of its sub-port, the control frames that go out, and the replay
buffer (O41). -/
namespace Sys2Proof.Machine

/-! Counters of a port, and trace points of a sub-port (R322, R411). -/

@[simp] theorem State.sub_trimmed (s : State) (p b : Nat) : s.trimmed.sub p b = s.sub p b := rfl
@[simp] theorem State.port_trimmed (s : State) (p : Nat) : s.trimmed.port p = s.port p := rfl

theorem count_bump_other (s : State) {c b : Nat} (h : c ≠ b) (p n : Nat) :
    (s.bump 0x7500 b p n).count 0x7500 c p = s.count 0x7500 c p :=
  (State.count_bump _ _ _ _ _ _ _ _).trans (if_neg (by simp only [okey]; omega))

@[simp] theorem tracePoint_sub (s : State) (kind src : Nat) (stp : BitVec 32) (p b : Nat) :
    (s.tracePoint kind src stp).sub p b = s.sub p b := by
  rw [tracePoint_frame]
  rfl

@[simp] theorem tracePoint_count (s : State) (kind src : Nat) (stp : BitVec 32) (i b n : Nat) :
    (s.tracePoint kind src stp).count i b n = s.count i b n := by
  rw [tracePoint_frame]
  rfl

theorem traceSub_frame (s : State) (p b was : Nat) : s.traceSub p b was
    = { s with free := (s.traceSub p b was).free, dict := (s.traceSub p b was).dict, trace := (s.traceSub p b was).trace,
               traceBufs := (s.traceSub p b was).traceBufs } := by
  unfold State.traceSub
  split
  · rfl
  · exact tracePoint_frame _ _ _ _

@[simp] theorem traceSub_sub (s : State) (p b was q c : Nat) : (s.traceSub p b was).sub q c = s.sub q c := by
  rw [traceSub_frame]
  rfl

@[simp] theorem traceSub_port (s : State) (p b was q : Nat) : (s.traceSub p b was).port q = s.port q := by
  rw [traceSub_frame]
  rfl

theorem traceSub_objs (s : State) (p b was i c n : Nat) (hi : okey i c n / 2 ^ 24 ≠ 0x9100) :
    (s.traceSub p b was).obj i c n = s.obj i c n := by
  unfold State.traceSub
  split
  · rfl
  · exact tracePoint_objs _ _ _ _ _ _ _ hi

section
variable {s : State} {p b : Nat}

/-! Data frames that come in (R293, R294). -/

theorem countKp4_frame (s : State) (p b : Nat) (k : Kp4) : s.countKp4 p b k = { s with live := (s.countKp4 p b k).live } := by
  unfold State.countKp4
  split <;> rfl

theorem countKp4_fixed (hup : s.linkUp p b = true) (k : Kp4) : (s.countKp4 p b k).count 0x7500 9 p
    = s.count 0x7500 9 p + (if 2 ≤ s.obj 0x6000 2 p then k.fixed else 0) := by
  unfold State.countKp4
  rw [hup, Bool.true_and]
  by_cases hclass : 2 ≤ s.obj 0x6000 2 p
  · rw [if_pos (decide_eq_true hclass), if_pos hclass, count_bump_other _ (by decide), State.count_bump_same]
  · rw [if_neg (by simpa using hclass), if_neg hclass, Nat.add_zero]

theorem countKp4_bad (hup : s.linkUp p b = true) (k : Kp4) : (s.countKp4 p b k).count 0x7500 0xA p
    = s.count 0x7500 0xA p + (if 2 ≤ s.obj 0x6000 2 p then k.bad else 0) := by
  unfold State.countKp4
  rw [hup, Bool.true_and]
  by_cases hclass : 2 ≤ s.obj 0x6000 2 p
  · rw [if_pos (decide_eq_true hclass), if_pos hclass, State.count_bump_same, count_bump_other _ (by decide)]
  · rw [if_neg (by simpa using hclass), if_neg hclass, Nat.add_zero]

theorem countKp4_other (s : State) (p b : Nat) (k : Kp4) {c : Nat} (hfixed : c ≠ 9) (hbad : c ≠ 0xA) :
    (s.countKp4 p b k).count 0x7500 c p = s.count 0x7500 c p := by
  unfold State.countKp4
  split
  · rw [count_bump_other _ hbad, count_bump_other _ hfixed]
  · rfl

theorem endPkt_rxSeq (x : SubPort) : x.endPkt.rxSeq = x.rxSeq := by
  unfold SubPort.endPkt
  split <;> rfl

theorem takeSlot_rxSeq (x : SubPort) (bad : Bool) (sl : List Byte) : (x.takeSlot bad sl).rxSeq = x.rxSeq := by
  unfold SubPort.takeSlot
  split
  · split
    · rfl
    · exact endPkt_rxSeq _
  · exact endPkt_rxSeq _

/-- A sub-port once a data frame has come, which is poisoned or not. -/
def SubPort.tookFrame (x : SubPort) (poisoned : Bool) (slots : List Byte) (now : Nat) : SubPort :=
  { (x.takeSlot poisoned (slots.take 128)).takeSlot poisoned (slots.drop 128) with
    rxSeq := (x.rxSeq + 1) % 2 ^ 24, discarding := false, lastValid := now }

/-- The CRC with which a data frame comes (R293, R294). -/
def frameCrc (seq : Nat) (slots : List Byte) (poisoned : Bool) : BitVec 32 :=
  if poisoned then ~~~dataCrc seq slots else dataCrc seq slots

theorem ne_not (c : BitVec 32) : ~~~c ≠ c := by
  intro h
  have hbit := congrArg (·.getLsbD 0) h
  simp at hbit

theorem frameIn_data (hup : s.linkUp p b = true) (slots : List Byte) (poisoned : Bool) :
    s.frameIn p b slots (frameCrc (s.sub p b).rxSeq slots poisoned)
      = (let w := (s.setSub p b ((s.sub p b).tookFrame poisoned slots s.tick)).bump 0x7500 5 p 1
         if poisoned then w.bump 0x7500 8 p 1 else w) := by
  have hpoisoned : (~~~dataCrc (s.sub p b).rxSeq slots != dataCrc (s.sub p b).rxSeq slots) = true := bne_iff_ne.2 (ne_not _)
  unfold State.frameIn frameCrc
  cases poisoned with
  | false => simp [hup, takeSlot_rxSeq, SubPort.tookFrame]
  | true => simp [hup, hpoisoned, takeSlot_rxSeq, SubPort.tookFrame]

/-- A data frame has come in order: the next number is expected, and what the decoders reported is counted. -/
structure FrameTaken (s u : State) (p b : Nat) (k : Kp4) : Prop where
  next : (u.sub p b).rxSeq = ((s.sub p b).rxSeq + 1) % 2 ^ 24
  accepts : (u.sub p b).discarding = false
  valid : (u.sub p b).lastValid = s.tick
  counted : u.count 0x7500 5 p = s.count 0x7500 5 p + 1
  mem : SameMem s u
  fixed : u.count 0x7500 9 p = s.count 0x7500 9 p + (if 2 ≤ s.obj 0x6000 2 p then k.fixed else 0)
  bad : u.count 0x7500 0xA p = s.count 0x7500 0xA p + (if 2 ≤ s.obj 0x6000 2 p then k.bad else 0)

/-- That the frame was poisoned is counted beside the rest (R294). -/
theorem FrameTaken.poisoned {u : State} {k : Kp4} (h : FrameTaken s u p b k) : FrameTaken s (u.bump 0x7500 8 p 1) p b k := by
  obtain ⟨hnext, haccepts, hvalid, hcounted, hmem, hfixed, hbad⟩ := h
  exact ⟨hnext, haccepts, hvalid, (count_bump_other u (by decide) p 1).trans hcounted, hmem,
    (count_bump_other u (by decide) p 1).trans hfixed, (count_bump_other u (by decide) p 1).trans hbad⟩

theorem FrameTaken.trimmed {u : State} {k : Kp4} (h : FrameTaken s u p b k) : FrameTaken s u.trimmed p b k := by
  obtain ⟨hnext, haccepts, hvalid, hcounted, hmem, hfixed, hbad⟩ := h
  exact ⟨hnext, haccepts, hvalid, hcounted, hmem, hfixed, hbad⟩

theorem frameIn_taken (hup : s.linkUp p b = true) (slots : List Byte) (k : Kp4) (poisoned : Bool) :
    FrameTaken s ((s.countKp4 p b k).frameIn p b slots (frameCrc (s.sub p b).rxSeq slots poisoned)) p b k
    ∧ ((s.countKp4 p b k).frameIn p b slots (frameCrc (s.sub p b).rxSeq slots poisoned)).count 0x7500 8 p
      = s.count 0x7500 8 p + (if poisoned then 1 else 0) := by
  have hfixed := countKp4_fixed hup k
  have hbad := countKp4_bad hup k
  have hother (c : Nat) := countKp4_other s p b k (c := c)
  have hframe := countKp4_frame s p b k
  generalize hv : s.countKp4 p b k = v at *
  have hsub : v.sub p b = s.sub p b := by rw [hframe]; rfl
  have hlink : v.linkUp p b = true := by rw [hframe]; exact hup
  have htick : v.tick = s.tick := by rw [hframe]; rfl
  have hmems : v.mems = s.mems := by rw [hframe]
  have hdata := frameIn_data hlink slots poisoned
  rw [hsub, htick] at hdata
  generalize hw : (v.setSub p b ((s.sub p b).tookFrame poisoned slots s.tick)).bump 0x7500 5 p 1 = w at hdata
  have htook : w.sub p b = (s.sub p b).tookFrame poisoned slots s.tick := by
    rw [← hw, State.sub_bump, State.sub_setSub_same]
  have hkept {c : Nat} (hc : c ≠ 5) : w.count 0x7500 c p = v.count 0x7500 c p := by
    rw [← hw, count_bump_other _ hc, State.count_setSub]
  have htaken : FrameTaken s w p b k := by
    refine ⟨by rw [htook]; rfl, by rw [htook]; rfl, by rw [htook]; rfl, ?_, sameMem_of_mems ?_,
      (hkept (by decide)).trans hfixed, (hkept (by decide)).trans hbad⟩
    · rw [← hw, State.count_bump_same, State.count_setSub, hother 5 (by decide) (by decide)]
    · rw [← hw]
      exact hmems
  have height : w.count 0x7500 8 p = s.count 0x7500 8 p := (hkept (by decide)).trans (hother 8 (by decide) (by decide))
  rw [hdata]
  cases poisoned with
  | false => exact ⟨htaken, height⟩
  | true => exact ⟨htaken.poisoned, by rw [if_pos rfl, State.count_bump_same, height, if_pos rfl]⟩

/-! Control frames that go out (R295). -/

/-- From s to u a sub-port has sent a control frame, and nothing else has changed. -/
structure ControlSent (s u : State) (p b ty : Nat) : Prop where
  frame : u = { s with subs := u.subs }
  rest : u.sub p b = { s.sub p b with ctl := (u.sub p b).ctl, released := (u.sub p b).released,
                                      sinceCtl := (u.sub p b).sinceCtl, digestSent := (u.sub p b).digestSent }
  head : (u.sub p b).ctl.head?.map (fun c => (c.ty, c.ack, c.peer)) = some (ty, (s.sub p b).rxSeq, s.moduleId)
  since : (u.sub p b).sinceCtl = if ty = 0 then 0 else (s.sub p b).sinceCtl + 1

theorem sendControl_sent (s : State) (p b ty : Nat) (withDigest : Bool) :
    ControlSent s (s.sendControl p b ty withDigest) p b ty := by
  unfold State.sendControl
  refine ⟨rfl, ?_, ?_, ?_⟩
  all_goals rw [State.sub_setSub_same]
  rfl

/-- A frame whose CRC is that of no good frame, no poisoned one and no control frame (R294). -/
theorem frameIn_bad (hup : s.linkUp p b = true) {slots : List Byte} {crc : BitVec 32}
    (hgood : crc ≠ dataCrc (s.sub p b).rxSeq slots) (hpoison : crc ≠ ~~~dataCrc (s.sub p b).rxSeq slots)
    (hctl : crc ≠ ctlCrc slots) : s.frameIn p b slots crc
      = (let w := (s.setSub p b { s.sub p b with discarding := true }).bump 0x7500 6 p 1
         if (s.sub p b).discarding then w else w.sendControl p b 2 false) := by
  unfold State.frameIn
  simp [hup, hgood, hpoison, hctl]

/-! The replay buffer (R299–R302). -/

/-- A number of the window acknowledges the frames before it. -/
theorem ackTo_window {x : SubPort} {g : SentFrame} {gs : List SentFrame} {n : Nat} (hx : x.unacked = g :: gs)
    (hg : g.seq < 2 ^ 24) (hn : n < 2 ^ 24) (hlen : n ≤ x.unacked.length) :
    x.ackTo ((g.seq + n) % 2 ^ 24) = if n = 0 then x else { x with unacked := x.unacked.drop n, replays := 0 } := by
  have hback : ((g.seq + n) % 2 ^ 24 + 2 ^ 24 - g.seq) % 2 ^ 24 = n := by omega
  unfold SubPort.ackTo
  rw [hx] at hlen ⊢
  simp only [hback]
  by_cases hzero : n = 0
  · rw [if_pos hzero, if_pos (by simp [hzero])]
  · rw [if_neg hzero, if_neg (by simpa [hzero] using hlen)]

section
variable {g : SentFrame} {gs : List SentFrame} {n : Nat} (hx : (s.sub p b).unacked = g :: gs) (hg : g.seq < 2 ^ 24)
include hx hg

/-- An acknowledgement takes the frames before its number from the replay buffer, and no others. -/
theorem acknowledge_sub (hn : n < 2 ^ 24) (hlen : n ≤ (s.sub p b).unacked.length) :
    let u := s.acknowledge p b ((g.seq + n) % 2 ^ 24)
    u.sub p b = { s.sub p b with unacked := (s.sub p b).unacked.drop n, replays := (u.sub p b).replays,
                                 ackWait := (u.sub p b).ackWait } := by
  unfold State.acknowledge
  simp only [ackTo_window hx hg hn hlen]
  by_cases hzero : n = 0
  · simp [hzero]
  · have hpos : 0 < (s.sub p b).unacked.length := by rw [hx]; exact Nat.succ_pos _
    have hfewer : (s.sub p b).unacked.length - n ≠ (s.sub p b).unacked.length := by omega
    simp [hzero, hfewer]

/-- The number of the oldest frame acknowledges none. -/
theorem acknowledge_oldest : s.acknowledge p b g.seq = s := by
  have hsame : (g.seq + 0) % 2 ^ 24 = g.seq := Nat.mod_eq_of_lt hg
  unfold State.acknowledge
  simp only
  rw [← hsame, ackTo_window hx hg (by decide) (Nat.zero_le _), if_pos rfl, if_pos rfl]

end

/-- All the frames of the replay buffer go out again: they stay in it, and are counted. -/
theorem replayAll_sub (s : State) (p b : Nat) : (s.replayAll p b).sub p b = { s.sub p b with
    ackWait := s.tick, sinceCtl := ((s.replayAll p b).sub p b).sinceCtl, wire := ((s.replayAll p b).sub p b).wire } := by
  unfold State.replayAll
  simp only [tracePoint_sub, State.sub_bump, State.sub_setSub_same]

theorem replayAll_count (s : State) (p b : Nat) :
    (s.replayAll p b).count 0x7500 7 p = s.count 0x7500 7 p + (s.sub p b).unacked.length := by
  unfold State.replayAll
  rw [tracePoint_count, count_bump_other _ (by decide), State.count_bump_same, State.count_setSub]

/-- A replay has begun: every frame that has not been acknowledged goes out again. -/
structure Replayed (s u : State) (p b : Nat) : Prop where
  unacked : (u.sub p b).unacked = (s.sub p b).unacked
  replays : (u.sub p b).replays = (s.sub p b).replays + 1
  since : (u.sub p b).ackWait = s.tick
  counted : u.count 0x7500 7 p = s.count 0x7500 7 p + (s.sub p b).unacked.length

theorem replay_replayed (hun : (s.sub p b).unacked ≠ []) (hfew : (s.sub p b).replays < 16) : Replayed s (s.replay p b) p b := by
  unfold State.replay
  simp only [if_neg hun, if_neg (Nat.not_le.2 hfew)]
  have hsub := replayAll_sub (s.setSub p b { s.sub p b with replays := (s.sub p b).replays + 1 }) p b
  have hcount := replayAll_count (s.setSub p b { s.sub p b with replays := (s.sub p b).replays + 1 }) p b
  rw [State.sub_setSub_same] at hsub hcount
  exact ⟨by rw [hsub], by rw [hsub], by rw [hsub]; rfl, hcount⟩

theorem replay_retrains (hun : (s.sub p b).unacked ≠ []) (hmany : 16 ≤ (s.sub p b).replays) :
    (s.replay p b).sub p b = { s.sub p b with st := 4, trained := s.tick } := by
  unfold State.replay
  simp only [if_neg hun, if_pos hmany]
  rw [traceSub_sub, State.sub_setSub_same]

end

section
variable {s : State} {port : PortId} {sub : SubId}

/-! The commands of a link's frames. -/

theorem dataFrameReceive_taken (hup : s.linkUp port.val sub.val = true) (slots : List Byte) (k : Kp4) (poisoned : Bool) :
    Gives (.dataFrameReceive port sub slots ⟨frameCrc (s.sub port.val sub.val).rxSeq slots poisoned, k⟩) s (fun u =>
      FrameTaken s u port.val sub.val k
        ∧ u.count 0x7500 8 port.val = s.count 0x7500 8 port.val + (if poisoned then 1 else 0)) := by
  obtain ⟨htaken, hpoison⟩ := frameIn_taken hup slots k poisoned
  generalize hw : (s.countKp4 port.val sub.val k).frameIn port.val sub.val slots
    (frameCrc (s.sub port.val sub.val).rxSeq slots poisoned) = w at htaken hpoison
  exact gives_of_done (w := w) (by rw [← hw]; rfl) ⟨htaken.trimmed, hpoison⟩

/-- A frame that cannot be read is counted and not taken; the first one of a run asks for a replay (R294, R300). -/
theorem badFrameReceive_discards (hup : s.linkUp port.val sub.val = true) {slots : List Byte} {crc : BitVec 32} (k : Kp4)
    (hgood : crc ≠ dataCrc (s.sub port.val sub.val).rxSeq slots) (hpoison : crc ≠ ~~~dataCrc (s.sub port.val sub.val).rxSeq slots)
    (hctl : crc ≠ ctlCrc slots) : Gives (.badFrameReceive port sub slots ⟨crc, k⟩) s (fun u =>
      (u.sub port.val sub.val).rxSeq = (s.sub port.val sub.val).rxSeq ∧ (u.sub port.val sub.val).discarding = true
      ∧ (u.sub port.val sub.val).accepted = (s.sub port.val sub.val).accepted
      ∧ u.count 0x7500 6 port.val = s.count 0x7500 6 port.val + 1
      ∧ ((s.sub port.val sub.val).discarding = false →
          (u.sub port.val sub.val).ctl.head?.map (fun c => (c.ty, c.ack)) = some (2, (s.sub port.val sub.val).rxSeq))
      ∧ ((s.sub port.val sub.val).discarding = true → (u.sub port.val sub.val).ctl = (s.sub port.val sub.val).ctl)) := by
  have hother := countKp4_other s port.val sub.val k (c := 6) (by decide) (by decide)
  have hframe := countKp4_frame s port.val sub.val k
  generalize hv : s.countKp4 port.val sub.val k = v at *
  have hsub : v.sub port.val sub.val = s.sub port.val sub.val := by rw [hframe]; rfl
  have hlink : v.linkUp port.val sub.val = true := by rw [hframe]; exact hup
  rw [← hsub] at hgood hpoison ⊢
  have hbad := frameIn_bad hlink hgood hpoison hctl
  generalize hw : (v.setSub port.val sub.val { v.sub port.val sub.val with discarding := true }).bump 0x7500 6 port.val 1 = w
    at hbad
  have htold : w.sub port.val sub.val = { v.sub port.val sub.val with discarding := true } := by
    rw [← hw, State.sub_bump, State.sub_setSub_same]
  have hcount : w.count 0x7500 6 port.val = s.count 0x7500 6 port.val + 1 := by
    rw [← hw, State.count_bump_same, State.count_setSub, hother]
  have hexec : exec (.badFrameReceive port sub slots ⟨crc, k⟩) s
      = done (if (v.sub port.val sub.val).discarding then w else w.sendControl port.val sub.val 2 false) := by
    rw [← hbad, ← hv]
    rfl
  cases hdis : (v.sub port.val sub.val).discarding with
  | true =>
    rw [hdis, if_pos rfl] at hexec
    refine gives_of_done hexec ⟨?_, ?_, ?_, hcount, nofun, fun _ => ?_⟩
    all_goals rw [State.sub_trimmed, htold]
  | false =>
    rw [hdis, if_neg Bool.false_ne_true] at hexec
    obtain ⟨hsentFrame, hrest, hhead, -⟩ := sendControl_sent w port.val sub.val 2 false
    generalize w.sendControl port.val sub.val 2 false = u at hexec hsentFrame hrest hhead
    rw [htold] at hrest hhead
    have hlive : u.count 0x7500 6 port.val = w.count 0x7500 6 port.val := by rw [hsentFrame]; rfl
    refine gives_of_done hexec ⟨?_, ?_, ?_, hlive.trans hcount, fun _ => ?_, nofun⟩
    · rw [State.sub_trimmed, hrest]
    · rw [State.sub_trimmed, hrest]
    · rw [State.sub_trimmed, hrest]
    · have hpair := congrArg (Option.map fun y : Nat × Nat × BitVec 14 => (y.1, y.2.1)) hhead
      rwa [Option.map_map] at hpair

theorem scheduledControlSend_sends (hup : s.linkUp port.val sub.val = true) (hdue : 2048 ≤ (s.sub port.val sub.val).sinceCtl) :
    Gives (.scheduledControlSend port sub) s (fun u =>
      (u.sub port.val sub.val).ctl.head?.map (fun c => (c.ty, c.ack, c.peer)) = some (0, (s.sub port.val sub.val).rxSeq, s.moduleId)
      ∧ (u.sub port.val sub.val).sinceCtl = 0) := by
  generalize hv : s.setSub port.val sub.val { s.sub port.val sub.val with scheduled := (s.sub port.val sub.val).scheduled + 1 } = v
  generalize hdig : ((s.sub port.val sub.val).scheduled % 2048 = 0 || (s.sub port.val sub.val).digestSent != s.ownDigest) = dig
  have hexec : exec (.scheduledControlSend port sub) s = done (v.sendControl port.val sub.val 0 dig) := by
    simp only [exec, execScheduledControlSend, hup, hv, hdig, Nat.not_lt.2 hdue, Bool.not_true, decide_false, Bool.or_self,
      Bool.false_eq_true, if_false]
  obtain ⟨-, -, hhead, hsince⟩ := sendControl_sent v port.val sub.val 0 dig
  have hseq : (v.sub port.val sub.val).rxSeq = (s.sub port.val sub.val).rxSeq := by rw [← hv, State.sub_setSub_same]
  have hid : v.moduleId = s.moduleId := by rw [← hv]; rfl
  rw [hseq, hid] at hhead
  exact gives_of_done hexec ⟨hhead, hsince⟩

theorem scheduledControlSend_rests (hb : s.bounded) (hearly : (s.sub port.val sub.val).sinceCtl < 2048) :
    exec (.scheduledControlSend port sub) s = .next s := by
  simp only [exec, execScheduledControlSend, hearly, decide_true, Bool.or_true, if_true]
  exact done_bounded hb

section
variable {g : SentFrame} {gs : List SentFrame} {n : Nat} (hup : s.linkUp port.val sub.val = true)
  (hx : (s.sub port.val sub.val).unacked = g :: gs) (hg : g.seq < 2 ^ 24)
include hup hx hg

theorem controlFrameReceive_acknowledges {f : CtlFrame} (hn : n < 2 ^ 24) (hlen : n ≤ (s.sub port.val sub.val).unacked.length)
    (hty : f.ty = 0) (hdigest : f.digest = none) (hack : f.ack = (g.seq + n) % 2 ^ 24)
    (hqueue : (s.sub port.val sub.val).queue = []) (k : Kp4) : Gives (.controlFrameReceive port sub ⟨f, k⟩) s (fun u =>
      (u.sub port.val sub.val).unacked = (s.sub port.val sub.val).unacked.drop n
      ∧ (u.sub port.val sub.val).lastValid = s.tick
      ∧ (u.sub port.val sub.val).granted = (if (s.sub port.val sub.val).granted = [] then f.credits
          else (s.sub port.val sub.val).granted.zipWith max f.credits)) := by
  generalize hcredits : (if (s.sub port.val sub.val).granted = [] then f.credits
    else (s.sub port.val sub.val).granted.zipWith max f.credits) = credits
  have hframe := countKp4_frame s port.val sub.val k
  generalize hv : (s.countKp4 port.val sub.val k).setSub port.val sub.val
    { s.sub port.val sub.val with lastValid := s.tick, granted := credits } = v
  have hsub : v.sub port.val sub.val = { s.sub port.val sub.val with lastValid := s.tick, granted := credits } := by
    rw [← hv, State.sub_setSub_same]
  have hwindow : (v.sub port.val sub.val).unacked = g :: gs := by rw [hsub, hx]
  have hacked := acknowledge_sub hwindow hg hn (by rw [hsub]; exact hlen)
  rw [← hack] at hacked
  generalize hw : v.acknowledge port.val sub.val f.ack = w at hacked
  have hnone : (w.sub port.val sub.val).queue.length = 0 := by
    rw [hacked, hsub, hqueue]
    rfl
  have hcounted : (s.countKp4 port.val sub.val k).sub port.val sub.val = s.sub port.val sub.val := by rw [hframe]; rfl
  have htick : (s.countKp4 port.val sub.val k).tick = s.tick := by rw [hframe]; rfl
  have hexec : exec (.controlFrameReceive port sub ⟨f, k⟩) s = done w := by
    have htwo : f.ty ≠ 2 := by omega
    simp only [exec, execControlFrameReceive, hup, hdigest, htwo, State.modSub_eq, hcounted, hcredits, hv, hw, hnone, State.pump,
      Bool.not_true, Bool.false_eq_true, if_false]
  refine gives_of_done hexec ⟨?_, ?_, ?_⟩
  all_goals rw [State.sub_trimmed, hacked, hsub]

theorem replayRequestReceive_replays (hfew : (s.sub port.val sub.val).replays < 16) :
    Gives (.replayRequestReceive port sub g.seq) s (fun u => Replayed s u port.val sub.val) := by
  generalize hv : s.setSub port.val sub.val { s.sub port.val sub.val with lastValid := s.tick } = v
  have hsub : v.sub port.val sub.val = { s.sub port.val sub.val with lastValid := s.tick } := by rw [← hv, State.sub_setSub_same]
  have hwindow : (v.sub port.val sub.val).unacked = g :: gs := by rw [hsub, hx]
  have hexec : exec (.replayRequestReceive port sub g.seq) s = done (v.replay port.val sub.val) := by
    simp only [exec, execReplayRequestReceive, hup, State.modSub_eq, hv, State.replayFrom, acknowledge_oldest hwindow hg,
      Bool.not_true, Bool.false_eq_true, if_false]
  have hreplayed := replay_replayed (s := v) (p := port.val) (b := sub.val) (by rw [hwindow]; exact List.cons_ne_nil _ _)
    (by rw [hsub]; exact hfew)
  obtain ⟨hunacked, hreplays, hsince, hcounted⟩ := hreplayed
  have hcount : v.count 0x7500 7 port.val = s.count 0x7500 7 port.val := by rw [← hv]; rfl
  have htick : v.tick = s.tick := by rw [← hv]; rfl
  rw [hsub] at hunacked hreplays hcounted
  exact gives_of_done hexec ⟨hunacked, hreplays, hsince.trans htick, hcounted.trans (by rw [hcount])⟩

omit hg in
theorem replayTimeout_eq (hlate : (s.sub port.val sub.val).ackWait + s.obj 0x6000 6 port.val < s.tick) :
    exec (.replayTimeout port sub) s = done (s.replay port.val sub.val) := by
  have hdue : ¬ s.tick ≤ s.replayDue port.val sub.val := Nat.not_le.2 hlate
  simp [exec, execReplayTimeout, hup, hx, hdue]

end

theorem replayTimeout_rests (hb : s.bounded) (hearly : s.tick ≤ (s.sub port.val sub.val).ackWait + s.obj 0x6000 6 port.val) :
    exec (.replayTimeout port sub) s = .next s := by
  have hdue : s.tick ≤ s.replayDue port.val sub.val := hearly
  simp only [exec, execReplayTimeout, hdue, decide_true, Bool.or_true, if_true]
  exact done_bounded hb

end

/-- Settles O41: a data frame, a bad frame, the control frames, the acknowledgement and the replays are a lemma each. -/
theorem framesAreCheckedAndReplayed : Obligations.FramesAreCheckedAndReplayed := by
  intro s port sub slots crc n f g gs k hb hup p x y want good again
  have hgood (u : State) (h : FrameTaken s u p sub.val k) : good u :=
    ⟨h.next, h.accepts, h.valid, h.counted, h.mem, h.fixed, h.bad⟩
  have hagain (u : State) (h : Replayed s u p sub.val) : again u := ⟨h.unacked, h.replays, h.since, h.counted⟩
  refine ⟨fun hcrc => ?_, fun hcrc => ?_, badFrameReceive_discards hup k, scheduledControlSend_sends hup,
    scheduledControlSend_rests hb, fun hx hg hn hlen => ⟨fun hty hdigest hack hqueue =>
      controlFrameReceive_acknowledges hup hx hg hn hlen hty hdigest hack hqueue k, fun hfew => ?_, fun hfew hlate => ?_,
      fun hmany hlate => ?_, replayTimeout_rests hb⟩⟩
  · obtain ⟨u, hexec, htaken, hcount⟩ := dataFrameReceive_taken (port := port) (sub := sub) hup slots k false
    exact ⟨u, by rw [hcrc]; exact hexec, hgood u htaken, hcount⟩
  · obtain ⟨u, hexec, htaken, hcount⟩ := dataFrameReceive_taken (port := port) (sub := sub) hup slots k true
    exact ⟨u, by rw [hcrc]; exact hexec, hgood u htaken, hcount⟩
  · obtain ⟨u, hexec, hreplayed⟩ := replayRequestReceive_replays hup hx hg hfew
    exact ⟨u, hexec, hagain u hreplayed⟩
  · have hun : (s.sub p sub.val).unacked ≠ [] := by rw [hx]; exact List.cons_ne_nil _ _
    obtain ⟨hunacked, hreplays, hsince, hcounted⟩ := replay_replayed hun hfew
    exact gives_of_done (replayTimeout_eq hup hx hlate) ⟨hunacked, hreplays, hsince, hcounted⟩
  · have hun : (s.sub p sub.val).unacked ≠ [] := by rw [hx]; exact List.cons_ne_nil _ _
    have hsub := replay_retrains hun hmany
    have hst := congrArg SubPort.st hsub
    have hkept := congrArg SubPort.unacked hsub
    exact gives_of_done (replayTimeout_eq hup hx hlate) ⟨hst, hkept⟩

end Sys2Proof.Machine
end

section
/-! SUPPORT. Lanes, training and the ways in which a sub-port goes down (O42). -/
namespace Sys2Proof.Machine

/-! What the recording of an event leaves as it is (R417, R419). -/

theorem mirror_clean (n : Nat) {s : State} (hclean : (s.mem (.stack 0)).errs = []) :
    ((State.mirror n s).mem (.stack 0)).errs = [] := by
  induction n generalizing s with
  | zero => exact hclean
  | succ n ih =>
    unfold State.mirror
    simp only [State.storeEv_clean hclean, List.foldl_nil]
    split
    · exact hclean
    · split
      · exact hclean
      · split
        · exact hclean
        · split
          · exact ih hclean
          · exact ih (Eq.trans (mem_poke_errs s _ _ _ _) hclean)

/-- An event leaves the mirror's stack without changed symbols. -/
theorem raise_clean {s : State} (hclean : (s.mem (.stack 0)).errs = []) (code src : Nat) (stp : BitVec 32) (data : List Byte) :
    ((s.raise code src stp data).mem (.stack 0)).errs = [] := by
  have hlisted (rs : List Record) (w : State) : (rs.foldl State.listRecord w).mems = w.mems := by
    induction rs generalizing w with
    | nil => rfl
    | cons r rs ih => exact (ih _).trans (listRecord_ring w r).2
  unfold State.raise
  dsimp only
  split
  · split <;> exact hclean
  · refine mirror_clean _ ?_
    rwa [State.mem, hlisted]

/-- An event that one record holds is told, in a state whose mirror's stack is the one of s. -/
theorem told_raise {s v : State} {code src : Nat} {data : List Byte} (hup : (v.core 0).down = false) (hdata : data.length ≤ 16)
    (hclean : (s.mem (.stack 0)).errs = [] → (v.mem (.stack 0)).errs = []) :
    Told s (v.raise code src 0 data).trimmed code src :=
  told_of_ring fun h => raise_ring hup hdata (hclean h)

theorem Recorded.sub {s u : State} (h : Recorded s u) (p b : Nat) : u.sub p b = s.sub p b := by
  rw [h.frame]
  rfl

theorem Recorded.port {s u : State} (h : Recorded s u) (p : Nat) : u.port p = s.port p := by
  rw [h.frame]
  rfl

/-! Sub-ports on which nothing rests (R188, R316). -/

theorem mem_mset {α : Type} {k : Nat} {v : α} {m : Map α} {c : Nat × α} (h : c ∈ mset k v m) : c = (k, v) ∨ c ∈ m :=
  (mem_minsert h).imp_right List.mem_of_mem_filter

theorem mem_of_mfind {α : Type} {k : Nat} {v : α} {m : Map α} (h : mfind k m = some v) : (k, v) ∈ m := by
  induction m with
  | nil => simp [mfind] at h
  | cons c r ih =>
    obtain ⟨i, w⟩ := c
    unfold mfind at h
    split at h
    · next hi => simp_all
    · exact List.mem_cons_of_mem _ (ih h)

/-- An engine has no far operation and no far read of a snapshot under way. -/
def Engine.NearOnly (x : Engine) : Prop := x.far = [] ∧ x.shipFar = []

/-- No engine has one. -/
def State.NearOnly (s : State) : Prop := ∀ e ∈ s.engines, e.2.NearOnly

theorem nearOnly_engine {s : State} (h : s.NearOnly) (e : Nat) : (s.engine e).NearOnly := by
  rw [State.engine, mget]
  cases hfind : mfind e s.engines with
  | none => exact ⟨rfl, rfl⟩
  | some x => exact h _ (mem_of_mfind hfind)

/-- The recording of an event begins no far operation. -/
theorem recording_nearOnly : Recording (fun s u => s.NearOnly → u.NearOnly) := by
  refine ⟨fun _ h => h, fun h k hs => k (h hs), fun _ _ h => h, fun _ _ h => h, fun s a h => ?_, fun s r h => ?_,
    fun _ _ h => h, fun _ _ h => h, fun _ _ h => h⟩
  · obtain ⟨x, hnoted, hx⟩ := noteCorrected_stack s 0 a
    rw [hnoted]
    intro e he
    obtain rfl | hmem := mem_mset he
    · rw [hx]
      exact nearOnly_engine h 0
    · exact h e hmem
  · unfold State.listRecord
    dsimp only
    split <;> exact h

/-- No operation is under way that fails with a sub-port. -/
structure Unused (s : State) (p b : Nat) : Prop where
  near : s.NearOnly
  ship : s.shipping = none
  jobs : s.jobsOn p b = []

theorem Unused.of_unusedSub {s : State} {p b : Nat} (h : s.unusedSub p b) : Unused s p b := by
  obtain ⟨hengines, hship, hjobs⟩ := h
  refine ⟨fun e he => ?_, hship, hjobs⟩
  rw [hengines] at he
  exact absurd he List.not_mem_nil

/-- The jobs whose plans name a sub-port rest on the partitions, their states and their jobs. -/
theorem jobsOn_congr {s u : State} (hparts : u.parts = s.parts)
    (hobj : ∀ i, i = 0x2101 ∨ i = 0x2102 → ∀ q, q < 16 → u.obj i (q + 1) 0 = s.obj i (q + 1) 0) (p b : Nat) :
    u.jobsOn p b = s.jobsOn p b := by
  have hpart (q : Nat) : u.part q = s.part q := by rw [State.part, hparts, State.part]
  unfold State.jobsOn
  congr 1
  have hnames : (List.range 16).filter (fun q => 2 ≤ u.pstate q && (u.part q).bin.any (fun x => x.job.any (fun j =>
        j.subports.any (fun y => y.1.val = p && y.2.val = b))))
      = (List.range 16).filter (fun q => 2 ≤ s.pstate q && (s.part q).bin.any (fun x => x.job.any (fun j =>
        j.subports.any (fun y => y.1.val = p && y.2.val = b)))) := by
    refine List.filter_congr fun q hq => ?_
    rw [State.pstate, hobj _ (.inl rfl) q (List.mem_range.1 hq), hpart, State.pstate]
  rw [hnames]
  refine List.map_congr_left fun q hq => ?_
  exact hobj _ (.inr rfl) q (List.mem_range.1 (List.mem_of_mem_filter hq))

theorem Unused.raise {s : State} {p b : Nat} (h : Unused s p b) (code src : Nat) (stp : BitVec 32) (data : List Byte) :
    Unused (s.raise code src stp data) p b := by
  have hframe := (Recorded.raise s code src stp data).frame
  refine ⟨recording_nearOnly.raise s code src stp data h.near, by rw [hframe]; exact h.ship, ?_⟩
  rw [← h.jobs]
  refine jobsOn_congr (by rw [hframe]) (fun i hi q hq => ObjsKept.raise s code src stp data _ _ _ ?_) p b
  simp only [okey]
  omega

/-- Where no far operation is under way, none fails with a sub-port. -/
theorem failFar_none {s : State} (hnear : s.NearOnly) (hship : s.shipping = none) (p b cause : Nat) (told : List Nat) :
    ∃ m, s.failFar p b cause told = { s with engines := m } := by
  have hnone (g : FarOp → Bool) (f : FarOp → Nat) (k : Nat × Option (List Byte × Bool) → Bool) (l : Nat × Option (List Byte × Bool) → Nat) :
      s.engines.flatMap (fun e => (e.2.far.filter g).map f ++ (e.2.shipFar.filter k).map l) = [] := by
    refine List.flatMap_eq_nil_iff.2 fun e he => ?_
    rw [(hnear e he).1, (hnear e he).2]
    rfl
  unfold State.failFar
  extract_lets via hit ships mine jobs w v
  have hjobs : jobs = [] := by
    simp only [jobs, mine, hnone]
    rfl
  have hv : v = w := by
    simp only [v, hjobs]
    rfl
  have hgoing : v.shipping = none := by rw [hv]; exact hship
  rw [hgoing, Option.isSome_none, Bool.false_and, if_neg Bool.false_ne_true, hv]
  exact ⟨_, rfl⟩

/-! Going down (R316, R317). -/

/-- What stays of a sub-port that goes down. -/
def SubPort.wentDown (x : SubPort) (st : Nat) : SubPort :=
  { x with st, groups := [], unacked := [], queue := [], replays := 0, discarding := false, peer := none, peerDigest := [],
           mismatch := none, mismatchTold := false, rxLeft := 0, rxBad := false, rxDone := [] }

/-- The module as a sub-port goes down, before it tells of it. -/
def State.withDown (s : State) (p b st : Nat) : State :=
  (((s.setSub p b ((s.sub p b).wentDown st)).setBlob 0x6010 (0x18 + b) p []).setObj 0x6010 (0x10 + b) p 0xFFFF).traceSub p b
    (s.sub p b).st

section
variable {s v : State} {p b : Nat}

theorem withDown_sub (s : State) (p b st : Nat) : (s.withDown p b st).sub p b = (s.sub p b).wentDown st := by
  rw [State.withDown, traceSub_sub]
  exact State.sub_setSub_same _ _ _ _

theorem withDown_obj (s : State) {p b : Nat} (hp : p < 6) (hb : b < 8) (st : Nat) :
    (s.withDown p b st).obj 0x6010 (0x10 + b) p = 0xFFFF := by
  rw [State.withDown, traceSub_objs _ _ _ _ _ _ _ (by simp only [okey]; omega), State.obj_setObj_same]

theorem Unused.withDown (h : Unused s p b) (hp : p < 6) (hb : b < 8) (st : Nat) : Unused (s.withDown p b st) p b := by
  have hframe := traceSub_frame (((s.setSub p b ((s.sub p b).wentDown st)).setBlob 0x6010 (0x18 + b) p []).setObj 0x6010
    (0x10 + b) p 0xFFFF) p b (s.sub p b).st
  refine ⟨?_, ?_, ?_⟩
  · rw [State.withDown, hframe]
    exact h.near
  · rw [State.withDown, hframe]
    exact h.ship
  · rw [← h.jobs]
    refine jobsOn_congr (by rw [State.withDown, hframe]; rfl) (fun i hi q hq => ?_) p b
    rw [State.withDown, traceSub_objs _ _ _ _ _ _ _ (by simp only [okey]; omega)]
    exact State.obj_setObj_idx _ (by simp only [okey]; omega)

/-- Of a sub-port that no job uses the loss is told, and nothing else happens. -/
theorem subDown_unused (h : Unused s p b) (hp : p < 6) (hb : b < 8) (htakes : (s.sub p b).takes = true) (cause st : Nat) :
    ∃ m, s.subDown p b cause st
      = { (s.withDown p b st).raise 0x7020 (8 * p + b) 0 (leBytes 1 cause) with engines := m } := by
  have hraised := (h.withDown hp hb st).raise 0x7020 (8 * p + b) 0 (leBytes 1 cause)
  have hdown : s.subDown p b cause st = (if !(s.sub p b).takes then s.withDown p b st else
      (((s.withDown p b st).raise 0x7020 (8 * p + b) 0 (leBytes 1 cause)).jobsOn p b).foldl
        (fun s j => s.linkFailure j p b (if cause = 2 then 1 else 0)) ((s.withDown p b st).raise 0x7020 (8 * p + b) 0
          (leBytes 1 cause)) |>.failFar p b (if cause = 2 then 1 else 0)
            (((s.withDown p b st).raise 0x7020 (8 * p + b) 0 (leBytes 1 cause)).jobsOn p b)) := rfl
  rw [hdown, htakes, hraised.jobs]
  exact failFar_none hraised.near hraised.ship p b _ _

/-- From s to u a sub-port has gone down: what it held is gone, and its loss is told. -/
structure WentDown (s u : State) (p b : Nat) : Prop where
  st : (u.sub p b).st = 0
  groups : (u.sub p b).groups = []
  unacked : (u.sub p b).unacked = []
  queue : (u.sub p b).queue = []
  peer : u.obj 0x6010 (0x10 + b) p = 0xFFFF
  told : Told s u 0x7020 (8 * p + b)

theorem subDown_wentDown (h : Unused v p b) (hp : p < 6) (hb : b < 8) (htakes : (v.sub p b).takes = true)
    (hup : (v.core 0).down = false) (hclean : (s.mem (.stack 0)).errs = [] → (v.mem (.stack 0)).errs = []) (cause : Nat) :
    WentDown s (v.subDown p b cause 0).trimmed p b := by
  obtain ⟨m, hdown⟩ := subDown_unused h hp hb htakes cause 0
  have hframe := traceSub_frame (((v.setSub p b ((v.sub p b).wentDown 0)).setBlob 0x6010 (0x18 + b) p []).setObj 0x6010
    (0x10 + b) p 0xFFFF) p b (v.sub p b).st
  generalize hw : v.withDown p b 0 = w at hdown
  have hsub : w.sub p b = (v.sub p b).wentDown 0 := by rw [← hw, withDown_sub]
  have hpeer : w.obj 0x6010 (0x10 + b) p = 0xFFFF := by rw [← hw, withDown_obj v hp hb]
  have hcore : (w.core 0).down = false := by rw [← hw, State.withDown, hframe]; exact hup
  have hmem : (s.mem (.stack 0)).errs = [] → (w.mem (.stack 0)).errs = [] := by
    rw [← hw, State.withDown, hframe]
    exact hclean
  have hrecorded := (Recorded.raise w 0x7020 (8 * p + b) 0 (leBytes 1 cause)).sub p b
  rw [hsub] at hrecorded
  have htold : Told s (w.raise 0x7020 (8 * p + b) 0 (leBytes 1 cause)).trimmed 0x7020 (8 * p + b) :=
    told_raise hcore (by simp [leBytes_length]) hmem
  have hobj : (w.raise 0x7020 (8 * p + b) 0 (leBytes 1 cause)).obj 0x6010 (0x10 + b) p = 0xFFFF :=
    (ObjsKept.raise w _ _ _ _ _ _ _ (by simp only [okey]; omega)).trans hpeer
  generalize w.raise 0x7020 (8 * p + b) 0 (leBytes 1 cause) = r at hdown hrecorded htold hobj
  have hend : ({ r with engines := m } : State).sub p b = (v.sub p b).wentDown 0 := hrecorded
  rw [hdown]
  exact ⟨congrArg SubPort.st hend, congrArg SubPort.groups hend, congrArg SubPort.unacked hend, congrArg SubPort.queue hend,
    hobj, htold⟩

end

/-! The commands of lanes and training (R290, R302, R304, R316). -/

theorem takes_of_linkUp {s : State} {p b : Nat} (h : s.linkUp p b = true) : (s.sub p b).takes = true := by
  rw [State.linkUp, Bool.and_eq_true] at h
  rw [SubPort.takes, h.1, Bool.true_or]

theorem replayAll_frame (s : State) (p b : Nat) : s.replayAll p b
    = { s with subs := (s.replayAll p b).subs, live := (s.replayAll p b).live, free := (s.replayAll p b).free,
               dict := (s.replayAll p b).dict, trace := (s.replayAll p b).trace, traceBufs := (s.replayAll p b).traceBufs } := by
  unfold State.replayAll
  dsimp only
  rw [tracePoint_frame]
  rfl

section
variable {s : State} {port : PortId} {sub : SubId} {group : Fin 16} {peer : Identity}

/-- What stays of the lane groups of a sub-port once it has lost one. -/
def SubPort.without (x : SubPort) (group : Fin 16) : List Nat := x.groups.filter (fun g => g != group.val)

theorem laneLoss_keeps (hup : s.linkUp port.val sub.val = true) (hin : (s.sub port.val sub.val).groups.contains group.val = true)
    (hcore : (s.core 0).down = false) (hwide : minLanes (s.split port.val) ≤ 8 * ((s.sub port.val sub.val).without group).length) :
    Gives (.laneLoss port sub group) s (fun u =>
      (u.sub port.val sub.val).st = 3 ∧ (u.sub port.val sub.val).groups = (s.sub port.val sub.val).without group
      ∧ (u.port port.val).lost = group.val :: (s.port port.val).lost
      ∧ (u.sub port.val sub.val).unacked = (s.sub port.val sub.val).unacked ∧ Told s u 0x7010 (8 * port.val + sub.val)) := by
  generalize hgs : (s.sub port.val sub.val).without group = gs at *
  generalize hdata : leBytes 1 group.val ++ leBytes 1 (8 * gs.length) = data
  generalize hv : (s.modPort port.val (fun y => { y with lost := group.val :: y.lost })).setSub port.val sub.val
    { s.sub port.val sub.val with st := 3, groups := gs } = v
  have htraced := traceSub_frame v port.val sub.val (s.sub port.val sub.val).st
  have htracedSub := traceSub_sub v port.val sub.val (s.sub port.val sub.val).st port.val sub.val
  generalize hw : v.traceSub port.val sub.val (s.sub port.val sub.val).st = w at htraced htracedSub
  have hreplayed := replayAll_frame w port.val sub.val
  have hkept := replayAll_sub w port.val sub.val
  generalize hr : w.replayAll port.val sub.val = r at hreplayed hkept
  have hexec : exec (.laneLoss port sub group) s = done (r.raise 0x7010 (8 * port.val + sub.val) 0 data) := by
    have hnot : ¬ 8 * gs.length < minLanes (s.split port.val) := Nat.not_lt.2 hwide
    have hgroups : (s.sub port.val sub.val).groups.filter (fun g => g != group.val) = gs := hgs
    have hsplit (x : Port) : (s.setPort port.val x).split port.val = s.split port.val := rfl
    simp only [exec, execLaneLoss, hup, hin, hgroups, hnot, hsplit, State.modPort_eq, Bool.not_true, Bool.or_self,
      Bool.false_eq_true, if_false]
    rw [← hr, ← hw, ← hv, ← hdata]
    rfl
  have hrecorded := Recorded.raise r 0x7010 (8 * port.val + sub.val) 0 data
  have hsub : (r.raise 0x7010 (8 * port.val + sub.val) 0 data).sub port.val sub.val = r.sub port.val sub.val :=
    hrecorded.sub _ _
  have hport : (r.raise 0x7010 (8 * port.val + sub.val) 0 data).port port.val = v.port port.val := by
    rw [hrecorded.port, hreplayed, htraced]
    rfl
  have hvsub : v.sub port.val sub.val = { s.sub port.val sub.val with st := 3, groups := gs } := by
    rw [← hv, State.sub_setSub_same]
  rw [hkept, htracedSub, hvsub] at hsub
  refine gives_of_done hexec ⟨congrArg SubPort.st hsub, congrArg SubPort.groups hsub, ?_, ?_, told_raise ?_ ?_ fun hclean => ?_⟩
  · rw [State.port_trimmed, hport, ← hv, State.port_setSub, State.modPort_eq, State.port_setPort_same]
  · rw [State.sub_trimmed, hsub]
  · rw [hreplayed, htraced, ← hv]
    exact hcore
  · simp [← hdata, leBytes_length]
  · rw [hreplayed, htraced, ← hv]
    exact hclean

theorem laneLoss_ends (hup : s.linkUp port.val sub.val = true) (hin : (s.sub port.val sub.val).groups.contains group.val = true)
    (hcore : (s.core 0).down = false) (hun : s.unusedSub port.val sub.val)
    (hnarrow : 8 * ((s.sub port.val sub.val).without group).length < minLanes (s.split port.val)) :
    Gives (.laneLoss port sub group) s (fun u => WentDown s u port.val sub.val) := by
  generalize hv : s.modPort port.val (fun y => { y with lost := group.val :: y.lost }) = v
  have hexec : exec (.laneLoss port sub group) s = done (v.subDown port.val sub.val 0 0) := by
    have hgroups : 8 * ((s.sub port.val sub.val).groups.filter (fun g => g != group.val)).length < minLanes (s.split port.val) :=
      hnarrow
    have hsplit (x : Port) : (s.setPort port.val x).split port.val = s.split port.val := rfl
    simp only [exec, execLaneLoss, hup, hin, hgroups, hsplit, State.modPort_eq, Bool.not_true, Bool.or_self, Bool.false_eq_true,
      if_false, if_true]
    rw [← hv]
    rfl
  obtain ⟨hnear, hship, hjobs⟩ := Unused.of_unusedSub hun
  refine gives_of_done hexec (subDown_wentDown ?_ port.isLt sub.isLt ?_ ?_ ?_ 0)
  · rw [← hv]
    exact ⟨hnear, hship, hjobs⟩
  · rw [← hv]
    exact takes_of_linkUp hup
  · rw [← hv]
    exact hcore
  · rw [← hv]
    exact id

/-- The identity that this module sends at a training (R304). -/
def State.identity (s : State) (port : PortId) (sub : SubId) : Identity :=
  ⟨s.moduleId, s.obj 0x6000 2 port.val, s.split port.val, false, 0, port, sub⟩

theorem train_sub (hup : (s.core 3).down = false) : (s.train port.val sub.val).sub port.val sub.val
    = { s.sub port.val sub.val with st := 1, trained := s.tick, waits := false, mine := some (s.identity port sub) } := by
  have hport : Fin.ofNat 6 port.val = port := Fin.ext (Nat.mod_eq_of_lt port.isLt)
  have hsub : Fin.ofNat 8 sub.val = sub := Fin.ext (Nat.mod_eq_of_lt sub.isLt)
  simp only [State.train, hup, Bool.false_eq_true, if_false, hport, hsub, traceSub_sub, State.modSub_eq, State.sub_setSub_same]
  rfl

theorem subportTrainingAttempt_trains (hidle : (s.sub port.val sub.val).st = 0) (hon : s.portOn port.val = true)
    (hin : sub.val < s.subCount port.val) (hup : (s.core 3).down = false)
    (hdue : (s.sub port.val sub.val).trained + 11750000 ≤ s.tick) : Gives (.subportTrainingAttempt port sub) s (fun u =>
      u.sub port.val sub.val
        = { s.sub port.val sub.val with st := 1, trained := s.tick, waits := false, mine := some (s.identity port sub) }) := by
  have hlate : ¬ s.tick < (s.sub port.val sub.val).trained + 100 * msTicks := Nat.not_lt.2 hdue
  have hexec : exec (.subportTrainingAttempt port sub) s = done (s.train port.val sub.val) := by
    simp [exec, execSubportTrainingAttempt, hidle, hon, hup, hlate, Nat.not_le.2 hin]
  exact gives_of_done hexec (train_sub hup)

theorem subportTrainingAttempt_waits (hb : s.bounded) (hearly : s.tick < (s.sub port.val sub.val).trained + 11750000) :
    exec (.subportTrainingAttempt port sub) s = .next s := by
  have hlate : s.tick < (s.sub port.val sub.val).trained + 100 * msTicks := hearly
  simp only [exec, execSubportTrainingAttempt, hlate, decide_true, Bool.or_true, if_true]
  exact done_bounded hb

/-- The lane groups on which a sub-port can come up: those that no loss has taken. -/
def State.leftGroups (s : State) (p b : Nat) : List Nat :=
  (subGroups (s.split p) b).filter (fun g => !(s.port p).lost.contains g)

/-- A peer with which a sub-port may come up (R292, R304, R311). -/
structure Fits (s : State) (port : PortId) (sub : SubId) (peer : Identity) : Prop where
  cls : peer.cls = s.obj 0x6000 2 port.val
  split : peer.split = s.split port.val
  other : peer.module ≠ s.moduleId
  host : peer.host = true → s.hostSub = some (port.val, sub.val)

/-- A sub-port that the module holds, and tells why. -/
def State.heldSub (s : State) (port : PortId) (sub : SubId) (why : Nat) : State :=
  ((s.setSub port.val sub.val { s.sub port.val sub.val with st := 5 }).traceSub port.val sub.val
    (s.sub port.val sub.val).st).raise 0x7050 (8 * port.val + sub.val) 0 (leBytes 1 why)

/-- A sub-port that has come up with its peer, before its first control frame. -/
def SubPort.withPeer (x : SubPort) (peer : Identity) (groups all : List Nat) (now : Nat) : SubPort :=
  { st := if groups = all then 2 else 3, groups, mine := x.mine, peer := some peer, lastValid := now, trained := now,
    queue := x.queue, ctl := x.ctl }

/-- The module with such a sub-port: its peer, and the host window of a host, are in its objects. -/
def State.withPeer (s : State) (port : PortId) (sub : SubId) (peer : Identity) : State :=
  let v := (s.setSub port.val sub.val ((s.sub port.val sub.val).withPeer peer (s.leftGroups port.val sub.val)
    (subGroups (s.split port.val) sub.val) s.tick)).setObj 0x6010 (0x10 + sub.val) port.val peer.module.toNat
  if peer.host then v.setObj 0x6010 5 port.val peer.hostBytes else v

theorem subportTrainingDone_eq (htrains : (s.sub port.val sub.val).st = 1) : exec (.subportTrainingDone port sub peer) s = done (
    if peer.cls != s.obj 0x6000 2 port.val || peer.split != s.split port.val then s.heldSub port sub 2
    else if peer.module = s.moduleId then s.heldSub port sub 3
    else if peer.host && s.hostSub != some (port.val, sub.val) then s.heldSub port sub 4
    else if 8 * (s.leftGroups port.val sub.val).length < minLanes (s.split port.val) then
      (s.setSub port.val sub.val { s.sub port.val sub.val with st := 0 }).traceSub port.val sub.val (s.sub port.val sub.val).st
    else (((s.withPeer port sub peer).sendControl port.val sub.val 3 true).pump port.val sub.val
      (s.sub port.val sub.val).queue.length).traceSub port.val sub.val (s.sub port.val sub.val).st) := by
  have hgoes : ((s.sub port.val sub.val).st != 1) = false := by rw [htrains]; rfl
  exact congrArg done (if_neg (Bool.eq_false_iff.1 hgoes))

/-- With a peer that fits, the lane groups that are left decide. -/
theorem subportTrainingDone_fits (htrains : (s.sub port.val sub.val).st = 1) (hfits : Fits s port sub peer) :
    exec (.subportTrainingDone port sub peer) s = done (
      if 8 * (s.leftGroups port.val sub.val).length < minLanes (s.split port.val) then
        (s.setSub port.val sub.val { s.sub port.val sub.val with st := 0 }).traceSub port.val sub.val (s.sub port.val sub.val).st
      else (((s.withPeer port sub peer).sendControl port.val sub.val 3 true).pump port.val sub.val
        (s.sub port.val sub.val).queue.length).traceSub port.val sub.val (s.sub port.val sub.val).st) := by
  obtain ⟨hcls, hsplit, hother, hhost⟩ := hfits
  have hbridge : (peer.host && s.hostSub != some (port.val, sub.val)) = false := by
    cases h : peer.host with
    | false => rfl
    | true => simp [hhost h]
  simp only [subportTrainingDone_eq htrains, hcls, hsplit, hother, hbridge, bne_self_eq_false, Bool.or_self, Bool.false_eq_true,
    if_false]

theorem subportTrainingDone_up (htrains : (s.sub port.val sub.val).st = 1) (hfits : Fits s port sub peer)
    (hwide : minLanes (s.split port.val) ≤ 8 * (s.leftGroups port.val sub.val).length)
    (hqueue : (s.sub port.val sub.val).queue = []) : Gives (.subportTrainingDone port sub peer) s (fun u =>
      (u.sub port.val sub.val).st
        = (if s.leftGroups port.val sub.val = subGroups (s.split port.val) sub.val then 2 else 3)
      ∧ (u.sub port.val sub.val).groups = s.leftGroups port.val sub.val ∧ (u.sub port.val sub.val).peer = some peer
      ∧ u.obj 0x6010 (0x10 + sub.val) port.val = peer.module.toNat
      ∧ (u.sub port.val sub.val).ctl.head?.map (·.ty) = some 3) := by
  have hpeer : (s.withPeer port sub peer).sub port.val sub.val = (s.sub port.val sub.val).withPeer peer
      (s.leftGroups port.val sub.val) (subGroups (s.split port.val) sub.val) s.tick := by
    unfold State.withPeer
    split <;> simp only [State.sub_setObj, State.sub_setSub_same]
  have hobj : (s.withPeer port sub peer).obj 0x6010 (0x10 + sub.val) port.val = peer.module.toNat := by
    unfold State.withPeer
    split
    · rw [State.obj_setObj_idx _ (by simp only [okey]; omega), State.obj_setObj_same]
    · rw [State.obj_setObj_same]
  obtain ⟨hframe, hrest, hhead, -⟩ := sendControl_sent (s.withPeer port sub peer) port.val sub.val 3 true
  have hexec := subportTrainingDone_fits htrains hfits
  rw [if_neg (Nat.not_lt.2 hwide), hqueue] at hexec
  generalize (s.withPeer port sub peer).sendControl port.val sub.val 3 true = w at hframe hrest hhead hexec
  rw [hpeer] at hrest
  have hty := congrArg (Option.map Prod.fst) hhead
  rw [Option.map_map] at hty
  refine gives_of_done hexec ⟨?_, ?_, ?_, ?_, ?_⟩
  · rw [State.sub_trimmed, traceSub_sub]
    exact congrArg SubPort.st hrest
  · rw [State.sub_trimmed, traceSub_sub]
    exact congrArg SubPort.groups hrest
  · rw [State.sub_trimmed, traceSub_sub]
    exact congrArg SubPort.peer hrest
  · rw [obj_trimmed, traceSub_objs _ _ _ _ _ _ _ (by simp only [okey]; omega), ← hobj]
    have hsame := congrArg (fun v : State => v.obj 0x6010 (0x10 + sub.val) port.val) hframe
    exact hsame
  · rw [State.sub_trimmed, traceSub_sub]
    exact hty

theorem subportTrainingDone_short (htrains : (s.sub port.val sub.val).st = 1) (hfits : Fits s port sub peer)
    (hnarrow : 8 * (s.leftGroups port.val sub.val).length < minLanes (s.split port.val)) :
    Gives (.subportTrainingDone port sub peer) s (fun u => u.sub port.val sub.val = { s.sub port.val sub.val with st := 0 }) := by
  have hexec := subportTrainingDone_fits htrains hfits
  rw [if_pos hnarrow] at hexec
  refine gives_of_done hexec ?_
  rw [State.sub_trimmed, traceSub_sub, State.sub_setSub_same]

theorem subportTrainingDone_held (htrains : (s.sub port.val sub.val).st = 1) (hcore : (s.core 0).down = false)
    (hbad : ¬ Fits s port sub peer) : Gives (.subportTrainingDone port sub peer) s (fun u =>
      u.sub port.val sub.val = { s.sub port.val sub.val with st := 5 } ∧ Told s u 0x7050 (8 * port.val + sub.val)) := by
  have hexec : ∃ why, exec (.subportTrainingDone port sub peer) s = done (s.heldSub port sub why) := by
    rw [subportTrainingDone_eq htrains]
    split
    · exact ⟨2, rfl⟩
    · next hsame =>
      split
      · exact ⟨3, rfl⟩
      · next hother =>
        split
        · exact ⟨4, rfl⟩
        · next hhost =>
          simp only [Bool.or_eq_true, bne_iff_ne, not_or, not_not, Bool.and_eq_true, not_and] at hsame hhost
          exact absurd ⟨hsame.1, hsame.2, hother, hhost⟩ hbad
  obtain ⟨why, hexec⟩ := hexec
  have hframe := traceSub_frame (s.setSub port.val sub.val { s.sub port.val sub.val with st := 5 }) port.val sub.val
    (s.sub port.val sub.val).st
  refine gives_of_done hexec ⟨?_, told_raise ?_ ?_ fun hclean => ?_⟩
  · rw [State.sub_trimmed, State.heldSub, (Recorded.raise _ _ _ _ _).sub, traceSub_sub, State.sub_setSub_same]
  · rw [hframe]
    exact hcore
  · simp [leBytes_length]
  · rw [hframe]
    exact hclean

/-! Retraining and peer loss (R302, R316). -/

theorem subGroups_length (split b : Nat) : (subGroups split b).length = 16 / 2 ^ split := by
  rw [subGroups, List.length_map, List.length_range]

theorem linkRetrainEnd_up (hretrains : (s.sub port.val sub.val).st = 4) (hcore : (s.core 0).down = false)
    (hqueue : (s.sub port.val sub.val).queue = []) : Gives (.linkRetrainEnd port sub true) s (fun u =>
      (u.sub port.val sub.val).st = (if (s.sub port.val sub.val).groups.length = 16 / 2 ^ s.split port.val then 2 else 3)
      ∧ (u.sub port.val sub.val).replays = 0 ∧ (u.sub port.val sub.val).unacked = (s.sub port.val sub.val).unacked
      ∧ Told s u 0x7050 (8 * port.val + sub.val)) := by
  have hgoes : ((s.sub port.val sub.val).st != 4) = false := by rw [hretrains]; rfl
  have hrecorded := Recorded.raise s 0x7050 (8 * port.val + sub.val) 0 (leBytes 1 0)
  have hsplit : (s.raise 0x7050 (8 * port.val + sub.val) 0 (leBytes 1 0)).split port.val = s.split port.val :=
    ObjsKept.raise s _ _ _ _ _ _ _ (by simp only [okey]; omega)
  have hring (hclean : (s.mem (.stack 0)).errs = []) := raise_ring (s := s) (code := 0x7050) (src := 8 * port.val + sub.val)
    (step := 0) (data := leBytes 1 0) hcore (by simp [leBytes_length]) hclean
  generalize hv : s.raise 0x7050 (8 * port.val + sub.val) 0 (leBytes 1 0) = v at *
  generalize hst : (if (s.sub port.val sub.val).groups.length = 16 / 2 ^ s.split port.val then 2 else 3) = st
  generalize hw : (v.setSub port.val sub.val { s.sub port.val sub.val with st := st, replays := 0, lastValid := v.tick }).traceSub
    port.val sub.val (s.sub port.val sub.val).st = w
  have hexec : exec (.linkRetrainEnd port sub true) s = done (w.replayAll port.val sub.val) := by
    have hfull : (if (s.sub port.val sub.val).groups.length = (subGroups (v.split port.val) sub.val).length then 2 else 3)
        = st := by
      rw [← hst, subGroups_length, hsplit]
    have hnone : (s.sub port.val sub.val).queue.length = 0 := congrArg List.length hqueue
    simp only [exec, execLinkRetrainEnd, hgoes, hv, hfull, hnone, Bool.not_true, Bool.false_eq_true, if_false, if_true]
    rw [← hw]
    rfl
  have htraced := traceSub_frame (v.setSub port.val sub.val
    { s.sub port.val sub.val with st := st, replays := 0, lastValid := v.tick }) port.val sub.val (s.sub port.val sub.val).st
  rw [hw] at htraced
  have hwsub : w.sub port.val sub.val = { s.sub port.val sub.val with st := st, replays := 0, lastValid := v.tick } := by
    rw [← hw, traceSub_sub, State.sub_setSub_same]
  have hreplayed := replayAll_frame w port.val sub.val
  have hkept := replayAll_sub w port.val sub.val
  generalize w.replayAll port.val sub.val = r at hexec hreplayed hkept
  rw [hwsub] at hkept
  have hsame : r.ring = v.ring := by
    rw [hreplayed, htraced]
    rfl
  refine gives_of_done hexec ⟨?_, ?_, ?_, told_of_ring fun hclean => hsame.trans (hring hclean)⟩
  all_goals rw [State.sub_trimmed, hkept]

theorem linkRetrainEnd_down (hretrains : (s.sub port.val sub.val).st = 4) (hcore : (s.core 0).down = false)
    (hun : s.unusedSub port.val sub.val) :
    Gives (.linkRetrainEnd port sub false) s (fun u => WentDown s u port.val sub.val) := by
  have hgoes : ((s.sub port.val sub.val).st != 4) = false := by rw [hretrains]; rfl
  have hrecorded := Recorded.raise s 0x7050 (8 * port.val + sub.val) 0 (leBytes 1 1)
  have hunused := (Unused.of_unusedSub hun).raise 0x7050 (8 * port.val + sub.val) 0 (leBytes 1 1)
  have hclean (h : (s.mem (.stack 0)).errs = []) := raise_clean h 0x7050 (8 * port.val + sub.val) 0 (leBytes 1 1)
  generalize hv : s.raise 0x7050 (8 * port.val + sub.val) 0 (leBytes 1 1) = v at *
  have hexec : exec (.linkRetrainEnd port sub false) s = done (v.subDown port.val sub.val 1 0) := by
    simp only [exec, execLinkRetrainEnd, hgoes, ← hv, Bool.not_false, Bool.false_eq_true, if_false, if_true]
  refine gives_of_done hexec (subDown_wentDown hunused port.isLt sub.isLt ?_ ?_ hclean 1)
  · rw [hrecorded.sub, SubPort.takes, hretrains]
    exact Bool.or_true _
  · rw [hrecorded.frame]
    exact hcore

theorem peerLossTimeout_ends (hup : s.linkUp port.val sub.val = true) (hcore : (s.core 0).down = false)
    (hun : s.unusedSub port.val sub.val) (hlate : (s.sub port.val sub.val).lastValid + s.obj 0x6000 7 port.val < s.tick) :
    Gives (.peerLossTimeout port sub) s (fun u => WentDown s u port.val sub.val) := by
  have hexec : exec (.peerLossTimeout port sub) s = done (s.subDown port.val sub.val 2 0) := by
    simp [exec, execPeerLossTimeout, hup, Nat.not_le.2 hlate]
  exact gives_of_done hexec (subDown_wentDown (Unused.of_unusedSub hun) port.isLt sub.isLt (takes_of_linkUp hup) hcore id 2)

theorem peerLossTimeout_rests (hb : s.bounded)
    (hearly : s.tick ≤ (s.sub port.val sub.val).lastValid + s.obj 0x6000 7 port.val) :
    exec (.peerLossTimeout port sub) s = .next s := by
  simp only [exec, execPeerLossTimeout, hearly, decide_true, Bool.or_true, if_true]
  exact done_bounded hb

end

/-- Settles O42: the loss of a lane group, each end of a training and of a retraining, and the loss of the peer are a lemma
each. -/
theorem lanesAreDroppedAndSubPortsTrain : Obligations.LanesAreDroppedAndSubPortsTrain := by
  intro s port sub group peer hb hcore htrainer p b x y gs all left wentDown
  have hdown (i : Instr) (h : Gives i s (fun u => WentDown s u p b)) : Gives i s wentDown := by
    obtain ⟨u, hexec, hst, hgroups, hunacked, hqueue, hpeer, htold⟩ := h
    exact ⟨u, hexec, hst, hgroups, hunacked, hqueue, hpeer, htold⟩
  refine ⟨fun hup hin => ⟨laneLoss_keeps hup hin hcore, fun hnarrow hun => hdown _ (laneLoss_ends hup hin hcore hun hnarrow)⟩,
    fun hidle hon hin => ⟨subportTrainingAttempt_trains hidle hon hin htrainer, subportTrainingAttempt_waits hb⟩,
    fun htrains => ⟨fun hcls hsplit hother hhost => ?_, fun hbad => subportTrainingDone_held htrains hcore fun hfits => ?_⟩,
    fun hretrains => ⟨linkRetrainEnd_up hretrains hcore, fun hun => hdown _ (linkRetrainEnd_down hretrains hcore hun)⟩,
    fun hup => ⟨fun hlate hun => hdown _ (peerLossTimeout_ends hup hcore hun hlate), peerLossTimeout_rests hb⟩⟩
  · have hfits : Fits s port sub peer := ⟨hcls, hsplit, hother, hhost⟩
    exact ⟨subportTrainingDone_up htrains hfits, subportTrainingDone_short htrains hfits⟩
  · obtain ⟨hcls, hsplit, hother, hhost⟩ := hfits
    obtain h | h | h | ⟨h, hnot⟩ := hbad
    · exact h hcls
    · exact h hsplit
    · exact hother h
    · exact hnot (hhost h)

end Sys2Proof.Machine
end

section
/-! SUPPORT. Packets that a link brings: they enter the wafer, are refused, are counted, or go on (O43). -/
namespace Sys2Proof.Machine

/-! A packet taken from its sub-port (R294). -/

/-- Which sub-ports take packets is the same once one has been taken. -/
theorem takeRx_takes (s : State) (p b ch n q c : Nat) : ((s.takeRx p b ch n).1.sub q c).takes = (s.sub q c).takes := by
  have hsub : (s.takeRx p b ch n).1.sub q c = if q * 8 + c = p * 8 + b
      then { s.sub p b with rxDone := dropChan ch n (s.sub p b).rxDone } else s.sub q c := State.sub_setSub _ _ _ _ _ _
  rw [hsub]
  split
  · next h =>
    have hsame : s.sub q c = s.sub p b := congrArg (mget ({} : SubPort) s.subs) h
    rw [hsame]
    rfl
  · rfl

/-- A route rests on the tables and on which sub-ports take packets (R305–R307). -/
theorem linkRoute_congr {s u : State} (htables : u.tables = s.tables) (htakes : ∀ q c, (u.sub q c).takes = (s.sub q c).takes)
    (i : Nat) (k : PktHdr) : u.linkRoute i k = s.linkRoute i k := by
  have husable : u.routeUsable = s.routeUsable := funext fun r => by rw [State.routeUsable, htakes, State.routeUsable]
  have hentry : u.tableEntry i k.dst.toNat = s.tableEntry i k.dst.toNat := by rw [State.tableEntry, htables, State.tableEntry]
  unfold State.linkRoute
  rw [hentry, husable]

theorem takeRx_linkRoute (s : State) (p b ch n i : Nat) (k : PktHdr) : (s.takeRx p b ch n).1.linkRoute i k = s.linkRoute i k :=
  linkRoute_congr (s := s) (u := (s.takeRx p b ch n).1) rfl (takeRx_takes s p b ch n) i k

theorem flitsOf_length (f : Flit) (poison : Nat → Bool) (bs : List Byte) :
    (flitsOf f poison bs).length = (bs.length + 127) / 128 := by
  simp [flitsOf]

/-! Packets that are refused (R308, R312). -/

theorem count_le_bump (s : State) (i b n v j c m : Nat) : s.count j c m ≤ (s.bump i b n v).count j c m := by
  rw [State.count_bump]
  split
  · next h =>
    have hsame : s.count j c m = s.count i b n := congrArg (mget 0 s.live) h
    omega
  · exact Nat.le_refl _

theorem frameOut_counts (s : State) (p b : Nat) (k : Pkt) (i c m : Nat) : s.count i c m ≤ (s.frameOut p b k).count i c m := by
  unfold State.frameOut
  dsimp only
  refine Nat.le_trans (Nat.le_of_eq ?_) (count_le_bump _ _ _ _ _ _ _ _)
  rw [State.count_setSub]

theorem pump_counts (p b n : Nat) (s : State) (i c m : Nat) : s.count i c m ≤ (s.pump p b n).count i c m := by
  induction n generalizing s with
  | zero => exact Nat.le_refl _
  | succ n ih =>
    unfold State.pump
    dsimp only
    split
    · exact Nat.le_refl _
    · split
      · refine Nat.le_trans ?_ (Nat.le_trans (frameOut_counts _ p b _ i c m) (ih _))
        rw [State.count_setSub]
      · exact Nat.le_refl _

theorem sendOn_counts (s : State) (p b : Nat) (k : Pkt) (i c m : Nat) : s.count i c m ≤ (s.sendOn p b k).count i c m := by
  unfold State.sendOn
  split
  · exact Nat.le_refl _
  · refine Nat.le_trans (Nat.le_of_eq ?_) (pump_counts _ _ _ _ _ _ _)
    rw [State.modSub_eq, State.count_setSub]

section
variable {s : State} {k : PktHdr}

/-- The header of the answer to a packet that is refused. -/
def State.refusal (s : State) (k : PktHdr) : PktHdr :=
  { vc := 5, layer := false, ty := 12, slots := 0, dst := k.src, src := s.moduleId, job := k.job, fromHost := k.fromHost,
    toHost := k.fromHost }

/-- A packet that no down sub-port is in the way of, in a module without a host: it meets no failure and nothing is counted
less. -/
theorem sendLocalF_free {x : Pkt} (hty : x.hdr.ty = 12) (hhost : s.hostSub = none) (hroute : ∀ q c, s.linkRoute 6 x.hdr ≠ .down q c) :
    (s.sendLocalF x).2 = [] ∧ ∀ i c m, s.count i c m ≤ (s.sendLocalF x).1.count i c m := by
  unfold State.sendLocalF
  cases h : s.linkRoute 6 x.hdr with
  | out q c l =>
    dsimp only
    split
    · exact ⟨rfl, fun _ _ _ => Nat.le_refl _⟩
    · exact ⟨rfl, sendOn_counts _ _ _ _⟩
  | self =>
    have hself : s.selfOut x = (s, []) := by
      simp [State.selfOut, hty, State.toHostOutF, hhost]
    dsimp only
    rw [hself]
    exact ⟨rfl, fun _ _ _ => Nat.le_refl _⟩
  | noRoute => exact ⟨rfl, fun _ _ _ => count_le_bump _ _ _ _ _ _ _ _⟩
  | down q c => exact absurd h (hroute q c)

/-- From s to u a packet has been refused: the wafer is as before, and the refusal is counted. -/
structure Refused (s u : State) (p : Nat) : Prop where
  routers : u.routers = s.routers
  tiles : u.tiles = s.tiles
  counted : s.count 0x7500 0xB p < u.count 0x7500 0xB p

theorem refusePkt_refused (hhost : s.hostSub = none) (hroute : ∀ q c, s.linkRoute 6 (s.refusal k) ≠ .down q c) (p code : Nat) :
    Refused s (s.refusePkt p code k) p := by
  have hbumped : s.count 0x7500 0xB p < (s.bump 0x7500 0xB p 1).count 0x7500 0xB p := by
    rw [State.count_bump_same]
    exact Nat.lt_succ_self _
  unfold State.refusePkt
  dsimp only
  split
  · exact ⟨rfl, rfl, hbumped⟩
  · obtain ⟨hnone, hcounts⟩ := sendLocalF_free (s := s.bump 0x7500 0xB p 1) (x := ⟨s.refusal k, [BitVec.ofNat 8 code], []⟩) rfl
      hhost hroute
    have hframe := (PortsOnly.sendLocalF (s.bump 0x7500 0xB p 1) ⟨s.refusal k, [BitVec.ofNat 8 code], []⟩).frame
    have hsent : (s.bump 0x7500 0xB p 1).sendLocal ⟨s.refusal k, [BitVec.ofNat 8 code], []⟩
        = ((s.bump 0x7500 0xB p 1).sendLocalF ⟨s.refusal k, [BitVec.ofNat 8 code], []⟩).1 := by
      rw [State.sendLocal, settleFailures, hnone]
      rfl
    have hend : Refused s ((s.bump 0x7500 0xB p 1).sendLocal ⟨s.refusal k, [BitVec.ofNat 8 code], []⟩) p := by
      rw [hsent]
      exact ⟨by rw [hframe]; rfl, by rw [hframe]; rfl, Nat.lt_of_lt_of_le hbumped (hcounts _ _ _)⟩
    exact hend

theorem rejectPkt_refused (hhost : s.hostSub = none) (hroute : ∀ q c, s.linkRoute 6 (s.refusal k) ≠ .down q c) {p : Nat}
    (hp : p < 6) (b : Nat) : Refused s (s.rejectPkt p b k) p := by
  obtain ⟨hrouters, htiles, hcounted⟩ := refusePkt_refused hhost hroute p 3
  unfold State.rejectPkt
  dsimp only
  split
  · have hrecorded (w : State) : Recorded w (w.hostRefused p b 0 0 0 k.ty.toNat 4) := Recorded.raise _ _ _ _ _
    refine ⟨?_, ?_, ?_⟩
    · rw [(hrecorded _).frame]
      exact hrouters
    · rw [(hrecorded _).frame]
      exact htiles
    · rwa [(hrecorded _).count _ _ _ (by simp only [okey]; omega)]
  · exact ⟨hrouters, htiles, hcounted⟩

end

/-! The commands of packets that arrive (R297, R308, R309). -/

section
variable {s : State} {port : PortId} {sub : SubId} {h : PktHdr} {p : PartId}

theorem fromHostHdr_module (hlink : s.hostSub ≠ some (port.val, sub.val)) (h : PktHdr) :
    s.fromHostHdr port.val sub.val h = h := if_neg hlink

/-- The state once the packet has been taken from its sub-port, and whether a poisoned frame has brought it. -/
def State.taking (s : State) (port : PortId) (sub : SubId) (h : PktHdr) : State × Bool :=
  s.takeRx port.val sub.val (linkChannel h.vc.val h.layer) 1

/-- A packet of another module that ends at this one. -/
structure Arrives (s : State) (port : PortId) (sub : SubId) (h : PktHdr) : Prop where
  bounded : s.bounded
  up : s.linkUp port.val sub.val = true
  link : s.hostSub ≠ some (port.val, sub.val)
  here : h.dst = s.moduleId

theorem linkPutPacket_eq (ha : Arrives s port sub h) (p : PartId) (dest : Dest) (data : List Byte) :
    exec (.linkPutPacket port sub h p dest data) s = done (
      let r := s.taking port sub h
      if 63 ≤ h.hops.toNat then r.1.refusePkt port.val 4 h
      else if !s.takesPkt h p || h.ty != 2 || !(h.vc = 1 || h.vc = 4) then r.1.rejectPkt port.val sub.val h
      else (r.1.portPut port.val sub.val p h.vc dest (h.poison || r.2) data).getD s) := by
  obtain ⟨-, hup, hlink, hhere⟩ := ha
  simp only [exec, execLinkPutPacket, fromHostHdr_module hlink, hup, hhere, bne_self_eq_false, Bool.not_true, Bool.or_self,
    Bool.false_eq_true, if_false]
  rfl

theorem linkCounterSignal_eq (ha : Arrives s port sub h) (p : PartId) (tile : TileId) (ctr : Fin 64) :
    exec (.linkCounterSignal port sub h p tile ctr) s = done (
      let r := s.taking port sub h
      if 63 ≤ h.hops.toNat then r.1.refusePkt port.val 4 h
      else if !s.takesPkt h p || h.ty != 3 || h.vc != 1 then r.1.rejectPkt port.val sub.val h
      else r.1.portSignal port.val sub.val p 1 tile ctr (h.poison || r.2)) := by
  obtain ⟨-, hup, hlink, hhere⟩ := ha
  simp only [exec, execLinkCounterSignal, fromHostHdr_module hlink, hup, hhere, bne_self_eq_false, Bool.not_true, Bool.or_self,
    Bool.false_eq_true, if_false]
  rfl

/-- The partition takes the packet, which has not come too far. -/
structure Welcome (s : State) (h : PktHdr) (p : PartId) : Prop where
  takes : s.takesPkt h p = true
  near : h.hops.toNat < 63

theorem Welcome.of (hlive : s.isLive p.val = true) (hjob : s.obj 0x2102 (p.val + 1) 0 = h.job.toNat) (hmodule : h.fromHost = false)
    (hnear : h.hops.toNat < 63) : Welcome s h p :=
  ⟨by simp [State.takesPkt, hlive, hjob, hmodule], hnear⟩

/-- The gate at which a packet for a tile enters. -/
def State.entryGate (s : State) (port : PortId) (p : PartId) (tile : TileId) (vc : Nat) : Nat :=
  s.portGate port.val p.val (s.ingressRoute port.val p.val tile) vc

/-- The header of the flits of a PUT that a link brings. -/
def putFlit (port : PortId) (sub : SubId) (p : PartId) (vc : Fin 6) (dest : Dest) (poison : Bool) (route g : Nat) : Flit :=
  { vc := vc, ty := .data, part := p, route := route, dst := dest.tile.val, src := g, head := true, tail := true,
    dests := [dest], edge := portEdge port.val sub.val, poison := poison }

theorem linkPutPacket_welcome (ha : Arrives s port sub h) (hin : Welcome s h p) (hty : h.ty = 2) (hvc : h.vc = 1 ∨ h.vc = 4)
    (dest : Dest) (data : List Byte) : exec (.linkPutPacket port sub h p dest data) s
      = done (((s.taking port sub h).1.portPut port.val sub.val p h.vc dest (h.poison || (s.taking port sub h).2) data).getD s) := by
  obtain ⟨htakes, hnear⟩ := hin
  have hgoes : (!s.takesPkt h p || h.ty != 2 || !(h.vc = 1 || h.vc = 4)) = false := by
    obtain hvc | hvc := hvc
    all_goals simp [htakes, hty, hvc]
  rw [linkPutPacket_eq ha]
  dsimp only
  rw [if_neg (Nat.not_le.2 hnear), hgoes, if_neg Bool.false_ne_true]

theorem linkPutPacket_waits (ha : Arrives s port sub h) (hin : Welcome s h p) (hty : h.ty = 2) (hvc : h.vc = 1 ∨ h.vc = 4)
    {dest : Dest} (data : List Byte) (hslot : ((s.tile dest.tile.val).slot dest.buf.val dest.slot.val).st ≠ .avail) :
    exec (.linkPutPacket port sub h p dest data) s = .next s := by
  have hnone (g : Nat) : (s.taking port sub h).1.takeSlot dest g true false = none := if_neg hslot
  have hput : (s.taking port sub h).1.portPut port.val sub.val p h.vc dest (h.poison || (s.taking port sub h).2) data = none := by
    unfold State.portPut
    dsimp only
    rw [hnone]
    rfl
  rw [linkPutPacket_welcome ha hin hty hvc, hput]
  exact done_bounded ha.bounded

theorem linkPutPacket_enters (ha : Arrives s port sub h) (hin : Welcome s h p) (hty : h.ty = 2) (hvc : h.vc = 1 ∨ h.vc = 4)
    {dest : Dest} (data : List Byte) (hslot : ((s.tile dest.tile.val).slot dest.buf.val dest.slot.val).st = .avail) :
    Gives (.linkPutPacket port sub h p dest data) s (fun u =>
      ((u.tile dest.tile.val).slot dest.buf.val dest.slot.val).st = .taken
      ∧ ((u.tile dest.tile.val).slot dest.buf.val dest.slot.val).ctr = dest.ctr
      ∧ ((u.tile dest.tile.val).slot dest.buf.val dest.slot.val).holder = some (s.entryGate port p dest.tile h.vc.val)
      ∧ u.gateFlits (s.entryGate port p dest.tile h.vc.val) (portSide port.val) h.vc.val
        = s.gateFlits (s.entryGate port p dest.tile h.vc.val) (portSide port.val) h.vc.val
          ++ flitsOf (putFlit port sub p h.vc dest (h.poison || (s.taking port sub h).2) (s.ingressRoute port.val p.val dest.tile)
            (s.entryGate port p dest.tile h.vc.val)) (fun _ => h.poison || (s.taking port sub h).2) data
      ∧ SameMem s u) := by
  generalize hg : s.entryGate port p dest.tile h.vc.val = g
  generalize hbad : (h.poison || (s.taking port sub h).2) = bad
  generalize hfs : flitsOf (putFlit port sub p h.vc dest bad (s.ingressRoute port.val p.val dest.tile) g) (fun _ => bad) data = fs
  generalize hw : (s.taking port sub h).1.modTile dest.tile.val (fun x => x.setSlot dest.buf.val dest.slot.val
    { st := .taken, ctr := dest.ctr, holder := some g, beyond := true, vc2 := false }) = w
  have htake : (s.taking port sub h).1.takeSlot dest g true false = some w := by
    rw [← hw]
    exact if_pos hslot
  have hput : (s.taking port sub h).1.portPut port.val sub.val p h.vc dest bad data
      = some (w.gatePush g (portSide port.val) h.vc.val fs) := by
    have hgate : (s.taking port sub h).1.portGate port.val p.val ((s.taking port sub h).1.ingressRoute port.val p.val dest.tile)
        h.vc.val = g := hg
    unfold State.portPut
    dsimp only
    rw [hgate, htake, ← hfs]
    rfl
  have hexec := linkPutPacket_welcome ha hin hty hvc dest data
  rw [hbad, hput] at hexec
  have hmade : ((w.gatePush g (portSide port.val) h.vc.val fs).tile dest.tile.val).slot dest.buf.val dest.slot.val
      = { st := .taken, ctr := dest.ctr, holder := some g, beyond := true, vc2 := false } := by
    rw [← hw, State.gatePush, State.modRouter_eq, State.tile_setRouter, State.modTile_eq, State.tile_setTile_same]
    exact mget_mset_same _ _ _ _
  have hflits := gateFlits_gatePush_same w g (portSide port.val) h.vc.val fs
  have hrouters : w.gateFlits g (portSide port.val) h.vc.val = s.gateFlits g (portSide port.val) h.vc.val := by
    rw [← hw]
    rfl
  have hmems : (w.gatePush g (portSide port.val) h.vc.val fs).mems = s.mems := by
    rw [← hw]
    rfl
  rw [hrouters] at hflits
  generalize w.gatePush g (portSide port.val) h.vc.val fs = u at hexec hmade hflits hmems
  exact gives_of_done hexec ⟨congrArg Slot.st hmade, congrArg Slot.ctr hmade, congrArg Slot.holder hmade, hflits,
    sameMem_of_mems hmems⟩

/-- The flit of a counter signal that a link brings (R277). -/
def signalFlit (port : PortId) (sub : SubId) (p : PartId) (tile : TileId) (ctr : Fin 64) (poison : Bool) (route g : Nat) : Flit :=
  { vc := 1, ty := .signal, part := p, route := route, dst := tile.val, src := g, head := true, tail := true,
    dests := [⟨tile, 0, 0, some ctr⟩], len := 1, pktLen := 1, edge := portEdge port.val sub.val, poison := poison }

theorem linkCounterSignal_enters (ha : Arrives s port sub h) (hin : Welcome s h p) (hty : h.ty = 3) (hvc : h.vc = 1)
    (tile : TileId) (ctr : Fin 64) : Gives (.linkCounterSignal port sub h p tile ctr) s (fun u =>
      u.gateFlits (s.entryGate port p tile 1) (portSide port.val) 1
        = s.gateFlits (s.entryGate port p tile 1) (portSide port.val) 1
          ++ [signalFlit port sub p tile ctr (h.poison || (s.taking port sub h).2) (s.ingressRoute port.val p.val tile)
            (s.entryGate port p tile 1)]
      ∧ SameMem s u ∧ u.tiles = s.tiles) := by
  obtain ⟨htakes, hnear⟩ := hin
  have hgoes : (!s.takesPkt h p || h.ty != 3 || h.vc != 1) = false := by simp [htakes, hty, hvc]
  have hexec := linkCounterSignal_eq ha p tile ctr
  dsimp only at hexec
  rw [if_neg (Nat.not_le.2 hnear), hgoes, if_neg Bool.false_ne_true] at hexec
  exact gives_of_done hexec ⟨gateFlits_gatePush_same (s.taking port sub h).1 _ _ _ _, sameMem_of_mems rfl, rfl⟩

/-- A packet that is taken and then refused, for its hops or for what it asks. -/
theorem taking_refused (hhost : s.hostSub = none) (hroute : ∀ q c, s.linkRoute 6 (s.refusal h) ≠ .down q c) (code : Nat) :
    Refused s ((s.taking port sub h).1.refusePkt port.val code h) port.val
      ∧ Refused s ((s.taking port sub h).1.rejectPkt port.val sub.val h) port.val := by
  have hfree (q c : Nat) : (s.taking port sub h).1.linkRoute 6 ((s.taking port sub h).1.refusal h) ≠ .down q c := by
    rw [State.taking, takeRx_linkRoute]
    exact hroute q c
  have hof (u : State) (hu : Refused (s.taking port sub h).1 u port.val) : Refused s u port.val :=
    ⟨hu.routers, hu.tiles, hu.counted⟩
  have hnone : (s.taking port sub h).1.hostSub = none := hhost
  exact ⟨hof _ (refusePkt_refused hnone hfree _ _), hof _ (rejectPkt_refused hnone hfree port.isLt _)⟩

theorem Refused.trimmed {u : State} {q : Nat} (hu : Refused s u q) : Refused s u.trimmed q := ⟨hu.routers, hu.tiles, hu.counted⟩

/-- The packet is not for a partition that runs its job, or it is a host's (R312). -/
theorem linkPutPacket_refused (ha : Arrives s port sub h) (hout : s.takesPkt h p = false) (hhost : s.hostSub = none)
    (hroute : ∀ q c, s.linkRoute 6 (s.refusal h) ≠ .down q c) (dest : Dest) (data : List Byte) :
    Gives (.linkPutPacket port sub h p dest data) s (fun u => Refused s u port.val) := by
  obtain ⟨hfar, hrejected⟩ := taking_refused (port := port) (sub := sub) hhost hroute 4
  refine gives_of_done (linkPutPacket_eq ha p dest data) ?_
  dsimp only
  split
  · exact hfar.trimmed
  · rw [hout]
    exact hrejected.trimmed

theorem linkCounterSignal_refused (ha : Arrives s port sub h) (hout : s.takesPkt h p = false) (hhost : s.hostSub = none)
    (hroute : ∀ q c, s.linkRoute 6 (s.refusal h) ≠ .down q c) (tile : TileId) (ctr : Fin 64) :
    Gives (.linkCounterSignal port sub h p tile ctr) s (fun u => Refused s u port.val) := by
  obtain ⟨hfar, hrejected⟩ := taking_refused (port := port) (sub := sub) hhost hroute 4
  refine gives_of_done (linkCounterSignal_eq ha p tile ctr) ?_
  dsimp only
  split
  · exact hfar.trimmed
  · rw [hout]
    exact hrejected.trimmed

/-- A refusal that is none of a down sub-port is counted, and nothing else happens (R308, R316). -/
theorem linkRefusalReceive_counts (ha : Arrives s port sub h) (hmodule : h.toHost = false) {code : BitVec 8}
    (hend : h.job = 0 ∨ code = 1 ∨ code = 3) : Gives (.linkRefusalReceive port sub h code) s (fun u =>
      u.count 0x7500 0xB port.val = s.count 0x7500 0xB port.val + 1 ∧ u.routers = s.routers ∧ u.parts = s.parts) := by
  obtain ⟨-, hup, hlink, hhere⟩ := ha
  have hends : (h.job != 0 && (code = 2 || code = 4)) = false := by
    obtain hjob | rfl | rfl := hend
    · simp [hjob]
    · simp
    · simp
  have hexec : exec (.linkRefusalReceive port sub h code) s
      = done ((s.taking port sub h).1.bump 0x7500 0xB port.val 1) := by
    simp only [exec, execLinkRefusalReceive, fromHostHdr_module hlink, hup, hhere, hlink, hmodule, hends, bne_self_eq_false,
      Bool.not_true, Bool.or_self, Bool.false_eq_true, if_false, ite_self]
    rfl
  exact gives_of_done hexec ⟨State.count_bump_same _ _ _ _ _, rfl, rfl⟩

/-- A packet of a reserved type is counted and goes no further (R297). -/
theorem reservedTypeDiscard_counts (hb : s.bounded) (hup : s.linkUp port.val sub.val = true) (hty : 13 ≤ h.ty.toNat) :
    Gives (.reservedTypeDiscard port sub h) s (fun u => u = (s.taking port sub h).1.bump 0x7500 0xB port.val 1
      ∧ u.count 0x7500 0xB port.val = s.count 0x7500 0xB port.val + 1) := by
  have hexec : exec (.reservedTypeDiscard port sub h) s = done ((s.taking port sub h).1.bump 0x7500 0xB port.val 1) := by
    simp only [exec, execReservedTypeDiscard, hup, hty, decide_true, Bool.and_self, if_true]
    rfl
  exact ⟨_, hexec.trans (done_bounded hb), rfl, State.count_bump_same _ _ _ _ _⟩

/-! Packets that go on (R309, R310). -/

/-- The packet as it is taken: poisoned too if a poisoned frame has brought it. -/
def State.takenPkt (s : State) (port : PortId) (sub : SubId) (h : PktHdr) (xf data : List Byte) : Pkt :=
  ⟨{ h with poison := h.poison || (s.taking port sub h).2 }, xf, data⟩

theorem packetTransit_eq (hup : s.linkUp port.val sub.val = true) (hlink : s.hostSub ≠ some (port.val, sub.val))
    (xf data : List Byte) : exec (.packetTransit port sub h xf data) s = done (
      if s.holdsNew port.val h then (s.taking port sub h).1.holdPkt port.val port.val (s.takenPkt port sub h xf data)
      else (s.taking port sub h).1.transit port.val (s.takenPkt port sub h xf data)) := by
  simp only [exec, execPacketTransit, fromHostHdr_module hlink, hup, Bool.not_true, Bool.false_eq_true, if_false]
  rfl

theorem packetTransit_goes (hup : s.linkUp port.val sub.val = true) (hlink : s.hostSub ≠ some (port.val, sub.val))
    (hopen : s.obj 0x6000 0xA port.val ≠ 1) (hty : h.ty.toNat < 13) (hnear : h.hops.toNat < 63) {q c : Nat} {l : Bool}
    (hroute : s.linkRoute port.val h = .out q c l) (hfree : s.holdsNew q h = false) (xf data : List Byte) :
    Gives (.packetTransit port sub h xf data) s (fun u =>
      u.subs = ((s.taking port sub h).1.sendOn q c ⟨{ h with
        poison := h.poison || (s.taking port sub h).2, hops := h.hops + 1, layer := l }, xf, data⟩).subs ∧ SameMem s u) := by
  have hnew : s.holdsNew port.val h = false := by simp [State.holdsNew, hopen]
  have hsame : (s.taking port sub h).1.linkRoute port.val (s.takenPkt port sub h xf data).hdr = s.linkRoute port.val h :=
    takeRx_linkRoute _ _ _ _ _ _ _
  have hgoes : (s.taking port sub h).1.transit port.val (s.takenPkt port sub h xf data)
      = (s.taking port sub h).1.sendOn q c ⟨{ h with
          poison := h.poison || (s.taking port sub h).2, hops := h.hops + 1, layer := l }, xf, data⟩ := by
    have hty' : ¬ 13 ≤ (s.takenPkt port sub h xf data).hdr.ty.toNat := Nat.not_le.2 hty
    have hnear' : ¬ 63 ≤ (s.takenPkt port sub h xf data).hdr.hops.toNat := Nat.not_le.2 hnear
    have hfree' : (s.taking port sub h).1.holdsNew q (s.takenPkt port sub h xf data).hdr = false := hfree
    rw [State.transit, if_neg hty', if_neg hnear', hsame, hroute]
    dsimp only
    rw [hfree', if_neg Bool.false_ne_true]
    rfl
  have hexec := packetTransit_eq (h := h) hup hlink xf data
  rw [hnew, if_neg Bool.false_ne_true, hgoes] at hexec
  have hframe := (PortsOnly.sendOn (s.taking port sub h).1 q c ⟨{ h with
    poison := h.poison || (s.taking port sub h).2, hops := h.hops + 1, layer := l }, xf, data⟩).frame
  have hmems := congrArg State.mems hframe
  exact gives_of_done hexec ⟨rfl, sameMem_of_mems hmems⟩

theorem packetTransit_held (hup : s.linkUp port.val sub.val = true) (hlink : s.hostSub ≠ some (port.val, sub.val))
    (hquiet : s.obj 0x6000 0xA port.val = 1) (hvc : h.vc ≠ 0) (xf data : List Byte) :
    Gives (.packetTransit port sub h xf data) s (fun u =>
      (u.port port.val).holdPkts = (s.port port.val).holdPkts ++ [(port.val, s.takenPkt port sub h xf data)]
      ∧ u.subs = (s.taking port sub h).1.subs) := by
  have hholds : s.holdsNew port.val h = true := by
    have hdata : h.vc.val ≠ 0 := fun h0 => hvc (Fin.ext h0)
    simp [State.holdsNew, hquiet, hdata]
  refine gives_of_done ((packetTransit_eq hup hlink xf data).trans (congrArg done (if_pos hholds))) ⟨?_, rfl⟩
  rw [State.port_trimmed, State.holdPkt, State.modPort_eq, State.port_setPort_same]
  rfl

end

/-- Settles O43: a packet of each kind that enters, waits, is refused or counted, goes on or is held is a lemma. -/
theorem linkPacketsEnterTheWaferOrGoOn : Obligations.LinkPacketsEnterTheWaferOrGoOn := by
  intro s port q sub v h p dest tile ctr data xf code l hb hup hlink a at' side take bad slot no refused
  have hrefused (i : Instr) (hi : Gives i s (fun u => Refused s u port.val)) : Gives i s refused := by
    obtain ⟨u, hexec, hrouters, htiles, hcounted⟩ := hi
    exact ⟨u, hexec, hrouters, htiles, hcounted⟩
  refine ⟨fun hhere hlive hjob hmodule hnear => ⟨fun hty hvc => ⟨fun hslot => ?_, ?_⟩, fun hty hvc => ?_⟩,
    fun hhere hout hhost hroute => ?_, fun hhere hmodule hend => linkRefusalReceive_counts ⟨hb, hup, hlink, hhere⟩ hmodule hend,
    reservedTypeDiscard_counts hb hup, fun hopen hty hnear hroute hfree => packetTransit_goes hup hlink hopen hty hnear hroute
      hfree xf data, fun hquiet hvc => packetTransit_held hup hlink hquiet hvc xf data⟩
  · obtain ⟨u, hexec, htaken, hctr, hholder, hentered, hmem⟩ := linkPutPacket_enters ⟨hb, hup, hlink, hhere⟩
      (Welcome.of hlive hjob hmodule hnear) hty hvc data hslot
    refine ⟨u, hexec, htaken, hctr, hholder, ⟨_, hentered, flitsOf_length _ _ _, flitsOf_data _ _ _, fun f hf => ?_⟩, hmem⟩
    obtain ⟨hfvc, hpart, -, -, hdests, i, hpoison⟩ := flitsOf_mem hf
    exact ⟨hfvc, hpart, hdests, hpoison.trans (Bool.or_self _)⟩
  · exact linkPutPacket_waits ⟨hb, hup, hlink, hhere⟩ (Welcome.of hlive hjob hmodule hnear) hty hvc data
  · obtain ⟨u, hexec, hentered, hmem, htiles⟩ := linkCounterSignal_enters ⟨hb, hup, hlink, hhere⟩
      (Welcome.of hlive hjob hmodule hnear) hty hvc tile ctr
    exact ⟨u, hexec, ⟨_, hentered, rfl, rfl, rfl⟩, hmem, htiles⟩
  · have hnot : s.takesPkt h p = false := by
      obtain hlive | hfrom := hout
      · simp [State.takesPkt, hlive]
      · simp [State.takesPkt, hfrom]
    exact ⟨hrefused _ (linkPutPacket_refused ⟨hb, hup, hlink, hhere⟩ hnot hhost hroute dest data),
      hrefused _ (linkCounterSignal_refused ⟨hb, hup, hlink, hhere⟩ hnot hhost hroute tile ctr)⟩

end Sys2Proof.Machine
end

section
/-! SUPPORT. A packet that a port holds again while the port is reset (O53). -/
namespace Sys2Proof.Machine

/-- The plan of a job of two modules whose only link is sub-port 0 of port 1. -/
def linkPlan : JobPlan :=
  { scaled := false, modules := 2, groups := [], blocks := [], areas := [], engines := [], contributes := 0,
    subports := [(1, 0)] }

/-- A request of module 9 to the job that has no response yet. -/
def openRequest : Request := { id := 77, sender := 9, ring := 0, reply := 0, fromHost := false, index := 0, port := 1 }

/-- The module in M2 with port 1 quiescing and empty: sub-ports 0 and 1 of it are up, the way to module 9 leads over sub-port 1,
and the job in partition 0, whose plan names sub-port 0, owes module 9 a response. -/
def quiescingOwing : State :=
  { ((((((State.reset.setObj 0x2000 1 0 0).setObj 0x2F00 1 0 1).setObj 0x2101 1 0 3).setObj 0x2102 1 0 1).setObj 0x6000 0xA 1
      1).setSub 1 0 { st := 2 }).setSub 1 1 { st := 2 } with
    ecat := .op, regions := [(0, { st := .running })], tables := [(6 * 16384 + 9, 19)],
    parts := [(0, { bin := some { job := some linkPlan }, requests := [openRequest] })] }

theorem quiescingOwing_takesReset : quiescingOwing.takesWrite .coe 0x6000 9 1 := by decide +kernel

/-- The packets port 1 holds after its reset. -/
def heldAfterReset (s : State) : List Nat :=
  match exec (.portReset .coe 1 1) s with
  | .next u => (u.port 1).holdPkts.map (·.2.hdr.dst.toNat)
  | _ => []

/-- The response to module 9 stands among the held packets. -/
theorem quiescingOwing_holds : heldAfterReset quiescingOwing = [9] := by decide +kernel

theorem port_answer_coe {r : Reply} (hpath : r.path = .coe) (s : State) (p : Nat) : (s.answer r).port p = s.port p := by
  unfold State.answer
  dsimp only
  rw [hpath]
  rfl

/-- Refutes O53: the part about a port reset says that the port holds no packet after it. The reset drops the held packets first
and then brings the sub-ports down one after the other. The loss of sub-port 0 is a link failure of the job whose plan names it
(R317), and the job's open requests are answered; a response whose way leads over sub-port 1 of the same port, which is still up,
is held, since the port quiesces (R310, R319). -/
theorem not_portWritesAct : ¬ Obligations.PortWritesAct := by
  intro hall
  obtain ⟨-, -, -, hresets, -⟩ := hall quiescingOwing .coe 1 0 false 1 0 (by decide +kernel)
  obtain ⟨hreset, -⟩ := hresets quiescingOwing_takesReset
  obtain ⟨u, hexec, w, ⟨-, hempty, -⟩, rfl⟩ := hreset rfl
  have hnone : (w.port 1).holdPkts = [] := hempty
  have hholds := quiescingOwing_holds
  rw [heldAfterReset, hexec] at hholds
  dsimp only at hholds
  rw [port_answer_coe rfl, hnone] at hholds
  exact absurd hholds (by decide)

end Sys2Proof.Machine
end
